-- ==== Sys2Proof/Word.lean ====
section
/-!
DEFINITION. The word types of the part and the plain sparse map that holds repeated state.
Registers, addresses and encoded fields are bit vectors (spec/00 R2, R5); counts and keys are naturals.
-/
namespace Sys2Proof

abbrev Byte := BitVec 8
abbrev W16 := BitVec 16
abbrev W32 := BitVec 32
abbrev W64 := BitVec 64
abbrev W128 := BitVec 128

/-- One 128-byte cache line (spec/05 R90), byte 0 in the low bits. -/
abbrev Line := BitVec 1024

/-- One vector register of a warp: lane `l` is bits `[32l+31:32l]` (spec/00 R5, spec/26 R409). -/
abbrev VReg := BitVec 1024

/-- A 32-lane mask (spec/00 R5). -/
abbrev Mask := BitVec 32

/-- Repeated state by number: sorted by key, no repeats, no entry equal to the default that an
unlisted key reads as. Its operations and its canonical form stand in Machine/Ops. -/
abbrev SMap (α : Type) := List (Nat × α)

end Sys2Proof
end

