-- ==== Sys2Proof/Syntax.lean ====
section
/-!
DEFINITION. The instructions and events of the part: one constructor of `Instr` per row of
spec/opcode_table.json. A word row carries the word's fields as the encoding lays them out
(spec/02 R26, R34, R35), so that a trap record can log the word; an event row carries what its step needs to
know from outside (which operation, which unit, or the outside agent's data). spec/95: each row is one step.
-/
namespace Sys2Proof

/-- A unit that executes clauses: a warp (or sheaf) in a slot of a core, a front-end context of a core, or a
service-processor thread (spec/02 R23, R46). -/
inductive UnitId where
  | warp (core slot : Nat)
  | front (core idx : Nat)
  | thread (q : Nat)
deriving DecidableEq, Repr, Inhabited

/-- The fields of a full-form word, spec/02 R26. `md` is word bits [8:1], so MOD bit `k` is bit `k-1` of `md`. -/
structure Full where
  pneg : Bool
  pred : BitVec 3
  dst : BitVec 9
  sa : BitVec 9
  sb : BitVec 9
  sc : BitVec 9
  ha : Bool
  hb : Bool
  hc : Bool
  ty : BitVec 4
  md : BitVec 8
  fsel : Bool
deriving DecidableEq, Repr

/-- The fields of an I-form word, spec/02 R34. -/
structure Imm where
  pneg : Bool
  pred : BitVec 3
  dst : BitVec 9
  sa : BitVec 9
  imm : W32
  mi : BitVec 2
deriving DecidableEq, Repr

/-- One half of a paired word, spec/02 R35. `mbz` is bits [4:1]. -/
structure Half where
  pop : BitVec 6
  d : BitVec 8
  src : BitVec 8
  pty : BitVec 3
  mbz : BitVec 4
  h : Bool
deriving DecidableEq, Repr

/-- A paired word, spec/02 R35. Half 0's POP is the constructor of `Instr` (spec/02 R44). -/
structure Pair where
  pred : BitVec 3
  d : BitVec 8
  src : BitVec 8
  pty : BitVec 3
  mbz : BitVec 4
  h : Bool
  h1 : Half
deriving DecidableEq, Repr

/-- Who wrote the register of a register-write row: a unit whose SWRITE stands posted, or the host's oldest
register-window write (spec/24 R391). -/
inductive WSrc where
  | unit (u : UnitId)
  | host
deriving DecidableEq, Repr

/-- What the boot ROM finds in the flash and the analogue hardware (spec/28 R428): the image's bytes, its key's digest, whether the
signature holds, its security version, its entry, the first stack that fails training, whether the die link trains. -/
structure BootInput where
  image : List Byte
  keyDigest : BitVec 256
  sigOk : Bool
  version : W32
  entry : BitVec 52
  badStack : Option Nat
  linkOk : Bool
deriving DecidableEq, Repr

/-- A request of a host or peer (spec/24 R391-R393): who, its port (for a peer), the offset or physical address, its bytes
(a write's data; a read gives only a length), whether it carries Relaxed Ordering (spec/13 R263) and the T bit (spec/26 R418). -/
structure HostReq where
  requester : Nat
  port : Nat
  addr : Nat
  len : Nat
  bytes : List Byte
  relaxed : Bool
  tee : Bool
deriving DecidableEq, Repr

/-- A tenant's vendor message (spec/28 R435): the session's requester-key digest and the payload's length and fields. -/
structure KeyMsg where
  digest : BitVec 256
  len : Nat
  kop : Byte
  slot : Byte
  world : Byte
  zero : Byte
  keys : BitVec 768
deriving DecidableEq, Repr

/-- A PCIe configuration request (spec/28 R430): a dword register, and the data of a write. -/
structure ConfigReq where
  reg : Nat
  write : Option W32
deriving DecidableEq, Repr

/-- One constructor per row of spec/opcode_table.json. -/
inductive Instr where
  /-- NOP (R314): Takes its issue cycle and does nothing else. -/
  | nop (f : Full)
  /-- BRA (R300): Scalar unconditional branch by displacement, taking effect at clause end. -/
  | bra (f : Full)
  /-- BRC (R300): Scalar conditional branch on sB non-zero, or on sB zero with .z. -/
  | brc (f : Full)
  /-- CALL (R300): Pushes the next clause address on the return stack and branches. -/
  | call (f : Full)
  /-- RET (R301): Pops the return stack into the PC; on an empty stack it halts a core context or traps on the service processor. -/
  | ret (f : Full)
  /-- DQPUSH (R303): Pushes a decision entry of uniform values and an optional target for a warp mask, held while the queue is full. -/
  | dqpush (f : Full)
  /-- VBR (R310): Per-lane vector branch by displacement, splitting lanes into frontier entries at clause end. -/
  | vbr (f : Full)
  /-- EXIT (R311): Active lanes exit with a status at clause end. -/
  | exit (f : Full)
  /-- YIELD (R313): Ends the warp's turn and ranks it below every other ready warp for the next selection. -/
  | yield (f : Full)
  /-- TRAP (R379): Traps each active lane with UTRAP, or stops a scalar context. -/
  | trap (f : Full)
  /-- SPAWN (R342): Pushes a continuation record at the young end of the worker's deque. -/
  | spawn (f : Full)
  /-- JOIN (R342): Atomically decrements a join counter and pushes the continuation when it reaches zero. -/
  | join (f : Full)
  /-- SREAD (R45): Reads a system register into a destination as of the issue cycle. -/
  | sread (f : Full)
  /-- SWRITE (R45): Writes a system register that has no behaviour of its own, checking access rights. -/
  | swrite (f : Full)
  /-- SLEEP (R388): Returns and clears WAKEST at once if non-zero, otherwise holds the thread until a wake or deadline. -/
  | sleep (f : Full)
  /-- NOTIFY (R424): Sets NOTE in a service thread's WAKEST. -/
  | notify (f : Full)
  /-- NOTIFY_HOST (R424): Waits as a system release fence and posts an MSI-X vector to the host. -/
  | notifyHost (f : Full)
  /-- PREEMPT (R420): Stops a resident team at clause boundaries; its flag clears when the team is HELD. -/
  | preempt (f : Full)
  /-- PREEMPT_REL (R420): Lets a HELD team issue again on its own cores. -/
  | preemptRel (f : Full)
  /-- CTXSAVE (R421): Writes back stash, seals and writes the image of a HELD team, and frees its resources. -/
  | ctxsave (f : Full)
  /-- CTXRESTORE (R422): Checks, claims, places and reloads a team from an image. -/
  | ctxrestore (f : Full)
  /-- KEYBIND (R423): Binds a world's key-handle entry to a loaded key slot. -/
  | keybind (f : Full)
  /-- KEYBIND_UNBIND (R423): Writes back dirty stash under an entry and unbinds it, leaving the slot loaded. -/
  | keybindUnbind (f : Full)
  /-- KEYBIND_REVOKE (R417): Revokes a key slot: writes back and invalidates its lines, unbinds its entries and erases it. -/
  | keybindRevoke (f : Full)
  /-- GINFO (R380): Reads one 32-bit word of the served record. -/
  | ginfo (f : Full)
  /-- GLR (R381): Reads a register of the origin lane of the served record. -/
  | glr (f : Full)
  /-- GLW (R381): Writes a register of the origin lane of the served record. -/
  | glw (f : Full)
  /-- GRES (R382): Resolves the served record, resuming the thread in Next or Replay mode. -/
  | gres (f : Full)
  /-- TNODE (R131): Allocates a containment-tree node under a parent or as a root. -/
  | tnode (f : Full)
  /-- TENROL (R131): Enrols the granule holding an address under a node. -/
  | tenrol (f : Full)
  /-- TREP (R125): Re-parents a node, settling the old chain and bumping both chains. -/
  | trep (f : Full)
  /-- TSETTLE (R122): Completes once a node or granule count includes every write bump that happens-before it. -/
  | tsettle (f : Full)
  /-- TREAD (R131): Reads a node COUNT or granule GCOUNT as a module-scope acquire. -/
  | tread (f : Full)
  /-- TCMP (R131): Compares a count with a snapshot as a module-scope acquire. -/
  | tcmp (f : Full)
  /-- TDROP (R131): Frees a childless node or unenrols a granule. -/
  | tdrop (f : Full)
  /-- ADD (R214): Adds two operands per lane, integer with optional saturation or floating with rounding. -/
  | add (f : Full)
  /-- SUB (R214): Subtracts per lane, integer or floating. -/
  | sub (f : Full)
  /-- MUL (R214): Multiplies per lane, integer or floating. -/
  | mul (f : Full)
  /-- MULHI (R214): Gives the high half of the double-width integer product. -/
  | mulhi (f : Full)
  /-- MAD (R214): Integer multiply-add. -/
  | mad (f : Full)
  /-- MIN (R214): Lesser of two operands, integer or floating. -/
  | min (f : Full)
  /-- MAX (R214): Greater of two operands, integer or floating. -/
  | max (f : Full)
  /-- ABS (R214): Absolute value, signed integer or floating. -/
  | abs (f : Full)
  /-- NEG (R214): Negation, signed integer or floating. -/
  | neg (f : Full)
  /-- DIV (R215): Truncating integer division or floating division, with IDIVZ trapping. -/
  | div (f : Full)
  /-- REM (R215): Integer remainder of truncating division. -/
  | rem (f : Full)
  /-- LEA (R216): Forms a 32-bit address A + B shifted by SH. -/
  | lea (f : Full)
  /-- LEA64 (R216): Forms a 64-bit address from a pair and a widened shifted index. -/
  | lea64 (f : Full)
  /-- SETP (R218): Compares and writes predicate bits, optionally combined with the old bits. -/
  | setp (f : Full)
  /-- POPC (R217): Counts one bits. -/
  | popc (f : Full)
  /-- CLZ (R217): Counts leading zero bits. -/
  | clz (f : Full)
  /-- AND (R217): Bitwise AND. -/
  | and (f : Full)
  /-- OR (R217): Bitwise OR. -/
  | or (f : Full)
  /-- XOR (R217): Bitwise XOR. -/
  | xor (f : Full)
  /-- NOT (R217): Bitwise complement. -/
  | not (f : Full)
  /-- SHL (R217): Left shift, zero when the count reaches the width. -/
  | shl (f : Full)
  /-- SHR (R217): Right shift, logical or sign-filling. -/
  | shr (f : Full)
  /-- BFE (R217): Extracts a bit field. -/
  | bfe (f : Full)
  /-- BFI (R217): Inserts a bit field. -/
  | bfi (f : Full)
  /-- ADD_IMM (R221): Integer add with a 32-bit immediate. -/
  | addImm (f : Imm)
  /-- MUL_IMM (R221): Integer multiply by an immediate. -/
  | mulImm (f : Imm)
  /-- AND_IMM (R221): Bitwise AND with an immediate. -/
  | andImm (f : Imm)
  /-- OR_IMM (R221): Bitwise OR with an immediate. -/
  | orImm (f : Imm)
  /-- XOR_IMM (R221): Bitwise XOR with an immediate. -/
  | xorImm (f : Imm)
  /-- SHL_IMM (R221): Logical left shift by an immediate count. -/
  | shlImm (f : Imm)
  /-- SHR_IMM (R221): Logical right shift by an immediate count. -/
  | shrImm (f : Imm)
  /-- MOV_IMM (R220): Writes an immediate to the destination. -/
  | movImm (f : Imm)
  /-- FMA (R222): Fused multiply-add with one rounding. -/
  | fma (f : Full)
  /-- RCP (R225): Reciprocal, rounded once. -/
  | rcp (f : Full)
  /-- RSQ (R225): Reciprocal square root, rounded once. -/
  | rsq (f : Full)
  /-- SQRT (R225): Square root, rounded once. -/
  | sqrt (f : Full)
  /-- EXP2 (R225): Power of two, rounded once. -/
  | exp2 (f : Full)
  /-- LOG2 (R225): Base-two logarithm, rounded once. -/
  | log2 (f : Full)
  /-- SIN (R225): Sine of the argument in half-turns. -/
  | sin (f : Full)
  /-- COS (R225): Cosine of the argument in half-turns. -/
  | cos (f : Full)
  /-- FRND (R226): Rounds to an integral floating value. -/
  | frnd (f : Full)
  /-- FCLASS (R226): Writes a one-hot class mask of a floating value. -/
  | fclass (f : Full)
  /-- CVT (R208): Converts a value between integer and floating types. -/
  | cvt (f : Full)
  /-- CVTD (R209): Warp-wide conversion of 32 f32 lanes into one D8 or D4 block. -/
  | cvtd (f : Full)
  /-- CVTX (R210): Decodes a D element to f32 or packs two f32 into 16-bit halves. -/
  | cvtx (f : Full)
  /-- ADD_F32_IMM (R221): FP32 add with an immediate. -/
  | addF32Imm (f : Imm)
  /-- MUL_F32_IMM (R221): FP32 multiply by an immediate. -/
  | mulF32Imm (f : Imm)
  /-- MOV (R220): Copies 32, 64 or 128 bits. -/
  | mov (f : Full)
  /-- SEL (R220): Selects per lane between two operands by a predicate. -/
  | sel (f : Full)
  /-- SHFL (R228): Warp-wide shuffle of values between lanes within segments. -/
  | shfl (f : Full)
  /-- VOTE (R229): Warp-wide summary of a predicate over active lanes. -/
  | vote (f : Full)
  /-- REDUX (R230): Warp-wide reduction by a fixed tree, or inclusive scan. -/
  | redux (f : Full)
  /-- PRMT (R231): Permutes bytes or nibbles of a 64-bit source pair. -/
  | prmt (f : Full)
  /-- LD (R167): Loads from global memory per active lane. -/
  | ld (f : Full)
  /-- ST (R168): Stores to global memory per active lane, normal, non-temporal or write-combining. -/
  | st (f : Full)
  /-- LDS (R167): Loads from the stash by offset. -/
  | lds (f : Full)
  /-- STS (R167): Stores to the stash by offset. -/
  | sts (f : Full)
  /-- LDD (R170): Loads D elements and their block-pair side-band under a format window. -/
  | ldd (f : Full)
  /-- STD (R170): Stores D elements and their side-band under a format window. -/
  | std (f : Full)
  /-- LDACQ (R169): Acquire load from the home slice at a scope. -/
  | ldacq (f : Full)
  /-- STREL (R169): Release store at a scope. -/
  | strel (f : Full)
  /-- ATOM (R171): Global atomic through the warp aggregator in lane order. -/
  | atom (f : Full)
  /-- ATOMS (R171): Stash atomic through the warp aggregator. -/
  | atoms (f : Full)
  /-- CAS (R171): Compare-and-swap through the warp aggregator. -/
  | cas (f : Full)
  /-- FENCE (R175): Waits for earlier loads, stores and write-backs as its kind and scope require. -/
  | fence (f : Full)
  /-- WAITC (R176): Sends a condition wait to the home slice of a word. -/
  | waitc (f : Full)
  /-- SMAP (R178): Maps stash entries to global addresses, unfilled. -/
  | smap (f : Full)
  /-- SUNMAP (R178): Writes back dirty mapped entries of a range and unmaps them. -/
  | sunmap (f : Full)
  /-- PREF (R179): Prefetches lines into L2 and optionally L1. -/
  | pref (f : Full)
  /-- RETAIN (R180): Enables a retention range owned by the issuer's SID. -/
  | retain (f : Full)
  /-- UNPIN (R180): Clears EN of a retention range, releasing it. -/
  | unpin (f : Full)
  /-- XCOPY (R140): Makes one team arrival at a copy instance named by a CCB. -/
  | xcopy (f : Full)
  /-- XREPLAY (R146): Replays the missing sectors of a copy from its residue record. -/
  | xreplay (f : Full)
  /-- XCANCEL (R146): Cancels the issuing context's copy or open instance with a CCB. -/
  | xcancel (f : Full)
  /-- MMA (R243): Warp-collective matrix multiply-accumulate request on a pair tile. -/
  | mma (f : Full)
  /-- MMAJ (R246): Contributes one part of a joint matrix operation. -/
  | mmaj (f : Full)
  /-- MRDY (R241): Sets the warp's matrix ready bit. -/
  | mrdy (f : Full)
  /-- MGRP (R248): Ragged grouped matrix request, optionally in two joint parts. -/
  | mgrp (f : Full)
  /-- MZERO (R251): Requests zeroing of a pair tile. -/
  | mzero (f : Full)
  /-- MDRAIN (R254): Requests a drain of a tile through the epilogue processor. -/
  | mdrain (f : Full)
  /-- TQINIT (R286): Initialises a token queue LIVE with CAP permits. -/
  | tqinit (f : Full)
  /-- TQKILL (R288): Kills a live queue and answers its waiters KILLED. -/
  | tqkill (f : Full)
  /-- TQACQ (R286): Acquires permits, waiting unless .try. -/
  | tqacq (f : Full)
  /-- TQPUT (R286): Puts tokens, bytes and flags, optionally in ring order. -/
  | tqput (f : Full)
  /-- TQGET (R286): Takes tokens, waiting unless .try. -/
  | tqget (f : Full)
  /-- TQRET (R286): Returns permits, optionally in ring order. -/
  | tqret (f : Full)
  /-- BAR (R291): Arrives at a team barrier after a team release fence. -/
  | bar (f : Full)
  /-- PAIR_NOP (R44): Paired half that does nothing. -/
  | pairNop (f : Pair)
  /-- PAIR_ADD (R44): Paired half D := D + SRC. -/
  | pairAdd (f : Pair)
  /-- PAIR_SUB (R44): Paired half D := D − SRC. -/
  | pairSub (f : Pair)
  /-- PAIR_RSUB (R44): Paired half D := SRC − D. -/
  | pairRsub (f : Pair)
  /-- PAIR_MUL (R44): Paired half D := D × SRC. -/
  | pairMul (f : Pair)
  /-- PAIR_MIN (R44): Paired half minimum. -/
  | pairMin (f : Pair)
  /-- PAIR_MAX (R44): Paired half maximum. -/
  | pairMax (f : Pair)
  /-- PAIR_AND (R44): Paired half bitwise AND. -/
  | pairAnd (f : Pair)
  /-- PAIR_OR (R44): Paired half bitwise OR. -/
  | pairOr (f : Pair)
  /-- PAIR_XOR (R44): Paired half bitwise XOR. -/
  | pairXor (f : Pair)
  /-- PAIR_SHL (R44): Paired half left shift. -/
  | pairShl (f : Pair)
  /-- PAIR_SHR (R44): Paired half right shift. -/
  | pairShr (f : Pair)
  /-- PAIR_MOV (R44): Paired half D := SRC. -/
  | pairMov (f : Pair)
  /-- CLAUSE_BEGIN (R193): At a clause boundary the chosen frontier entry pops a decision entry if needed, checks WAIT flags and begins or parks. -/
  | clauseBegin (u : UnitId)
  /-- WARP_UNPARK (R193): A parked warp becomes ready the cycle after its last WAIT flag clears or an entry is pushed. -/
  | warpUnpark (core : Nat) (slot : Nat)
  /-- CLAUSE_END (R307): Lanes of the issued entry move to exit, branch targets, DQT or the next clause and merge into frontier entries. -/
  | clauseEnd (u : UnitId)
  /-- LONG_LATENCY_COMPLETE (R165): A long-latency result is written through the return port and its flag count falls. -/
  | longLatencyComplete (op : Nat) (lanes : Mask)
  /-- FENCE_COMPLETE (R175): A fence completes once loads return, WCTs arrive and module time passes WCTMAX. -/
  | fenceComplete (op : Nat)
  /-- TLB_WALK (R83): A page walk completes, with merged misses, applying the checks in order. -/
  | tlbWalk (op : Nat) (page : Nat)
  /-- FAULT_RECORD_WRITE (R89): A fault record is claimed, written to the context's ring and the service thread woken, once room exists. -/
  | faultRecordWrite (die : Nat)
  /-- FAULT_RING_RETRY (R89): Every 65,536 counts a record held for an unusable ring is tried again. -/
  | faultRingRetry (die : Nat)
  /-- BANDWIDTH_GRANT (R100): A waiting request is granted slice bandwidth from its SID's bucket or by lending. -/
  | bandwidthGrant (op : Nat) (line : Nat)
  /-- LINE_FILL (R90): A line fill from memory completes at its home slice, choosing a way and victim. -/
  | lineFill (op : Nat) (line : Nat)
  /-- WRITE_PERFORM (R156): A write transaction is performed at its home slice and returns its WCT. -/
  | writePerform (op : Nat) (key : Nat)
  /-- LINE_LOCK_ACQUIRE (R173): A protected atomic or partial write takes the line lock and performs its read-modify-write. -/
  | lineLockAcquire (op : Nat) (line : Nat)
  /-- MONITOR_ANSWER (R176): A monitor entry answers at the first satisfying write and frees the entry. -/
  | monitorAnswer (op : Nat)
  /-- MONITOR_REPOLL (R106): Every 256 slice clocks a WAITC held at its core re-reads its word. -/
  | monitorRepoll (op : Nat)
  /-- QUEUE_WAITER_SERVE (R287): After a change to a queue object the slice serves its waiters in order. -/
  | queueWaiterServe (queue : Nat)
  /-- TREE_OP_PERFORM (R124): A structural tree instruction takes effect at its place in the tree order. -/
  | treeOpPerform (op : Nat)
  /-- TREE_ROLLUP (R121): A node passes its PEND to its parent in one atomic message. -/
  | treeRollup (node : Nat)
  /-- TSETTLE_COMPLETE (R122): A settle completes once the count includes every hb-prior bump. -/
  | tsettleComplete (op : Nat)
  /-- COPY_START (R132): A ready copy or replay starts on its engine once a slot is free, reading CCB and TLRs. -/
  | copyStart (copy : Nat)
  /-- COPY_COMPLETE (R142): A copy completes, depositing, writing residue and status words, and clearing flags. -/
  | copyComplete (copy : Nat)
  /-- MATRIX_GRANT (R235): The pair arbiter grants the next request, slaving both arrays. -/
  | matrixGrant (pair : Nat)
  /-- MATRIX_RETIRE (R236): A matrix operation retires in grant order and its flag count falls. -/
  | matrixRetire (pair : Nat)
  /-- DRAIN_START (R256): A granted drain takes the epilogue processor, checks its descriptor and runs the program per element. -/
  | drainStart (pair : Nat)
  /-- DRAIN_COMPLETE (R258): A drain completes, updating its queue, writing STAT and clearing its flag. -/
  | drainComplete (pair : Nat)
  /-- SWAP_OUT (R295): A team monitor-bound for THRESH counts is swapped out. -/
  | swapOut (team : Nat)
  /-- WARP_END (R311): A warp whose lanes have all exited and flags cleared ends and frees its registers. -/
  | warpEnd (core : Nat) (slot : Nat)
  /-- SCHEDULER_PLACE (R331): The module scheduler places the head item of the earliest-deadline READY slice. -/
  | schedulerPlace
  /-- POOL_RESTORE (R412): The scheduler restores a ready team from the image pool. -/
  | poolRestore
  /-- BUDGET_EXHAUSTED (R335): A slice budget reaching zero traps BUDGET and stops the slice. -/
  | budgetExhausted (slice : Nat)
  /-- TEAM_HELD (R405): A stopping team becomes HELD once its outstanding work has retired. -/
  | teamHeld (team : Nat)
  /-- TASK_START (R337): An idle worker pops a record and starts a task team. -/
  | taskStart (core : Nat)
  /-- STEAL_PROBE (R340): Every 64 clocks an idle worker probes a victim and steals half its records. -/
  | stealProbe (core : Nat)
  /-- TILLER_SAMPLE (R355): The Tiller samples each pipeline per interval, closes furrows and decides moves. -/
  | tillerSample (slice : Nat)
  /-- SOURCE_END_SLOT (R354): A source engine end acquires, gathers and puts one slot. -/
  | sourceEndSlot (slice : Nat) (furrow : Nat)
  /-- SINK_END_SLOT (R354): A sink engine end gets, scatters and returns one slot. -/
  | sinkEndSlot (slice : Nat) (furrow : Nat)
  /-- GLEANER_FILE (R363): A detached lane's record is filed into a crib or pending list once module time passes its WCTMAX. -/
  | gleanerFile (core : Nat)
  /-- CRIB_WINDOW_EXPIRY (R368): A crib forms a sheaf when its oldest record has waited W, or W/8 with a blocked warp. -/
  | cribWindowExpiry (die : Nat) (crib : Nat)
  /-- SHEAF_PLACE (R370): A waiting sheaf is placed on a core of its die, relatching if needed. -/
  | sheafPlace (die : Nat)
  /-- LANE_REJOIN (R374): A resumed lane rejoins its warp's frontier at the next clause boundary or at restore. -/
  | laneRejoin (core : Nat) (slot : Nat)
  /-- ABSENT_TIMEOUT (R376): A warp blocked on absent lanes past the absent limit traps ABSENT. -/
  | absentTimeout (core : Nat) (slot : Nat)
  /-- SLEEP_WAKE (R388): A sleeping thread resumes on a wake or its deadline. -/
  | sleepWake (thread : Nat)
  /-- TLBI_PAGE (R87): TLBICMD GO with SCOPE 0 invalidates one page of a context. -/
  | tlbiPage (src : WSrc)
  /-- TLBI_CONTEXT (R87): TLBICMD GO with SCOPE 1 invalidates all of a context. -/
  | tlbiContext (src : WSrc)
  /-- TLBI_ALL (R87): TLBICMD GO with SCOPE 2 invalidates all contexts. -/
  | tlbiAll (src : WSrc)
  /-- TLBI_DONE (R87): An invalidation clears BUSY once no TLB holds the translations and their accesses are performed. -/
  | tlbiDone (thread : Nat)
  /-- SLICE_FORM (R329): SLICECMD FORM reads and checks a launch command and forms a READY slice. -/
  | sliceForm (src : WSrc)
  /-- SLICE_RESUME (R335): SLICECMD RESUME loads a new budget and makes a stopped slice READY. -/
  | sliceResume (src : WSrc)
  /-- SLICE_KILL (R335): SLICECMD KILL kills resident teams, discards the rest and makes the slice DONE. -/
  | sliceKill (src : WSrc)
  /-- CONTEXT_DESTROY (R327): CTXCMD GO destroys a context, cleaning nodes, records, TLBs and counters. -/
  | contextDestroy (src : WSrc)
  /-- OVERLAY_LOAD (R150): OVLCMD GO starts copying an overlay image into a slot. -/
  | overlayLoad (src : WSrc)
  /-- OVERLAY_LOAD_DONE (R150): An overlay load ends, setting VALID or FATAL. -/
  | overlayLoadDone (core : Nat) (slot : Nat)
  /-- FWCTL_WRITE (R75): A window control write is refused or accepted, and a change of EN starts a drain. -/
  | fwctlWrite (src : WSrc)
  /-- FWLIM_WRITE (R75): A window limit write, refused while enabled or draining. -/
  | fwlimWrite (src : WSrc)
  /-- FWSCALE_WRITE (R75): A window scale-base write, refused while enabled or draining. -/
  | fwscaleWrite (src : WSrc)
  /-- WINDOW_DRAIN_DONE (R75): Every slice has written back and invalidated the window's lines and BUSY clears. -/
  | windowDrainDone (window : Nat)
  /-- RETCTL_WRITE (R102): A retention control write enables or releases a range, or is refused. -/
  | retctlWrite (src : WSrc)
  /-- RETBASE_WRITE (R102): A retention base write, refused while enabled or busy. -/
  | retbaseWrite (src : WSrc)
  /-- RETLIM_WRITE (R102): A retention limit write, refused while enabled or busy. -/
  | retlimWrite (src : WSrc)
  /-- RETSTAT_WRITE (R101): A write sets the range's OVF count. -/
  | retstatWrite (src : WSrc)
  /-- RETENTION_ENABLE_DONE (R103): Every slice has cleared the reserved ways and BUSY clears. -/
  | retentionEnableDone (range : Nat)
  /-- RETENTION_RELEASE_DONE (R105): Retained lines are unmarked into the recency order and BUSY clears. -/
  | retentionReleaseDone (range : Nat)
  /-- MEMSPLIT_WRITE (R69): Sets the die-local size, ignored once LOCK is set. -/
  | memsplitWrite (src : WSrc)
  /-- TREEBASE_WRITE (R113): Locates and enables the node table, or is refused. -/
  | treebaseWrite (src : WSrc)
  /-- HQ_PROD_WRITE (R321): A PROD write to a host queue is checked and, if accepted, wakes its thread. -/
  | hqProdWrite (src : WSrc)
  /-- SPCTL_WRITE (R385): Starts a halted service thread at PC or halts it at its next boundary. -/
  | spctlWrite (src : WSrc)
  /-- WAKEST_CLEAR (R387): Write-one-to-clear of a thread's wake bits. -/
  | wakestClear (src : WSrc)
  /-- SPROOT_WRITE (R437): Sets a service thread's translation root and empties its service TLB. -/
  | sprootWrite (src : WSrc)
  /-- BOOTSTAT_WRITE (R428): Firmware raises STAGE to 5 or 7. -/
  | bootstatWrite (src : WSrc)
  /-- QR_RELEASE (R399): QRCMD RELEASE discards a quarantine slot and ends its line's quarantine. -/
  | qrRelease (src : WSrc)
  /-- QR_WRITEBACK (R399): QRCMD WRITEBACK writes a slot's line to the host and frees the slot. -/
  | qrWriteback (src : WSrc)
  /-- PORTCTL_WRITE (R432): Enables a port into DETECT or disables it, acting as a loss if UP. -/
  | portctlWrite (src : WSrc)
  /-- RESET_N_ASSERT (R427): RESET_N returns every register to reset, empties key slots and stops threads. -/
  | resetNAssert
  /-- RAIL_FAILURE (R426): A rail leaving its range asserts reset internally. -/
  | railFailure (rail : Nat)
  /-- BOOT_ROM (R428): After reset the ROM verifies firmware, trains memory and the die link, and starts thread 0. -/
  | bootRom (input : BootInput)
  /-- PCIE_RESET (R427): PERST# resets only the PCIe function. -/
  | pcieReset
  /-- CLOCK_THROTTLE_STEP (R433): Each 1 ms over temperature or current the core clock falls by a sixteenth. -/
  | clockThrottleStep
  /-- CLOCK_RECOVER_STEP (R433): Each 1 ms back within limits the core clock rises by a sixteenth. -/
  | clockRecoverStep
  /-- THERMAL_SHUTDOWN (R433): At 115 °C the module removes VCORE and resets. -/
  | thermalShutdown
  /-- PORT_DETECT_EXIT_IDLE (R432): All four lanes leave idle and the port enters NEGOTIATE. -/
  | portDetectExitIdle (port : Nat)
  /-- PORT_DETECT_TIMEOUT (R432): 12 ms pass in DETECT and detection restarts. -/
  | portDetectTimeout (port : Nat)
  /-- PORT_NEGOTIATE (R432): The partner's advertisement moves the port to TRAIN or FAILED. -/
  | portNegotiate (port : Nat) (speed : Bool) (lanes : Bool) (fec : Bool)
  /-- PORT_PARTNER_IDLE (R432): The partner returns to idle during NEGOTIATE. -/
  | portPartnerIdle (port : Nat)
  /-- PORT_TRAIN_DONE (R432): Equalisation and block lock complete and the port is UP. -/
  | portTrainDone (port : Nat)
  /-- PORT_TRAIN_TIMEOUT (R432): 100 ms pass in TRAIN and the port returns to DETECT. -/
  | portTrainTimeout (port : Nat)
  /-- PORT_LINK_LOSS (R398): An UP port loses lock; its lines are quarantined or dropped. -/
  | portLinkLoss (port : Nat)
  /-- PORT_RELOCK (R432): A retraining port relocks and returns to UP. -/
  | portRelock (port : Nat)
  /-- PORT_RETRAIN_TIMEOUT (R432): 100 ms pass in RETRAIN and the port returns to DETECT. -/
  | portRetrainTimeout (port : Nat)
  /-- DIE_LINK_LOSS (R402): Die-link loss kills spanning slices, traps DIELINK and holds crossing requests. -/
  | dieLinkLoss
  /-- DIE_LINK_RETRAIN (R401): The die link retrains and held requests and reports proceed. -/
  | dieLinkRetrain
  /-- BAR0_READ (R391): A host read of the register window. -/
  | bar0Read (req : HostReq)
  /-- BAR0_WRITE (R391): A host write of the register window, acting only on PROD and SPCTL0. -/
  | bar0Write (req : HostReq)
  /-- BAR2_READ (R392): A host read of device DRAM at its home slice. -/
  | bar2Read (req : HostReq)
  /-- BAR2_WRITE (R392): A host write of device DRAM at its home slice. -/
  | bar2Write (req : HostReq)
  /-- POSTED_WRITE_RELEASE (R263): A held posted write proceeds once earlier writes' WCTs have passed. -/
  | postedWriteRelease (requester : Nat)
  /-- PEER_READ (R278): A peer or host read over a UALink-class port is performed at its home slice. -/
  | peerRead (req : HostReq)
  /-- PEER_WRITE (R278): A peer or host write over a UALink-class port is performed at its home slice. -/
  | peerWrite (req : HostReq)
  /-- DIRECTORY_GRANT (R394): The directory grants S or E for a host-homed line. -/
  | directoryGrant (line : Nat) (excl : Bool) (data : Line)
  /-- SNOOP_INVALIDATE (R395): An invalidate snoop arrives and blocks new requests for the line. -/
  | snoopInvalidate (line : Nat)
  /-- SNOOP_INVALIDATE_ANSWER (R395): Once module time passes LMAX the slice answers and drops the line. -/
  | snoopInvalidateAnswer (line : Nat)
  /-- SNOOP_SHARE (R395): A share snoop is answered at once, keeping the line as S. -/
  | snoopShare (line : Nat)
  /-- GET_MEASUREMENTS (R434): Returns the signed attestation report for a nonce. -/
  | getMeasurements (nonce : BitVec 256)
  /-- KEY_LOAD (R435): Loads key material into an allotted empty slot for a world. -/
  | keyLoad (msg : KeyMsg)
  /-- KEY_ERASE (R435): Revokes and erases a slot loaded for the world. -/
  | keyErase (msg : KeyMsg)
  /-- SLOT_QUERY (R435): Reports a key slot's state. -/
  | slotQuery (msg : KeyMsg)
  /-- LOCK_INTERFACE_REQUEST (R418): Freezes the TDISP page attributes of the interface. -/
  | lockInterfaceRequest (attrs : List (Nat × Nat))
  /-- RESERVED_OPCODE (R43): A word whose primary OP or paired POP is reserved raises ILLINS and does nothing else. -/
  | reservedOpcode (word : W64)
  /-- CONFIGURATION_REQUEST (R430): A PCIe configuration request is answered with Retry Status until STAGE reads 7, and served against the function's configuration space afterwards. -/
  | configurationRequest (req : ConfigReq)
  /-- PERST_DEASSERTION (R430): On PERST# deassertion the PCIe link trains under the LTSSM in Flit Mode and reports its width and speed. -/
  | perstDeassertion (width : Nat) (speed : Nat)
  /-- START_INTERFACE_REQUEST (R418): The TDISP interface moves from CONFIG_LOCKED to RUN, after which private pages accept T-bit requests. -/
  | startInterfaceRequest
  /-- STOP_INTERFACE_REQUEST (R418): The TDISP interface returns to CONFIG_UNLOCKED, leaving ERROR or RUN, so page attributes can change again. -/
  | stopInterfaceRequest
  /-- SLICE_POWER_GATE (R396): An L2 slice power-gates after writing back its dirty host-homed lines and releasing its grants, and its die's network agent then answers its snoops. -/
  | slicePowerGate (slice : Nat)
  /-- PEER_ATOMIC (R393): An incoming UALink atomic of up to 128 bytes is performed at its home slice. -/
  | peerAtomic (req : HostReq) (aop : Nat) (ty : BitVec 4)
deriving DecidableEq, Repr, Inhabited

/-- What moves next: a unit's own next step (clause begin, one word, or clause end), or an event. -/
inductive Act where
  | unit (u : UnitId)
  | event (i : Instr)
deriving DecidableEq, Repr, Inhabited

/-- One turn of the schedule: the module-time counts, core clocks and slice clocks that pass, then what moves.
The spec fixes no latency outside a clause (spec/09 R190, R187), so a turn carries the time itself. -/
structure Turn where
  dt : Nat
  dc : Nat
  ds : Nat
  act : Act
deriving DecidableEq, Repr, Inhabited

end Sys2Proof
end

