-- ==== Sys2Proof/Config.lean ====
section
/-!
DEFINITION. What an implementation fixes and what the spec leaves open. A constant with no body is a free value:
nothing in Lean can evaluate it, so a claim holds whatever it is. DESIGN CHOICE (log 1, 7, 10, 11, 13).
-/
namespace Sys2Proof

/-- What moves when the state's own schedule is empty (log 1): unconstrained. -/
opaque Config.nextTurn : Nat → Turn

/-- Whether a cache, TLB or stored combination still holds its copy at the n-th asking: placement and replacement of L1 and
the TLBs are not architectural (spec/04 R85, spec/08 R152; log 7). -/
opaque Config.keeps : Nat → Bool

/-- Whether the n-th read of a DRAM line meets an uncorrectable error: the error itself comes from outside (spec/04 R72; log 7). -/
opaque Config.uncorrectable : Nat → Bool

/-- How many soft errors the n-th read of a DRAM line meets and corrects (spec/04 R72; log 7). -/
opaque Config.corrected : Nat → Nat

/-- Which of several allowed entries or writes takes effect at the n-th asking (spec/04 R82, spec/07 R135; log 7). -/
opaque Config.pick : Nat → Nat

/-- A tile word left unspecified (spec/12 R242; log 11). -/
opaque Config.freeTile : Nat → W32

/-- Flag bits left unspecified (spec/12 R242; log 11). -/
opaque Config.freeFlags : Nat → BitVec 5

/-- The correctly rounded value of a transcendental function where the model's finite precision does not decide the
rounding (spec/11 R225; log 10): function number, format number, rounding mode, argument bits. -/
opaque Config.openReal : Nat → Nat → Nat → W64 → W64

/-- The flags that go with `Config.openReal`'s value. -/
opaque Config.openRealFlags : Nat → Nat → Nat → W64 → BitVec 5

/-- Digest of the image's public key, fused at manufacture (spec/28 R428). -/
opaque Config.fusedKey : BitVec 256

/-- The fused minimum security version (spec/28 R428). -/
opaque Config.fusedMin : W32

/-- SHA-256 of the boot ROM (spec/28 R434). -/
opaque Config.romDigest : BitVec 256

/-- The identity key's SLH-DSA signature over a report's bytes 0 to 119 (spec/28 R434): 7,856 bytes. -/
opaque Config.signature : BitVec 960 → BitVec 62848

/-- The PCIe configuration space's dwords that the spec does not fix (spec/00 R8, spec/28 R430). -/
opaque Config.configDword : Nat → W32

/-- The dword of configuration space that holds the Link Status register in its upper half: its place is not stated (spec/28 R430). -/
opaque Config.linkReg : Nat

/-- The byte offset of the MSI-X capability in configuration space: its place is not stated (spec/24 R390; log 15). -/
opaque Config.msixCap : Nat

/-- What a queue waiter is answered after a plain store has touched its object (spec/14 R279 leaves it unspecified; log 13). -/
opaque Config.freeAnswer : Nat → W32

end Sys2Proof
end

