-- ==== Sys2Proof/Machine/State.lean ====
section
/-!
DEFINITION. The machine's state as plain data, its reset value, and the reasons a step can stop.
Every structure names the rule of spec/ that gives it. Repeated units (cores, threads, pairs, slices' lines) are sparse maps
whose unlisted entries are at their reset value.
-/
namespace Sys2Proof.Machine

/-- A code or clause address (spec/02 R21). -/
abbrev Addr := BitVec 52

/-! ### Units in progress -/

/-- Where a fixed-latency result goes (spec/09 R188): a run of vector registers, a predicate, or nowhere (ZERO). -/
inductive PDst where
  | reg (r width : Nat)
  | pred (p : Nat)
  | discard
deriving DecidableEq, Repr

/-- A fixed-latency result not yet written (spec/09 R188): the cycle it is due, its issue order, its destination, the lanes it
writes, one value a lane, and the flags it adds to FPSTAT (spec/10 R203). -/
structure Pend where
  due : Nat
  seq : Nat
  dst : PDst
  lanes : Mask
  vals : List W128
  flags : BitVec 5
deriving DecidableEq, Repr

/-- An operand latch (spec/02 R38): the field that loaded it and one value a lane. -/
structure Latch where
  field : BitVec 9
  vals : List W128
deriving DecidableEq, Repr

/-- A frontier entry (spec/15 R305). -/
structure FEntry where
  key : Nat
  pc : Addr
  word : Nat
  mask : Mask
deriving DecidableEq, Repr

/-- The clause a unit is executing: header and words as fetched, the word to issue next, the first word issued with lanes
(spec/15 R306), the issuing entry's remaining lanes, the cycle at which the next word begins (spec/09 R187), the cycle up to
which results have been written, the latches, the results outstanding, the lanes that branch or exit at its end (R307) with their exit statuses, a scalar
transfer's target, the address a CALL pushes, and whether RET halts or YIELD was issued. -/
structure ClauseRun where
  hdr : W64
  pc : Addr
  words : List W64
  idx : Nat
  skip : Nat
  mask : Mask
  cyc : Nat
  written : Nat
  la : Option Latch
  lb : Option Latch
  lc : Option Latch
  pend : List Pend
  branches : List (Addr × Mask)
  exits : Mask
  exitSt : List Nat
  target : Option Addr
  push : Option Addr
  pops : Bool
  halts : Bool
  yielded : Bool
deriving DecidableEq, Repr

/-! ### Trap records -/

/-- Which kind of record (spec/22 R365, spec/24 R386). -/
inductive RecKind where
  | lane | warp | front | slice | thread
deriving DecidableEq, Repr

/-- A trap record (spec/22 R365) with where it came from: its origin unit and team, its warp's number (a front-end context: its place in the team's run), the
slice whose thread serves it, its clause's COUNT, the entry's lanes (a warp record), the cycle at which it was filed, and the WCTMAX that filing waits for
(R363), and whether it goes to its slice's service thread and no crib (what leaves a sheaf, R371). -/
structure TrapRec where
  kind : RecKind
  unit : UnitId
  lane : Nat
  handle : Nat
  num : Nat
  slice : Nat
  count : Nat
  pc : W64
  wordv : W64
  srca : W64
  srcb : W64
  srcc : W64
  cause : Byte
  prio : Byte
  widx : Nat
  half : Bool
  didx : BitVec 9
  world : Nat
  ctx : Nat
  detail : W32
  addr : W64
  mask : Mask
  filed : Nat
  wait : Nat
  direct : Bool
deriving DecidableEq, Repr

/-- A sheaf's part of a warp (spec/22 R369): lane `i` serves record `i`; a resolved or forwarded record has left its lane
(threadless, R382). -/
structure Sheaf where
  recs : List TrapRec
  done : Mask
  slice : Nat
  die : Nat
deriving DecidableEq, Repr

/-- A write-combining buffer (spec/08 R168): the operation that fills it, its line, whether its clause still runs. -/
structure WcBuf where
  op : Nat
  line : Nat
deriving DecidableEq, Repr

/-- A warp slot (spec/09 R184, spec/15 R305, spec/19 R343). `live` is false in an empty slot; `popFor` are the clauses of entries that have popped
their decision entry and not begun (spec/09 R193); `waiting` is the core cycle since which the warp has been ready. -/
structure Warp where
  live : Bool
  handle : Nat
  num : Nat
  budget : Nat
  ctx : Nat
  world : Nat
  sid : Nat
  slice : Nat
  v : SMap VReg
  p : SMap Mask
  w : SMap W32
  flags : SMap Nat
  wctmax : Nat
  fpstat : BitVec 5
  dqt : Addr
  rdy : Bool
  rdySeq : Nat
  rdyLost : Bool
  wrSeq : Nat
  wrAtRdy : Nat
  wrLog : List (Nat × Nat)
  bcnt : Nat
  admitted : Nat
  waiting : Nat
  yieldWord : Bool
  yieldHint : Bool
  frontier : List FEntry
  absent : Mask
  exited : Mask
  run : Option ClauseRun
  popFor : List Addr
  parked : Bool
  stopped : Bool
  blocked : Option Nat
  boundSince : Option Nat
  wc : List WcBuf
  rejoins : List (FEntry × Mask)
  sheaf : Option Sheaf
  started : Bool
deriving DecidableEq, Repr

/-- A decision-queue entry (spec/15 R302): the warps still to pop, the target, the first w register, the values. -/
structure DqEntry where
  mask : BitVec 48
  target : Option Addr
  vbase : Nat
  vals : List W32
deriving DecidableEq, Repr

/-- A front-end context (spec/15 R297). `word` is the first word its next clause issues (spec/22 R373). `divRet` holds the stack depths at which a diversion pushed its return (R316), each with
the word at which the diverted clause goes on. -/
structure Front where
  live : Bool
  handle : Nat
  ctx : Nat
  world : Nat
  sid : Nat
  slice : Nat
  pc : Addr
  word : Nat
  s : SMap W64
  flags : SMap Nat
  stack : List Addr
  halted : Bool
  stopped : Bool
  dq : List DqEntry
  ovlcmd : W64
  ovlcode : Nat
  ovlerr : Bool
  ovlstub : W64
  ovlpc : W64
  wctmax : Nat
  run : Option ClauseRun
  parked : Bool
  divRet : List (Nat × Nat)
  posted : Option (Nat × W64)
deriving DecidableEq, Repr

/-- A cached translation (spec/04 R85): the context and page it serves, the leaf and its address, its level. -/
structure TlbEnt where
  space : Nat
  vpage : Nat
  size : Nat
  leaf : W64
  eaddr : Nat
  level : Nat
deriving DecidableEq, Repr

/-- A service-processor thread (spec/24 R384, R437, R387). `tlbiGoCmd` and `tlbiGoVa` are TLBICMD and TLBIVA as its last GO found them (spec/04 R87). `posted` is an SWRITE whose row has not run yet; `trapped`: a trap has halted it (R386); `sliceGo` is the
SLICECMD write whose GO is being performed: BUSY of SLICESTAT (spec/19 R328), `sliceMark` the number that the next operation had at it (R341). -/
structure Thread where
  pc : Addr
  word : Nat
  s : SMap W64
  flags : SMap Nat
  stack : List Addr
  wctmax : Nat
  wakest : BitVec 6
  pending : List TrapRec
  sproot : W64
  tlbiva : W64
  tlbicmd : W64
  tlbiTime : Option Nat
  tlbiGoCmd : W64
  tlbiGoVa : W64
  slicecmd : W64
  slicestat : W64
  sliceGo : Option W64
  sliceMark : Nat
  halt : Bool
  trapped : Bool
  runBit : Bool
  stopReq : Bool
  run : Option ClauseRun
  parked : Bool
  sleeping : Option W64
  posted : Option (Nat × W64)
  tlb : List TlbEnt
deriving DecidableEq, Repr

/-! ### A core -/

/-- A load in progress (spec/07 R150): the front-end context that began it and the team it stood in, the OVLCMD written, and whose tables and SID its reads use. -/
structure OvlLoad where
  front : Nat
  handle : Nat
  cmd : W64
  ctx : Nat
  world : Nat
  sid : Nat
deriving DecidableEq, Repr

/-- An overlay slot (spec/07 R150). -/
structure OvlSlot where
  valid : Bool
  image : BitVec 36
  len : Nat
  loading : Option OvlLoad
  code : List Host.Cell
deriving DecidableEq, Repr

/-- An L1 line (spec/08 R152, R155, spec/13 R260): the sectors held (bytes as memory holds them), each sector's lease end, the
VMAX of its fill, and for a protected line its tag. -/
structure L1Line where
  line : Nat
  data : Line
  valid : BitVec 4
  lease : Nat
  vmax : Nat
  tag : W64
deriving DecidableEq, Repr

/-- A stash entry's tag (spec/08 R158). -/
structure StashTag where
  va : W64
  filled : Bool
  dirty : BitVec 256
  lease : Nat
  vmax : Nat
  handle : Nat
deriving DecidableEq, Repr

/-- A record of a task deque (spec/19 R339): in the core, or in a slot of the core's spill area. -/
inductive DqRec where
  | held (ws : List W64)
  | spilled (slot : Nat)
deriving DecidableEq, Repr

/-- A core (spec/01 R13, spec/26 R413). `l1pend` are the sectors marked pending by stores in flight (spec/08 R153); `spills` are the stash entries
reserved for frontiers, each with its owner (spec/15 R308); `worker` is the task slice the core works for, `workBase` and `workTile` its reserved grants
(spec/19 R337), `sheafAt` the core cycle at which a sheaf was last placed on it (spec/22 R370). -/
structure Core where
  latch : Nat
  warps : SMap Warp
  fronts : SMap Front
  slots : SMap OvlSlot
  l1 : List L1Line
  l1pend : List (Nat × Nat)
  tlb : List TlbEnt
  stash : List Host.Cell
  tags : SMap (Option StashTag)
  trapBuf : List TrapRec
  worker : Option Nat
  task : Nat
  workBase : Nat
  workTile : Nat
  spills : List (Nat × Nat)
  deque : List DqRec
  lfsr : W16
  probeAt : Nat
  sheafAt : Option Nat
deriving DecidableEq, Repr

/-! ### Operations in flight -/

/-- One lane's access to one address (spec/08 R151, R164): translated once `pa` is known, at turn `xlatAt` by a translation of a page of 2^`size` bytes (spec/04 R87; 0: none);
`done` once performed. -/
structure LaneAcc where
  lane : Nat
  va : W64
  pa : Option Nat
  leaf : W64
  xlatAt : Nat
  size : Nat
  done : Bool
  res : W128
deriving DecidableEq, Repr

/-- A long-latency operation in flight (spec/02 R25): who issued it, the word and where it stood, the lanes still in it, the
operand values read at issue (one a lane), its flag, its accesses, the lines granted bandwidth, its write-combining buffers (line, the operation that opened it), whether it has been performed and its
results, the lanes whose result is written, its place in time. -/
structure Op where
  id : Nat
  unit : UnitId
  handle : Nat
  num : Nat
  ctx : Nat
  world : Nat
  sid : Nat
  slice : Nat
  instr : Instr
  word : W64
  pc : Addr
  hdr : W64
  widx : Nat
  lanes : Mask
  a : List W128
  b : List W128
  c : List W128
  flag : Nat
  accs : List LaneAcc
  granted : List Nat
  bufs : List (Nat × Nat)
  phase : Nat
  held : Bool
  res : List W128
  wrote : Mask
  writesReg : Bool
  issued : Nat
  wct : Nat
  arg : Nat
deriving DecidableEq, Repr

/-- A stream-engine copy (spec/07 R141, R146): its arrivals (operation, first unit, units), the values fixed at the first arrival, the
sectors still to move and those found missing, its progress and result, whether its start waits for its queue's reference (R282), its place among the COPY sections of its team's image (spec/26 R408), the unit that opened it, and the pages whose misses it has reported, each with the sectors
whose requests shared the walk (R85, R144). -/
structure Copy where
  id : Nat
  handle : Nat
  ctx : Nat
  world : Nat
  sid : Nat
  core : Nat
  ccb : W64
  replay : Bool
  residue : W64
  parts : Nat
  dsp : Bool
  coresel : Nat
  eng : Nat
  arrivals : List (Nat × Nat × Nat)
  ready : Bool
  readyAt : Nat
  refWaits : Bool
  started : Bool
  cancelled : Bool
  stopped : Bool
  noStat : Bool
  words : List W64
  data : List W64
  index : List W64
  total : Nat
  todo : List Nat
  missing : List Nat
  doneBefore : Nat
  moved : Nat
  fatal : Nat
  sec : Nat
  refTaken : Bool
  replays : Nat
  firstVa : W64
  firstSet : Bool
  wct : Nat
  unit : UnitId
  faulted : List (Nat × List Nat)
deriving DecidableEq, Repr

/-! ### Matrix arrays -/

/-- A pair tile (spec/12 R233): its words (row-major), IM, TFLAGS. -/
structure Tile where
  words : SMap W32
  im : Bool
  tflags : BitVec 5
deriving DecidableEq, Repr

/-- A contributor to a matrix request (spec/12 R241, R246, R248): its operation, its warp, the word, MGRP's Z, where its warp's
writes stood at MRDY (`lost`: an image has not kept that, log 11), its issue cycle and its issuer's world. -/
structure MPart where
  op : Nat
  core : Nat
  slot : Nat
  handle : Nat
  num : Nat
  instr : Instr
  z : W64
  rdySeq : Nat
  wrAt : Nat
  lost : Bool
  issueAt : Nat
  world : Nat
deriving DecidableEq, Repr

/-- A request of the arbiter, waiting or granted (spec/12 R235): its tile, parts, issue cycle, leading core, its
issuer's world, whether it is performed. -/
structure MReq where
  tile : Nat
  parts : List MPart
  issueAt : Nat
  core : Nat
  world : Nat
  perform : Bool
deriving DecidableEq, Repr

/-- A drain holding or waiting for the epilogue processor (spec/12 R254-R258): its request's part and tile, its descriptor's address and words, what its
start decided, and the register words still to be written (register, lanes, values). -/
structure Drain where
  part : MPart
  tile : Nat
  desc : W64
  started : Bool
  fatal : Nat
  refTaken : Bool
  words : List W64
  written : Nat
  faulted : Bool
  bytes : Nat
  flags : Nat
  regs : List (Nat × Mask × List W128)
  wct : Nat
deriving DecidableEq, Repr

/-- A core pair's matrix state (spec/12 R233, R235, R247). `evenLost` says the even core wins the next tie. -/
structure PairSt where
  tiles : SMap Tile
  reqs : List MReq
  granted : List MReq
  unmatched : List MPart
  drains : List Drain
  freeAt : Nat
  evenNext : Bool
deriving DecidableEq, Repr

/-! ### Memory system -/

/-- A line of the second-level cache (spec/05 R90, spec/04 R76, spec/24 R394, R398, R400: `lostAt` is the time of the loss that quarantined it); `filledAt` is the turn in which it took its way
(spec/04 R75). `grant`: 0 none, 1 S, 2 E; `kslot` is a key slot plus one, 0: none. -/
structure L2Line where
  used : Bool
  line : Nat
  data : Line
  valid : BitVec 4
  dirty : BitVec 4
  sid : Nat
  range : Option Nat
  side : W128
  win : Option Nat
  filledAt : Nat
  kslot : Nat
  grant : Nat
  quarantined : Bool
  lostAt : Nat
  home : Nat
deriving DecidableEq, Repr

/-- A granule entry (spec/06 R116) with the greatest WCT of its counted bumps (R123). -/
structure Granule where
  gcount : W64
  node : Nat
  v : Bool
  wct : Nat
deriving DecidableEq, Repr

/-- Tag and slot number (plus one, 0: none) of a protected line in the base die's metadata storage (spec/26 R415). -/
structure DTag where
  tag : W64
  kslot : Nat
deriving DecidableEq, Repr

/-- A monitor or queue wait at a slice, or held at its core for want of an entry (spec/05 R106, spec/14 R287). `hit` is the first satisfying value,
`vm` the line's VMAX at the write that made it (spec/13 R260). -/
structure Waiter where
  op : Nat
  pa : Nat
  slice : Nat
  entry : Bool
  queue : Bool
  since : Nat
  hit : Option W64
  vm : Nat
deriving DecidableEq, Repr

/-- A fault record waiting to be written (spec/04 R88, R89): its context, its 64 bytes as words, whether HELD has counted it, whether the ring was
unusable, and the next try. -/
structure FaultRec where
  ctx : Nat
  words : List W64
  counted : Bool
  unusable : Bool
  retryAt : Nat
deriving DecidableEq, Repr

/-- A walk-cache entry (spec/04 R85): the space and the prefix of the addresses it serves, and the table of that level that they reach. -/
structure WalkEnt where
  space : Nat
  level : Nat
  pref : Nat
  table : Nat
deriving DecidableEq, Repr

/-- A request that waits at its slice for bandwidth (spec/05 R100): its operation and line, its SID and cost, and the turn at which it
arrived; `dev` is the step that makes a device's request, which no operation holds. -/
structure SliceWait where
  slice : Nat
  sid : Nat
  cost : Nat
  op : Nat
  line : Nat
  since : Nat
  dev : Option Instr
deriving DecidableEq, Repr

/-- Why a step cannot happen yet (spec/24 R401, R394, R395; spec/05 R100; spec/04 R89): a request would cross the die link while it is down; a slice
has no bandwidth for its SID (the slice, the SID, the cost); a die's fault buffer is full; a snoop of its line awaits its answer; its line's grant is not held (the line, whether
E is needed, its home die, the requester's SID and policy). -/
inductive Hold where
  | link | faults | snoop
  | tokens (slice sid cost : Nat)
  | grant (line : Nat) (excl : Bool) (die sid pol : Nat)
deriving DecidableEq, Repr

/-- A record or report of a killed team or slice whose line homes across the die link while that is down (spec/24 R402): the accesses it goes through, its address, length and
bits. -/
structure LateWrite where
  core : Nat
  ctx : Nat
  world : Nat
  sid : Nat
  va : W64
  len : Nat
  bits : Nat
deriving DecidableEq, Repr

/-- A grant of a host-homed line for a request that no way may hold (spec/24 R394): its line, whether it is E, and whether the step being made has used it. -/
structure Pass where
  line : Nat
  excl : Bool
  used : Bool
deriving DecidableEq, Repr

/-- Memory, caches and their side state; `late` are the records that wait for the die link; `wants` are the devices' requests that wait for a grant (line, home die, SID, policy; spec/24 R394), `passes` the grants of lines
that no way holds, `walkc` are the dies' walk caches, `waits` the requests that wait for bandwidth, `lastSid` the SID a slice granted last
(spec/05 R100), `paid` the turn in which a device's request was last charged to a slice's SID; `quar` gives the line of each quarantine slot in use (spec/24 R400). -/
structure Mem where
  dram : List Host.Cell
  fabric : List Host.Cell
  poison : SMap Bool
  dtags : SMap DTag
  l2 : SMap L2Line
  recency : SMap (List Nat)
  lmax : SMap Nat
  vmax : SMap Nat
  snoops : List Nat
  quar : SMap Nat
  gated : SMap Bool
  bucket : SMap Nat
  bucketAt : SMap Nat
  clkBytes : SMap (Nat × Nat)
  granules : SMap Granule
  nodeWct : SMap Nat
  tlbs : SMap (List TlbEnt)
  waiters : List Waiter
  faults : SMap (List FaultRec)
  softErrs : SMap Nat
  walkc : SMap (List WalkEnt)
  waits : List SliceWait
  lastSid : SMap Nat
  paid : SMap Nat
  wants : List (Nat × Nat × Nat × Nat)
  passes : List Pass
  late : List LateWrite
deriving DecidableEq, Repr

/-! ### System registers -/

/-- The registers held per die or module (spec/02 R46); `fwAt` is the turn of each window's last accepted change of EN (spec/04 R75), `ctxGo` is the context whose destroy is in progress: BUSY of CTXCMD (spec/19 R327). -/
structure Regs where
  memsplit : W64
  fwctl : SMap W64
  fwlim : SMap W64
  fwscale : SMap W64
  fwAt : SMap Nat
  sidway : SMap W64
  sidbw : SMap W64
  retbase : SMap W64
  retlim : SMap W64
  retctl : SMap W64
  retstat : SMap W64
  leasecfg : W64
  swapcfg : W64
  vcarb : W64
  monstata : W64
  monstatb : W64
  tilctl : W64
  imgpool : W64
  qrcfg : W64
  qrstat : W64
  qrcmd : W64
  qrSeq : Nat
  dlstat : W64
  ctxcmd : W64
  ctxGo : Option Nat
  worldtab : W64
  treebase : W64
  hqbase : SMap W64
  hqctl : SMap W64
  hqnotify : SMap W64
  portctl : SMap W64
  portAt : SMap Nat
  bootstat : W64
deriving DecidableEq, Repr

/-! ### Launch, teams, pipelines -/

/-- A role of a team (spec/01 R19, spec/19 R324). -/
structure Role where
  entry : W64
  warps : Nat
  budget : Nat
deriving DecidableEq, Repr

/-- A team shape block (spec/19 R324). -/
structure Shape where
  addr : W64
  roles : List Role
  fentry : W64
  cores : Nat
  tiles : Nat
  stash : Nat
deriving DecidableEq, Repr

/-- A barrier (spec/14 R291): the generation's E (none before its first arrival), the warps arrived with their operations, the
generation number. -/
structure Barrier where
  expect : Option Nat
  arrived : List (Nat × Nat)
  gen : Nat
deriving DecidableEq, Repr

/-- Exit statuses gathered for a completion record (spec/15 R312). -/
structure ExitSum where
  maxst : Nat
  nz : Nat
  low : Nat
  threads : Nat
deriving DecidableEq, Repr

/-- A warp's MRDY and its writes since (spec/12 R241, R242), which an image has no place for (log 11). -/
structure WarpMarks where
  num : Nat
  rdySeq : Nat
  rdyLost : Bool
  wrSeq : Nat
  wrAtRdy : Nat
  wrLog : List (Nat × Nat)
deriving DecidableEq, Repr

/-- How a team stands to the pre-emption machinery (spec/26 R404, R405), or that its last warp has ended or it is killed and its record is awaited (spec/15
R311). -/
inductive TeamSt where
  | running | stopping | held | ending
deriving DecidableEq, Repr

/-- Why a team is being stopped. -/
inductive StopWhy where
  | preempt (op : Nat) | budget | swap
deriving DecidableEq, Repr

/-- A resident or saved team (spec/19 R332, R333; spec/14 R281, R291; spec/20 R352). While it is out, resolved records wait in it: lanes of its warps
(warp number, whether the whole entry resumes, where, which lanes) and its front-end contexts (spec/22 R374); `pops` and `divs` keep what an image has no
place for: each warp's `popFor`, each context's `divRet` (log 14), `marks` each warp's MRDY and writes, `parts` its unmatched parts (log 11); `imgTime` is the TIME of the image that the record goes with (spec/26 R407). `closed`: the actions of its end have been done (spec/15 R311); `killed`: it was
killed before its last warp ended (R312). -/
structure Team where
  handle : Nat
  slice : Nat
  tid : Nat
  start : Nat
  shape : Shape
  stashBase : Nat
  stashLen : Nat
  tileBase : Nat
  tileLen : Nat
  queues : List W64
  barriers : SMap Barrier
  sum : ExitSum
  ended : Nat
  param : W64
  taskj : W64
  isTask : Bool
  stage : Option Nat
  handoff : Bool
  st : TeamSt
  closed : Bool
  killed : Bool
  why : Option StopWhy
  saved : Bool
  pool : Option Nat
  imgLen : Nat
  imgTime : Nat
  readyAgain : Bool
  issued : Bool
  ctx : Nat
  world : Nat
  sid : Nat
  wctmax : Nat
  rejoins : List (Nat × Bool × FEntry × Mask)
  frontRes : List (Nat × Addr × Nat)
  pops : List (Nat × List Addr)
  marks : List WarpMarks
  parts : List MPart
  divs : List (Nat × List (Nat × Nat))
deriving DecidableEq, Repr

/-- A live context (spec/19 R325, R326): its descriptor's 8 words and its handler table's 16 words (spec/22 R366). -/
structure Ctx where
  id : Nat
  desc : List W64
  htab : List W64
deriving DecidableEq, Repr

/-- Slice states (spec/19 R330). -/
inductive SliceSt where
  | ready | resident | stopped
deriving DecidableEq, Repr

/-- A stage's books (spec/20 R347, R356). -/
structure Stage where
  shape : Shape
  min : Nat
  init : Nat
  max : Nat
  weight : Nat
  cur : Nat
  pend : Nat
  peer : Nat
  occ : Nat
  movesIn : Nat
  movesOut : Nat
  runs : Nat
  stalls : Nat
  ended : Bool
  sum : ExitSum
deriving DecidableEq, Repr

/-- A furrow with its engine end's progress (spec/20 R348, R354): the words of its command block and records as FORM read them, the slot held, the
sectors missing, how far it is (0 wants a slot, 1 waits for one, 2 holds it with sectors missing, 3 moved, 4 hands it on), and whether it has stopped. -/
structure Furrow where
  queue : W64
  ring : W64
  ccb : W64
  size : Nat
  slots : Nat
  src : Nat
  dst : Nat
  moved : Nat
  overrun : Nat
  faults : Nat
  prodend : Bool
  closed : Bool
  unit : Nat
  slot : Option Nat
  lack : List Nat
  stage : Nat
  words : List W64
  stopped : Bool
  wct : Nat
deriving DecidableEq, Repr

/-- A pipeline (spec/20 R346, R350): its declaration, head fields, stages, furrows, the pool's pairs with the stage that owns each
(none: spare) and the stage a marked pair goes to, T0 and the samples taken. -/
structure Pipe where
  decl : W64
  interval : Nat
  range : Nat
  stages : List Stage
  furrows : List Furrow
  pool : List (Nat × Option Nat × Option Nat)
  inited : Bool
  t0 : Option Nat
  samples : Nat
deriving DecidableEq, Repr

/-- A job slice that is not DONE (spec/19 R328-R330). `retired` counts its teams that have ended with CAUSE 0 (spec/24 R402), `formOps` is the operation number before which its
thread had issued its FORM (R341). `loss` is its link report once a die-link loss has ended it: teams retired, killed, unplaced, and the
time (spec/24 R402). -/
structure Slice where
  num : Nat
  thread : Nat
  st : SliceSt
  deadline : Nat
  queue : Nat
  sid : Nat
  abslim : Nat
  budget : Option Nat
  seq : Nat
  ctx : Nat
  world : Nat
  kind : Nat
  diepol : Nat
  ordered : Bool
  teams : Nat
  crec : W64
  param : W64
  cmd : List W64
  shape : Shape
  next : Nat
  retired : Nat
  formOps : Nat
  root : List W64
  spill : W64
  splog : Nat
  sum : ExitSum
  pipe : Option Pipe
  killed : Bool
  loss : Option (Nat × Nat × Nat × Nat)
deriving DecidableEq, Repr

/-- Launch state. `lastThread` issued last (spec/24 R384); `resOwners` says which team issued the copy of a residue record (spec/07 R146); `lost` are the slices
that a die-link loss has made DONE while the end of some team of theirs waits for the link (spec/24 R402). -/
structure Launch where
  ctxs : List Ctx
  slices : List Slice
  teams : List Team
  handleCtr : Nat
  seqCtr : Nat
  lastThread : Nat
  resOwners : List (Nat × W64 × Nat)
  lost : List Slice
deriving DecidableEq, Repr

/-! ### Traps and the Gleaner -/

/-- A crib (spec/22 R367). -/
structure Crib where
  cause : Byte
  world : Nat
  ctx : Nat
  recs : List TrapRec
deriving DecidableEq, Repr

/-- One die's Gleaner: its cribs, the sheaves formed and not placed (spec/22 R367, R370), and the records that a GRES still waits to resolve, each with its operation (R375). -/
structure Gleaner where
  cribs : List Crib
  waiting : List Crib
  resolving : List (Nat × TrapRec)
deriving DecidableEq, Repr

/-! ### Worlds and the host -/

/-- A key slot (spec/26 R416): none when EMPTY, else its world and key material. -/
abbrev KeySlot := Option (Nat × BitVec 768)

/-- TDISP interface states (spec/26 R418). -/
inductive Tdisp where
  | unlocked | locked | run | error
deriving DecidableEq, Repr

/-- A posted write held at its interface (spec/13 R263): `way` 0 for BAR0, 1 for BAR2, 2 for a UALink-class port. -/
structure Posted where
  req : HostReq
  way : Nat
deriving DecidableEq, Repr

/-- What leaves the module: read data, refusals, snoop answers, interrupts, messages (spec/24, 26, 28). -/
inductive Out where
  | readData (requester : Nat) (data : List Byte)
  | unsupported (requester : Nat)
  | abort (requester : Nat)
  | retry
  | config (data : W32)
  | msix (vector : Nat) (addr : W64) (data : W32)
  | snoopAnswer (line : Nat) (held : Bool) (dirty : BitVec 4) (data : Line)
  | wantGrant (line : Nat) (excl : Bool)
  | released (line : Nat)
  | report (data : BitVec 960) (signature : BitVec 62848)
  | keyStatus (kop slot status state : Byte)
deriving DecidableEq, Repr

/-- Worlds, keys and the host interface. -/
structure HostIf where
  keys : SMap KeySlot
  handles : SMap (Option Nat)
  savectr : SMap W64
  tdisp : Tdisp
  attrs : List (Nat × Nat)
  msix : SMap W128
  linkUp : Bool
  linkWidth : Nat
  linkSpeed : Nat
  confWords : SMap W32
  posted : List Posted
  lastWct : SMap Nat
  regq : List (Nat × W64)
  fwDigest : BitVec 256
  reports : Nat
  booted : Bool
  clockStep : Nat
  outs : List Out
deriving DecidableEq, Repr

/-- The whole machine. `sched` says which turn comes next (log 1); `cur` is the unit whose word is being executed, `ev` the instruction or event of the step being made; `holds`: why
the step being made cannot happen yet. `time` has no bound: the spec does not say what comes after the last count of 64 bits, so leases, write
completion times and deadlines compare without wrapping and only what software reads is cut to 64 bits (DESIGN CHOICE, log 29). -/
structure State where
  sched : List Turn
  turnNo : Nat
  freeNo : Nat
  cur : Option UnitId
  ev : Option Instr
  holds : List Hold
  time : Nat
  cyc : Nat
  sclk : Nat
  regs : Regs
  mem : Mem
  cores : SMap Core
  threads : SMap Thread
  pairs : SMap PairSt
  ops : List Op
  nextOp : Nat
  copies : List Copy
  launch : Launch
  gleaners : SMap Gleaner
  host : HostIf
deriving DecidableEq, Repr

/-! ### Reset -/

def Warp.reset : Warp :=
  { live := false, handle := 0, num := 0, budget := 0, ctx := 0, world := 0, sid := 0, slice := 0, v := [], p := [], w := [],
    flags := [], wctmax := 0, fpstat := 0, dqt := 0, rdy := false, rdySeq := 0, rdyLost := false, wrSeq := 0, wrAtRdy := 0,
    wrLog := [], bcnt := 0, admitted := 0, waiting := 0, yieldWord := false, yieldHint := false, frontier := [],
    absent := 0, exited := 0, run := none, popFor := [], parked := false, stopped := false, blocked := none, boundSince := none,
    wc := [], rejoins := [], sheaf := none, started := false }

def Front.reset : Front :=
  { live := false, handle := 0, ctx := 0, world := 0, sid := 0, slice := 0, pc := 0, word := 0, s := [], flags := [], stack := [],
    halted := false, stopped := false, dq := [], ovlcmd := 0, ovlcode := 0, ovlerr := false, ovlstub := 0,
    ovlpc := 0, wctmax := 0, run := none, parked := false, divRet := [], posted := none }

/-- A thread after reset: HALT 1, everything else 0 (spec/24 R385; log 4). -/
def Thread.reset : Thread :=
  { pc := 0, word := 0, s := [], flags := [], stack := [], wctmax := 0, wakest := 0, pending := [], sproot := 0, tlbiva := 0,
    tlbicmd := 0, tlbiTime := none, tlbiGoCmd := 0, tlbiGoVa := 0, slicecmd := 0, slicestat := 0, sliceGo := none, sliceMark := 0, halt := true, trapped := false, runBit := false, stopReq := false,
    run := none, parked := false, sleeping := none, posted := none, tlb := [] }

def OvlSlot.reset : OvlSlot := { valid := false, image := 0, len := 0, loading := none, code := [] }

def Core.reset : Core :=
  { latch := 0, warps := [], fronts := [], slots := [], l1 := [], l1pend := [], tlb := [], stash := [], tags := [],
    trapBuf := [], worker := none, task := 0, workBase := 0, workTile := 0, spills := [], deque := [], lfsr := 0, probeAt := 0, sheafAt := none }

def Tile.reset : Tile := { words := [], im := false, tflags := 0 }

def PairSt.reset : PairSt :=
  { tiles := [], reqs := [], granted := [], unmatched := [], drains := [], freeAt := 0, evenNext := true }

def L2Line.reset : L2Line :=
  { used := false, line := 0, data := 0, valid := 0, dirty := 0, sid := 0, range := none, side := 0, win := none, filledAt := 0,
    kslot := 0, grant := 0, quarantined := false, lostAt := 0, home := 0 }

def Granule.reset : Granule := { gcount := 0, node := 0, v := false, wct := 0 }

def Barrier.reset : Barrier := { expect := none, arrived := [], gen := 0 }

def ExitSum.reset : ExitSum := { maxst := 0, nz := 0, low := 0xFFFFFFFF, threads := 0 }

def Gleaner.reset : Gleaner := { cribs := [], waiting := [], resolving := [] }

/-- Reset values of the arrays (spec/05 R95, R99; spec/19 R320). -/
def Regs.sidwayReset : W64 := 0x00000000FFFFFFFF#64
def Regs.sidbwReset : W64 := 0x0000000800011040#64
def Regs.hqctlReset : W64 := 0x0000040000000300#64

/-- An MSI-X vector entry at reset: address and data 0, Mask bit 1 (PRESUMED of PCIe, log 4). -/
def HostIf.msixReset : W128 := 0x00000001000000000000000000000000#128

def Regs.reset : Regs :=
  { memsplit := 0, fwctl := [], fwlim := [], fwscale := [], fwAt := [], sidway := [], sidbw := [], retbase := [], retlim := [],
    retctl := [], retstat := [], leasecfg := 512, swapcfg := 20000, vcarb := 0x124244, monstata := 0, monstatb := 0,
    tilctl := 1, imgpool := 0, qrcfg := 0, qrstat := 0, qrcmd := 0, qrSeq := 0, dlstat := 0, ctxcmd := 0, ctxGo := none, worldtab := 0,
    treebase := 0, hqbase := [], hqctl := [], hqnotify := [], portctl := [], portAt := [], bootstat := 0 }

def Mem.reset : Mem :=
  { dram := [], fabric := [], poison := [], dtags := [], l2 := [], recency := [], lmax := [], vmax := [],
    snoops := [], quar := [], gated := [], bucket := [], bucketAt := [], clkBytes := [], granules := [], nodeWct := [],
    tlbs := [], waiters := [], faults := [], softErrs := [], walkc := [], waits := [], lastSid := [], paid := [], wants := [], passes := [], late := [] }

def Launch.reset : Launch :=
  { ctxs := [], slices := [], teams := [], handleCtr := 1, seqCtr := 0, lastThread := 63, resOwners := [], lost := [] }

def HostIf.reset : HostIf :=
  { keys := [], handles := [], savectr := [], tdisp := .unlocked, attrs := [], msix := [], linkUp := false,
    linkWidth := 0, linkSpeed := 0, confWords := [], posted := [], lastWct := [], regq := [], fwDigest := 0, reports := 0,
    booted := false, clockStep := 16, outs := [] }

/-- The machine right after module reset (spec/28 R427): every register at its reset value, every thread halted, keys EMPTY. -/
def State.reset : State :=
  { sched := [], turnNo := 0, freeNo := 0, cur := none, ev := none, holds := [], time := 0, cyc := 0, sclk := 0, regs := Regs.reset,
    mem := Mem.reset, cores := [], threads := [], pairs := [], ops := [], nextOp := 1, copies := [],
    launch := Launch.reset, gleaners := [], host := HostIf.reset }

/-! ### Why a step can stop -/

/-- The machine's one fault. -/
inductive Fault where
  /-- A word was executed with no unit issuing it, or by a unit that holds no clause: raised by `exec` on a state that no step
  reaches (step sets the issuing unit first). Safe: the part has no such event. -/
  | noIssuer
deriving DecidableEq, Repr

/-- Refusals. -/
inductive Refusal where
  /-- An instruction whose meaning has not been written yet; raised by Dispatch alone. Safe. -/
  | notModelled (mnemonic : String)
deriving DecidableEq, Repr

end Sys2Proof.Machine
end

