-- ==== Sys2Proof/Machine/Float.lean ====
section
/-!
DEFINITION. Number formats, rounding, and the floating operations on one lane: exact results rounded once (spec/10 R194-R206,
spec/11 R222-R226). Arithmetic is exact on integers until the one rounding.
-/
namespace Sys2Proof.Machine

/-- A floating format (spec/10 R194): width, exponent bits, fraction bits, bias. -/
structure Fmt where
  w : Nat
  eb : Nat
  fb : Nat
  bias : Nat
deriving DecidableEq, Repr

def f64 : Fmt := { w := 64, eb := 11, fb := 52, bias := 1023 }
def f32 : Fmt := { w := 32, eb := 8, fb := 23, bias := 127 }
def f16 : Fmt := { w := 16, eb := 5, fb := 10, bias := 15 }
def bf16 : Fmt := { w := 16, eb := 8, fb := 7, bias := 127 }

/-- The format of a TYPE code 0x8-0xB (spec/02 R31). -/
def fmtOf (ty : Nat) : Fmt :=
  if ty = 8 then f16 else if ty = 9 then bf16 else if ty = 10 then f32 else f64

/-- A value: a NaN (signalling or not), an infinity, or (-1)^neg * m * 2^e. -/
inductive FV where
  | nan (sig : Bool)
  | inf (neg : Bool)
  | fin (neg : Bool) (m : Nat) (e : Int)
deriving DecidableEq, Repr

/-- A result's bits with the flags it raises, in the order of R202: NV 1, DZ 2, OF 4, UF 8, NX 16. -/
structure FR where
  bits : Nat
  flags : Nat
deriving DecidableEq, Repr

def fNV : Nat := 1
def fDZ : Nat := 2
def fOF : Nat := 4
def fUF : Nat := 8
def fNX : Nat := 16

/-- The canonical NaN (spec/10 R196). -/
def canon (f : Fmt) : Nat := (2 ^ f.eb - 1) * 2 ^ f.fb + 2 ^ (f.fb - 1)

def signBit (f : Fmt) (neg : Bool) : Nat := if neg then 2 ^ (f.w - 1) else 0
def infBits (f : Fmt) (neg : Bool) : Nat := signBit f neg + (2 ^ f.eb - 1) * 2 ^ f.fb
def maxBits (f : Fmt) (neg : Bool) : Nat := signBit f neg + (2 ^ f.eb - 1) * 2 ^ f.fb - 1
def zeroBits (f : Fmt) (neg : Bool) : Nat := signBit f neg

/-- The value of bits (spec/10 R194). -/
def fdec (f : Fmt) (x : Nat) : FV :=
  let s := x / 2 ^ (f.w - 1) % 2 = 1
  let e := x / 2 ^ f.fb % 2 ^ f.eb
  let m := x % 2 ^ f.fb
  if e = 2 ^ f.eb - 1 then
    if m = 0 then .inf s else .nan (m < 2 ^ (f.fb - 1))
  else if e = 0 then .fin s m (1 - (f.bias : Int) - f.fb)
  else .fin s (2 ^ f.fb + m) ((e : Int) - f.bias - f.fb)

/-- ftz(x, F) on bits (spec/10 R200, R206): a subnormal reads as a zero of its sign. -/
def ftzIn (f : Fmt) (on : Bool) (x : Nat) : Nat :=
  let x := x % 2 ^ f.w
  if on && x / 2 ^ f.fb % 2 ^ f.eb = 0 then zeroBits f (x / 2 ^ (f.w - 1) % 2 = 1) else x

/-- Position of the highest set bit. -/
def topBit (m : Nat) : Nat := Nat.log2 m

/-- `m * 2^e` (with `st`: something below one unit of `m` besides) rounded to a multiple of 2^q; whether that is inexact.
`rm`: 0 RNE, 1 RZ, 2 RU, 3 RD (spec/10 R199). -/
def roundAt (rm : Nat) (neg : Bool) (m : Nat) (e : Int) (st : Bool) (q : Int) : Nat × Bool :=
  if q ≤ e then
    let n := m * 2 ^ (e - q).toNat
    let up := st && ((rm = 2 && !neg) || (rm = 3 && neg))
    (if up then n + 1 else n, st)
  else
    let sh := (q - e).toNat
    let n := m / 2 ^ sh
    let rem := m % 2 ^ sh
    let half := 2 ^ (sh - 1)
    let inexact := st || rem != 0
    let up :=
      if rm = 0 then decide (rem > half) || (rem = half && (st || n % 2 = 1))
      else if rm = 2 then inexact && !neg
      else if rm = 3 then inexact && neg
      else false
    (if up then n + 1 else n, inexact)

/-- The result of an overflow (spec/10 R199). -/
def overflowBits (f : Fmt) (rm : Nat) (neg : Bool) : Nat :=
  if rm = 0 then infBits f neg
  else if rm = 1 then maxBits f neg
  else if rm = 2 then (if neg then maxBits f true else infBits f false)
  else (if neg then infBits f true else maxBits f false)

/-- Bits of `m * 2^q`, where m below 2^(fb+1)+1 and q is the quantum the value was rounded to. -/
def packBits (f : Fmt) (neg : Bool) (m : Nat) (q : Int) : Nat :=
  if m < 2 ^ f.fb then signBit f neg + m
  else
    let m' := if m < 2 ^ (f.fb + 1) then m else m / 2
    let q' := if m < 2 ^ (f.fb + 1) then q else q + 1
    signBit f neg + ((q' + f.fb + f.bias).toNat) * 2 ^ f.fb + (m' - 2 ^ f.fb)

/-- round(x, F, rm) of a non-zero exact value, with FTZ on the result (spec/10 R199-R202). -/
def froundNZ (f : Fmt) (rm : Nat) (ftz : Bool) (neg : Bool) (m : Nat) (e : Int) (st : Bool) : FR :=
  let top : Int := e + topBit m
  let emin : Int := 1 - f.bias
  let qU := top - f.fb
  let q := (if top < emin then emin else top) - f.fb
  let u := (roundAt rm neg m e st qU).1
  let topU : Int := qU + topBit u
  if topU > f.bias then { bits := overflowBits f rm neg, flags := fOF + fNX }
  else
    let r := roundAt rm neg m e st q
    let tiny := decide (topU < emin)
    if ftz && r.1 != 0 && decide (r.1 < 2 ^ f.fb) then { bits := zeroBits f neg, flags := fUF + fNX }
    else
      { bits := packBits f neg r.1 q
        flags := (if r.2 then fNX else 0) + (if tiny && r.2 then fUF else 0) }

/-- round of a value that may be zero; `zneg` is the sign of a zero. -/
def fround (f : Fmt) (rm : Nat) (ftz : Bool) (neg : Bool) (m : Nat) (e : Int) (st : Bool) : FR :=
  if m = 0 then { bits := zeroBits f neg, flags := 0 } else froundNZ f rm ftz neg m e st

/-- Exact sum of two finite values: sign, magnitude, exponent. -/
def exactAdd (n1 : Bool) (m1 : Nat) (e1 : Int) (n2 : Bool) (m2 : Nat) (e2 : Int) : Bool × Nat × Int :=
  let e := if e1 < e2 then e1 else e2
  let a : Int := (m1 * 2 ^ (e1 - e).toNat : Nat)
  let b : Int := (m2 * 2 ^ (e2 - e).toNat : Nat)
  let x := (if n1 then -a else a) + (if n2 then -b else b)
  (decide (x < 0), x.natAbs, e)

def isSig : FV → Bool
  | .nan s => s
  | _ => false
def isNan : FV → Bool
  | .nan _ => true
  | _ => false

/-- Sum of two values with the invalid and zero-sign rules of R223. `nv` is set when an operand was signalling. -/
def faddV (f : Fmt) (rm : Nat) (ftz : Bool) (x y : FV) : FR :=
  let nv := if isSig x || isSig y then fNV else 0
  match x, y with
  | .inf a, .inf b => if a = b then { bits := infBits f a, flags := nv } else { bits := canon f, flags := fNV }
  | .nan _, _ => { bits := canon f, flags := nv }
  | _, .nan _ => { bits := canon f, flags := nv }
  | .inf a, _ => { bits := infBits f a, flags := nv }
  | _, .inf b => { bits := infBits f b, flags := nv }
  | .fin n1 m1 e1, .fin n2 m2 e2 =>
    let r := exactAdd n1 m1 e1 n2 m2 e2
    if r.2.1 = 0 then
      { bits := zeroBits f (if n1 = n2 then n1 else rm = 3), flags := 0 }
    else froundNZ f rm ftz r.1 r.2.1 r.2.2 false

def negV : FV → FV
  | .fin n m e => .fin (!n) m e
  | .inf n => .inf (!n)
  | .nan s => .nan s

/-- Product of two values, exact: the value, and whether it is 0 times infinity. -/
def fmulV (x y : FV) : Option FV :=
  match x, y with
  | .inf a, .fin b m _ => if m = 0 then none else some (.inf (a != b))
  | .fin a m _, .inf b => if m = 0 then none else some (.inf (a != b))
  | .inf a, .inf b => some (.inf (a != b))
  | .fin a m e, .fin b n g => some (.fin (a != b) (m * n) (e + g))
  | _, _ => some (.nan false)

def fadd (f : Fmt) (rm : Nat) (ftz : Bool) (a b : Nat) : FR :=
  faddV f rm ftz (fdec f (ftzIn f ftz a)) (fdec f (ftzIn f ftz b))

def fsub (f : Fmt) (rm : Nat) (ftz : Bool) (a b : Nat) : FR :=
  faddV f rm ftz (fdec f (ftzIn f ftz a)) (negV (fdec f (ftzIn f ftz b)))

def fmul (f : Fmt) (rm : Nat) (ftz : Bool) (a b : Nat) : FR :=
  let x := fdec f (ftzIn f ftz a)
  let y := fdec f (ftzIn f ftz b)
  let nv := if isSig x || isSig y then fNV else 0
  match fmulV x y with
  | none => { bits := canon f, flags := fNV }
  | some (.nan _) => { bits := canon f, flags := nv }
  | some (.inf n) => { bits := infBits f n, flags := nv }
  | some (.fin n m e) => fround f rm ftz n m e false

/-- FMA: plus or minus A*B plus or minus C, exact before the one rounding (spec/11 R222, R223). -/
def ffma (f : Fmt) (rm : Nat) (ftz np nc : Bool) (a b c : Nat) : FR :=
  let x := fdec f (ftzIn f ftz a)
  let y := fdec f (ftzIn f ftz b)
  let z := fdec f (ftzIn f ftz c)
  let z := if nc then negV z else z
  let nv := if isSig x || isSig y || isSig z then fNV else 0
  match fmulV x y with
  | none => { bits := canon f, flags := fNV }
  | some p =>
    let p := if np then negV p else p
    let r := faddV f rm ftz p z
    { r with flags := r.flags ||| nv }

/-- Quotient of positive magnitudes with `k` extra bits and a sticky bit. -/
def divBits (m n k : Nat) : Nat × Bool := (m * 2 ^ k / n, m * 2 ^ k % n != 0)

def fdiv (f : Fmt) (rm : Nat) (ftz : Bool) (a b : Nat) : FR :=
  let x := fdec f (ftzIn f ftz a)
  let y := fdec f (ftzIn f ftz b)
  let nv := if isSig x || isSig y then fNV else 0
  match x, y with
  | .nan _, _ => { bits := canon f, flags := nv }
  | _, .nan _ => { bits := canon f, flags := nv }
  | .inf _, .inf _ => { bits := canon f, flags := fNV }
  | .inf a, .fin b _ _ => { bits := infBits f (a != b), flags := 0 }
  | .fin a _ _, .inf b => { bits := zeroBits f (a != b), flags := 0 }
  | .fin a m e, .fin b n g =>
    if n = 0 then
      if m = 0 then { bits := canon f, flags := fNV } else { bits := infBits f (a != b), flags := fDZ }
    else if m = 0 then { bits := zeroBits f (a != b), flags := 0 }
    else
      let k := 2 * f.fb + 6
      let q := divBits m n k
      froundNZ f rm ftz (a != b) q.1 (e - g - k) q.2

/-- Integer square root by bits: `k` bits still to try. -/
def isqrtBits (n : Nat) : Nat → Nat → Nat
  | 0, r => r
  | k + 1, r => let r' := r + 2 ^ k
    isqrtBits n k (if r' * r' ≤ n then r' else r)

def isqrt (n : Nat) : Nat := isqrtBits n (n.log2 / 2 + 1) 0

/-- Square root of a positive m * 2^e: rounded once. -/
def fsqrtPos (f : Fmt) (rm : Nat) (ftz : Bool) (m : Nat) (e : Int) : FR :=
  let k := 2 * f.fb + 8
  -- make the exponent even
  let m' := if e % 2 = 0 then m else m * 2
  let e' := if e % 2 = 0 then e else e - 1
  let n := m' * 2 ^ (2 * k)
  let r := isqrt n
  froundNZ f rm ftz false r (e' / 2 - k) (r * r != n)

/-- 1 over the square root of a positive m * 2^e. -/
def frsqPos (f : Fmt) (rm : Nat) (ftz : Bool) (m : Nat) (e : Int) : FR :=
  let m' := if e % 2 = 0 then m else m * 2
  let e' := if e % 2 = 0 then e else e - 1
  let k := 2 * f.fb + 8
  let n := 2 ^ (2 * k)
  let r := isqrt (n / m')
  froundNZ f rm ftz false r (-(k : Int) - e' / 2) (r * r * m' != n)

def fsqrt (f : Fmt) (rm : Nat) (ftz : Bool) (a : Nat) : FR :=
  match fdec f (ftzIn f ftz a) with
  | .nan s => { bits := canon f, flags := if s then fNV else 0 }
  | .inf false => { bits := infBits f false, flags := 0 }
  | .inf true => { bits := canon f, flags := fNV }
  | .fin n m e =>
    if m = 0 then { bits := zeroBits f n, flags := 0 }
    else if n then { bits := canon f, flags := fNV }
    else fsqrtPos f rm ftz m e

def frsq (f : Fmt) (rm : Nat) (ftz : Bool) (a : Nat) : FR :=
  match fdec f (ftzIn f ftz a) with
  | .nan s => { bits := canon f, flags := if s then fNV else 0 }
  | .inf false => { bits := zeroBits f false, flags := 0 }
  | .inf true => { bits := canon f, flags := fNV }
  | .fin n m e =>
    if m = 0 then { bits := infBits f n, flags := fDZ }
    else if n then { bits := canon f, flags := fNV }
    else frsqPos f rm ftz m e

def frcp (f : Fmt) (rm : Nat) (ftz : Bool) (a : Nat) : FR :=
  match fdec f (ftzIn f ftz a) with
  | .nan s => { bits := canon f, flags := if s then fNV else 0 }
  | .inf n => { bits := zeroBits f n, flags := 0 }
  | .fin n m e =>
    if m = 0 then { bits := infBits f n, flags := fDZ }
    else
      let k := 3 * f.fb + 8
      let q := divBits 1 m k
      froundNZ f rm ftz n q.1 (-e - k) q.2

/-- Total order of the numbers of a format by value, with -0 below +0 (spec/11 R224); NaN is handled by the callers. -/
def fkey (f : Fmt) (x : Nat) : Int :=
  let m : Nat := x % 2 ^ (f.w - 1)
  if x / 2 ^ (f.w - 1) % 2 = 1 then -(m : Int) - 1 else m

/-- MIN (or MAX) of R224. -/
def fminmax (f : Fmt) (ftz isMax : Bool) (a b : Nat) : FR :=
  let a := ftzIn f ftz a
  let b := ftzIn f ftz b
  let x := fdec f a
  let y := fdec f b
  let fl := if isSig x || isSig y then fNV else 0
  if isNan x && isNan y then { bits := canon f, flags := fl }
  else if isNan x then { bits := b, flags := fl }
  else if isNan y then { bits := a, flags := fl }
  else
    let aLess := decide (fkey f a ≤ fkey f b)
    { bits := if aLess != isMax then a else b, flags := fl }

/-- ABS and NEG of R224: the sign bit is cleared or inverted; a NaN gives the canonical one. -/
def fsign (f : Fmt) (ftz : Bool) (neg : Bool) (a : Nat) : FR :=
  let a := ftzIn f ftz a
  let x := fdec f a
  if isNan x then { bits := canon f, flags := if isSig x then fNV else 0 }
  else
    let m := a % 2 ^ (f.w - 1)
    let s := a / 2 ^ (f.w - 1) % 2 = 1
    { bits := (if neg && !s then 2 ^ (f.w - 1) else 0) + m, flags := 0 }

/-- rnd_int(x, rm) of m * 2^e (spec/10 R206): the magnitude and whether it changed. -/
def rndInt (rm : Nat) (neg : Bool) (m : Nat) (e : Int) : Nat × Bool :=
  if m = 0 then (0, false) else roundAt rm neg m e false (if e ≥ 0 then e else 0) |> fun r =>
    (if e ≥ 0 then r.1 * 2 ^ e.toNat else r.1, r.2)

/-- FRND (spec/11 R226). -/
def ffrnd (f : Fmt) (rm : Nat) (ftz : Bool) (a : Nat) : FR :=
  let a := ftzIn f ftz a
  match fdec f a with
  | .nan s => { bits := canon f, flags := if s then fNV else 0 }
  | .inf _ => { bits := a, flags := 0 }
  | .fin n m e =>
    let r := rndInt rm n m e
    { bits := (fround f 0 false n r.1 0 false).bits, flags := 0 }

/-- FCLASS's bit number (spec/11 R226). -/
def fclass (f : Fmt) (ftz : Bool) (a : Nat) : Nat :=
  let a := ftzIn f ftz a
  match fdec f a with
  | .nan true => 0
  | .nan false => 1
  | .inf n => if n then 2 else 9
  | .fin n m _ =>
    if m = 0 then (if n then 5 else 6)
    else if m < 2 ^ f.fb then (if n then 4 else 7)
    else (if n then 3 else 8)

/-- Comparison by value for SETP (spec/11 R218): less, equal, greater, unordered as 0, 1, 2, 3. -/
def fcmp (x y : FV) : Nat :=
  match x, y with
  | .nan _, _ => 3
  | _, .nan _ => 3
  | .inf a, .inf b => if a = b then 1 else if a then 0 else 2
  | .inf a, _ => if a then 0 else 2
  | _, .inf b => if b then 2 else 0
  | .fin n1 m1 e1, .fin n2 m2 e2 =>
    let d := exactAdd n1 m1 e1 (!n2) m2 e2
    if d.2.1 = 0 then 1 else if d.1 then 0 else 2

/-- The value of a D8 or D4 element under an exponent pair (spec/10 R197): none in a NaN block, else sign, magnitude, exponent. -/
def dval (d4 : Bool) (el : Nat) (pair : Nat) : Option (Bool × Nat × Int) :=
  let e0 := pair % 256
  let e1 := pair / 256 % 256
  if e0 = 255 || e1 = 255 then none
  else if d4 then
    let e := if el / 8 % 2 = 1 then e1 else e0
    some (el / 4 % 2 = 1, el % 4, (e : Int) - 128)
  else
    let e := if el / 128 % 2 = 1 then e1 else e0
    some (el / 64 % 2 = 1, el % 64, (e : Int) - 132)

/-- Conversion of a value into a floating format (spec/10 R208). -/
def fconv (dst : Fmt) (rm : Nat) (ftz : Bool) (x : FV) : FR :=
  match x with
  | .nan s => { bits := canon dst, flags := if s then fNV else 0 }
  | .inf n => { bits := infBits dst n, flags := 0 }
  | .fin n m e => fround dst rm ftz n m e false

/-- The value of an integer. -/
def intV (i : Int) : FV := .fin (decide (i < 0)) i.natAbs 0

end Sys2Proof.Machine
end

