-- ==== Sys2Proof/WellFormed.lean ====
section
/-!
DEFINITION. Well-formed words: what each opcode's fields may hold (spec/02 R28-R39, R42; spec/06 R128; spec/08 R163;
spec/11 R211-R213; spec/12 R240-R254; spec/14 R283, R291; spec/15 R299-R314; spec/19 R342; spec/22 R378; spec/26 R419). The same table
decides legality at issue (R39); there a broken check is an ILLINS trap.
-/
namespace Sys2Proof

/-- How an operand field is used. `n` counts 32-bit registers: 1, 2 or 4 (spec/02 R30). -/
inductive Pos where
  /-- Not used: MBZ. -/
  | unused
  /-- A register of the clause kind: v, w, ZERO or LANE as a source; v or ZERO as a destination. -/
  | val (n : Nat)
  /-- As `val`, without LANE. -/
  | noLane (n : Nat)
  /-- A w register or ZERO (an s register in a scalar clause). -/
  | uni (n : Nat)
  /-- A w register (an s register in a scalar clause). -/
  | wreg (n : Nat)
  /-- A fragment base: a v register, a multiple of 4, whose span of `n` registers ends at v319 or below (spec/12 R240). -/
  | frag (n : Nat)
  /-- A predicate number (an s register in a scalar clause, spec/11 R212). -/
  | pred
  /-- A tile number. -/
  | tile
  /-- Four s registers from a multiple of 4 (spec/19 R342). -/
  | quad
  /-- Four s registers from one numbered 0-60 (spec/15 R303). -/
  | run4
  /-- Bits that hold something else, with no hold bit (spec/02 R45). -/
  | other
deriving DecidableEq, Repr

/-- What an opcode's fields may hold: its type and modifiers are accepted, the MOD bits it defines, its operands, and whether it is
long-latency. -/
structure WSpec where
  ok : Bool
  mask : BitVec 8
  d : Pos
  a : Pos
  b : Pos
  c : Pos
  long : Bool
deriving DecidableEq, Repr

/-- The kinds of unit that issue words (spec/02 R42). -/
inductive UKind where
  | vector | core | sp
deriving DecidableEq, Repr

/-- The kind of a unit. -/
def UnitId.kind : UnitId → UKind
  | .warp _ _ => .vector
  | .front _ _ => .core
  | .thread _ => .sp

/-- Registers of a type code (spec/02 R30, R31). -/
def typeRegs (t : Nat) : Nat := if t = 3 || t = 7 || t = 11 then 2 else if t = 14 then 4 else 1

def isIntT (t : Nat) : Bool := t = 2 || t = 3 || t = 6 || t = 7
def isFltT (t : Nat) : Bool := t = 8 || t = 9 || t = 10 || t = 11

/-- MOD field [hi:lo] by word bit positions. -/
def modF (f : Full) (hi lo : Nat) : Nat := f.md.toNat / 2 ^ (lo - 1) % 2 ^ (hi + 1 - lo)

/-- MOD bit `k`, by its word bit position. -/
def modB (f : Full) (k : Nat) : Bool := f.md.getLsbD (k - 1)

def refusedSpec : WSpec := { ok := false, mask := 0, d := .unused, a := .unused, b := .unused, c := .unused, long := false }

/-- Fixed-latency and long-latency words with the types and modifiers accepted. -/
def fixedW (ok : Bool) (mask : BitVec 8) (d a b c : Pos) : WSpec :=
  { ok := ok, mask := mask, d := d, a := a, b := b, c := c, long := false }
def longW (ok : Bool) (mask : BitVec 8) (d a b c : Pos) : WSpec :=
  { ok := ok, mask := mask, d := d, a := a, b := b, c := c, long := true }

/-- Opcodes 0x00-0x0F (spec/15 R299-R314, spec/19 R342, spec/02 R45, spec/24 R388, spec/26 R419). -/
def specControl (op : Nat) (f : Full) : WSpec :=
  let t7 := f.ty.toNat = 7
  let n := Pos.unused
  let v := Pos.val 1
  let part := modF f 5 4
  match op with
  | 0 => fixedW (f.ty.toNat = 0) 0 n n n n
  | 1 => fixedW t7 0 n v n n
  | 2 => fixedW t7 1 n v v n
  | 3 => fixedW t7 0 n v n n
  | 4 => fixedW t7 0 n n n n
  | 5 => fixedW t7 1 n (if modF f 1 1 = 1 then v else n) .run4 v
  | 6 => fixedW t7 0 n (.noLane 1) n n
  | 7 => fixedW t7 0 n (.noLane 1) n n
  | 8 => fixedW t7 0 n n n n
  | 9 => fixedW t7 0 n v n n
  | 10 => longW t7 0 v .quad n n
  | 11 => longW t7 0 v v n n
  | 12 => fixedW (t7 && part ≠ 3) 0x1F (.val (if part = 0 then 2 else 1)) n .other n
  | 13 => fixedW (t7 && part ≤ 1) 0x1F n (.noLane (if part = 0 then 2 else 1)) .other n
  | 14 => fixedW t7 0 v v n n
  | 15 => longW t7 1 v v n n
  | _ => refusedSpec

/-- Opcodes 0x10-0x1E (spec/26 R419, spec/22 R378, spec/06 R128, R131). -/
def specSystem (op : Nat) (f : Full) : WSpec :=
  let t7 := f.ty.toNat = 7
  let n := Pos.unused
  let v := Pos.val 1
  let g := modF f 1 1 = 1
  let ga := Pos.val (if g then 2 else 1)
  match op with
  | 16 => longW t7 1 v v n n
  | 17 => longW t7 0 v v v n
  | 18 => longW t7 0 v v n n
  | 19 => longW (t7 && modF f 2 1 ≠ 3) 3 v v v n
  | 20 => fixedW t7 0x0F v n n n
  | 21 => longW t7 0 v v n n
  | 22 => longW t7 0 v v v n
  | 23 => fixedW t7 1 n n n n
  | 24 => longW t7 0 v v n n
  | 25 => longW t7 0 v (.val 2) v n
  | 26 => longW t7 0 v v v n
  | 27 => longW t7 1 v ga n n
  | 28 => longW t7 1 (.val 2) ga n n
  | 29 => longW t7 1 v ga (.val 2) n
  | 30 => longW t7 1 v ga n n
  | _ => refusedSpec

/-- Opcodes 0x20-0x2F (spec/11 R213). POPC and CLZ write 32 bits (R217's "as n32"; DEDUCED, log 14). -/
def specArith (op : Nat) (sc : Bool) (f : Full) : WSpec :=
  let t := f.ty.toNat
  let i := isIntT t
  let x := isFltT t && !sc
  let fx := isFltT t
  let n := Pos.unused
  let v := Pos.val (typeRegs t)
  let sg := t = 2 || t = 3
  let b := t = 6 || t = 7
  match op with
  | 32 => fixedW (i || x) (if fx then 7 else 8) v v v n
  | 33 => fixedW (i || x) (if fx then 7 else 8) v v v n
  | 34 => fixedW (i || x) (if fx then 7 else 8) v v v n
  | 35 => fixedW i 0 v v v n
  | 36 => fixedW i 0 v v v v
  | 37 => fixedW (i || x) (if fx then 4 else 0) v v v n
  | 38 => fixedW (i || x) (if fx then 4 else 0) v v v n
  | 39 => fixedW (sg || x) (if fx then 4 else 8) v v n n
  | 40 => fixedW (sg || x) (if fx then 4 else 8) v v n n
  | 41 => fixedW (i || x) (if fx then 7 else 0) v v v n
  | 42 => fixedW i 0 v v v n
  | 43 => fixedW (t = 6) 0x0F v v v n
  | 44 => fixedW (t = 2 || t = 6 || t = 7) 0x0F (.val 2) (.val 2) v n
  | 45 => fixedW ((i && modF f 7 5 ≤ 5) || x) (if fx then 0x77 else 0x73) .pred v v n
  | 46 => fixedW b 0 (.val 1) v n n
  | 47 => fixedW b 0 (.val 1) v n n
  | _ => refusedSpec

/-- Opcodes 0x30-0x37 (spec/11 R213). -/
def specBits (op : Nat) (f : Full) : WSpec :=
  let t := f.ty.toNat
  let n := Pos.unused
  let v := Pos.val (typeRegs t)
  let k := Pos.val 1
  let b := t = 6 || t = 7
  match op with
  | 48 => fixedW b 0 v v v n
  | 49 => fixedW b 0 v v v n
  | 50 => fixedW b 0 v v v n
  | 51 => fixedW b 0 v v n n
  | 52 => fixedW b 0 v v k n
  | 53 => fixedW (isIntT t) 0 v v k n
  | 54 => fixedW (isIntT t) 0 v v k n
  | 55 => fixedW b 0 v v k v
  | _ => refusedSpec

/-- Opcodes 0x40-0x55 in full form (spec/11 R213, spec/10 R207-R210). -/
def specFloat (op : Nat) (sc : Bool) (f : Full) : WSpec :=
  let t := f.ty.toNat
  let x := isFltT t
  let n := Pos.unused
  let v := Pos.val (typeRegs t)
  let k := Pos.val 1
  let st := modF f 7 4
  let hi := modF f 8 8 = 1
  let b := t = 6 || t = 7
  let rop := modF f 7 5
  match op with
  | 64 => fixedW x 0x1F v v v v
  | 65 => fixedW x 7 v v n n
  | 66 => fixedW x 7 v v n n
  | 67 => fixedW x 7 v v n n
  | 68 => fixedW x 7 v v n n
  | 69 => fixedW x 7 v v n n
  | 70 => fixedW x 7 v v n n
  | 71 => fixedW x 7 v v n n
  | 72 => fixedW x 7 v v n n
  | 73 => fixedW x 4 k v n n
  | 74 => fixedW (t ≤ 11 && st ≤ 11 && (!hi || st = 8 || st = 9)) 0xFF v (.val (typeRegs st)) n n
  | 75 => fixedW ((t = 12 || t = 13) && modF f 8 5 ≠ 0) 0xF4 (.val 2) k n n
  | 76 => fixedW (modF f 8 8 = 0 && (if modF f 7 7 = 0 then t = 10 else (t = 8 || t = 9) && modF f 6 6 = 0)) 0xE7 k k k n
  | 80 => fixedW (b || t = 14) 0 v v n n
  | 81 => fixedW b 0 v v v .pred
  | 82 => fixedW (b && modF f 5 3 ≤ 4) 0x1F v v k (if modF f 2 1 = 2 then v else n)
  | 83 => fixedW (t = 7) 7 (if modF f 3 1 < 4 then k else .pred) .pred n n
  | 84 => fixedW (((t = 2 || t = 6) && rop ≤ 5) || (t = 10 && rop ≤ 2)) (if t = 10 then 0x7F else 0x78) k k n n
  | 85 => fixedW (t = 6) 1 k k k k
  | _ => let _ := sc
         refusedSpec

/-- AOP's types (spec/08 R172). -/
def aopTypes (aop t : Nat) : Bool :=
  if aop ≤ 2 then isIntT t || t = 10 || t = 11
  else t = 6 || t = 7

/-- Opcodes 0x58-0x69 (spec/08 R163). -/
def specMemory (op : Nat) (f : Full) : WSpec :=
  let t := f.ty.toNat
  let t7 := t = 7
  let n := Pos.unused
  let v := Pos.val (typeRegs t)
  let addr := Pos.noLane 2
  let off := Pos.noLane 1
  let st := t = 4 || t = 5 || t = 6 || t = 7 || t = 14
  let ld := st || t = 0 || t = 1
  let b := t = 6 || t = 7
  let dd := t = 12 || t = 13
  let pol := modF f 2 1 ≠ 3
  let scope := modF f 5 3 ≤ 5
  let aop := modF f 8 6
  let one := Pos.val 1
  match op with
  | 88 => longW (ld && pol) 3 v addr n n
  | 89 => longW (st && pol && modF f 4 3 ≠ 3) 0x0F n addr v n
  | 90 => longW ld 0 v off n n
  | 91 => longW st 0 n off v n
  | 92 => longW (dd && pol) 3 (.val 2) addr n n
  | 93 => longW (dd && pol) 3 n addr (.val 2) n
  | 94 => longW (b && pol && scope) 0x1F v addr n n
  | 95 => longW (b && pol && scope) 0x1F n addr v n
  | 96 => longW (aopTypes aop t && pol && modF f 5 3 ≤ 6) 0xFF v addr v n
  | 97 => longW (aopTypes aop t && modF f 5 3 ≤ 2) 0xFC v off v n
  | 98 => longW (b && pol && modF f 5 3 ≤ 6) 0x1F v addr v v
  | 99 => longW (t7 && scope) 0x7C n n n n
  | 100 => longW (isIntT t && scope && aop ≤ 5) 0xFC v (.uni 2) (.uni (typeRegs t)) n
  | 101 => longW t7 0 one (.uni 1) (.uni 2) (.uni 1)
  | 102 => longW t7 0 one (.uni 1) (.uni 1) n
  | 103 => longW (t7 && pol) 0x23 n addr n n
  | 104 => longW t7 0 one (.uni 1) n n
  | 105 => longW t7 0 one (.uni 1) n n
  | _ => refusedSpec

/-- Matrix input types (spec/12 R237). -/
def isMatT (t : Nat) : Bool := t = 8 || t = 9 || t = 10 || t = 12 || t = 13 || t = 0

/-- Registers of a whole fragment, and q of R239 (0 for a type without scales). -/
def fragRegs (t : Nat) : Nat := if t = 10 then 16 else 32
def scaleQ (t : Nat) : Nat := if t = 12 then 1 else if t = 13 then 2 else 0

/-- Opcodes 0x6A-0x7E (spec/07 R140, R146; spec/12 R240-R254; spec/14 R283, R291). -/
def specMatrix (op : Nat) (f : Full) : WSpec :=
  let t := f.ty.toNat
  let t7 := t = 7
  let n := Pos.unused
  let one := Pos.val 1
  let scope := modF f 5 3 ≤ 5
  let fr := fragRegs t
  let q := scaleQ t
  let sc (k : Nat) : Pos := if q = 0 then n else .frag k
  let np := modF f 8 7
  let part := modF f 6 5
  let jt := modF f 8 8 = 1
  let p1 := modF f 4 4 = 1
  match op with
  | 106 => longW t7 0 one (.wreg 2) (.uni 1) (.uni 1)
  | 107 => longW t7 0 one (.wreg 2) n n
  | 108 => longW t7 0 one (.wreg 2) n n
  | 112 => longW (isMatT t) 0 .tile (.frag fr) (.frag fr) (sc (4 * q))
  | 113 =>
    let two := np = 1
    -- the part's own span ends where R246 says
    let isA := if two then part = 0 else part < 2
    let low := !two && part % 2 = 0
    let ext := if low then fr / 2 else fr
    let sx := (if isA then 0 else 2 * q) + (if low then q else 2 * q)
    longW (isMatT t && (np = 1 || np = 2) && part < 2 * np) 0xF0 .tile
      (if isA then .frag ext else n) (if isA then n else .frag ext) (sc sx)
  | 114 => fixedW t7 0 n n n n
  | 115 =>
    longW (isMatT t && (jt || !p1)) 0xF8 .tile
      (if jt && p1 then n else .frag fr) (if jt && !p1 then n else .frag 1) (sc (if jt && p1 then 1 else 2 * q))
  | 116 => longW t7 0 .tile n n n
  | 117 => longW t7 0 .tile (.wreg 2) n n
  | 120 => longW (t7 && scope) 0x1C one (.uni 2) (.uni 1) n
  | 121 => longW (t7 && scope) 0x1C one (.uni 2) n n
  | 122 => longW (t7 && scope) 0x1D one (.uni 2) (.uni 1) n
  | 123 => longW (t7 && scope) 0x1D one (.uni 2) (.uni 1) (.uni 1)
  | 124 => longW (t7 && scope) 0x1D one (.uni 2) (.uni 1) n
  | 125 => longW (t7 && scope) 0x1D one (.uni 2) (.uni 1) n
  | 126 => longW t7 0xF0 n (.uni 1) n n
  | _ => refusedSpec

/-- The table: what a full-form word of opcode `op` may hold in a vector or a scalar clause. -/
def wspec (op : Nat) (sc : Bool) (f : Full) : WSpec :=
  if op < 16 then specControl op f
  else if op < 32 then specSystem op f
  else if op < 48 then specArith op sc f
  else if op < 64 then specBits op f
  else if op < 88 then specFloat op sc f
  else if op < 106 then specMemory op f
  else specMatrix op f

/-- An operand field as a source of a vector clause (spec/02 R28, R30). -/
def srcOk (p : Pos) (x : Nat) : Bool :=
  match p with
  | .unused => x = 0
  | .val n => (x < 336 && x % n = 0) || x = 336 || x = 337
  | .noLane n => (x < 336 && x % n = 0) || x = 336
  | .uni n => (320 ≤ x && x < 336 && x % n = 0) || x = 336
  | .wreg n => 320 ≤ x && x < 336 && x % n = 0
  | .frag n => x % 4 = 0 && x + n ≤ 320
  | .pred => x < 8
  | .tile => x < 8
  | .quad => false
  | .run4 => false
  | .other => true

/-- A destination field of a vector clause. -/
def dstOk (p : Pos) (x : Nat) : Bool :=
  match p with
  | .unused => x = 0
  | .val n => (x < 320 && x % n = 0) || x = 336
  | .pred => x < 8
  | .tile => x < 8
  | _ => false

/-- An operand field of a scalar clause (spec/02 R29, R30). -/
def scalarOk (p : Pos) (x : Nat) : Bool :=
  match p with
  | .unused => x = 0
  | .val n => x < 64 && (n < 4 || x % 2 = 0)
  | .noLane n => x < 64 && (n < 4 || x % 2 = 0)
  | .uni _ => x < 64
  | .wreg _ => x < 64
  | .frag _ => false
  | .pred => x < 64
  | .tile => false
  | .quad => x < 64 && x % 4 = 0
  | .run4 => x ≤ 60
  | .other => true

/-- Whether a field loads an operand latch (spec/02 R38, spec/11 R211): fragment bases do not, being read at the grant (spec/12 R240; DEDUCED,
log 14). -/
def Pos.latches : Pos → Bool
  | .val _ => true
  | .noLane _ => true
  | .uni _ => true
  | .wreg _ => true
  | _ => false

/-- System register numbers that R46 lists. -/
def sysRegListed (n : Nat) : Bool :=
  n ≤ 0x0C || (0x10 ≤ n && n ≤ 0x1E) || (0x20 ≤ n && n ≤ 0x2E) || (0x40 ≤ n && n < 0x70) ||
  (0x80 ≤ n && n < 0x210)

/-- The register number of SREAD and SWRITE (spec/02 R45). -/
def sysNum (f : Full) : Nat := f.sb.toNat + 512 * modF f 3 1

/-- R42: the units on which an opcode is legal. -/
def unitOk (op : Nat) (k : UKind) : Bool :=
  let v := k = .vector
  let c := k = .core
  let p := k = .sp
  if op = 0 || op = 9 || op = 12 || op = 13 then true
  else if 1 ≤ op && op ≤ 4 then c || p
  else if op = 5 || op = 10 || op = 11 then c
  else if 6 ≤ op && op ≤ 8 then v
  else if op = 14 || op = 15 || (16 ≤ op && op ≤ 19) then p
  else if 20 ≤ op && op ≤ 23 then v || p
  else if 24 ≤ op && op ≤ 30 then true
  else if (32 ≤ op && op ≤ 63) || op = 80 || op = 81 then true
  else if 64 ≤ op && op ≤ 78 then v
  else if 82 ≤ op && op ≤ 85 then v
  else if op = 88 || op = 89 || op = 94 || op = 95 || op = 96 || op = 98 || op = 99 then true
  else if (90 ≤ op && op ≤ 93) || op = 97 || (100 ≤ op && op ≤ 102) then v
  else if (103 ≤ op && op ≤ 105) || op = 107 || op = 108 then true
  else if op = 106 || (112 ≤ op && op ≤ 117) || op = 126 then v
  else if 120 ≤ op && op ≤ 125 then true
  else false

/-- Transfer words (spec/15 R299). -/
def isTransfer (op : Nat) : Bool := op = 1 || op = 2 || op = 3 || op = 4 || op = 6 || op = 7

/-- Words whose every field but those they list is MBZ, the hold bits with them: EXIT (spec/15 R311), MDRAIN (spec/12 R254), TRAP, GLR and GLW (spec/22 R378). -/
def holdsNothing (op : Nat) : Bool := [0x07, 0x75, 0x09, 0x15, 0x16].contains op

/-- R39 for a full-form word, less what its clause and the preceding word decide (holds, set flags, transfer position). -/
def legalFull (op : Nat) (k : UKind) (f : Full) : Bool :=
  let sc := k != .vector
  let s := wspec op sc f
  let okF := fun (dst : Bool) (p : Pos) (x : BitVec 9) =>
    if sc then scalarOk p x.toNat else if dst then dstOk p x.toNat else srcOk p x.toNat
  let holdOk := fun (p : Pos) (h : Bool) => !h || (!sc && p.latches)
  unitOk op k && s.ok && f.md &&& ~~~s.mask = 0 && okF true s.d f.dst && okF false s.a f.sa && okF false s.b f.sb &&
  okF false s.c f.sc && holdOk s.a f.ha && holdOk s.b f.hb && holdOk s.c f.hc && (s.long || !f.fsel) &&
  (!sc || (f.pred = 7 && !f.pneg)) && ((op ≠ 12 && op ≠ 13) || sysRegListed (sysNum f)) && !(holdsNothing op && (f.ha || f.hb))

/-- R39 for an I-form word (spec/02 R34, spec/11 R220, R221). -/
def legalImm (op : Nat) (k : UKind) (f : Imm) : Bool :=
  let sc := k != .vector
  let a : Pos := if op = 0x3F then .unused else .val 1
  unitOk op k && (op = 0x4D || op = 0x4E || f.mi = 0) &&
  (if sc then scalarOk (.val 1) f.dst.toNat && scalarOk a f.sa.toNat && f.pred = 7 && !f.pneg
   else dstOk (.val 1) f.dst.toNat && srcOk a f.sa.toNat)

/-- Types a paired half accepts (spec/02 R44): PTYPE 0 s32, 1 n32, 2 f32, 3 b32. -/
def popTypes (pop pty : Nat) : Bool :=
  if 1 ≤ pop && pop ≤ 6 then pty ≤ 2
  else if 7 ≤ pop && pop ≤ 9 then pty = 3
  else if pop = 10 then pty = 1
  else if pop = 11 then pty ≤ 1
  else pop = 12 && pty = 3

/-- R35, R36, R44 for one half. -/
def legalHalf (h : Half) : Bool :=
  if h.pop = 0 then h.d = 0 && h.src = 0 && h.pty = 0 && h.mbz = 0 && !h.h
  else h.mbz = 0 && popTypes h.pop.toNat h.pty.toNat

/-- Half 0 of a paired word whose POP is `pop`. -/
def Pair.h0 (f : Pair) (pop : Nat) : Half :=
  { pop := BitVec.ofNat 6 pop, d := f.d, src := f.src, pty := f.pty, mbz := f.mbz, h := f.h }

/-- Register fields a half reads and writes, for the bank rule (spec/02 R37). -/
def halfReads (h : Half) : List Nat := if h.pop = 0 then [] else if h.h then [h.d.toNat] else [h.d.toNat, h.src.toNat]
def halfWrites (h : Half) : List Nat := if h.pop = 0 then [] else [h.d.toNat]

/-- Whether a list has no repeats. -/
def distinct : List Nat → Bool
  | [] => true
  | x :: t => !t.contains x && distinct t

/-- R39 for a paired word, less what the preceding word decides. -/
def legalPair (pop : Nat) (f : Pair) : Bool :=
  let h0 := f.h0 pop
  legalHalf h0 && legalHalf f.h1 &&
  distinct ((halfReads h0 ++ halfReads f.h1).map (· % 6)) && distinct ((halfWrites h0 ++ halfWrites f.h1).map (· % 6))

/-- What kind of row an instruction is: a word of a form with its opcode (or half 0's POP) and whether the MOD bits that tell its row from
another row of the same opcode are its own; a reserved word; or an event. -/
inductive Form where
  | full (op : Nat) (own : Bool) (f : Full)
  | imm (op : Nat) (f : Imm)
  | pair (pop : Nat) (f : Pair)
  | reserved (w : W64)
  | event
deriving DecidableEq, Repr

/-- The form, opcode and fields of an instruction (spec/02 R41, R44). -/
def Instr.form : Instr → Form
  | .nop f => .full 0 (true) f
  | .bra f => .full 1 (true) f
  | .brc f => .full 2 (true) f
  | .call f => .full 3 (true) f
  | .ret f => .full 4 (true) f
  | .dqpush f => .full 5 (true) f
  | .vbr f => .full 6 (true) f
  | .exit f => .full 7 (true) f
  | .yield f => .full 8 (true) f
  | .trap f => .full 9 (true) f
  | .spawn f => .full 10 (true) f
  | .join f => .full 11 (true) f
  | .sread f => .full 12 (true) f
  | .swrite f => .full 13 (true) f
  | .sleep f => .full 14 (true) f
  | .notify f => .full 15 (modF f 1 1 = 0) f
  | .notifyHost f => .full 15 (modF f 1 1 = 1) f
  | .preempt f => .full 16 (modF f 1 1 = 0) f
  | .preemptRel f => .full 16 (modF f 1 1 = 1) f
  | .ctxsave f => .full 17 (true) f
  | .ctxrestore f => .full 18 (true) f
  | .keybind f => .full 19 (modF f 2 1 = 0 || modF f 2 1 = 3) f
  | .keybindUnbind f => .full 19 (modF f 2 1 = 1) f
  | .keybindRevoke f => .full 19 (modF f 2 1 = 2) f
  | .ginfo f => .full 20 (true) f
  | .glr f => .full 21 (true) f
  | .glw f => .full 22 (true) f
  | .gres f => .full 23 (true) f
  | .tnode f => .full 24 (true) f
  | .tenrol f => .full 25 (true) f
  | .trep f => .full 26 (true) f
  | .tsettle f => .full 27 (true) f
  | .tread f => .full 28 (true) f
  | .tcmp f => .full 29 (true) f
  | .tdrop f => .full 30 (true) f
  | .add f => .full 32 (true) f
  | .sub f => .full 33 (true) f
  | .mul f => .full 34 (true) f
  | .mulhi f => .full 35 (true) f
  | .mad f => .full 36 (true) f
  | .min f => .full 37 (true) f
  | .max f => .full 38 (true) f
  | .abs f => .full 39 (true) f
  | .neg f => .full 40 (true) f
  | .div f => .full 41 (true) f
  | .rem f => .full 42 (true) f
  | .lea f => .full 43 (true) f
  | .lea64 f => .full 44 (true) f
  | .setp f => .full 45 (true) f
  | .popc f => .full 46 (true) f
  | .clz f => .full 47 (true) f
  | .and f => .full 48 (true) f
  | .or f => .full 49 (true) f
  | .xor f => .full 50 (true) f
  | .not f => .full 51 (true) f
  | .shl f => .full 52 (true) f
  | .shr f => .full 53 (true) f
  | .bfe f => .full 54 (true) f
  | .bfi f => .full 55 (true) f
  | .addImm f => .imm 56 f
  | .mulImm f => .imm 57 f
  | .andImm f => .imm 58 f
  | .orImm f => .imm 59 f
  | .xorImm f => .imm 60 f
  | .shlImm f => .imm 61 f
  | .shrImm f => .imm 62 f
  | .movImm f => .imm 63 f
  | .fma f => .full 64 (true) f
  | .rcp f => .full 65 (true) f
  | .rsq f => .full 66 (true) f
  | .sqrt f => .full 67 (true) f
  | .exp2 f => .full 68 (true) f
  | .log2 f => .full 69 (true) f
  | .sin f => .full 70 (true) f
  | .cos f => .full 71 (true) f
  | .frnd f => .full 72 (true) f
  | .fclass f => .full 73 (true) f
  | .cvt f => .full 74 (true) f
  | .cvtd f => .full 75 (true) f
  | .cvtx f => .full 76 (true) f
  | .addF32Imm f => .imm 77 f
  | .mulF32Imm f => .imm 78 f
  | .mov f => .full 80 (true) f
  | .sel f => .full 81 (true) f
  | .shfl f => .full 82 (true) f
  | .vote f => .full 83 (true) f
  | .redux f => .full 84 (true) f
  | .prmt f => .full 85 (true) f
  | .ld f => .full 88 (true) f
  | .st f => .full 89 (true) f
  | .lds f => .full 90 (true) f
  | .sts f => .full 91 (true) f
  | .ldd f => .full 92 (true) f
  | .std f => .full 93 (true) f
  | .ldacq f => .full 94 (true) f
  | .strel f => .full 95 (true) f
  | .atom f => .full 96 (true) f
  | .atoms f => .full 97 (true) f
  | .cas f => .full 98 (true) f
  | .fence f => .full 99 (true) f
  | .waitc f => .full 100 (true) f
  | .smap f => .full 101 (true) f
  | .sunmap f => .full 102 (true) f
  | .pref f => .full 103 (true) f
  | .retain f => .full 104 (true) f
  | .unpin f => .full 105 (true) f
  | .xcopy f => .full 106 (true) f
  | .xreplay f => .full 107 (true) f
  | .xcancel f => .full 108 (true) f
  | .mma f => .full 112 (true) f
  | .mmaj f => .full 113 (true) f
  | .mrdy f => .full 114 (true) f
  | .mgrp f => .full 115 (true) f
  | .mzero f => .full 116 (true) f
  | .mdrain f => .full 117 (true) f
  | .tqinit f => .full 120 (true) f
  | .tqkill f => .full 121 (true) f
  | .tqacq f => .full 122 (true) f
  | .tqput f => .full 123 (true) f
  | .tqget f => .full 124 (true) f
  | .tqret f => .full 125 (true) f
  | .bar f => .full 126 (true) f
  | .pairNop f => .pair 0 f
  | .pairAdd f => .pair 1 f
  | .pairSub f => .pair 2 f
  | .pairRsub f => .pair 3 f
  | .pairMul f => .pair 4 f
  | .pairMin f => .pair 5 f
  | .pairMax f => .pair 6 f
  | .pairAnd f => .pair 7 f
  | .pairOr f => .pair 8 f
  | .pairXor f => .pair 9 f
  | .pairShl f => .pair 10 f
  | .pairShr f => .pair 11 f
  | .pairMov f => .pair 12 f
  | .clauseBegin _ => .event
  | .warpUnpark _ _ => .event
  | .clauseEnd _ => .event
  | .longLatencyComplete _ _ => .event
  | .fenceComplete _ => .event
  | .tlbWalk _ _ => .event
  | .faultRecordWrite _ => .event
  | .faultRingRetry _ => .event
  | .bandwidthGrant _ _ => .event
  | .lineFill _ _ => .event
  | .writePerform _ _ => .event
  | .lineLockAcquire _ _ => .event
  | .monitorAnswer _ => .event
  | .monitorRepoll _ => .event
  | .queueWaiterServe _ => .event
  | .treeOpPerform _ => .event
  | .treeRollup _ => .event
  | .tsettleComplete _ => .event
  | .copyStart _ => .event
  | .copyComplete _ => .event
  | .matrixGrant _ => .event
  | .matrixRetire _ => .event
  | .drainStart _ => .event
  | .drainComplete _ => .event
  | .swapOut _ => .event
  | .warpEnd _ _ => .event
  | .schedulerPlace => .event
  | .poolRestore => .event
  | .budgetExhausted _ => .event
  | .teamHeld _ => .event
  | .taskStart _ => .event
  | .stealProbe _ => .event
  | .tillerSample _ => .event
  | .sourceEndSlot _ _ => .event
  | .sinkEndSlot _ _ => .event
  | .gleanerFile _ => .event
  | .cribWindowExpiry _ _ => .event
  | .sheafPlace _ => .event
  | .laneRejoin _ _ => .event
  | .absentTimeout _ _ => .event
  | .sleepWake _ => .event
  | .tlbiPage _ => .event
  | .tlbiContext _ => .event
  | .tlbiAll _ => .event
  | .tlbiDone _ => .event
  | .sliceForm _ => .event
  | .sliceResume _ => .event
  | .sliceKill _ => .event
  | .contextDestroy _ => .event
  | .overlayLoad _ => .event
  | .overlayLoadDone _ _ => .event
  | .fwctlWrite _ => .event
  | .fwlimWrite _ => .event
  | .fwscaleWrite _ => .event
  | .windowDrainDone _ => .event
  | .retctlWrite _ => .event
  | .retbaseWrite _ => .event
  | .retlimWrite _ => .event
  | .retstatWrite _ => .event
  | .retentionEnableDone _ => .event
  | .retentionReleaseDone _ => .event
  | .memsplitWrite _ => .event
  | .treebaseWrite _ => .event
  | .hqProdWrite _ => .event
  | .spctlWrite _ => .event
  | .wakestClear _ => .event
  | .sprootWrite _ => .event
  | .bootstatWrite _ => .event
  | .qrRelease _ => .event
  | .qrWriteback _ => .event
  | .portctlWrite _ => .event
  | .resetNAssert => .event
  | .railFailure _ => .event
  | .bootRom _ => .event
  | .pcieReset => .event
  | .clockThrottleStep => .event
  | .clockRecoverStep => .event
  | .thermalShutdown => .event
  | .portDetectExitIdle _ => .event
  | .portDetectTimeout _ => .event
  | .portNegotiate _ _ _ _ => .event
  | .portPartnerIdle _ => .event
  | .portTrainDone _ => .event
  | .portTrainTimeout _ => .event
  | .portLinkLoss _ => .event
  | .portRelock _ => .event
  | .portRetrainTimeout _ => .event
  | .dieLinkLoss => .event
  | .dieLinkRetrain => .event
  | .bar0Read _ => .event
  | .bar0Write _ => .event
  | .bar2Read _ => .event
  | .bar2Write _ => .event
  | .postedWriteRelease _ => .event
  | .peerRead _ => .event
  | .peerWrite _ => .event
  | .directoryGrant _ _ _ => .event
  | .snoopInvalidate _ => .event
  | .snoopInvalidateAnswer _ => .event
  | .snoopShare _ => .event
  | .getMeasurements _ => .event
  | .keyLoad _ => .event
  | .keyErase _ => .event
  | .slotQuery _ => .event
  | .lockInterfaceRequest _ => .event
  | .reservedOpcode w => .reserved w
  | .configurationRequest _ => .event
  | .perstDeassertion _ _ => .event
  | .startInterfaceRequest => .event
  | .stopInterfaceRequest => .event
  | .slicePowerGate _ => .event
  | .peerAtomic _ _ _ => .event

/-- R43, R44: the reserved primary and paired opcodes. -/
def opReserved (op : Nat) : Bool :=
  op = 0x1F || op = 0x4F || op = 0x56 || op = 0x57 || op = 0x6D || op = 0x6E || op = 0x6F || op = 0x76 || op = 0x77 || op = 0x7F

def popReserved (pop : Nat) : Bool := 0x0C < pop

/-- Whether a 64-bit word has a reserved OP or POP (spec/02 R43, R44). -/
def wordReserved (w : W64) : Bool :=
  if w.getLsbD 63 then popReserved (w.extractLsb' 54 6).toNat || popReserved (w.extractLsb' 24 6).toNat
  else opReserved (w.extractLsb' 56 7).toNat

/-- An instruction whose fields its word can hold: its own MOD bits, a second half that is not reserved, a reserved word that is. -/
def Instr.encodable (i : Instr) : Bool :=
  match i.form with
  | .full _ own _ => own
  | .imm _ _ => true
  | .pair _ f => !popReserved f.h1.pop.toNat
  | .reserved w => wordReserved w
  | .event => true

/-- A well-formed word is legal in some clause on some unit, holds and set flags apart (spec/02 R39); an event has no word. -/
def Instr.wf (i : Instr) : Bool :=
  i.encodable &&
  match i.form with
  | .full op _ f => legalFull op .vector f || legalFull op .core f || legalFull op .sp f
  | .imm op f => legalImm op .vector f || legalImm op .core f || legalImm op .sp f
  | .pair pop f => legalPair pop f
  | .reserved _ => false
  | .event => true

end Sys2Proof
end

