-- ==== Sys2Proof/Decode.lean ====
section
/-!
DEFINITION. Decoding one 64-bit word, total: every word is some instruction, a reserved OP or POP being the row that raises ILLINS
(spec/02 R26, R34, R35, R41, R43, R44); and the encoder, from the same tables.
-/
namespace Sys2Proof

/-- Fields of a full-form word (spec/02 R26). -/
def fullOf (w : W64) : Full :=
  { pneg := w.getLsbD 55, pred := w.extractLsb' 52 3, dst := w.extractLsb' 43 9, sa := w.extractLsb' 34 9, sb := w.extractLsb' 25 9,
    sc := w.extractLsb' 16 9, ha := w.getLsbD 15, hb := w.getLsbD 14, hc := w.getLsbD 13, ty := w.extractLsb' 9 4,
    md := w.extractLsb' 1 8, fsel := w.getLsbD 0 }

/-- Fields of an I-form word (spec/02 R34). -/
def immOf (w : W64) : Imm :=
  { pneg := w.getLsbD 55, pred := w.extractLsb' 52 3, dst := w.extractLsb' 43 9, sa := w.extractLsb' 34 9, imm := w.extractLsb' 2 32,
    mi := w.extractLsb' 0 2 }

/-- One half of a paired word, from its 30 bits (spec/02 R35). -/
def halfOf (h : BitVec 30) : Half :=
  { pop := h.extractLsb' 24 6, d := h.extractLsb' 16 8, src := h.extractLsb' 8 8, pty := h.extractLsb' 5 3, mbz := h.extractLsb' 1 4,
    h := h.getLsbD 0 }

/-- Fields of a paired word but half 0's POP (spec/02 R35). -/
def pairOf (w : W64) : Pair :=
  let h0 := halfOf (w.extractLsb' 30 30)
  { pred := w.extractLsb' 60 3, d := h0.d, src := h0.src, pty := h0.pty, mbz := h0.mbz, h := h0.h, h1 := halfOf (w.extractLsb' 0 30) }

/-- Opcodes 0x00-0x0F of the primary map (spec/02 R41). -/
def decodeOps0 (op : Nat) (w : W64) (f : Full) (i : Imm) : Instr :=
  match op with
  | 0 => .nop f
  | 1 => .bra f
  | 2 => .brc f
  | 3 => .call f
  | 4 => .ret f
  | 5 => .dqpush f
  | 6 => .vbr f
  | 7 => .exit f
  | 8 => .yield f
  | 9 => .trap f
  | 10 => .spawn f
  | 11 => .join f
  | 12 => .sread f
  | 13 => .swrite f
  | 14 => .sleep f
  | 15 => if modF f 1 1 = 1 then .notifyHost f else .notify f
  | _ => let _ := i
         .reservedOpcode w

/-- Opcodes 0x10-0x1F of the primary map (spec/02 R41). -/
def decodeOps1 (op : Nat) (w : W64) (f : Full) (i : Imm) : Instr :=
  match op with
  | 16 => if modF f 1 1 = 1 then .preemptRel f else .preempt f
  | 17 => .ctxsave f
  | 18 => .ctxrestore f
  | 19 => if modF f 2 1 = 1 then .keybindUnbind f else if modF f 2 1 = 2 then .keybindRevoke f else .keybind f
  | 20 => .ginfo f
  | 21 => .glr f
  | 22 => .glw f
  | 23 => .gres f
  | 24 => .tnode f
  | 25 => .tenrol f
  | 26 => .trep f
  | 27 => .tsettle f
  | 28 => .tread f
  | 29 => .tcmp f
  | 30 => .tdrop f
  | _ => let _ := i
         .reservedOpcode w

/-- Opcodes 0x20-0x2F of the primary map (spec/02 R41). -/
def decodeOps2 (op : Nat) (w : W64) (f : Full) (i : Imm) : Instr :=
  match op with
  | 32 => .add f
  | 33 => .sub f
  | 34 => .mul f
  | 35 => .mulhi f
  | 36 => .mad f
  | 37 => .min f
  | 38 => .max f
  | 39 => .abs f
  | 40 => .neg f
  | 41 => .div f
  | 42 => .rem f
  | 43 => .lea f
  | 44 => .lea64 f
  | 45 => .setp f
  | 46 => .popc f
  | 47 => .clz f
  | _ => let _ := i
         .reservedOpcode w

/-- Opcodes 0x30-0x3F of the primary map (spec/02 R41). -/
def decodeOps3 (op : Nat) (w : W64) (f : Full) (i : Imm) : Instr :=
  match op with
  | 48 => .and f
  | 49 => .or f
  | 50 => .xor f
  | 51 => .not f
  | 52 => .shl f
  | 53 => .shr f
  | 54 => .bfe f
  | 55 => .bfi f
  | 56 => .addImm i
  | 57 => .mulImm i
  | 58 => .andImm i
  | 59 => .orImm i
  | 60 => .xorImm i
  | 61 => .shlImm i
  | 62 => .shrImm i
  | 63 => .movImm i
  | _ => .reservedOpcode w

/-- Opcodes 0x40-0x4F of the primary map (spec/02 R41). -/
def decodeOps4 (op : Nat) (w : W64) (f : Full) (i : Imm) : Instr :=
  match op with
  | 64 => .fma f
  | 65 => .rcp f
  | 66 => .rsq f
  | 67 => .sqrt f
  | 68 => .exp2 f
  | 69 => .log2 f
  | 70 => .sin f
  | 71 => .cos f
  | 72 => .frnd f
  | 73 => .fclass f
  | 74 => .cvt f
  | 75 => .cvtd f
  | 76 => .cvtx f
  | 77 => .addF32Imm i
  | 78 => .mulF32Imm i
  | _ => .reservedOpcode w

/-- Opcodes 0x50-0x5F of the primary map (spec/02 R41). -/
def decodeOps5 (op : Nat) (w : W64) (f : Full) (i : Imm) : Instr :=
  match op with
  | 80 => .mov f
  | 81 => .sel f
  | 82 => .shfl f
  | 83 => .vote f
  | 84 => .redux f
  | 85 => .prmt f
  | 88 => .ld f
  | 89 => .st f
  | 90 => .lds f
  | 91 => .sts f
  | 92 => .ldd f
  | 93 => .std f
  | 94 => .ldacq f
  | 95 => .strel f
  | _ => let _ := i
         .reservedOpcode w

/-- Opcodes 0x60-0x6F of the primary map (spec/02 R41). -/
def decodeOps6 (op : Nat) (w : W64) (f : Full) (i : Imm) : Instr :=
  match op with
  | 96 => .atom f
  | 97 => .atoms f
  | 98 => .cas f
  | 99 => .fence f
  | 100 => .waitc f
  | 101 => .smap f
  | 102 => .sunmap f
  | 103 => .pref f
  | 104 => .retain f
  | 105 => .unpin f
  | 106 => .xcopy f
  | 107 => .xreplay f
  | 108 => .xcancel f
  | _ => let _ := i
         .reservedOpcode w

/-- Opcodes 0x70-0x7F of the primary map (spec/02 R41). -/
def decodeOps7 (op : Nat) (w : W64) (f : Full) (i : Imm) : Instr :=
  match op with
  | 112 => .mma f
  | 113 => .mmaj f
  | 114 => .mrdy f
  | 115 => .mgrp f
  | 116 => .mzero f
  | 117 => .mdrain f
  | 120 => .tqinit f
  | 121 => .tqkill f
  | 122 => .tqacq f
  | 123 => .tqput f
  | 124 => .tqget f
  | 125 => .tqret f
  | 126 => .bar f
  | _ => let _ := i
         .reservedOpcode w

/-- A word of the full or I-form (spec/02 R26, R34). -/
def decodeSingle (w : W64) : Instr :=
  let op := (w.extractLsb' 56 7).toNat
  let f := fullOf w
  let i := immOf w
  if op < 16 then decodeOps0 op w f i
  else if op < 32 then decodeOps1 op w f i
  else if op < 48 then decodeOps2 op w f i
  else if op < 64 then decodeOps3 op w f i
  else if op < 80 then decodeOps4 op w f i
  else if op < 96 then decodeOps5 op w f i
  else if op < 112 then decodeOps6 op w f i
  else decodeOps7 op w f i

/-- A paired word, by half 0's POP (spec/02 R44). -/
def decodePairPop (pop : Nat) (w : W64) (f : Pair) : Instr :=
  match pop with
  | 0 => .pairNop f
  | 1 => .pairAdd f
  | 2 => .pairSub f
  | 3 => .pairRsub f
  | 4 => .pairMul f
  | 5 => .pairMin f
  | 6 => .pairMax f
  | 7 => .pairAnd f
  | 8 => .pairOr f
  | 9 => .pairXor f
  | 10 => .pairShl f
  | 11 => .pairShr f
  | 12 => .pairMov f
  | _ => .reservedOpcode w

/-- The instruction of a 64-bit word. -/
def decodeWord (w : W64) : Instr :=
  if w.getLsbD 63 then
    if popReserved (w.extractLsb' 24 6).toNat then .reservedOpcode w
    else decodePairPop (w.extractLsb' 54 6).toNat w (pairOf w)
  else decodeSingle w

/-- A field placed at bit `k` of a word. -/
def fieldAt {n : Nat} (x : BitVec n) (k : Nat) : Nat := 2 ^ k * x.toNat
def bitAt (b : Bool) (k : Nat) : Nat := 2 ^ k * b.toNat

/-- A full-form word (spec/02 R26). -/
def encodeFull (op : Nat) (f : Full) : W64 :=
  BitVec.ofNat 64 (op * 2 ^ 56 + bitAt f.pneg 55 + fieldAt f.pred 52 + fieldAt f.dst 43 + fieldAt f.sa 34 + fieldAt f.sb 25 +
    fieldAt f.sc 16 + bitAt f.ha 15 + bitAt f.hb 14 + bitAt f.hc 13 + fieldAt f.ty 9 + fieldAt f.md 1 + bitAt f.fsel 0)

/-- An I-form word (spec/02 R34). -/
def encodeImm (op : Nat) (f : Imm) : W64 :=
  BitVec.ofNat 64 (op * 2 ^ 56 + bitAt f.pneg 55 + fieldAt f.pred 52 + fieldAt f.dst 43 + fieldAt f.sa 34 + fieldAt f.imm 2 +
    fieldAt f.mi 0)

/-- The 30 bits of a half (spec/02 R35). -/
def encodeHalf (h : Half) : Nat :=
  fieldAt h.pop 24 + fieldAt h.d 16 + fieldAt h.src 8 + fieldAt h.pty 5 + fieldAt h.mbz 1 + bitAt h.h 0

/-- A paired word (spec/02 R35). -/
def encodePair (pop : Nat) (f : Pair) : W64 :=
  BitVec.ofNat 64 (2 ^ 63 + fieldAt f.pred 60 + 2 ^ 30 * encodeHalf (f.h0 pop) + encodeHalf f.h1)

/-- The word of an instruction; an event row has none. -/
def encode (i : Instr) : Option W64 :=
  match i.form with
  | .full op _ f => some (encodeFull op f)
  | .imm op f => some (encodeImm op f)
  | .pair pop f => some (encodePair pop f)
  | .reserved w => some w
  | .event => none

/-- The host's probe: a word whose bits are numbered as spec/opcode_table.json numbers them. A Billan word is one 64-bit word (spec/02
R26), little-endian in memory (spec/03 R59). -/
def decodeTableWord (nbits w : Nat) : Option Instr :=
  if nbits ≤ 64 then some (decodeWord (BitVec.ofNat 64 w)) else none

/-! ### Words written out from the spec's encodings

One word for each constructor: where spec/ works one out (spec/02, 03, 06, 07, 08, 11, 12, 14, 15, 19, 22, 24, 26 and the programs of 16, 17, 18, 21,
23, 25, 27), that word; else one written from the layouts of R26, R34 and R35 and the maps of R41 and R44. -/

/-- A full-form word with PRED 7, no negation, no hold and FSEL 0. -/
def fullWord (dst sa sb sc : BitVec 9) (ty : BitVec 4) (md : BitVec 8) : Full :=
  { pneg := false, pred := 7, dst := dst, sa := sa, sb := sb, sc := sc, ha := false, hb := false, hc := false, ty := ty, md := md, fsel := false }

theorem words_00_1 :
    decodeWord 0x0070000000000000#64 = .nop (fullWord 0 0 0 0 0 0) ∧
    decodeWord 0x0170001400000E00#64 = .bra (fullWord 0 5 0 0 7 0) ∧
    decodeWord 0x027000140C000E02#64 = .brc (fullWord 0 5 6 0 7 1) ∧
    decodeWord 0x0370001400000E00#64 = .call (fullWord 0 5 0 0 7 0) ∧
    decodeWord 0x0470000000000E00#64 = .ret (fullWord 0 0 0 0 7 0) ∧
    decodeWord 0x0570002018140E02#64 = .dqpush (fullWord 0 8 12 20 7 1) ∧
    decodeWord 0x0610000800000E00#64 = .vbr { fullWord 0 2 0 0 7 0 with pred := 1 } ∧
    decodeWord 0x0770054000000E00#64 = .exit (fullWord 0 336 0 0 7 0) := by
  decide

theorem words_00_2 :
    decodeWord 0x0870000000000E00#64 = .yield (fullWord 0 0 0 0 7 0) ∧
    decodeWord 0x0970001400000E00#64 = .trap (fullWord 0 5 0 0 7 0) ∧
    decodeWord 0x0A70182000000E00#64 = .spawn (fullWord 3 8 0 0 7 0) ∧
    decodeWord 0x0B70202400000E00#64 = .join (fullWord 4 9 0 0 7 0) ∧
    decodeWord 0x0C70A00004000E00#64 = .sread (fullWord 20 0 2 0 7 0) ∧
    decodeWord 0x0D7000128A000E00#64 = .swrite (fullWord 0 4 325 0 7 0) ∧
    decodeWord 0x0E70201400000E00#64 = .sleep (fullWord 4 5 0 0 7 0) ∧
    decodeWord 0x0F91619888281000#64 = .notify { fullWord 44 102 68 40 8 0 with pneg := true, pred := 1 } := by
  decide

theorem words_00_3 :
    decodeWord 0x0F70180800000E02#64 = .notifyHost (fullWord 3 2 0 0 7 1) := by
  decide

theorem words_10_1 :
    decodeWord 0x1070201400000E00#64 = .preempt (fullWord 4 5 0 0 7 0) ∧
    decodeWord 0x1070201400000E02#64 = .preemptRel (fullWord 4 5 0 0 7 1) ∧
    decodeWord 0x1170302012000E00#64 = .ctxsave (fullWord 6 8 9 0 7 0) ∧
    decodeWord 0x1270302000000E00#64 = .ctxrestore (fullWord 6 8 0 0 7 0) ∧
    decodeWord 0x1322AB1D02459E00#64 = .keybind { fullWord 85 199 129 69 15 0 with ha := true, pred := 2 } ∧
    decodeWord 0x13B3F4A17C62CC02#64 = .keybindUnbind { fullWord 126 296 190 98 6 1 with pneg := true, ha := true, hb := true, pred := 3 } ∧
    decodeWord 0x1370382816000E04#64 = .keybindRevoke (fullWord 7 10 11 0 7 2) ∧
    decodeWord 0x1470480000000E06#64 = .ginfo (fullWord 9 0 0 0 7 3) := by
  decide

theorem words_10_2 :
    decodeWord 0x1570601000000E00#64 = .glr (fullWord 12 4 0 0 7 0) ∧
    decodeWord 0x167068100C000E01#64 = .glw { fullWord 13 4 6 0 7 0 with fsel := true } ∧
    decodeWord 0x1770000000000E00#64 = .gres (fullWord 0 0 0 0 7 0) ∧
    decodeWord 0x1810482000000E00#64 = .tnode { fullWord 9 8 0 0 7 0 with pred := 1 } ∧
    decodeWord 0x191A800012000E00#64 = .tenrol { fullWord 336 0 9 0 7 0 with pred := 1 } ∧
    decodeWord 0x1A10902812000E00#64 = .trep { fullWord 18 10 9 0 7 0 with pred := 1 } ∧
    decodeWord 0x1B70202800000E02#64 = .tsettle (fullWord 4 10 0 0 7 1) ∧
    decodeWord 0x1C70A01400000E00#64 = .tread (fullWord 20 5 0 0 7 0) := by
  decide

theorem words_10_3 :
    decodeWord 0x1D70181410000E01#64 = .tcmp { fullWord 3 5 8 0 7 0 with fsel := true } ∧
    decodeWord 0x1E453E25F67F5B3E#64 = .tdrop { fullWord 167 393 251 127 13 159 with hb := true, pred := 4 } := by
  decide

theorem words_20_1 :
    decodeWord 0x20A028180E001402#64 = .add { fullWord 5 6 7 0 10 1 with pneg := true, pred := 2 } ∧
    decodeWord 0x217018100A000600#64 = .sub (fullWord 3 4 5 0 3 0) ∧
    decodeWord 0x22D687AA709C6988#64 = .mul { fullWord 208 490 312 156 4 196 with pneg := true, hb := true, hc := true, pred := 5 } ∧
    decodeWord 0x2367C92EEAB9B7D2#64 = .mulhi { fullWord 249 75 373 185 11 233 with ha := true, hc := true, pred := 6 } ∧
    decodeWord 0x2470001818010400#64 = .mad (fullWord 0 6 12 1 2 0) ∧
    decodeWord 0x25F912B364D6A41D#64 = .min { fullWord 290 172 434 214 2 14 with pneg := true, ha := true, hc := true, fsel := true } ∧
    decodeWord 0x260A5C37DEF33267#64 = .max { fullWord 331 269 495 243 9 51 with hc := true, fsel := true, pred := 0 } ∧
    decodeWord 0x279BA5B8591060B1#64 = .abs { fullWord 372 366 44 272 0 88 with pneg := true, hb := true, hc := true, fsel := true, pred := 1 } := by
  decide

theorem words_20_2 :
    decodeWord 0x282CEF3CD32DCEFB#64 = .neg { fullWord 413 463 105 301 7 125 with ha := true, hb := true, fsel := true, pred := 2 } ∧
    decodeWord 0x2970382012000400#64 = .div (fullWord 7 8 9 0 2 0) ∧
    decodeWord 0x2ABE30C14D4ADD45#64 = .rem { fullWord 454 48 166 330 14 162 with pneg := true, ha := true, hb := true, fsel := true, pred := 3 } ∧
    decodeWord 0x2B7078381C000C02#64 = .lea (fullWord 15 14 14 0 6 1) ∧
    decodeWord 0x2C7050300E000C06#64 = .lea64 (fullWord 10 12 7 0 6 3) ∧
    decodeWord 0x2D20182816001442#64 = .setp { fullWord 3 10 11 0 10 33 with pred := 2 } ∧
    decodeWord 0x2E4F7A45C7670B8F#64 = .popc { fullWord 495 145 227 359 5 199 with fsel := true, pred := 4 } ∧
    decodeWord 0x2FD0C3CA418419D9#64 = .clz { fullWord 24 242 288 388 12 236 with pneg := true, fsel := true, pred := 5 } := by
  decide

theorem words_30_1 :
    decodeWord 0x30620D4EBBA18622#64 = .and { fullWord 65 339 349 417 3 17 with ha := true, pred := 6 } ∧
    decodeWord 0x31F356D335BEF46C#64 = .or { fullWord 106 436 410 446 10 54 with pneg := true, ha := true, hb := true, hc := true } ∧
    decodeWord 0x32049857AFDB62B6#64 = .xor { fullWord 147 21 471 475 1 91 with hb := true, hc := true, pred := 0 } ∧
    decodeWord 0x3395E1D829F87100#64 = .not { fullWord 188 118 20 504 8 128 with pneg := true, hb := true, hc := true, pred := 1 } ∧
    decodeWord 0x34272B5CA215BF4A#64 = .shl { fullWord 229 215 81 21 15 165 with ha := true, hc := true, pred := 2 } ∧
    decodeWord 0x35B874E11C32AD94#64 = .shr { fullWord 270 312 142 50 6 202 with pneg := true, ha := true, hc := true, pred := 3 } ∧
    decodeWord 0x3649BE65964F1BDE#64 = .bfe { fullWord 311 409 203 79 13 239 with pred := 4 } ∧
    decodeWord 0x37DB07EA106C4829#64 = .bfi { fullWord 352 506 264 108 4 20 with pneg := true, hb := true, fsel := true, pred := 5 } := by
  decide

theorem words_30_2 :
    decodeWord 0x3810181000000190#64 = .addImm { pneg := false, pred := 1, dst := 3, sa := 4, imm := 0x00000064#32, mi := 0 } ∧
    decodeWord 0x396C496E6311D79E#64 = .mulImm { pneg := false, pred := 6, dst := 393, sa := 91, imm := 0x98C475E7#32, mi := 2 } ∧
    decodeWord 0x3AFD92F0DBEFBE83#64 = .andImm { pneg := true, pred := 7, dst := 434, sa := 188, imm := 0x36FBEFA0#32, mi := 3 } ∧
    decodeWord 0x3B0EDC7754CDA564#64 = .orImm { pneg := false, pred := 0, dst := 475, sa := 285, imm := 0xD5336959#32, mi := 0 } ∧
    decodeWord 0x3C9025F9CDAB8C49#64 = .xorImm { pneg := true, pred := 1, dst := 4, sa := 382, imm := 0x736AE312#32, mi := 1 } ∧
    decodeWord 0x3D216F7C4689732E#64 = .shlImm { pneg := false, pred := 2, dst := 45, sa := 479, imm := 0x11A25CCB#32, mi := 2 } ∧
    decodeWord 0x3E70281000000070#64 = .shrImm { pneg := false, pred := 7, dst := 5, sa := 4, imm := 0x0000001C#32, mi := 0 } ∧
    decodeWord 0x3F70B003FFFFFE20#64 = .movImm { pneg := false, pred := 7, dst := 22, sa := 0, imm := 0xFFFFFF88#32, mi := 0 } := by
  decide

theorem words_40_1 :
    decodeWord 0x407050301C0A1400#64 = .fma (fullWord 10 12 14 10 10 0) ∧
    decodeWord 0x41B2B100ED1AFDE5#64 = .rcp { fullWord 86 64 118 282 14 242 with pneg := true, ha := true, hb := true, hc := true, fsel := true, pred := 3 } ∧
    decodeWord 0x4243FA8567376A2E#64 = .rsq { fullWord 127 161 179 311 5 23 with hb := true, hc := true, pred := 4 } ∧
    decodeWord 0x43D54409E1547878#64 = .sqrt { fullWord 168 258 240 340 12 60 with pneg := true, hb := true, hc := true, pred := 5 } ∧
    decodeWord 0x44668D8E5B7186C2#64 = .exp2 { fullWord 209 355 301 369 3 97 with ha := true, pred := 6 } ∧
    decodeWord 0x45F7D712D58E950C#64 = .log2 { fullWord 250 452 362 398 10 134 with pneg := true, ha := true } ∧
    decodeWord 0x460918974FAB0356#64 = .sin { fullWord 291 37 423 427 1 171 with pred := 0 } ∧
    decodeWord 0x479A621BC9C851A0#64 = .cos { fullWord 332 134 484 456 8 208 with pneg := true, hb := true, pred := 1 } := by
  decide

theorem words_40_2 :
    decodeWord 0x482BAB9C43E5DFEA#64 = .frnd { fullWord 373 231 33 485 15 245 with ha := true, hb := true, pred := 2 } ∧
    decodeWord 0x49BCF520BC02EC35#64 = .fclass { fullWord 414 328 94 2 6 26 with pneg := true, ha := true, hb := true, hc := true, fsel := true, pred := 3 } ∧
    decodeWord 0x4A70281C000004A2#64 = .cvt (fullWord 5 7 0 0 2 81) ∧
    decodeWord 0x4B70A00C00001880#64 = .cvtd (fullWord 20 3 0 0 12 64) ∧
    decodeWord 0x4C70482816001080#64 = .cvtx (fullWord 9 10 11 0 8 64) ∧
    decodeWord 0x4D4E3EA4FF347814#64 = .addF32Imm { pneg := false, pred := 4, dst := 455, sa := 425, imm := 0x3FCD1E05#32, mi := 0 } ∧
    decodeWord 0x4E703018FC000001#64 = .mulF32Imm { pneg := false, pred := 7, dst := 6, sa := 6, imm := 0x3F000000#32, mi := 1 } := by
  decide

theorem words_50_1 :
    decodeWord 0x5070481000000E00#64 = .mov (fullWord 9 4 0 0 7 0) ∧
    decodeWord 0x51706036A0030C00#64 = .sel (fullWord 12 13 336 3 6 0) ∧
    decodeWord 0x5270A05686000C16#64 = .shfl (fullWord 20 21 323 0 6 11) ∧
    decodeWord 0x53DF8029B03C28C9#64 = .vote { fullWord 496 10 216 60 4 100 with pneg := true, hc := true, fsel := true, pred := 5 } ∧
    decodeWord 0x5470F07C00001400#64 = .redux (fullWord 30 31 0 0 10 0) ∧
    decodeWord 0x5570100C08050C00#64 = .prmt (fullWord 2 3 4 5 6 0) ∧
    decodeWord 0x5870485000000C02#64 = .ld (fullWord 9 20 0 0 6 1) ∧
    decodeWord 0x5970001814000E11#64 = .st { fullWord 0 6 10 0 7 8 with fsel := true } := by
  decide

theorem words_50_2 :
    decodeWord 0x5A60C9AE2A59B713#64 = .lds { fullWord 25 107 277 89 11 137 with ha := true, hc := true, fsel := true, pred := 6 } ∧
    decodeWord 0x5B1001E8FA000A00#64 = .sts { fullWord 0 122 125 0 5 0 with pred := 1 } ∧
    decodeWord 0x5CF21332A476E55D#64 = .ldd { fullWord 66 204 338 118 2 174 with pneg := true, ha := true, hb := true, hc := true, fsel := true } ∧
    decodeWord 0x5D035CB71E9353A7#64 = .std { fullWord 107 301 399 147 9 211 with hb := true, fsel := true, pred := 0 } ∧
    decodeWord 0x5E70908000000C20#64 = .ldacq (fullWord 18 32 0 0 6 16) ∧
    decodeWord 0x5F70001830000C20#64 = .strel (fullWord 0 6 24 0 6 16) := by
  decide

theorem words_60_1 :
    decodeWord 0x607060101A001428#64 = .atom (fullWord 12 4 13 0 10 20) ∧
    decodeWord 0x6194A63B98B041F1#64 = .atoms { fullWord 148 398 460 176 0 248 with pneg := true, hb := true, fsel := true, pred := 1 } ∧
    decodeWord 0x6225EFBC12CD8E3A#64 = .cas { fullWord 189 495 9 205 7 29 with ha := true, pred := 2 } ∧
    decodeWord 0x6370000000000EA0#64 = .fence (fullWord 0 0 0 0 7 80) ∧
    decodeWord 0x64703D0A8A000D58#64 = .waitc (fullWord 7 322 325 0 6 172) ∧
    decodeWord 0x65B731408CEA9C84#64 = .smap { fullWord 230 80 70 234 14 66 with pneg := true, ha := true, pred := 3 } ∧
    decodeWord 0x66487AC507070ACE#64 = .sunmap { fullWord 271 177 131 263 5 103 with pred := 4 } ∧
    decodeWord 0x67D9C44981247918#64 = .pref { fullWord 312 274 192 292 12 140 with pneg := true, hb := true, hc := true, pred := 5 } := by
  decide

theorem words_60_2 :
    decodeWord 0x686B0DCDFB41E762#64 = .retain { fullWord 353 371 253 321 3 177 with ha := true, hb := true, hc := true, pred := 6 } ∧
    decodeWord 0x69FC5752755EF5AC#64 = .unpin { fullWord 394 468 314 350 10 214 with pneg := true, ha := true, hb := true, hc := true } ∧
    decodeWord 0x6A70F5128D470E00#64 = .xcopy (fullWord 30 324 326 327 7 0) ∧
    decodeWord 0x6B70FD2000000E01#64 = .xreplay { fullWord 31 328 0 0 7 0 with fsel := true } ∧
    decodeWord 0x6C70282800000E00#64 = .xcancel (fullWord 5 10 0 0 7 0) := by
  decide

theorem words_70_1 :
    decodeWord 0x70701100C0001200#64 = .mma (fullWord 2 64 96 0 9 0) ∧
    decodeWord 0x71700800C00012A0#64 = .mmaj (fullWord 1 0 96 0 9 80) ∧
    decodeWord 0x7270000000000E00#64 = .mrdy (fullWord 0 0 0 0 7 0) ∧
    decodeWord 0x7370188080A01840#64 = .mgrp (fullWord 3 32 64 160 12 32) ∧
    decodeWord 0x7470280000000E00#64 = .mzero (fullWord 5 0 0 0 7 0) ∧
    decodeWord 0x7570151000000E00#64 = .mdrain (fullWord 2 324 0 0 7 0) ∧
    decodeWord 0x780D98D6EF7B23F6#64 = .tqinit { fullWord 435 53 375 379 1 251 with hc := true, pred := 0 } ∧
    decodeWord 0x799EE25B69983041#64 = .tqkill { fullWord 476 150 436 408 8 32 with pneg := true, hc := true, fsel := true, pred := 1 } := by
  decide

theorem words_70_2 :
    decodeWord 0x7A70202816000E10#64 = .tqacq (fullWord 4 10 11 0 7 8) ∧
    decodeWord 0x7B704D0A8D470E12#64 = .tqput (fullWord 9 322 326 327 7 9) ∧
    decodeWord 0x7C70450A88000E12#64 = .tqget (fullWord 8 322 324 0 7 9) ∧
    decodeWord 0x7D708D028E000E1A#64 = .tqret (fullWord 17 320 327 0 7 13) ∧
    decodeWord 0x7E70050400000E60#64 = .bar (fullWord 0 321 0 0 7 48) := by
  decide

theorem words_paired_1 :
    decodeWord 0x9000000005352046#64 = .pairNop { pred := 1, d := 0, src := 0, pty := 0, mbz := 0, h := false, h1 := { pop := 5, d := 53, src := 32, pty := 2, mbz := 3, h := false } } ∧
    decodeWord 0xF041835004020940#64 = .pairAdd { pred := 7, d := 6, src := 13, pty := 2, mbz := 0, h := false, h1 := { pop := 4, d := 2, src := 9, pty := 2, mbz := 0, h := false } } ∧
    decodeWord 0xB08CC499C29F5E12#64 = .pairSub { pred := 3, d := 51, src := 18, pty := 3, mbz := 3, h := true, h1 := { pop := 2, d := 159, src := 94, pty := 0, mbz := 9, h := false } } ∧
    decodeWord 0xC0D11B4207D47D39#64 = .pairRsub { pred := 4, d := 68, src := 109, pty := 0, mbz := 4, h := false, h1 := { pop := 7, d := 212, src := 125, pty := 1, mbz := 12, h := true } } ∧
    decodeWord 0xD115720ACC099C5E#64 = .pairMul { pred := 5, d := 85, src := 200, pty := 1, mbz := 5, h := true, h1 := { pop := 12, d := 9, src := 156, pty := 2, mbz := 15, h := false } } ∧
    decodeWord 0xE15988D3043EBB65#64 = .pairMin { pred := 6, d := 102, src := 35, pty := 2, mbz := 6, h := false, h1 := { pop := 4, d := 62, src := 187, pty := 3, mbz := 2, h := true } } ∧
    decodeWord 0xF19DDF9BC973DA0A#64 = .pairMax { pred := 7, d := 119, src := 126, pty := 3, mbz := 7, h := true, h1 := { pop := 9, d := 115, src := 218, pty := 0, mbz := 5, h := false } } ∧
    decodeWord 0x81E2364401A8F931#64 = .pairAnd { pred := 0, d := 136, src := 217, pty := 0, mbz := 8, h := false, h1 := { pop := 1, d := 168, src := 249, pty := 1, mbz := 8, h := true } } := by
  decide

theorem words_paired_2 :
    decodeWord 0x92264D0CC6DD1856#64 = .pairOr { pred := 1, d := 153, src := 52, pty := 1, mbz := 9, h := true, h1 := { pop := 6, d := 221, src := 24, pty := 2, mbz := 11, h := false } } ∧
    decodeWord 0xA26AA3D50B12377D#64 = .pairXor { pred := 2, d := 170, src := 143, pty := 2, mbz := 10, h := false, h1 := { pop := 11, d := 18, src := 55, pty := 3, mbz := 14, h := true } } ∧
    decodeWord 0xB2AEFA9DC3475602#64 = .pairShl { pred := 3, d := 187, src := 234, pty := 3, mbz := 11, h := true, h1 := { pop := 3, d := 71, src := 86, pty := 0, mbz := 1, h := false } } ∧
    decodeWord 0xC2F31146087C7529#64 = .pairShr { pred := 4, d := 204, src := 69, pty := 0, mbz := 12, h := false, h1 := { pop := 8, d := 124, src := 117, pty := 1, mbz := 4, h := true } } ∧
    decodeWord 0xD337680EC0B1944E#64 = .pairMov { pred := 5, d := 221, src := 160, pty := 1, mbz := 13, h := true, h1 := { pop := 0, d := 177, src := 148, pty := 2, mbz := 7, h := false } } := by
  decide

theorem words_reserved_1 :
    decodeWord 0x1F00000000000000#64 = .reservedOpcode 0x1F00000000000000#64 ∧
    decodeWord 0x4F00000000000000#64 = .reservedOpcode 0x4F00000000000000#64 ∧
    decodeWord 0x5600000000000000#64 = .reservedOpcode 0x5600000000000000#64 ∧
    decodeWord 0x5700000000000000#64 = .reservedOpcode 0x5700000000000000#64 ∧
    decodeWord 0x6D00000000000000#64 = .reservedOpcode 0x6D00000000000000#64 ∧
    decodeWord 0x6E00000000000000#64 = .reservedOpcode 0x6E00000000000000#64 ∧
    decodeWord 0x6F00000000000000#64 = .reservedOpcode 0x6F00000000000000#64 ∧
    decodeWord 0x7600000000000000#64 = .reservedOpcode 0x7600000000000000#64 := by
  decide

theorem words_reserved_2 :
    decodeWord 0x7700000000000000#64 = .reservedOpcode 0x7700000000000000#64 ∧
    decodeWord 0x7F00000000000000#64 = .reservedOpcode 0x7F00000000000000#64 ∧
    decodeWord 0x8340000000000000#64 = .reservedOpcode 0x8340000000000000#64 ∧
    decodeWord 0x800000003F000000#64 = .reservedOpcode 0x800000003F000000#64 ∧
    decodeWord 0x804000000D000000#64 = .reservedOpcode 0x804000000D000000#64 := by
  decide

end Sys2Proof
end

