-- ==== Sys2Proof/Machine/Ops.lean ====
section
/-!
DEFINITION. The named operations over the sparse maps, the registers of each unit and the flags, the wake bits, and taking a
trap: one shared operation for each level (spec/22 R363, R365, R377; spec/24 R386).
-/
namespace Sys2Proof.Machine

/-! ### Sparse maps -/

/-- The value under key `k`, or `d`. -/
def look {α : Type} (d : α) : SMap α → Nat → α
  | [], _ => d
  | (k', v) :: t, k => if k' = k then v else look d t k

/-- Store `v` under `k`, keeping the keys strictly rising. -/
def put {α : Type} : SMap α → Nat → α → SMap α
  | [], k, v => [(k, v)]
  | (k', v') :: t, k, v =>
    if k < k' then (k, v) :: (k', v') :: t
    else if k' = k then (k, v) :: t
    else (k', v') :: put t k v

/-- Remove key `k`. -/
def dropKey {α : Type} : SMap α → Nat → SMap α
  | [], _ => []
  | (k', v') :: t, k => if k' = k then t else (k', v') :: dropKey t k

/-- Store `v` under `k` in canonical form: the default `d` is never listed. -/
def putC {α : Type} [DecidableEq α] (d : α) (m : SMap α) (k : Nat) (v : α) : SMap α :=
  if v = d then dropKey m k else put m k v

/-- Keys strictly rising, each at least `lo`. -/
def rising {α : Type} : Nat → SMap α → Bool
  | _, [] => true
  | lo, (k, _) :: t => decide (lo ≤ k) && rising (k + 1) t

/-- The canonical form of a byte memory: addresses strictly rising, no entry equal to what an unlisted address reads as (0). -/
def Memory.wf (m : List Host.Cell) : Bool :=
  rising 0 m && m.all (fun c => c.2 != 0)

/-- What an unlisted byte of memory reads as: the spec leaves DRAM unspecified after reset (spec/28 R427); 0 is the model's
DESIGN CHOICE (log 3), unsafe. -/
def unlistedByte : Byte := 0

/-! ### Bit fields -/

/-- Field [hi:lo] of `x` as a number (spec/00 R2). -/
def fld {n : Nat} (x : BitVec n) (hi lo : Nat) : Nat := (x.toNat / 2 ^ lo) % 2 ^ (hi + 1 - lo)

/-- Bit [i] of `x`. -/
def bit {n : Nat} (x : BitVec n) (i : Nat) : Bool := x.getLsbD i

/-- `x` with field [hi:lo] set to `v`. -/
def setFld {n : Nat} (x : BitVec n) (hi lo v : Nat) : BitVec n :=
  let m := BitVec.ofNat n ((2 ^ (hi + 1 - lo) - 1) * 2 ^ lo)
  (x &&& ~~~m) ||| (BitVec.ofNat n (2 ^ lo * v) &&& m)

def sat (top x : Nat) : Nat := if x ≤ top then x else top

/-- Sum of a list of naturals. -/
def sumL (l : List Nat) : Nat := l.foldl (· + ·) 0

/-- Greatest of a list of naturals, 0 when empty. -/
def maxL (l : List Nat) : Nat := l.foldl Nat.max 0

/-- The little-endian number of a list of bytes. -/
def leBytes : List Byte → Nat
  | [] => 0
  | b :: t => b.toNat + 256 * leBytes t

/-- `n` little-endian bytes of `x` (spec/03 R59). -/
def toBytes : Nat → Nat → List Byte
  | 0, _ => []
  | n + 1, x => BitVec.ofNat 8 x :: toBytes n (x / 256)

/-- Bytes of 64-bit words in order. -/
def wordBytes (ws : List W64) : List Byte := ws.flatMap (fun w => toBytes 8 w.toNat)

/-! ### Masks and lanes -/

/-- The lanes of a mask, ascending. -/
def lanesIn (m : Mask) : List Nat := (List.range 32).filter (fun l => m.getLsbD l)

def laneBit (l : Nat) : Mask := BitVec.ofNat 32 (2 ^ l)

def popcount {n : Nat} (x : BitVec n) : Nat := ((List.range n).filter (fun i => x.getLsbD i)).length

/-- The lowest lane of a mask, 32 when it is empty. -/
def lowLane (m : Mask) : Nat := (lanesIn m).headD 32

/-- A mask from a lane test. -/
def maskOf (p : Nat → Bool) : Mask := BitVec.ofNat 32 (((List.range 32).filter p).foldl (fun a l => a + 2 ^ l) 0)

/-- Lane `l` of a vector register. -/
def lane (r : VReg) (l : Nat) : W32 := r.extractLsb' (32 * l) 32

/-- Vector register with lane `l` replaced. -/
def setLane (r : VReg) (l : Nat) (v : W32) : VReg :=
  (r &&& ~~~(BitVec.ofNat 1024 ((2 ^ 32 - 1) * 2 ^ (32 * l)))) ||| BitVec.ofNat 1024 (2 ^ (32 * l) * v.toNat)

/-- The `i`-th value of a per-lane list. -/
def nth (vs : List W128) (i : Nat) : W128 := vs.getD i 0

/-- Replace element `i` of a list. -/
def setNth {α : Type} : List α → Nat → α → List α
  | [], _, _ => []
  | _ :: t, 0, v => v :: t
  | x :: t, i + 1, v => x :: setNth t i v

/-! ### Units -/

def getCore (s : State) (c : Nat) : Core := look Core.reset s.cores c
def setCore (s : State) (c : Nat) (x : Core) : State := { s with cores := put s.cores c x }
def getWarp (s : State) (c k : Nat) : Warp := look Warp.reset (getCore s c).warps k
def setWarp (s : State) (c k : Nat) (w : Warp) : State :=
  setCore s c { getCore s c with warps := put (getCore s c).warps k w }
def getFront (s : State) (c k : Nat) : Front := look Front.reset (getCore s c).fronts k
def setFront (s : State) (c k : Nat) (f : Front) : State :=
  setCore s c { getCore s c with fronts := put (getCore s c).fronts k f }
def getThread (s : State) (q : Nat) : Thread := look Thread.reset s.threads q
def setThread (s : State) (q : Nat) (t : Thread) : State := { s with threads := put s.threads q t }
def getPair (s : State) (p : Nat) : PairSt := look PairSt.reset s.pairs p
def setPair (s : State) (p : Nat) (x : PairSt) : State := { s with pairs := put s.pairs p x }
def getTile (s : State) (p t : Nat) : Tile := look Tile.reset (getPair s p).tiles t
def setTile (s : State) (p t : Nat) (x : Tile) : State :=
  setPair s p { getPair s p with tiles := put (getPair s p).tiles t x }
def getSlot (s : State) (c i : Nat) : OvlSlot := look OvlSlot.reset (getCore s c).slots i
def setSlot (s : State) (c i : Nat) (x : OvlSlot) : State :=
  setCore s c { getCore s c with slots := put (getCore s c).slots i x }

/-- The die of a core (spec/01 R10). -/
def dieOf (core : Nat) : Nat := core / 160

/-- The die of a unit; a service-processor thread is on die A (spec/13 R266). -/
def unitDie : UnitId → Nat
  | .warp c _ => dieOf c
  | .front c _ => dieOf c
  | .thread _ => 0

/-! ### Teams, slices, contexts -/

def findTeam (s : State) (h : Nat) : Option Team := s.launch.teams.find? (fun t => t.handle = h)
def setTeam (s : State) (t : Team) : State :=
  { s with launch := { s.launch with teams := s.launch.teams.map (fun x => if x.handle = t.handle then t else x) } }
def dropTeam (s : State) (h : Nat) : State :=
  { s with launch := { s.launch with teams := s.launch.teams.filter (fun x => x.handle ≠ h) } }
def findSlice (s : State) (n : Nat) : Option Slice := s.launch.slices.find? (fun x => x.num = n)
def setSlice (s : State) (x : Slice) : State :=
  { s with launch := { s.launch with slices := s.launch.slices.map (fun y => if y.num = x.num then x else y) } }
def findCtx (s : State) (id : Nat) : Option Ctx := s.launch.ctxs.find? (fun c => c.id = id)

/-- The service thread of a slice (spec/22 R362); thread 0 when the slice is gone. -/
def sliceThread (s : State) (n : Nat) : Nat := match findSlice s n with
  | some x => x.thread
  | none => 0

/-- Word `i` of a context descriptor (spec/19 R325). -/
def ctxWord (s : State) (id i : Nat) : W64 := match findCtx s id with
  | some c => c.desc.getD i 0
  | none => 0

/-- The context's trap enables, FPTRAP [3:0] (spec/10 R204). -/
def fptrap (s : State) (ctx : Nat) : BitVec 4 := BitVec.ofNat 4 (fld (ctxWord s ctx 2) 23 20)

/-! ### Operations in flight -/

def findOp (s : State) (id : Nat) : Option Op := s.ops.find? (fun o => o.id = id)
def setOp (s : State) (o : Op) : State := { s with ops := s.ops.map (fun x => if x.id = o.id then o else x) }
def dropOp (s : State) (id : Nat) : State := { s with ops := s.ops.filter (fun x => x.id ≠ id) }
def findCopy (s : State) (id : Nat) : Option Copy := s.copies.find? (fun o => o.id = id)
def setCopy (s : State) (o : Copy) : State := { s with copies := s.copies.map (fun x => if x.id = o.id then o else x) }
def dropCopy (s : State) (id : Nat) : State := { s with copies := s.copies.filter (fun x => x.id ≠ id) }

/-- A fresh number for the free values (log 7). -/
def bumpFree (s : State) : State := { s with freeNo := s.freeNo + 1 }

def emit (s : State) (o : Out) : State := { s with host := { s.host with outs := s.host.outs ++ [o] } }

/-! ### Completion flags -/

/-- The flag counts of a unit (spec/02 R25). -/
def unitFlags (s : State) : UnitId → SMap Nat
  | .warp c k => (getWarp s c k).flags
  | .front c k => (getFront s c k).flags
  | .thread q => (getThread s q).flags

def setUnitFlags (s : State) (u : UnitId) (m : SMap Nat) : State := match u with
  | .warp c k => setWarp s c k { getWarp s c k with flags := m }
  | .front c k => setFront s c k { getFront s c k with flags := m }
  | .thread q => setThread s q { getThread s q with flags := m }

def flagCount (s : State) (u : UnitId) (f : Nat) : Nat := look 0 (unitFlags s u) f
def raiseFlag (s : State) (u : UnitId) (f : Nat) : State :=
  setUnitFlags s u (putC 0 (unitFlags s u) f (flagCount s u f + 1))
def lowerFlag (s : State) (u : UnitId) (f : Nat) : State :=
  setUnitFlags s u (putC 0 (unitFlags s u) f (flagCount s u f - 1))

/-- Whether every flag of a WAIT field is clear (spec/02 R23). -/
def flagsClear (m : SMap Nat) (wait : Nat) : Bool :=
  (List.range 12).all (fun i => !(wait.testBit i) || look 0 m i == 0)

/-- Raise the unit's WCTMAX to `t` (spec/08 R156, spec/13 R260). -/
def raiseWct (s : State) (u : UnitId) (t : Nat) : State := match u with
  | .warp c k => setWarp s c k { getWarp s c k with wctmax := Nat.max (getWarp s c k).wctmax t }
  | .front c k => setFront s c k { getFront s c k with wctmax := Nat.max (getFront s c k).wctmax t }
  | .thread q => setThread s q { getThread s q with wctmax := Nat.max (getThread s q).wctmax t }

def unitWct (s : State) : UnitId → Nat
  | .warp c k => (getWarp s c k).wctmax
  | .front c k => (getFront s c k).wctmax
  | .thread q => (getThread s q).wctmax

def getRun (s : State) : UnitId → Option ClauseRun
  | .warp c k => (getWarp s c k).run
  | .front c k => (getFront s c k).run
  | .thread q => (getThread s q).run

def setRun (s : State) (u : UnitId) (r : Option ClauseRun) : State := match u with
  | .warp c k => setWarp s c k { getWarp s c k with run := r }
  | .front c k => setFront s c k { getFront s c k with run := r }
  | .thread q => setThread s q { getThread s q with run := r }

/-- World, context, SID, slice and team handle that a unit's requests carry (spec/22 R369, spec/24 R437). -/
structure Who where
  ctx : Nat
  world : Nat
  sid : Nat
  slice : Nat
  handle : Nat
  num : Nat

def whoIs (s : State) : UnitId → Who
  | .warp c k => let w := getWarp s c k
    { ctx := w.ctx, world := w.world, sid := w.sid, slice := w.slice, handle := w.handle, num := w.num }
  | .front c k => let f := getFront s c k
    { ctx := f.ctx, world := f.world, sid := f.sid, slice := f.slice, handle := f.handle, num := k }
  | .thread q => { ctx := 0, world := 0, sid := 0, slice := 0, handle := 0, num := q }

/-! ### Waking a service thread -/

/-- Set bit `b` of thread `q`'s WAKEST (spec/24 R387). -/
def wake (s : State) (q b : Nat) : State :=
  let t := getThread s q
  setThread s q { t with wakest := t.wakest ||| BitVec.ofNat 6 (2 ^ b) }

/-- A record joins a thread's pending list, and the thread is woken (spec/22 R372). -/
def addPending (s : State) (q : Nat) (r : TrapRec) : State :=
  let t := getThread s q
  wake (setThread s q { t with pending := t.pending ++ [r] }) q 3

/-! ### Taking a trap

Lane level: the lane leaves its entry, joins the absent set, and its record waits at the core (R363, R364).
Warp and front-end level: the unit stops at the word, precisely (R40, R377). A thread halts (R386). -/

/-- What a trap says beside where it stands: cause, DETAIL, ADDR. -/
structure TrapInfo where
  cause : Byte
  detail : W32
  addr : W64

def illins : TrapInfo := { cause := 0x20, detail := 0, addr := 0 }
def illstate (detail : W32) : TrapInfo := { cause := 0x21, detail := detail, addr := 0 }

/-- A record as R365 lays it out, for a word of a clause (`widx` 15: its header). -/
def mkRec (s : State) (kind : RecKind) (u : UnitId) (ln : Nat) (pc : Addr) (hdr word : W64) (widx : Nat) (didx : BitVec 9)
    (i : TrapInfo) (mask : Mask) : TrapRec :=
  let w := whoIs s u
  let num := match u with
    | .front c _ => c - (match findTeam s w.handle with
      | some t => t.start
      | none => 0)
    | _ => w.num
  { kind := kind, unit := u, lane := ln, handle := w.handle, num := num, slice := w.slice, count := fld hdr 25 22, pc := pc.setWidth 64, wordv := word,
    srca := 0, srcb := 0, srcc := 0, cause := i.cause, prio := BitVec.ofNat 8 (fld hdr 35 28), widx := widx, half := false,
    didx := didx, world := w.world, ctx := w.ctx, detail := i.detail, addr := i.addr, mask := mask, filed := s.cyc,
    wait := unitWct s u, direct := false }

/-- A record waits at its core for its Gleaner (spec/22 R364). -/
def bufferRec (s : State) (core : Nat) (r : TrapRec) : State :=
  setCore s core { getCore s core with trapBuf := (getCore s core).trapBuf ++ [r] }

/-- A lane leaves its entry and its clause (spec/22 R363). -/
def detachLane (s : State) (c k l : Nat) : State :=
  let w := getWarp s c k
  let run := w.run.map (fun r => { r with
    mask := r.mask &&& ~~~laneBit l, exits := r.exits &&& ~~~laneBit l,
    branches := r.branches.map (fun b => (b.1, b.2 &&& ~~~laneBit l)) })
  let fr := (w.frontier.map (fun e => { e with mask := e.mask &&& ~~~laneBit l })).filter (fun e => e.mask != 0)
  setWarp s c k { w with run := run, frontier := fr, absent := w.absent ||| laneBit l }

/-- The order of R306: greater key, then lower PC, then lower word. -/
def entryBefore (a b : FEntry) : Bool :=
  decide (a.key > b.key) || (decide (a.key = b.key) && (decide (a.pc.toNat < b.pc.toNat) ||
    (decide (a.pc = b.pc) && decide (a.word < b.word))))

/-- Insert an entry at its place in the order of R306. -/
def sortEntry (e : FEntry) : List FEntry → List FEntry
  | [] => [e]
  | x :: t => if entryBefore e x then e :: x :: t else x :: sortEntry e t

/-- A group of lanes joins the frontier: merged by OR into the entry with the same (PC, word), or a new entry (spec/15 R307). -/
def addEntry (fr : List FEntry) (e : FEntry) : List FEntry :=
  if e.mask = 0 then fr
  else if fr.any (fun x => x.pc = e.pc && x.word = e.word) then
    fr.map (fun x => if x.pc = e.pc && x.word = e.word then { x with mask := x.mask ||| e.mask } else x)
  else sortEntry e fr

/-- A record leaves a sheaf for the service thread of a slice: it has been filed before and waits for nothing but room on the pending lists (spec/22 R367, R371). -/
def forwardRec (s : State) (core slice : Nat) (r : TrapRec) : State := bufferRec s core { r with slice := slice, wait := 0, direct := true }

/-- A lane-level trap of a warp's lane: detach it and buffer its record. A sheaf's lane is not gleaned: the record it serves
and its own go to the same service thread (spec/22 R371), its own once module time has passed its WCTMAX (R363). -/
def laneTrap (s : State) (c k : Nat) (r : TrapRec) : State :=
  let w := getWarp s c k
  let s := detachLane s c k r.lane
  match w.sheaf with
  | none => bufferRec s c r
  | some sh =>
    let s := setWarp s c k { getWarp s c k with sheaf := some { sh with done := sh.done ||| laneBit r.lane } }
    match sh.done.getLsbD r.lane, sh.recs[r.lane]? with
    | false, some own => bufferRec (forwardRec s c own.slice own) c { r with slice := own.slice, direct := true }
    | _, _ => bufferRec s c { r with slice := sh.slice, direct := true }

/-- Every unresolved record of a sheaf that a warp-level trap ends goes to its own slice's service thread (spec/22 R371). -/
def sheafForward (s : State) (core : Nat) (recs : List (Nat × TrapRec)) (done : Mask) : State :=
  recs.foldl (fun s r => if done.getLsbD r.1 then s else forwardRec s core r.2.slice r.2) s

/-- Takes a trap of a whole unit at a word (`widx` 15: its header): ILLINS, ILLSTATE, ABSENT, OVLMISS, or a lane-level cause in a
scalar clause. The unit's clause ends without its remaining words; a warp keeps its entry at the trapping word (R377, R40). -/
def takeTrap (s : State) (u : UnitId) (pc : Addr) (hdr word : W64) (widx : Nat) (didx : BitVec 9) (i : TrapInfo) : State :=
  match u with
  | .warp c k =>
    let w := getWarp s c k
    let mask := match w.run with
      | some r => r.mask
      | none => ((w.frontier.headD { key := 0, pc := 0, word := 0, mask := 0 }).mask)
    let r := mkRec s .warp u (lowLane mask) pc hdr word widx didx i mask
    let entry : FEntry := { key := fld hdr 35 28, pc := pc, word := if widx = 15 then 0 else widx, mask := mask }
    match w.sheaf with
    | some sh =>
      -- R371: a warp-level trap ends the sheaf.
      let s := setWarp s c k Warp.reset
      let s := bufferRec s c { r with slice := sh.slice, direct := true }
      sheafForward s c (sh.recs.zipIdx.map (fun p => (p.2, p.1))) sh.done
    | none =>
      let fr := match w.run with
        | some _ => addEntry w.frontier entry
        | none => w.frontier
      bufferRec (setWarp s c k { w with run := none, stopped := true, frontier := fr, waiting := Nat.max s.cyc ((w.run.map ClauseRun.cyc).getD w.waiting) }) c r
  | .front c k =>
    let f := getFront s c k
    let r := mkRec s .front u 0 pc hdr word widx didx i 0
    bufferRec (setFront s c k { f with run := none, stopped := true, pc := pc }) c r
  | .thread q =>
    let t := getThread s q
    let r := mkRec s .thread u 0 pc hdr word widx didx i 0
    addPending (setThread s q { t with run := none, halt := true, trapped := true, runBit := false, pc := pc }) 0 r

end Sys2Proof.Machine
end

