-- ==== Sys2Proof/Machine/Flags.lean ====
section
/-!
DEFINITION. Flags: the completion flag a word selects (spec/02 R22, R25), the exception flags of a lane's result and the trap an enabled
one takes (spec/10 R202-R205), and the flags a whole word adds to FPSTAT.
-/
namespace Sys2Proof.Machine

/-- The set flag that FSEL selects, if the header marks it valid (spec/02 R22, R25). -/
def hdrFlag (hdr : W64) (fsel : Bool) : Option Nat :=
  if fsel then (if bit hdr 21 then some (fld hdr 20 17) else none)
  else (if bit hdr 16 then some (fld hdr 15 12) else none)

/-- COUNT of a header. -/
def hdrCount (hdr : W64) : Nat := fld hdr 25 22

/-- One lane's result: the value's bits, the flags raised, and the cause of a lane-level trap. -/
structure LaneRes where
  val : Nat
  flags : Nat
  cause : Option Nat

/-- The context's FPTRAP as the issuing unit sees it: a thread has none (spec/10 R204, spec/11 R212). -/
def trapEnables (s : State) (u : UnitId) : BitVec 4 := match u with
  | .thread _ => 0
  | _ => fptrap s (whoIs s u).ctx

/-- R205: the cause, if an enabled exception was raised. -/
def fpCause (en : BitVec 4) (flags : Nat) : Option Nat :=
  if flags % 2 = 1 && bit en 0 then some 2
  else if flags / 2 % 2 = 1 && bit en 1 then some 3
  else if flags / 4 % 2 = 1 && bit en 2 then some 4
  else none

/-- Lanes whose result traps. -/
def trapMask (act : Mask) (res : List LaneRes) : Mask :=
  act &&& maskOf (fun l => match res[l]? with
    | some r => r.cause.isSome
    | none => false)

/-- The flags of the active lanes that do not trap (spec/10 R203). -/
def laneFlags (act : Mask) (res : List LaneRes) : BitVec 5 :=
  (lanesIn act).foldl (fun f l => match res[l]? with
    | some r => if r.cause.isSome then f else f ||| BitVec.ofNat 5 r.flags
    | none => f) 0

end Sys2Proof.Machine
end

