-- ==== Sys2Proof/Machine/Operands.lean ====
section
/-!
DEFINITION. Reading operands and writing results under the static timing contract: registers, banks and ports (spec/09 R181-R192),
operand latches (spec/02 R38), the checks made at issue (spec/02 R39, R40, spec/09 R182), and what every word's meaning is given.
-/
namespace Sys2Proof.Machine

/-! ### Vector registers -/

/-- Lane `l` of the `n` registers from field `x` of a vector clause (spec/02 R28, R30): ZERO supplies zero, LANE the lane index. -/
def readLane (w : Warp) (n x l : Nat) : W128 :=
  if x < 320 then
    BitVec.ofNat 128 (sumL ((List.range n).map (fun i => 2 ^ (32 * i) * (lane (look 0 w.v (x + i)) l).toNat)))
  else if x < 336 then
    BitVec.ofNat 128 (sumL ((List.range n).map (fun i => 2 ^ (32 * i) * (look 0 w.w (x - 320 + i)).toNat)))
  else if x = 337 then BitVec.ofNat 128 l
  else 0

/-- One value a lane of a source field. -/
def readVec (w : Warp) (n x : Nat) : List W128 := (List.range 32).map (readLane w n x)

/-- The lanes of `m` of a vector register replaced by the `i`-th 32 bits of the values. -/
def blendReg (r : VReg) (m : Mask) (vals : List W128) (i : Nat) : VReg :=
  (lanesIn m).foldl (fun r l => setLane r l ((nth vals l).extractLsb' (32 * i) 32)) r

/-- Write a run of `n` v registers in the lanes of `m`; the log keeps the write's number (spec/12 R242 asks which came after an MRDY). -/
def writeRegs (w : Warp) (x n : Nat) (m : Mask) (vals : List W128) (seq : Nat) : Warp :=
  if m = 0 then w
  else
    { w with
      v := (List.range n).foldl (fun v i => putC 0 v (x + i) (blendReg (look 0 v (x + i)) m vals i)) w.v
      wrLog := (List.range n).foldl (fun g i => put g (x + i) (Nat.max seq (look 0 g (x + i)))) w.wrLog }

/-- A write of a long-latency operation, numbered as it happens. -/
def writeLate (w : Warp) (x n : Nat) (m : Mask) (vals : List W128) : Warp :=
  { writeRegs w x n m vals (w.wrSeq + 1) with wrSeq := w.wrSeq + 1 }

/-- A predicate register as a mask: p7 reads as all ones (spec/02 R33). -/
def readPred (w : Warp) (p : Nat) : Mask := if p = 7 then 0xFFFFFFFF#32 else look 0 w.p p

/-- Write the lanes of `m` of a predicate; a write to p7 is discarded (spec/02 R33). -/
def writePred (w : Warp) (p : Nat) (m bits : Mask) : Warp :=
  if p = 7 then w
  else { w with p := putC 0 w.p p ((look 0 w.p p &&& ~~~m) ||| (bits &&& m)) }

/-! ### Scalar registers -/

/-- The s registers of a front-end context or thread. -/
def scalarRegs (s : State) : UnitId → SMap W64
  | .warp _ _ => []
  | .front c k => (getFront s c k).s
  | .thread q => (getThread s q).s

def setScalarRegs (s : State) (u : UnitId) (m : SMap W64) : State := match u with
  | .warp _ _ => s
  | .front c k => setFront s c k { getFront s c k with s := m }
  | .thread q => setThread s q { getThread s q with s := m }

/-- A scalar operand: one s register, or an even pair for 128 bits (spec/02 R30). -/
def readScalar (m : SMap W64) (n x : Nat) : W128 :=
  if n = 4 then BitVec.ofNat 128 ((look 0 m x).toNat + 2 ^ 64 * (look 0 m (x + 1)).toNat)
  else (look 0 m x).setWidth 128

def writeScalar (s : State) (u : UnitId) (n x : Nat) (v : W128) : State :=
  if 64 ≤ x then s
  else
    let m := putC 0 (scalarRegs s u) x (v.setWidth 64)
    setScalarRegs s u (if n = 4 then putC 0 m (x + 1) (v.extractLsb' 64 64) else m)

/-! ### Results in flight (spec/09 R188, R189) -/

/-- The bank of a vector register (spec/02 R37). -/
def bankOf (r : Nat) : Nat := r % 6

/-- The banks a result writes. -/
def Pend.banks (p : Pend) : List Nat := match p.dst with
  | .reg r n => (List.range n).map (fun i => bankOf (r + i))
  | _ => []

/-- Results ordered by due cycle, then issue order. -/
def insertPend (p : Pend) : List Pend → List Pend
  | [] => [p]
  | q :: t => if p.due < q.due || (p.due = q.due && p.seq < q.seq) then p :: q :: t else q :: insertPend p t

/-- Apply one result: its registers or predicate, and its flags to FPSTAT (spec/10 R203). -/
def applyPend (w : Warp) (p : Pend) : Warp :=
  let w := match p.dst with
    | .reg r n => writeRegs w r n p.lanes p.vals p.seq
    | .pred q => writePred w q p.lanes (maskOf (fun l => nth p.vals l != 0))
    | .discard => w
  { w with fpstat := w.fpstat ||| p.flags }

/-- One cycle of the slot's write ports: in order, each due result whose banks are all free is written. -/
def drainCycle (c : Nat) : List Nat → Warp → List Pend → Warp × List Pend
  | _, w, [] => (w, [])
  | used, w, p :: t =>
    if p.due ≤ c && p.banks.all (fun b => !used.contains b) then drainCycle c (p.banks ++ used) (applyPend w p) t
    else
      -- R188: an earlier-issued result that waits keeps its place ahead of later ones for its banks
      let held := if p.due ≤ c then p.banks ++ used else used
      let r := drainCycle c held w t
      (r.1, p :: r.2)

/-- Run the write ports for `n` cycles from cycle `c`. -/
def drainFor : Nat → Nat → Warp → List Pend → Warp × List Pend
  | 0, _, w, ps => (w, ps)
  | n + 1, c, w, ps => if ps.isEmpty then (w, ps) else
    let r := drainCycle c [] w ps
    drainFor n (c + 1) r.1 r.2

/-- Every result whose write cycle is at or before `c` has been written. -/
def drainTo (c : Nat) (w : Warp) (r : ClauseRun) : Warp × ClauseRun :=
  let d := drainFor (c + 1 - r.written) r.written w r.pend
  (d.1, { r with pend := d.2, written := Nat.max r.written (c + 1) })

/-- Cycles after which every outstanding result has been written: the greatest due cycle, and one more for each result. -/
def drainBound (r : ClauseRun) : Nat := maxL (r.pend.map Pend.due) + r.pend.length + 1

/-- A warp with every fixed-latency result of its clause written (spec/09 R192). -/
def drainAll (w : Warp) : Warp := match w.run with
  | none => w
  | some r =>
    let d := drainTo (drainBound r) w r
    { d.1 with run := some d.2 }

/-! ### The word at issue -/

/-- A source slot as the word names it. -/
structure Src where
  pos : Pos
  x : Nat
  hold : Bool

def noSrc : Src := { pos := .unused, x := 0, hold := false }

/-- Registers of an operand position. -/
def posRegs : Pos → Nat
  | .val n => n
  | .noLane n => n
  | .uni n => n
  | .wreg n => n
  | _ => 1

/-- The v registers that a source reads at issue. -/
def Src.vregs (a : Src) : List Nat :=
  if a.pos.latches && a.x < 320 then (List.range (posRegs a.pos)).map (fun i => a.x + i) else []

/-- The v registers that a source field names for R186: a fragment's base too, though its span is read at the grant (spec/12 R241). -/
def Src.bankRegs (a : Src) : List Nat := match a.pos with
  | .frag _ => if a.x < 320 then [a.x] else []
  | _ => a.vregs

/-- What the issuing unit sees of a word: its bits, its predicate, whether R39 holds, its sources, the v registers it names (spec/09
R182) and reads (R186), the flag of a long-latency word, and the destination field that a record logs (spec/22 R365). -/
structure WView where
  word : W64
  pred : Nat
  pneg : Bool
  legal : Bool
  a : Src
  b : Src
  c : Src
  named : List Nat
  reads : List Nat
  flag : Option Nat
  didx : BitVec 9

/-- R38 for one slot: a set hold bit needs the preceding word to have loaded the slot from the same field. -/
def holdOk (l : Option Latch) (a : Src) : Bool :=
  !a.hold || match l with
    | some x => x.field.toNat = a.x
    | none => false

/-- The instruction of the word just before the one being issued. -/
def viewFull (op : Nat) (f : Full) (k : UKind) (r : ClauseRun) : WView :=
  let sp := wspec op (k != .vector) f
  let a : Src := { pos := sp.a, x := f.sa.toNat, hold := f.ha }
  let b : Src := { pos := sp.b, x := f.sb.toNat, hold := f.hb }
  let c : Src := { pos := sp.c, x := f.sc.toNat, hold := f.hc }
  let dregs := match sp.d with
    | .val n => if f.dst.toNat < 320 then (List.range n).map (fun i => f.dst.toNat + i) else []
    | _ => []
  let reads := fun (s : Src) => if s.hold then [] else s.bankRegs
  { word := encodeFull op f
    pred := f.pred.toNat
    pneg := f.pneg
    legal := legalFull op k f && holdOk r.la a && holdOk r.lb b && holdOk r.lc c && (!sp.long || (hdrFlag r.hdr f.fsel).isSome) &&
      (!isTransfer op || r.idx + 1 = hdrCount r.hdr)
    a := a
    b := b
    c := c
    named := a.vregs ++ b.vregs ++ c.vregs ++ dregs
    reads := reads a ++ reads b ++ reads c
    flag := if sp.long then hdrFlag r.hdr f.fsel else none
    didx := match sp.d with
      | .val _ => f.dst
      | .pred => f.dst
      | _ => 0x1FF }

/-- An I-form word: slot A, if it reads A (spec/02 R34, R38). -/
def viewImm (op : Nat) (f : Imm) (k : UKind) (_ : ClauseRun) : WView :=
  let a : Src := { pos := if op = 0x3F then .unused else .val 1, x := f.sa.toNat, hold := false }
  { word := encodeImm op f
    pred := f.pred.toNat
    pneg := f.pneg
    legal := legalImm op k f
    a := a
    b := noSrc
    c := noSrc
    named := a.vregs ++ (if f.dst.toNat < 320 then [f.dst.toNat] else [])
    reads := a.vregs
    flag := none
    didx := f.dst }

/-- A paired word: slot B from half 0's SRC, slot C from half 1's, a NOP half loading nothing (spec/02 R37, R38). -/
def viewPair (pop : Nat) (f : Pair) (k : UKind) (r : ClauseRun) : WView :=
  let h0 := f.h0 pop
  let src := fun (h : Half) => if h.pop = 0 then noSrc else ({ pos := .val 1, x := h.src.toNat, hold := h.h } : Src)
  let b := src h0
  let c := src f.h1
  let d := halfWrites h0 ++ halfWrites f.h1
  { word := encodePair pop f
    pred := f.pred.toNat
    pneg := false
    legal := k = .vector && legalPair pop f && holdOk r.lb b && holdOk r.lc c
    a := noSrc
    b := b
    c := c
    named := d ++ b.vregs ++ c.vregs
    reads := halfReads h0 ++ halfReads f.h1
    flag := none
    didx := if h0.pop = 0 then f.h1.d.setWidth 9 else h0.d.setWidth 9 }

/-- Remove repeats. -/
def dedup : List Nat → List Nat
  | [] => []
  | x :: t => if t.contains x then dedup t else x :: dedup t

/-- R186: 1 + the sum over banks of max(0, n_k - 1), over the distinct registers read. -/
def bankCycles (regs : List Nat) : Nat :=
  let d := dedup regs
  1 + sumL ((List.range 6).map (fun k => (d.filter (fun r => bankOf r = k)).length - 1))

/-- What a meaning is given: who issues, the word, where it stands, the issue cycle, the active lanes and one value a lane of each source
(one value in a scalar clause). -/
structure Issued where
  u : UnitId
  kind : UKind
  word : W64
  pc : Addr
  hdr : W64
  widx : Nat
  didx : BitVec 9
  flag : Nat
  t : Nat
  act : Mask
  a : List W128
  b : List W128
  c : List W128

/-- The outcome of issuing a word: no unit, a state in which the word has been dealt with, or its operands. -/
inductive Prep where
  | fault
  | done (s : State)
  | go (s : State) (x : Issued)

/-- A unit stops at the word with every earlier fixed-latency result written (spec/02 R40). -/
def trapUnit (s : State) (u : UnitId) (pc : Addr) (hdr word : W64) (widx : Nat) (didx : BitVec 9) (i : TrapInfo) : State :=
  let s := match u with
    | .warp c k => setWarp s c k (drainAll (getWarp s c k))
    | _ => s
  takeTrap s u pc hdr word widx didx i

/-- The word's own precise trap. -/
def trapWord (s : State) (x : Issued) (i : TrapInfo) : State := trapUnit s x.u x.pc x.hdr x.word x.widx x.didx i

/-- A source's value in every lane: the latch if held. One loaded at another width supplies the bits it holds, zero above them (DESIGN CHOICE, log 14). -/
def srcVals (w : Warp) (l : Option Latch) (a : Src) : List W128 :=
  match a.pos.latches, a.hold, l with
  | false, _, _ => []
  | true, true, some x => x.vals
  | true, _, _ => readVec w (posRegs a.pos) a.x

/-- R38: the latch a slot holds after the word. -/
def loadLatch (a : Src) (vals : List W128) : Option Latch :=
  if a.pos.latches then some { field := BitVec.ofNat 9 a.x, vals := vals } else none

/-- Whether a long-latency word is held because its flag counts 63 (spec/02 R25). -/
def flagFull (s : State) (u : UnitId) (v : WView) : Bool := match v.flag with
  | some f => flagCount s u f ≥ 63
  | none => false

/-- Words that need every lane of the warp (spec/11 R227, spec/12 R240, spec/14 R293): their opcodes. -/
def wholeWarp (w : W64) : Bool :=
  !w.getLsbD 63 && [0x4B, 0x52, 0x53, 0x54, 0x70, 0x71, 0x73, 0x74, 0x75, 0x7E].contains (w.extractLsb' 56 7).toNat

/-- Lanes in another frontier entry than the issuing one (spec/11 R227): the issuing entry left the frontier when its clause began. -/
def divergedMask (w : Warp) : Mask := w.frontier.foldl (fun m e => m ||| e.mask) 0

/-- ILLSTATE of a vector word: a warp-wide word and BAR report the diverged mask (spec/22 R365). -/
def illstateOf (w : Warp) (word : W64) : TrapInfo := illstate (if wholeWarp word then divergedMask w else 0)

/-- Issue of a word of a vector clause (spec/02 R33, R38, R39; spec/09 R182, R186, R187). -/
def prepWarp (s : State) (c k : Nat) (r : ClauseRun) (v : WView) : Prep :=
  let u := UnitId.warp c k
  let t := r.cyc + bankCycles v.reads - 1
  let d := drainTo t (getWarp s c k) r
  let w := d.1
  let act := if r.idx < r.skip then 0 else r.mask &&& (if v.pneg then ~~~readPred w v.pred else readPred w v.pred)
  let va := srcVals w r.la v.a
  let vb := srcVals w r.lb v.b
  let vc := srcVals w r.lc v.c
  let adv : ClauseRun := { d.2 with
    idx := r.idx + 1, cyc := t + 1
    la := if v.legal then loadLatch v.a va else none
    lb := if v.legal then loadLatch v.b vb else none
    lc := if v.legal then loadLatch v.c vc else none }
  let here := setWarp s c k { w with run := some d.2 }
  if act = 0 then .done (setWarp s c k { w with run := some adv })
  else if !v.legal then .done (trapUnit here u r.pc r.hdr v.word r.idx v.didx illins)
  else if v.named.any (fun g => w.budget ≤ g) then .done (trapUnit here u r.pc r.hdr v.word r.idx v.didx (illstateOf w v.word))
  else if flagFull s u v then .done (setWarp s c k { w with run := some { d.2 with cyc := r.cyc + 1 } })
  else .go (setWarp s c k { w with run := some adv })
    { u := u, kind := .vector, word := v.word, pc := r.pc, hdr := r.hdr, widx := r.idx, didx := v.didx, flag := v.flag.getD 0, t := t,
      act := act, a := va, b := vb, c := vc }

/-- A scalar source's value. -/
def scalarVals (m : SMap W64) (a : Src) : List W128 := match a.pos with
  | .unused => []
  | .other => []
  | .quad => (List.range 4).map (fun i => (look 0 m (a.x + i)).setWidth 128)
  | .run4 => (List.range 4).map (fun i => (look 0 m (a.x + i)).setWidth 128)
  | p => [readScalar m (posRegs p) a.x]

/-- Issue of a word of a scalar clause (spec/02 R29, R39). -/
def prepScalar (s : State) (u : UnitId) (r : ClauseRun) (v : WView) : Prep :=
  let m := scalarRegs s u
  if !v.legal then .done (trapUnit s u r.pc r.hdr v.word r.idx v.didx illins)
  else if flagFull s u v then .done (setRun s u (some { r with cyc := r.cyc + 1 }))
  else .go (setRun s u (some { r with idx := r.idx + 1, cyc := r.cyc + 1 }))
    { u := u, kind := u.kind, word := v.word, pc := r.pc, hdr := r.hdr, widx := r.idx, didx := v.didx, flag := v.flag.getD 0, t := r.cyc,
      act := 1, a := scalarVals m v.a, b := scalarVals m v.b, c := scalarVals m v.c }

/-- Issue of the word of the unit that is executing. -/
def prep (s : State) (view : UKind → ClauseRun → WView) : Prep :=
  match s.cur with
  | none => .fault
  | some u =>
    match getRun s u with
    | none => .fault
    | some r =>
      match u with
      | .warp c k => prepWarp s c k r (view .vector r)
      | .front c k => prepScalar s (.front c k) r (view .core r)
      | .thread q => prepScalar s (.thread q) r (view .sp r)

/-- A meaning over the operands of an issued word. -/
def issue (s : State) (view : UKind → ClauseRun → WView) (body : State → Issued → State) : Host.Outcome State Fault Refusal :=
  match prep s view with
  | .fault => .fault .noIssuer
  | .done s => .next s
  | .go s x => .next (body s x)

def issueFull (op : Nat) (f : Full) (s : State) (body : State → Issued → State) : Host.Outcome State Fault Refusal :=
  issue s (viewFull op f) body

def issueImm (op : Nat) (f : Imm) (s : State) (body : State → Issued → State) : Host.Outcome State Fault Refusal :=
  issue s (viewImm op f) body

/-! ### Posting results -/

/-- Change the clause in progress of a warp. -/
def mapRun (s : State) (c k : Nat) (g : ClauseRun → ClauseRun) : State :=
  let w := getWarp s c k
  setWarp s c k { w with run := w.run.map g }

/-- A fixed-latency result of a vector word, due at its issue cycle plus `lat` (spec/09 R188). -/
def post (s : State) (x : Issued) (lat : Nat) (dst : PDst) (lanes : Mask) (vals : List W128) (flags : BitVec 5) : State :=
  match x.u with
  | .warp c k =>
    let w := getWarp s c k
    let p : Pend := { due := x.t + lat, seq := w.wrSeq + 1, dst := dst, lanes := lanes, vals := vals, flags := flags }
    setWarp s c k { w with run := w.run.map (fun r => { r with pend := insertPend p r.pend }), wrSeq := w.wrSeq + 1 }
  | _ => s

/-- A vector destination field as a place for a result of `n` registers: ZERO discards it (spec/02 R28). -/
def vdst (x : BitVec 9) (n : Nat) : PDst := if x.toNat < 320 then .reg x.toNat n else .discard

/-- A lane's record of its own trapping word, with its sources (spec/22 R365). -/
def laneRec (s : State) (x : Issued) (l : Nat) (cause : Nat) (detail : W32) (half : Bool) (didx : BitVec 9) : TrapRec :=
  { mkRec s .lane x.u l x.pc x.hdr x.word x.widx didx { cause := BitVec.ofNat 8 cause, detail := detail, addr := 0 } 0 with
    srca := (nth x.a l).setWidth 64, srcb := (nth x.b l).setWidth 64, srcc := (nth x.c l).setWidth 64, half := half }

/-- Detach every active lane whose result traps, ascending (spec/22 R363). -/
def trapLanes (s : State) (x : Issued) (half : Bool) (didx : BitVec 9) (res : List LaneRes) : State :=
  match x.u with
  | .warp c k =>
    (lanesIn x.act).foldl (fun s l => match res[l]? with
      | some r => match r.cause with
        | some cause => laneTrap s c k (laneRec s x l cause (BitVec.ofNat 32 r.flags) half didx)
        | none => s
      | none => s) s
  | _ => s

/-- The results of one vector word (or half): write the lanes that do not trap, raise their flags, detach the others. -/
def postLanes (s : State) (x : Issued) (lat : Nat) (dst : PDst) (half : Bool) (didx : BitVec 9) (res : List LaneRes) : State :=
  let tm := trapMask x.act res
  let s := post s x lat dst (x.act &&& ~~~tm) (res.map (fun r => BitVec.ofNat 128 r.val)) (laneFlags x.act res)
  trapLanes s x half didx res

/-- A word computed lane by lane: `fn` on the lane number and the operand values; `ext` extends a result of a scalar clause to 64 bits
(spec/11 R211, R212). -/
def computeAt (s : State) (x : Issued) (lat n : Nat) (dst : BitVec 9) (fn : Nat → Nat → Nat → Nat → LaneRes) (ext : Nat → Nat) : State :=
  match x.u with
  | .warp _ _ =>
    let res := (List.range 32).map (fun l => fn l (nth x.a l).toNat (nth x.b l).toNat (nth x.c l).toNat)
    postLanes s x lat (vdst dst n) false x.didx res
  | u =>
    let r := fn 0 (nth x.a 0).toNat (nth x.b 0).toNat (nth x.c 0).toNat
    match r.cause with
    | some cause => trapWord s x { cause := BitVec.ofNat 8 cause, detail := BitVec.ofNat 32 r.flags, addr := 0 }
    | none => writeScalar s u n dst.toNat (BitVec.ofNat 128 (ext r.val))

/-- As `computeAt`, the same in every lane. -/
def compute (s : State) (x : Issued) (lat n : Nat) (dst : BitVec 9) (fn : Nat → Nat → Nat → LaneRes) (ext : Nat → Nat) : State :=
  computeAt s x lat n dst (fun _ => fn) ext

end Sys2Proof.Machine
end

