-- ==== Sys2Proof/Machine/IntArith.lean ====
section
/-!
DEFINITION. Opcodes 0x20-0x3F, 0x50 and 0x51: integer and bit arithmetic, with the floating types that share the opcodes (spec/11
R211-R224).
-/
namespace Sys2Proof.Machine

/-! ### Integer values (spec/10 R195, R206) -/

/-- Bits of an operand of integer type `t`. -/
def intBits (t : Nat) : Nat := if t = 3 || t = 7 then 64 else 32
def isSignedT (t : Nat) : Bool := t = 2 || t = 3

/-- The value of a bit pattern as type `t`. -/
def intVal (t v : Nat) : Int :=
  let n := intBits t
  let x := v % 2 ^ n
  if isSignedT t && 2 ^ (n - 1) ≤ x then (x : Int) - 2 ^ n else x

/-- `i` modulo 2^n. -/
def wrapTo (n : Nat) (i : Int) : Nat := (i % (2 ^ n : Int)).toNat

/-- sat_sN and sat_nN of R206. -/
def clampTo (signed : Bool) (n : Nat) (i : Int) : Int :=
  let lo : Int := if signed then -(2 ^ (n - 1)) else 0
  let hi : Int := if signed then 2 ^ (n - 1) - 1 else 2 ^ n - 1
  if i < lo then lo else if hi < i then hi else i

/-- The last step of R214: saturate, or wrap modulo 2^N. -/
def intOut (t : Nat) (sat : Bool) (i : Int) : Nat :=
  let n := intBits t
  wrapTo n (if sat then clampTo (isSignedT t) n i else i)

/-- A scalar destination of a 32-bit type: sign-extended for s32, else zero-extended (spec/11 R212). -/
def scalarExt (t v : Nat) : Nat := if t = 2 && 2 ^ 31 ≤ v then v + (2 ^ 64 - 2 ^ 32) else v

def plain (v : Nat) : LaneRes := { val := v, flags := 0, cause := none }

/-- A floating result with the trap an enabled exception takes. -/
def fpLane (en : BitVec 4) (r : FR) : LaneRes := { val := r.bits, flags := r.flags, cause := fpCause en r.flags }

/-- Latencies of R191. -/
def fpLat (t : Nat) : Nat := if t = 11 then 8 else 4
def divLat (t : Nat) : Nat := if t = 11 || t = 3 || t = 7 then 40 else 20

/-- A two-operand word with an integer and a floating meaning. -/
def arith2 (s : State) (x : Issued) (f : Full) (lat : Nat) (fi : Int → Int → Int) (ff : Fmt → Nat → Bool → Nat → Nat → FR) : State :=
  let t := f.ty.toNat
  let en := trapEnables s x.u
  if isFltT t then
    compute s x (fpLat t) (typeRegs t) f.dst (fun a b _ => fpLane en (ff (fmtOf t) (modF f 2 1) (modB f 3) a b)) (fun v => v)
  else
    compute s x lat (typeRegs t) f.dst (fun a b _ => plain (intOut t (modB f 4) (fi (intVal t a) (intVal t b)))) (scalarExt t)

/-- ADD (R214, R222). -/
def execAdd (f : Full) (s : State) : Host.Outcome State Fault Refusal :=
  issueFull 0x20 f s (fun s x => arith2 s x f 2 (fun a b => a + b) fadd)

/-- SUB (R214, R222). -/
def execSub (f : Full) (s : State) : Host.Outcome State Fault Refusal :=
  issueFull 0x21 f s (fun s x => arith2 s x f 2 (fun a b => a - b) fsub)

/-- MUL (R214, R222). -/
def execMul (f : Full) (s : State) : Host.Outcome State Fault Refusal :=
  issueFull 0x22 f s (fun s x => arith2 s x f 4 (fun a b => a * b) fmul)

/-- MULHI (R214): the high half of the double-width product. -/
def execMulhi (f : Full) (s : State) : Host.Outcome State Fault Refusal :=
  issueFull 0x23 f s (fun s x =>
    let t := f.ty.toNat
    compute s x 4 (typeRegs t) f.dst
      (fun a b _ => plain (wrapTo (intBits t) ((intVal t a * intVal t b) / (2 ^ intBits t : Int)))) (scalarExt t))

/-- MAD (R214). -/
def execMad (f : Full) (s : State) : Host.Outcome State Fault Refusal :=
  issueFull 0x24 f s (fun s x =>
    let t := f.ty.toNat
    compute s x 4 (typeRegs t) f.dst (fun a b c => plain (intOut t false (intVal t a * intVal t b + intVal t c))) (scalarExt t))

/-- MIN (R214, R224). -/
def execMin (f : Full) (s : State) : Host.Outcome State Fault Refusal :=
  issueFull 0x25 f s (fun s x => arith2 s x f 2 (fun a b => if a ≤ b then a else b)
    (fun g _ ftz a b => fminmax g ftz false a b))

/-- MAX (R214, R224). -/
def execMax (f : Full) (s : State) : Host.Outcome State Fault Refusal :=
  issueFull 0x26 f s (fun s x => arith2 s x f 2 (fun a b => if a ≤ b then b else a)
    (fun g _ ftz a b => fminmax g ftz true a b))

/-- ABS (R214, R224). -/
def execAbs (f : Full) (s : State) : Host.Outcome State Fault Refusal :=
  issueFull 0x27 f s (fun s x => arith2 s x f 2 (fun a _ => a.natAbs) (fun g _ ftz a _ => fsign g ftz false a))

/-- NEG (R214, R224). -/
def execNeg (f : Full) (s : State) : Host.Outcome State Fault Refusal :=
  issueFull 0x28 f s (fun s x => arith2 s x f 2 (fun a _ => -a) (fun g _ ftz a _ => fsign g ftz true a))

/-- R215: quotient and remainder truncating toward zero; none when the divisor is 0. -/
def quoRem (a b : Int) : Option (Int × Int) := if b = 0 then none else some (a.tdiv b, a.tmod b)

/-- One lane of an integer DIV or REM (R215): IDIVZ when IDZE is set, else 0 and the dividend. -/
def divLane (en : BitVec 4) (t : Nat) (rem : Bool) (a b : Nat) : LaneRes :=
  let x := intVal t a
  match quoRem x (intVal t b) with
  | none => if bit en 3 then { val := 0, flags := 0, cause := some 1 } else plain (if rem then wrapTo (intBits t) x else 0)
  | some qr => plain (wrapTo (intBits t) (if rem then qr.2 else qr.1))

/-- DIV (R215, R222). -/
def execDiv (f : Full) (s : State) : Host.Outcome State Fault Refusal :=
  issueFull 0x29 f s (fun s x =>
    let t := f.ty.toNat
    let en := trapEnables s x.u
    if isFltT t then
      compute s x (divLat t) (typeRegs t) f.dst (fun a b _ => fpLane en (fdiv (fmtOf t) (modF f 2 1) (modB f 3) a b)) (fun v => v)
    else compute s x (divLat t) (typeRegs t) f.dst (fun a b _ => divLane en t false a b) (scalarExt t))

/-- REM (R215). -/
def execRem (f : Full) (s : State) : Host.Outcome State Fault Refusal :=
  issueFull 0x2A f s (fun s x =>
    let t := f.ty.toNat
    compute s x (divLat t) (typeRegs t) f.dst (fun a b _ => divLane (trapEnables s x.u) t true a b) (scalarExt t))

/-- LEA (R216). -/
def execLea (f : Full) (s : State) : Host.Outcome State Fault Refusal :=
  issueFull 0x2B f s (fun s x =>
    compute s x 2 1 f.dst (fun a b _ => plain ((a + b * 2 ^ modF f 4 1) % 2 ^ 32)) (fun v => v))

/-- LEA64 (R216): the index widened as its type says. -/
def execLea64 (f : Full) (s : State) : Host.Outcome State Fault Refusal :=
  issueFull 0x2C f s (fun s x =>
    let t := f.ty.toNat
    compute s x 2 2 f.dst
      (fun a b _ => plain (wrapTo 64 ((a : Int) + intVal t b * (2 ^ modF f 4 1 : Int)))) (fun v => v))

/-! ### Comparison -/

/-- R218's test of a comparison (0 less, 1 equal, 2 greater, 3 unordered) under CMP. -/
def cmpHolds (cmp r : Nat) : Bool :=
  match cmp with
  | 0 => r = 1
  | 1 => r ≠ 1
  | 2 => r = 0
  | 3 => r = 0 || r = 1
  | 4 => r = 2
  | 5 => r = 2 || r = 1
  | 6 => r ≠ 3
  | _ => r = 3

/-- COMB of R218. -/
def combine (comb : Nat) (c old : Bool) : Bool :=
  match comb with
  | 0 => c
  | 1 => c && old
  | 2 => c || old
  | _ => c != old

/-- One lane of SETP before COMB: the test and the NV of a signalling NaN. -/
def setpLane (t cmp : Nat) (ftz : Bool) (a b : Nat) : Bool × Nat :=
  if isFltT t then
    let g := fmtOf t
    let p := fdec g (ftzIn g ftz a)
    let q := fdec g (ftzIn g ftz b)
    (cmpHolds cmp (fcmp p q), if isSig p || isSig q then fNV else 0)
  else
    let p := intVal t a
    let q := intVal t b
    (cmpHolds cmp (if p < q then 0 else if p = q then 1 else 2), 0)

/-- SETP (R218, R219); SSETP writes an s register (R212). -/
def execSetp (f : Full) (s : State) : Host.Outcome State Fault Refusal :=
  issueFull 0x2D f s (fun s x =>
    let t := f.ty.toNat
    let lat := if isFltT t then fpLat t else 2
    let one := fun (en : BitVec 4) (old : Bool) (a b : Nat) =>
      let r := setpLane t (modF f 7 5) (modB f 3) a b
      ({ val := (combine (modF f 2 1) r.1 old).toNat, flags := r.2, cause := fpCause en r.2 } : LaneRes)
    match x.u with
    | .warp c k =>
      let old := readPred (getWarp s c k) f.dst.toNat
      let en := trapEnables s x.u
      postLanes s x lat (.pred f.dst.toNat) false x.didx
        ((List.range 32).map (fun l => one en (old.getLsbD l) (nth x.a l).toNat (nth x.b l).toNat))
    | u =>
      let old := look 0 (scalarRegs s u) f.dst.toNat != 0
      writeScalar s u 1 f.dst.toNat (BitVec.ofNat 128 (one 0 old (nth x.a 0).toNat (nth x.b 0).toNat).val))

/-! ### Bits, shifts and fields (R217) -/

/-- Width of a b or n type. -/
def bitsT (t : Nat) : Nat := if t = 7 || t = 3 then 64 else 32

/-- A bitwise word. -/
def bits2 (s : State) (x : Issued) (f : Full) (g : Nat → Nat → Nat) : State :=
  let t := f.ty.toNat
  compute s x 2 (typeRegs t) f.dst (fun a b _ => plain (g a b % 2 ^ bitsT t)) (fun v => v)

/-- Number of one bits of the low `n` bits. -/
def popN (n v : Nat) : Nat := ((List.range n).filter (fun i => v.testBit i)).length

/-- Number of leading zero bits of an `n`-bit value; `n` when it is 0. -/
def clzN (n v : Nat) : Nat := let x := v % 2 ^ n
  if x = 0 then n else n - 1 - Nat.log2 x

/-- POPC (R217). -/
def execPopc (f : Full) (s : State) : Host.Outcome State Fault Refusal :=
  issueFull 0x2E f s (fun s x => compute s x 2 1 f.dst (fun a _ _ => plain (popN (bitsT f.ty.toNat) a)) (fun v => v))

/-- CLZ (R217). -/
def execClz (f : Full) (s : State) : Host.Outcome State Fault Refusal :=
  issueFull 0x2F f s (fun s x => compute s x 2 1 f.dst (fun a _ _ => plain (clzN (bitsT f.ty.toNat) a)) (fun v => v))

/-- AND (R217). -/
def execAnd (f : Full) (s : State) : Host.Outcome State Fault Refusal :=
  issueFull 0x30 f s (fun s x => bits2 s x f (fun a b => a &&& b))

/-- OR (R217). -/
def execOr (f : Full) (s : State) : Host.Outcome State Fault Refusal :=
  issueFull 0x31 f s (fun s x => bits2 s x f (fun a b => a ||| b))

/-- XOR (R217). -/
def execXor (f : Full) (s : State) : Host.Outcome State Fault Refusal :=
  issueFull 0x32 f s (fun s x => bits2 s x f (fun a b => a ^^^ b))

/-- NOT (R217). -/
def execNot (f : Full) (s : State) : Host.Outcome State Fault Refusal :=
  issueFull 0x33 f s (fun s x =>
    let n := bitsT f.ty.toNat
    compute s x 2 (typeRegs f.ty.toNat) f.dst (fun a _ _ => plain (2 ^ n - 1 - a % 2 ^ n)) (fun v => v))

/-- SHL of R217: 0 when the count reaches the width. -/
def shlN (n a k : Nat) : Nat := if n ≤ k then 0 else a * 2 ^ k % 2 ^ n

/-- SHR of R217 on type `t`: logical, or sign-filling. -/
def shrN (t a k : Nat) : Nat :=
  let n := intBits t
  let v := intVal t a
  if n ≤ k then (if v < 0 then 2 ^ n - 1 else 0) else wrapTo n (v / (2 ^ k : Int))

/-- SHL (R217). -/
def execShl (f : Full) (s : State) : Host.Outcome State Fault Refusal :=
  issueFull 0x34 f s (fun s x =>
    let t := f.ty.toNat
    compute s x 2 (typeRegs t) f.dst (fun a b _ => plain (shlN (bitsT t) a b)) (fun v => v))

/-- SHR (R217). -/
def execShr (f : Full) (s : State) : Host.Outcome State Fault Refusal :=
  issueFull 0x35 f s (fun s x =>
    let t := f.ty.toNat
    compute s x 2 (typeRegs t) f.dst (fun a b _ => plain (shrN t a b)) (scalarExt t))

/-- BFE of R217: a field of A extended without bound, then extended as the type says. -/
def bfe (t a b : Nat) : Nat :=
  let n := intBits t
  let pos := b % 256
  let len0 := b / 256 % 256
  let len := if len0 ≤ n then len0 else n
  let v := intVal t a / (2 ^ pos : Int)
  let x := wrapTo len v
  if len = 0 then 0
  else if isSignedT t && 2 ^ (len - 1) ≤ x then wrapTo n ((x : Int) - 2 ^ len) else x

/-- BFI of R217: bits of C replaced by A's low bits. -/
def bfi (n a b c : Nat) : Nat :=
  let pos := b % 256
  let len := b / 256 % 256
  let c := c % 2 ^ n
  if len = 0 || n ≤ pos then c
  else
    let last := if pos + len ≤ n then pos + len else n
    let low := c % 2 ^ pos
    let mid := (a % 2 ^ len) * 2 ^ pos % 2 ^ n
    let high := c / 2 ^ last * 2 ^ last
    high + mid % 2 ^ last + low

/-- BFE (R217). -/
def execBfe (f : Full) (s : State) : Host.Outcome State Fault Refusal :=
  issueFull 0x36 f s (fun s x =>
    let t := f.ty.toNat
    compute s x 2 (typeRegs t) f.dst (fun a b _ => plain (bfe t a b)) (scalarExt t))

/-- BFI (R217). -/
def execBfi (f : Full) (s : State) : Host.Outcome State Fault Refusal :=
  issueFull 0x37 f s (fun s x =>
    let t := f.ty.toNat
    compute s x 2 (typeRegs t) f.dst (fun a b c => plain (bfi (bitsT t) a b c)) (fun v => v))

/-! ### Immediates (R221): n32, or 64 bits with IMM sign-extended in a scalar clause -/

/-- Width of an integer I-form, and its immediate. -/
def immWidth (k : UKind) : Nat := if k = .vector then 32 else 64
def immVal (k : UKind) (i : W32) : Nat := if k = .vector then i.toNat else (i.signExtend 64).toNat

/-- An integer I-form. -/
def immWord (s : State) (x : Issued) (lat : Nat) (f : Imm) (g : Nat → Nat → Nat → Nat) : State :=
  let n := immWidth x.kind
  compute s x lat 1 f.dst (fun a _ _ => plain (g n (a % 2 ^ n) (immVal x.kind f.imm) % 2 ^ n)) (fun v => v)

/-- ADD (i) (R221). -/
def execAddImm (f : Imm) (s : State) : Host.Outcome State Fault Refusal :=
  issueImm 0x38 f s (fun s x => immWord s x 2 f (fun _ a i => a + i))

/-- MUL (i) (R221). -/
def execMulImm (f : Imm) (s : State) : Host.Outcome State Fault Refusal :=
  issueImm 0x39 f s (fun s x => immWord s x 4 f (fun _ a i => a * i))

/-- AND (i) (R221). -/
def execAndImm (f : Imm) (s : State) : Host.Outcome State Fault Refusal :=
  issueImm 0x3A f s (fun s x => immWord s x 2 f (fun _ a i => a &&& i))

/-- OR (i) (R221). -/
def execOrImm (f : Imm) (s : State) : Host.Outcome State Fault Refusal :=
  issueImm 0x3B f s (fun s x => immWord s x 2 f (fun _ a i => a ||| i))

/-- XOR (i) (R221). -/
def execXorImm (f : Imm) (s : State) : Host.Outcome State Fault Refusal :=
  issueImm 0x3C f s (fun s x => immWord s x 2 f (fun _ a i => a ^^^ i))

/-- SHL (i) (R221): the count is IMM, unsigned. -/
def execShlImm (f : Imm) (s : State) : Host.Outcome State Fault Refusal :=
  issueImm 0x3D f s (fun s x => immWord s x 2 f (fun n a _ => shlN n a f.imm.toNat))

/-- SHR (i) (R221): logical. -/
def execShrImm (f : Imm) (s : State) : Host.Outcome State Fault Refusal :=
  issueImm 0x3E f s (fun s x => immWord s x 2 f (fun n a _ => if n ≤ f.imm.toNat then 0 else a / 2 ^ f.imm.toNat))

/-- MOV (i) (R220). -/
def execMovImm (f : Imm) (s : State) : Host.Outcome State Fault Refusal :=
  issueImm 0x3F f s (fun s x => immWord s x 2 f (fun _ _ i => i))

/-! ### Moves (R220) -/

/-- MOV of 32, 64 or 128 bits. -/
def execMov (f : Full) (s : State) : Host.Outcome State Fault Refusal :=
  issueFull 0x50 f s (fun s x =>
    let t := f.ty.toNat
    compute s x 2 (typeRegs t) f.dst (fun a _ _ => plain (a % 2 ^ (32 * typeRegs t))) (fun v => v))

/-- SEL by a predicate, or by an s register in a scalar clause (R212). -/
def execSel (f : Full) (s : State) : Host.Outcome State Fault Refusal :=
  issueFull 0x51 f s (fun s x =>
    let t := f.ty.toNat
    let m : Mask := match x.u with
      | .warp c k => readPred (getWarp s c k) f.sc.toNat
      | _ => if nth x.c 0 = 0 then 0 else 1
    computeAt s x 2 (typeRegs t) f.dst
      (fun l a b _ => plain ((if m.getLsbD l then a else b) % 2 ^ (32 * typeRegs t))) (fun v => v))

end Sys2Proof.Machine
end

