-- ==== Sys2Proof/Machine/Crypto.lean ====
section
/-!
DEFINITION. AES-256-XTS and the 64-bit GMAC of spec/08 R152, spec/26 R410, R415. The spec names the algorithms and not their conventions: the
published standards are taken (FIPS 197, IEEE 1619, SP 800-38D), a slot's 96 bytes as data key, tweak key and GMAC key, the nonce as a
big-endian 96-bit IV and the tag's leftmost 64 bits (PRESUMED, log 9); SHA-256 (spec/28 R434).
-/
namespace Sys2Proof.Machine

/-! ### AES-256 -/

/-- Doubling in the AES field. -/
def gfDouble (a : Nat) : Nat := if 128 ≤ a then ((2 * a) ^^^ 0x11B) else 2 * a

/-- Product in the AES field, over the low `n` bits of `b`. -/
def gfMulN : Nat → Nat → Nat → Nat
  | 0, _, _ => 0
  | n + 1, a, b => (if b % 2 = 1 then a else 0) ^^^ gfMulN n (gfDouble a) (b / 2)

def gfMul (a b : Nat) : Nat := gfMulN 8 a b

/-- Inverse in the AES field: the 254th power. -/
def gfInv (a : Nat) : Nat :=
  let sq := fun x => gfMul x x
  let a2 := sq a
  let a4 := sq a2
  let a8 := sq a4
  let a16 := sq a8
  let a32 := sq a16
  let a64 := sq a32
  let a128 := sq a64
  gfMul (gfMul (gfMul a2 a4) (gfMul a8 a16)) (gfMul (gfMul a32 a64) a128)

def rotl8 (x k : Nat) : Nat := (x * 2 ^ k) % 256 + x / 2 ^ (8 - k)

/-- The S-box. -/
def subByte (x : Nat) : Nat :=
  let b := gfInv x
  b ^^^ rotl8 b 1 ^^^ rotl8 b 2 ^^^ rotl8 b 3 ^^^ rotl8 b 4 ^^^ 0x63

/-- The inverse S-box. -/
def unsubByte (y : Nat) : Nat := gfInv (rotl8 y 1 ^^^ rotl8 y 3 ^^^ rotl8 y 6 ^^^ 0x05)

def xorBytes (a b : List Nat) : List Nat := List.zipWith (· ^^^ ·) a b

/-- One word of the key schedule after the words so far. -/
def keyWord (ws : List (List Nat)) (i : Nat) : List Nat :=
  let p := ws.getD (i - 1) []
  let t :=
    if i % 8 = 0 then
      xorBytes ((p.drop 1 ++ p.take 1).map subByte) [(2 ^ (i / 8 - 1)) % 256, 0, 0, 0]
    else if i % 8 = 4 then p.map subByte
    else p
  xorBytes (ws.getD (i - 8) []) t

/-- Split a list into pieces of `n`, at most `k` of them. -/
def pieces {α : Type} (n : Nat) : Nat → List α → List (List α)
  | 0, _ => []
  | k + 1, l => l.take n :: pieces n k (l.drop n)

/-- The 15 round keys of a 32-byte key. -/
def aesExpand (key : List Nat) : List (List Nat) :=
  let ws := (List.range 52).foldl (fun ws i => ws ++ [keyWord ws (i + 8)]) (pieces 4 8 key)
  pieces 16 15 ws.flatten

/-- Row shift by `k` columns a row (1 forward, 3 back). -/
def shiftRows (k : Nat) (s : List Nat) : List Nat :=
  (List.range 16).map (fun i => s.getD (i % 4 + 4 * ((i / 4 + k * (i % 4)) % 4)) 0)

/-- Mix one matrix of columns by the circulant row `m`. -/
def mixColumns (m : List Nat) (s : List Nat) : List Nat :=
  (List.range 16).map (fun i =>
    (List.range 4).foldl (fun a j => a ^^^ gfMul (m.getD ((j + 4 - i % 4) % 4) 0) (s.getD (4 * (i / 4) + j) 0)) 0)

/-- AES-256 encryption of a 16-byte block. -/
def aesEnc (rk : List (List Nat)) (b : List Nat) : List Nat :=
  let s := (List.range 13).foldl
    (fun s i => xorBytes (mixColumns [2, 3, 1, 1] (shiftRows 1 (s.map subByte))) (rk.getD (i + 1) [])) (xorBytes b (rk.getD 0 []))
  xorBytes (shiftRows 1 (s.map subByte)) (rk.getD 14 [])

/-- AES-256 decryption of a 16-byte block. -/
def aesDec (rk : List (List Nat)) (b : List Nat) : List Nat :=
  let s := (List.range 13).foldl
    (fun s i => mixColumns [14, 11, 13, 9] (xorBytes ((shiftRows 3 s).map unsubByte) (rk.getD (13 - i) []))) (xorBytes b (rk.getD 14 []))
  xorBytes ((shiftRows 3 s).map unsubByte) (rk.getD 0 [])

/-! ### XTS -/

/-- `n` little-endian bytes as numbers. -/
def natBytes : Nat → Nat → List Nat
  | 0, _ => []
  | n + 1, x => x % 256 :: natBytes n (x / 256)

def bytesNat (l : List Nat) : Nat := l.foldr (fun b a => b + 256 * a) 0

/-- Tweak of the next 16-byte block. -/
def xtsNext (t : Nat) : Nat := if 2 ^ 127 ≤ t then ((2 * t) ^^^ (2 ^ 128 + 0x87)) else 2 * t

/-- The blocks of one data unit, from tweak value `t`. -/
def xtsBlocks (f : List Nat → List Nat) : Nat → List (List Nat) → List Nat
  | _, [] => []
  | t, b :: r => xorBytes (f (xorBytes b (natBytes 16 t))) (natBytes 16 t) ++ xtsBlocks f (xtsNext t) r

/-- XTS of a 32-byte unit under a slot's key material. -/
def xtsUnit (dec : Bool) (km : BitVec 768) (tweak : Nat) (unit : List Nat) : List Nat :=
  let k1 := aesExpand (natBytes 32 km.toNat)
  let k2 := aesExpand (natBytes 32 (km.toNat / 2 ^ 256))
  let t := bytesNat (aesEnc k2 (natBytes 16 tweak))
  xtsBlocks (if dec then aesDec k1 else aesEnc k1) t (pieces 16 2 unit)

/-- A line of a protected page, sector by sector: the tweak is the sector's physical byte address (spec/26 R415). -/
def lineCrypt (dec : Bool) (km : BitVec 768) (lineAddr : Nat) (data : Line) : Line :=
  BitVec.ofNat 1024 (bytesNat ((List.range 4).flatMap (fun k =>
    xtsUnit dec km (lineAddr * 128 + 32 * k) (natBytes 32 (data.extractLsb' (256 * k) 256).toNat))))

/-! ### GMAC -/

def beNat (l : List Nat) : Nat := l.foldl (fun a b => 256 * a + b) 0

/-- GHASH product, over the low `n` bits of `x` from the least significant end of the string. -/
def ghMulN : Nat → Nat → Nat → Nat → Nat
  | 0, _, _, z => z
  | n + 1, x, y, z =>
    ghMulN n x (if y % 2 = 1 then (y / 2) ^^^ (0xE1 * 2 ^ 120) else y / 2) (if x.testBit n then z ^^^ y else z)

def ghMul (x h : Nat) : Nat := ghMulN 128 x h 0

/-- GHASH of whole and partial 16-byte blocks. -/
def ghash (h : Nat) (y : Nat) (blocks : List (List Nat)) : Nat :=
  blocks.foldl (fun y b => ghMul (y ^^^ beNat (b ++ List.replicate (16 - b.length) 0)) h) y

def blocksOf (l : List Nat) : List (List Nat) := pieces 16 ((l.length + 15) / 16) l

/-- The 64-bit GMAC over authenticated data and ciphertext under a slot's key material. -/
def gmac64 (km : BitVec 768) (nonce : Nat) (aad data : List Nat) : W64 :=
  let rk := aesExpand (natBytes 32 (km.toNat / 2 ^ 512))
  let h := beNat (aesEnc rk (List.replicate 16 0))
  let y := ghash h (ghash h 0 (blocksOf aad)) (blocksOf data)
  let y := ghMul (y ^^^ (2 ^ 64 * (aad.length * 8) + data.length * 8)) h
  let j := natBytes 16 (2 ^ 32 * (nonce % 2 ^ 96) + 1)
  BitVec.ofNat 64 ((y ^^^ beNat (aesEnc rk j.reverse)) / 2 ^ 64)

/-- A protected line's tag: over its four ciphertext sectors, the physical line address as nonce (spec/26 R415). -/
def lineTag (km : BitVec 768) (lineAddr : Nat) (cipher : Line) : W64 :=
  gmac64 km (lineAddr * 128) [] (natBytes 128 cipher.toNat)

/-! ### SHA-256 (spec/28 R434; FIPS 180-4, log 9) -/

/-- The round constants. -/
def shaK : List Nat :=
  [0x428A2F98, 0x71374491, 0xB5C0FBCF, 0xE9B5DBA5, 0x3956C25B, 0x59F111F1, 0x923F82A4, 0xAB1C5ED5] ++
  [0xD807AA98, 0x12835B01, 0x243185BE, 0x550C7DC3, 0x72BE5D74, 0x80DEB1FE, 0x9BDC06A7, 0xC19BF174] ++
  [0xE49B69C1, 0xEFBE4786, 0x0FC19DC6, 0x240CA1CC, 0x2DE92C6F, 0x4A7484AA, 0x5CB0A9DC, 0x76F988DA] ++
  [0x983E5152, 0xA831C66D, 0xB00327C8, 0xBF597FC7, 0xC6E00BF3, 0xD5A79147, 0x06CA6351, 0x14292967] ++
  [0x27B70A85, 0x2E1B2138, 0x4D2C6DFC, 0x53380D13, 0x650A7354, 0x766A0ABB, 0x81C2C92E, 0x92722C85] ++
  [0xA2BFE8A1, 0xA81A664B, 0xC24B8B70, 0xC76C51A3, 0xD192E819, 0xD6990624, 0xF40E3585, 0x106AA070] ++
  [0x19A4C116, 0x1E376C08, 0x2748774C, 0x34B0BCB5, 0x391C0CB3, 0x4ED8AA4A, 0x5B9CCA4F, 0x682E6FF3] ++
  [0x748F82EE, 0x78A5636F, 0x84C87814, 0x8CC70208, 0x90BEFFFA, 0xA4506CEB, 0xBEF9A3F7, 0xC67178F2]

/-- The initial hash value. -/
def shaH : List Nat := [0x6A09E667, 0xBB67AE85, 0x3C6EF372, 0xA54FF53A, 0x510E527F, 0x9B05688C, 0x1F83D9AB, 0x5BE0CD19]

def rotr32 (x k : Nat) : Nat := x / 2 ^ k + x * 2 ^ (32 - k) % 2 ^ 32

/-- The message schedule, newest word first. -/
def shaExpand : Nat → List Nat → List Nat
  | 0, l => l
  | n + 1, l =>
    let a := l.getD 1 0
    let b := l.getD 14 0
    let s1 := rotr32 a 17 ^^^ rotr32 a 19 ^^^ (a / 2 ^ 10)
    let s0 := rotr32 b 7 ^^^ rotr32 b 18 ^^^ (b / 2 ^ 3)
    shaExpand n ((s1 + l.getD 6 0 + s0 + l.getD 15 0) % 2 ^ 32 :: l)

/-- One round over the working variables a to h: the constant and the schedule's word together. -/
def shaRound (v : List Nat) (kw : Nat) : List Nat := match v with
  | [a, b, c, d, e, f, g, h] =>
    let t1 := h + (rotr32 e 6 ^^^ rotr32 e 11 ^^^ rotr32 e 25) + ((e &&& f) ^^^ ((2 ^ 32 - 1 - e) &&& g)) + kw
    let t2 := (rotr32 a 2 ^^^ rotr32 a 13 ^^^ rotr32 a 22) + ((a &&& b) ^^^ (a &&& c) ^^^ (b &&& c))
    [(t1 + t2) % 2 ^ 32, a, b, c, (d + t1) % 2 ^ 32, e, f, g]
  | v => v

/-- One 64-byte block. -/
def shaBlock (h : List Nat) (block : List Nat) : List Nat :=
  let ws := (shaExpand 48 ((pieces 4 16 block).map beNat).reverse).reverse
  List.zipWith (fun a b => (a + b) % 2 ^ 32) h ((List.zipWith (· + ·) shaK ws).foldl shaRound h)

/-- The digest, as its 32 bytes read little-endian, the first byte lowest. -/
def sha256 (bytes : List Nat) : BitVec 256 :=
  let n := bytes.length
  let msg := bytes ++ 0x80 :: List.replicate ((119 - n % 64) % 64) 0 ++ (natBytes 8 (8 * n)).reverse
  BitVec.ofNat 256 (bytesNat (((pieces 64 (msg.length / 64) msg).foldl shaBlock shaH).flatMap (fun w => (natBytes 4 w).reverse)))

end Sys2Proof.Machine
end

