-- ==== Sys2Proof/Machine/Memory.lean ====
section
/-!
DEFINITION. Main memory and the second-level cache: the physical map (spec/04 R70, R71), homes (spec/05 R91, R92), format windows (R73-R78),
fills, victims and write-backs (spec/05 R90-R105), leases and write completion times (spec/08 R155, R156; spec/13 R260), tags of protected
lines (spec/26 R415, spec/08 R438) and the bumps of enrolled granules (spec/06 R117, R118, R121).
A line is its number, its physical address over 128.
-/
namespace Sys2Proof.Machine

/-! ### The physical map -/

def gib : Nat := 2 ^ 30

/-- L of R69. -/
def localGb (s : State) : Nat := fld s.regs.memsplit 8 0

def localBaseA : Nat := 0x1000000000000
def localBaseB : Nat := 0x1010000000000

/-- The ranges of R70. -/
inductive Range where
  | interleaved | localA | localB | device | fabric | unpopulated
deriving DecidableEq, Repr

def rangeOf (s : State) (pa : Nat) : Range :=
  let l := gib * localGb s
  if pa < 2 * (288 * gib - l) then .interleaved
  else if localBaseA ≤ pa && pa < localBaseA + l then .localA
  else if localBaseB ≤ pa && pa < localBaseB + l then .localB
  else if 2 ^ 51 ≤ pa && pa < 2 ^ 51 + 2 ^ 48 then .device
  else if 3 * 2 ^ 50 ≤ pa && pa < 2 ^ 52 then .fabric
  else .unpopulated

def Range.isDram (r : Range) : Bool := r = .interleaved || r = .localA || r = .localB

/-- Die of an interleaved address (R71 step 1). -/
def ilvDie (pa : Nat) : Nat :=
  ([12, 20, 28, 36, 44].filter (fun i => pa.testBit i)).length % 2

/-- Home die of an address; `home` is the HOME field of its page (R91). -/
def homeDie (s : State) (pa home : Nat) : Nat :=
  match rangeOf s pa with
  | .localA => 0
  | .localB => 1
  | .fabric => if home = 1 then 0 else if home = 2 then 1 else ilvDie pa
  | _ => ilvDie pa

/-- Module slice number (R92). -/
def sliceOf (die pa : Nat) : Nat :=
  let g := pa / 2 ^ 12 % 2 ^ 36 % 3
  let x := [7, 12, 17, 22, 27, 32, 37, 42].foldl (fun x k => x ^^^ (pa / 2 ^ k % 32)) 0
  96 * die + 32 * g + x

/-- Set of an address in its slice (R92). -/
def setOf (pa : Nat) : Nat := [12, 22, 32, 42].foldl (fun x k => x ^^^ (pa / 2 ^ k % 1024)) 0

/-- Where a DRAM byte lies: its die and die offset (R71). The rest of R71 software cannot observe but for the stack. -/
def dramKey (s : State) (pa : Nat) : Nat :=
  let l := localGb s
  match rangeOf s pa with
  | .localA => gib * (288 - l) + (pa - localBaseA)
  | .localB => 2 ^ 40 + gib * (288 - l) + (pa - localBaseB)
  | _ => 2 ^ 40 * ilvDie pa + 4096 * (pa / 2 ^ 13) + pa % 4096

/-- Stack of a DRAM address (R71 step 2). -/
def stackOf (s : State) (pa : Nat) : Nat :=
  let k := dramKey s pa
  6 * (k / 2 ^ 40) + k % 2 ^ 40 / 128 % 6

/-- Port of a fabric address (spec/24 R393). -/
def portOf (pa : Nat) : Nat := pa / 2 ^ 46 % 16

/-- A port's STATE (spec/28 R431). -/
def portState (s : State) (p : Nat) : Nat := fld (look 0 s.regs.portctl p) 4 1
def portUp (s : State) (p : Nat) : Bool := portState s p = 4

/-! ### Bytes of memory -/

def memBytes (m : List Host.Cell) (base : Nat) : Nat → Nat
  | 0 => 0
  | n + 1 => (look unlistedByte m base).toNat + 256 * memBytes m (base + 1) n

/-- Write the low bytes of `v` where the mask `k` has ones. -/
def memPut (m : List Host.Cell) (base k v : Nat) : Nat → List Host.Cell
  | 0 => m
  | n + 1 => memPut (if k % 2 = 1 then putC unlistedByte m base (BitVec.ofNat 8 v) else m) (base + 1) (k / 2) (v / 256) n

/-- `n` bytes at a physical address, as memory holds them. -/
def memRead (s : State) (pa n : Nat) : Nat :=
  match rangeOf s pa with
  | .fabric => memBytes s.mem.fabric pa n
  | .interleaved => memBytes s.mem.dram (dramKey s pa) n
  | .localA => memBytes s.mem.dram (dramKey s pa) n
  | .localB => memBytes s.mem.dram (dramKey s pa) n
  | _ => 0

def memWrite (s : State) (pa k v n : Nat) : State :=
  match rangeOf s pa with
  | .fabric => { s with mem := { s.mem with fabric := memPut s.mem.fabric pa k v n } }
  | .interleaved => { s with mem := { s.mem with dram := memPut s.mem.dram (dramKey s pa) k v n } }
  | .localA => { s with mem := { s.mem with dram := memPut s.mem.dram (dramKey s pa) k v n } }
  | .localB => { s with mem := { s.mem with dram := memPut s.mem.dram (dramKey s pa) k v n } }
  | _ => s

/-- Key of a line's poison mark and metadata: a DRAM line by its place, a fabric line by its number. -/
def lineKey (s : State) (la : Nat) : Nat :=
  if rangeOf s (128 * la) = .fabric then 2 ^ 60 + la else dramKey s (128 * la) / 128

def poisoned (s : State) (la : Nat) : Bool := look false s.mem.poison (lineKey s la)

/-! ### Format windows (R73-R77) -/

def winBase (s : State) (i : Nat) : Nat := 4096 * fld (look 0 s.regs.fwctl i) 51 12
def winEnd (s : State) (i : Nat) : Nat := 4096 + 4096 * fld (look 0 s.regs.fwlim i) 51 12
def winFmt (s : State) (i : Nat) : Nat := fld (look 0 s.regs.fwctl i) 3 2
def winScale (s : State) (i : Nat) : Nat := 128 * fld (look 0 s.regs.fwscale i) 51 7
def winEn (s : State) (i : Nat) : Bool := bit (look 0 s.regs.fwctl i) 0

/-- Bytes of a window's block: 32 for D8, 16 for D4 (R74). -/
def fmtBlock (fmt : Nat) : Nat := if fmt = 1 then 32 else 16

/-- Bytes of a window's scale region: two for each block. -/
def scaleLen (fmt span : Nat) : Nat := span / fmtBlock fmt * 2

def inWindow (s : State) (i pa : Nat) : Bool := winBase s i ≤ pa && pa < winEnd s i

/-- The scale region's lines: a window with FMT none has no blocks, hence no region. -/
def inScale (s : State) (i pa : Nat) : Bool :=
  let fmt := winFmt s i
  (fmt = 1 || fmt = 2) && winScale s i ≤ 128 * (pa / 128) + 127 && pa < winScale s i + scaleLen fmt (winEnd s i - winBase s i)

/-- The enabled window that holds an address. -/
def windowOf (s : State) (pa : Nat) : Option Nat := (List.range 16).find? (fun i => winEn s i && inWindow s i pa)

/-- Whether an address lies in an enabled window or its scale region (R78). -/
def inAnyWindow (s : State) (pa : Nat) : Bool := (List.range 16).any (fun i => winEn s i && (inWindow s i pa || inScale s i pa))

/-- Address and number of a line's scale bytes under window `i`. -/
def scaleAt (s : State) (i la : Nat) : Nat × Nat :=
  let b := fmtBlock (winFmt s i)
  (winScale s i + (128 * la - winBase s i) / b * 2, 128 / b * 2)

/-- The side-band joined on a fill (R76, R77). A scale region that R71 places on the other die is read, and on a write-back written, by the home slice's die at once: no rule says
how its slice reaches a stack there (R68; DESIGN CHOICE, log 24). -/
def joinSide (s : State) (i la : Nat) : W128 :=
  if winFmt s i = 1 || winFmt s i = 2 then
    let a := scaleAt s i la
    BitVec.ofNat 128 (memRead s a.1 a.2)
  else 0

/-- The split of a dirty line's side-band (R77). -/
def splitSide (s : State) (i la : Nat) (side : W128) : State :=
  if winFmt s i = 1 || winFmt s i = 2 then
    let a := scaleAt s i la
    memWrite s a.1 (2 ^ a.2 - 1) side.toNat a.2
  else s

/-- A line's metadata as memory keeps it: tag and slot (spec/26 R415), or the joined side-band and window. -/
def memMeta (s : State) (la : Nat) : W128 × Nat × Option Nat :=
  match windowOf s (128 * la) with
  | some i => (joinSide s i la, 0, some i)
  | none =>
    let d := look { tag := 0, kslot := 0 } s.mem.dtags (lineKey s la)
    (d.tag.setWidth 128, d.kslot, none)

/-- Put a line's metadata back into memory. -/
def putMeta (s : State) (la : Nat) (side : W128) (kslot : Nat) (win : Option Nat) : State :=
  match win with
  | some i => splitSide s i la side
  | none => { s with mem := { s.mem with
      dtags := putC { tag := 0, kslot := 0 } s.mem.dtags (lineKey s la) { tag := side.setWidth 64, kslot := kslot } } }

/-! ### Lines of a slice (R90) -/

def l2Key (slice set way : Nat) : Nat := (slice * 1024 + set) * 16 + way
def getL2 (s : State) (k : Nat) : L2Line := look L2Line.reset s.mem.l2 k
def setL2 (s : State) (k : Nat) (e : L2Line) : State := { s with mem := { s.mem with l2 := putC L2Line.reset s.mem.l2 k e } }

/-- The ways of the set of a line in its home slice, as keys. -/
def waysOf (die la : Nat) : List Nat := (List.range 16).map (l2Key (sliceOf die (128 * la)) (setOf (128 * la)))

/-- A lookup searches all 16 ways (R96). -/
def findL2 (s : State) (die la : Nat) : Option Nat :=
  (waysOf die la).find? (fun k => (getL2 s k).used && (getL2 s k).line = la)

/-- A byte mask of the sectors of a 4-bit set. -/
def sectorBytes (sec : BitVec 4) : Nat :=
  sumL ((List.range 4).map (fun i => if sec.getLsbD i then (2 ^ 32 - 1) * 2 ^ (32 * i) else 0))

/-- The sectors that a byte mask touches, and those it covers. -/
def touched (k : Nat) : BitVec 4 := BitVec.ofNat 4 (sumL ((List.range 4).map (fun i => if k / 2 ^ (32 * i) % 2 ^ 32 = 0 then 0 else 2 ^ i)))
def covered (k : Nat) : BitVec 4 :=
  BitVec.ofNat 4 (sumL ((List.range 4).map (fun i => if k / 2 ^ (32 * i) % 2 ^ 32 = 2 ^ 32 - 1 then 2 ^ i else 0)))

/-- Bit mask of a byte mask. -/
def spreadBytes (k : Nat) : Nat → Nat
  | 0 => 0
  | n + 1 => (if k % 2 = 1 then 255 else 0) + 256 * spreadBytes (k / 2) n

/-- `new` where the byte mask has ones, else `old`. -/
def mergeLine (old new : Line) (k : Nat) : Line :=
  let m := BitVec.ofNat 1024 (spreadBytes k 128)
  (old &&& ~~~m) ||| (new &&& m)

/-- A line as memory holds it. -/
def memLine (s : State) (la : Nat) : Line := BitVec.ofNat 1024 (memRead s (128 * la) 128)

def setRecency (s : State) (set : Nat) (l : List Nat) : State :=
  { s with mem := { s.mem with recency := putC [] s.mem.recency set l } }

/-- A way leaves its set's recency order, or enters it by policy: most recent, or with `.efirst` least recent (R97, R98). -/
def forget (s : State) (k : Nat) : State := setRecency s (k / 16) ((look [] s.mem.recency (k / 16)).filter (· ≠ k % 16))
def enter (s : State) (k pol : Nat) : State :=
  let l := (look [] s.mem.recency (k / 16)).filter (· ≠ k % 16)
  setRecency s (k / 16) (if pol = 1 then l ++ [k % 16] else (k % 16) :: l)

/-- Write back a line's dirty sectors and its metadata (R90, R77); the line stays, clean. -/
def writeBack (s : State) (k : Nat) : State :=
  let e := getL2 s k
  if e.dirty = 0 then s
  else
    let s := memWrite s (128 * e.line) (sectorBytes e.dirty) e.data.toNat 128
    let s := putMeta s e.line e.side e.kslot e.win
    setL2 s k { e with dirty := 0 }

/-- A line leaves its slice; a host-homed line's grant returns to the directory (spec/24 R394). -/
def dropLine (s : State) (k : Nat) : State :=
  let e := getL2 s k
  let s := forget (setL2 s k L2Line.reset) k
  if e.grant ≠ 0 then emit s (.released e.line) else s

def evict (s : State) (k : Nat) : State := if (getL2 s k).used then dropLine (writeBack s k) k else s

/-! ### Retention and the choice of a way (R96, R97, R101-R104) -/

def retWays (ctl : W64) : List Nat := (List.range (fld ctl 11 8)).map (fun i => fld ctl 15 12 + i)
def retCtl (s : State) (i : Nat) : W64 := look 0 s.regs.retctl i
def inRet (s : State) (i pa : Nat) : Bool :=
  4096 * fld (look 0 s.regs.retbase i) 51 12 ≤ pa && pa < 4096 + 4096 * fld (look 0 s.regs.retlim i) 51 12

/-- Ways reserved by ranges that are enabled or still releasing. -/
def reservedWays (s : State) : List Nat :=
  (List.range 16).flatMap (fun i => if fld (retCtl s i) 1 0 ≠ 0 then retWays (retCtl s i) else [])

/-- The effective fill mask of a SID on a die (R96), as ways. -/
def fillWays (s : State) (die sid : Nat) : List Nat :=
  let m := look Regs.sidwayReset s.regs.sidway sid
  (List.range 16).filter (fun w => m.getLsbD (16 * die + w) && !(reservedWays s).contains w)

/-- The range whose retained fills a request may make (R104). -/
def rangeFor (s : State) (pa sid : Nat) : Option Nat :=
  (List.range 16).find? (fun i => fld (retCtl s i) 1 0 = 1 && inRet s i pa && fld (retCtl s i) 20 16 = sid)

/-- A request of one line as its home slice sees it: the die it comes from, the policy, the KEYIX entry of a protected page, whether it is a host, walker's or physical
access (R114), and whether its bandwidth has been granted already, or is charged to no SID (R93, R100). -/
structure LReq where
  src : Nat
  la : Nat
  die : Nat
  world : Nat
  sid : Nat
  pol : Nat
  prot : Option Nat
  phys : Bool
  paid : Bool

/-- A line of an open-world page outside the windows has neither side-band nor tag (R76); a physical access names no page and leaves both as they are. -/
def LReq.bare (r : LReq) : Bool := r.prot.isNone && !r.phys

/-- Where a fill goes: its way and the range that retains it; none: served without allocating (R96, R97, R104). The second part says that a range overflowed. -/
def chooseWay (s : State) (r : LReq) : Option (Nat × Option Nat) × Option Nat :=
  let ks := waysOf r.die r.la
  let pa := 128 * r.la
  let free := match rangeFor s pa r.sid with
    | some i => ((retWays (retCtl s i)).map (fun w => ks.getD w 0)).find? (fun k => (getL2 s k).range.isNone && !(getL2 s k).quarantined)
      |>.map (fun k => (k, i))
    | none => none
  let ovf := if free.isNone then rangeFor s pa r.sid else none
  match free with
  | some (k, i) => (some (k, some i), none)
  | none =>
    let cand := ((fillWays s r.die r.sid).map (fun w => ks.getD w 0)).filter (fun k => (getL2 s k).range.isNone && !(getL2 s k).quarantined)
    let order := (look [] s.mem.recency (ks.headD 0 / 16)).reverse
    let victim := match cand.find? (fun k => !(getL2 s k).used) with
      | some k => some k
      | none => (order.map (fun w => ks.getD w 0)).find? (fun k => cand.contains k)
    (victim.map (fun k => (k, none)), ovf)

/-- OVF of a range, saturating (R101). -/
def countOvf (s : State) : Option Nat → State
  | none => s
  | some i =>
    let v := look 0 s.regs.retstat i
    { s with regs := { s.regs with retstat := putC 0 s.regs.retstat i (BitVec.ofNat 64 (2 ^ 32 * sat (2 ^ 32 - 1) (fld v 63 32 + 1))) } }

/-- Soft errors corrected in a stack, counted in the service processor's error log (R72). -/
def countSoft (s : State) (stack n : Nat) : State :=
  { s with mem := { s.mem with softErrs := putC 0 s.mem.softErrs stack (look 0 s.mem.softErrs stack + n) } }

/-- The errors of the n-th DRAM read: corrected ones are counted for the line's stack, an uncorrectable one poisons the line (R72). -/
def dramError (s : State) (la : Nat) : State :=
  if (rangeOf s (128 * la)).isDram then
    let hit := Config.uncorrectable s.freeNo
    let s := countSoft (bumpFree s) (stackOf s (128 * la)) (Config.corrected s.freeNo)
    if hit then { s with mem := { s.mem with poison := putC false s.mem.poison (lineKey s la) true } } else s
  else s

/-- A line's metadata as a request's fill finds it; the base die reads the scale bytes of a window's line with it, and what it cannot correct there poisons the
joined line (R72, R76, R77). -/
def fillMeta (s : State) (r : LReq) : State × W128 × Nat × Option Nat :=
  match windowOf s (128 * r.la) with
  | some i =>
    if winFmt s i = 1 || winFmt s i = 2 then
      let sl := (scaleAt s i r.la).1 / 128
      let s := dramError s sl
      (if poisoned s sl then { s with mem := { s.mem with poison := putC false s.mem.poison (lineKey s r.la) true } } else s, memMeta s r.la)
    else (s, memMeta s r.la)
  | none => (s, if r.bare then (0, 0, none) else memMeta s r.la)

/-- The grant of a line that no way holds (spec/24 R394). -/
def passOf (s : State) (la : Nat) : Option Pass := s.mem.passes.find? (fun p => p.line = la)

def dropPass (s : State) (la : Nat) : State :=
  if (passOf s la).isSome then { s with mem := { s.mem with passes := s.mem.passes.filter (fun p => p.line ≠ la) } } else s

/-- A grant as a line keeps it: 0 none, 1 S, 2 E. -/
def passGrant : Option Pass → Nat
  | some p => if p.excl then 2 else 1
  | none => 0

/-- A way for the line, its victim written back and the new line empty but for its metadata; none: not allocated. A grant that stood for its request alone stays with the
line. -/
def allocate (s : State) (r : LReq) : State × Option Nat :=
  if r.pol = 2 then (s, none)
  else
    let c := chooseWay s r
    let s := countOvf s c.2
    match c.1 with
    | none => (s, none)
    | some (k, range) =>
      let m := fillMeta (evict s k) r
      let s := setL2 m.1 k { L2Line.reset with
        used := true, line := r.la, sid := r.sid, range := range, side := m.2.1, kslot := m.2.2.1, win := m.2.2.2, filledAt := s.turnNo
        home := r.die, grant := passGrant (passOf s r.la) }
      let s := dropPass s r.la
      (if range.isNone then enter s k r.pol else s, some k)

/-- Fill the sectors of `need` that a held line lacks. -/
def fillSectors (s : State) (k : Nat) (need : BitVec 4) : State :=
  let e := getL2 s k
  let miss := need &&& ~~~e.valid
  if miss = 0 then s
  else
    let s := dramError s e.line
    setL2 s k { e with data := mergeLine e.data (memLine s e.line) (sectorBytes miss), valid := e.valid ||| miss }

/-- A hit moves the line in the recency order by policy; a retained line does not move (R98). -/
def hitLine (s : State) (k pol : Nat) : State :=
  if (getL2 s k).range.isSome || pol = 2 then s else enter s k pol

/-- The line's key, allocated on a miss. -/
def reachLine (s : State) (r : LReq) : State × Option Nat :=
  match findL2 s r.die r.la with
  | some k => (hitLine s k r.pol, some k)
  | none => allocate s r

/-- Read sectors of a line at its home slice: ciphertext or plain bytes as held, and the metadata. -/
def fetchRaw (s : State) (r : LReq) (need : BitVec 4) : State × Line × W128 × Option Nat :=
  let a := reachLine s r
  match a.2 with
  | some k =>
    let s := fillSectors a.1 k need
    let e := getL2 s k
    (s, e.data, e.side, e.win)
  | none =>
    let m := fillMeta (dramError a.1 r.la) r
    (m.1, memLine m.1 r.la, m.2.1, m.2.2.2)

/-- Write bytes of a line at its home slice; `side` changes the metadata: a side-band, or a tag and its slot. A line of an open-world page outside the
windows keeps neither (R76). -/
def storeRaw (s : State) (r : LReq) (k : Nat) (data : Line) (side : W128 → W128) (kslot : Option Nat) : State :=
  let a := reachLine s r
  match a.2 with
  | some w =>
    let s := fillSectors a.1 w (touched k &&& ~~~covered k)
    let e := getL2 s w
    let bare := r.bare && e.win.isNone
    setL2 s w { e with
      data := mergeLine e.data data k, valid := e.valid ||| touched k, dirty := e.dirty ||| touched k
      side := if bare then 0 else side e.side, kslot := if bare then 0 else kslot.getD e.kslot }
  | none =>
    let s := memWrite a.1 (128 * r.la) k data.toNat 128
    let m := memMeta s r.la
    let bare := r.bare && m.2.2.isNone
    putMeta s r.la (if bare then 0 else side m.1) (if bare then 0 else kslot.getD m.2.1) m.2.2

/-! ### Keys -/

/-- The slot and key material bound to a key-handle entry, numbered 16·world + KEYIX (spec/26 R416). -/
def boundSlot (s : State) (entry : Nat) : Option Nat := look none s.host.handles entry
def keyOf (s : State) (entry : Nat) : Option (BitVec 768) :=
  match boundSlot s entry with
  | some slot => (look none s.host.keys slot).map (fun p => p.2)
  | none => none

/-! ### What a slice refuses -/

/-- A fault of an access: cause, reason (KEYIX, port), level, the entry that decided it and its physical address (R88). -/
structure AFault where
  cause : Nat
  reason : Nat
  level : Nat
  pte : W64
  eaddr : Nat

/-- A refusal of a home slice. No page-table entry decides it, so the level field of its record is not stated: the model writes 0 (DESIGN CHOICE, log 29). -/
def refusal (cause reason la : Nat) : AFault := { cause := cause, reason := reason, level := 0, pte := 0, eaddr := 128 * la }

/-- The node table's range while the tree is enabled (spec/06 R113, R114). -/
def inTree (s : State) (pa : Nat) : Bool := bit s.regs.treebase 0 && pa / 2 ^ 22 = fld s.regs.treebase 51 22

/-- A line in a quarantine slot, or held quarantined in its slice (spec/24 R398, R400). -/
def quarantinedLine (s : State) (la : Nat) : Bool :=
  s.mem.quar.any (fun p => p.2 = la) || s.mem.l2.any (fun p => p.2.quarantined && p.2.line = la)

/-- What a home slice refuses before it looks at the line: LINKDOWN (spec/24 R393, R398), windows to protected worlds (R78), the node table (R114). -/
def sliceRefuses (s : State) (r : LReq) : Option AFault :=
  let pa := 128 * r.la
  if rangeOf s pa = .fabric && (quarantinedLine s r.la || !portUp s (portOf pa)) then some (refusal 0x33 (portOf pa) r.la)
  else if r.world ≠ 0 && inAnyWindow s pa then some (refusal 6 5 r.la)
  else if r.phys && inTree s pa then some (refusal 6 4 r.la)
  else none

/-! ### Reads of internal users, and coherent bytes as they stand -/

/-- A line as an observer at its home sees it now: sectors held by the slice, else memory. -/
def lineNow (s : State) (die la : Nat) : Line :=
  match findL2 s die la with
  | some k => mergeLine (memLine s la) (getL2 s k).data (sectorBytes (getL2 s k).valid)
  | none => memLine s la

/-- A line's metadata as it stands. -/
def sideNow (s : State) (die la : Nat) : W128 :=
  match findL2 s die la with
  | some k => (getL2 s k).side
  | none => (memMeta s la).1

/-- `n` bytes inside one line, as they stand. -/
def cohRead (s : State) (pa n : Nat) : Nat :=
  (lineNow s (homeDie s pa 0) (pa / 128)).toNat / 2 ^ (8 * (pa % 128)) % 2 ^ (8 * n)

/-- Write `n` bytes inside one line where they stand: no fill, no write completion time (the node table of spec/06). -/
def cohWrite (s : State) (pa n v : Nat) : State :=
  let la := pa / 128
  let k := (2 ^ n - 1) * 2 ^ (pa % 128)
  let d : Line := BitVec.ofNat 1024 (v % 2 ^ (8 * n) * 2 ^ (8 * (pa % 128)))
  match findL2 s (homeDie s pa 0) la with
  | some key =>
    let e := getL2 s key
    if touched k &&& ~~~e.valid = 0 then setL2 s key { e with data := mergeLine e.data d k, dirty := e.dirty ||| touched k }
    else memWrite s (128 * la) k d.toNat 128
  | none => memWrite s (128 * la) k d.toNat 128

end Sys2Proof.Machine
end

