-- ==== Sys2Proof/Machine/Slice.lean ====
section
/-!
DEFINITION. Requests performed at a home slice: reads and writes of one line with the checks, tags, leases and write completion times of
spec/04 R72, R78, spec/08 R155, R156, R438, spec/13 R260, and what a write sets off: bumps (spec/06 R117) and condition monitors
(spec/08 R176).
-/
namespace Sys2Proof.Machine

/-! ### Leases and times -/

/-- Key of a line's LMAX and VMAX at its home. -/
def homeKey (die la : Nat) : Nat := 2 ^ 46 * die + la
def lmaxOf (s : State) (die la : Nat) : Nat := look 0 s.mem.lmax (homeKey die la)
def vmaxOf (s : State) (die la : Nat) : Nat := look 0 s.mem.vmax (homeKey die la)

/-- LEN of R155: below 64 acts as 64. -/
def leaseLen (s : State) : Nat := Nat.max 64 (fld s.regs.leasecfg 15 0)

/-- A read response grants a lease: its end, and LMAX raised to it (R155). -/
def grantLease (s : State) (die la : Nat) : State × Nat :=
  let e := s.time + leaseLen s
  ({ s with mem := { s.mem with lmax := putC 0 s.mem.lmax (homeKey die la) (Nat.max e (lmaxOf s die la)) } }, e)

/-! ### Bumps (spec/06 R115-R121) -/

def satCount : Nat := 0xFFFFFFFFFFFFFFFE

def nodeAddr (s : State) (h : Nat) : Nat := 2 ^ 22 * fld s.regs.treebase 51 22 + 64 * h
/-- Word `i` of a node's entry. -/
def nodeWord (s : State) (h i : Nat) : W64 := BitVec.ofNat 64 (cohRead s (nodeAddr s h + 8 * i) 8)
def setNodeWord (s : State) (h i : Nat) (v : W64) : State := cohWrite s (nodeAddr s h + 8 * i) 8 v.toNat
def nodeLive (s : State) (h : Nat) : Bool := h ≠ 0 && bit (nodeWord s h 1) 0
def nodeParent (s : State) (h : Nat) : Nat := fld (nodeWord s h 1) 63 48

/-- Add to COUNT, saturating (R120). -/
def addCount (s : State) (h n : Nat) : State :=
  setNodeWord s h 0 (BitVec.ofNat 64 (Nat.max (nodeWord s h 0).toNat (sat satCount ((nodeWord s h 0).toNat + n))))
def addPend (s : State) (h n : Nat) : State := setNodeWord s h 3 (nodeWord s h 3 + BitVec.ofNat 64 n)

/-- Raise the WCT kept beside a node's count (R123). -/
def raiseNodeWct (s : State) (h t : Nat) : State :=
  { s with mem := { s.mem with nodeWct := putC 0 s.mem.nodeWct h (Nat.max t (look 0 s.mem.nodeWct h)) } }

def getGranule (s : State) (frame : Nat) : Granule := look Granule.reset s.mem.granules frame
def setGranule (s : State) (frame : Nat) (g : Granule) : State :=
  { s with mem := { s.mem with granules := putC Granule.reset s.mem.granules frame g } }

def nodeLine (s : State) (h : Nat) : Nat := nodeAddr s h / 128

/-- The entries of nodes are read at their home slices; those that no slice holds come from DRAM (spec/04 R72). -/
def readNodes (s : State) (hs : List Nat) : State :=
  (dedup (hs.map (nodeLine s))).foldl (fun s la => if (findL2 s (homeDie s (128 * la) 0) la).isSome then s else dramError s la) s

/-- A write transaction's one bump, when its granule is enrolled (R117, R121). It reads and rewrites its node's entry; where that line is poisoned nothing is reported, for a
bump has no requester (DESIGN CHOICE, log 12). -/
def bump (s : State) (la wct : Nat) : State :=
  let g := getGranule s (la / 32)
  if g.v then
    let s := setGranule (readNodes s [g.node]) (la / 32) { g with
      gcount := BitVec.ofNat 64 (Nat.max g.gcount.toNat (sat satCount (g.gcount.toNat + 1))), wct := Nat.max g.wct wct }
    raiseNodeWct (addPend (addCount s g.node 1) g.node 1) g.node wct
  else s

/-! ### Monitors (spec/08 R176) -/

/-- A page's key-handle entry: none for an open-world page (spec/04 R81). -/
def leafEntry (leaf : W64) : Option Nat :=
  if fld leaf 55 52 = 0 then none else some (16 * fld leaf 55 52 + fld leaf 11 8)

/-- A line's bytes as a holder of the page's key reads them. -/
def plainNow (s : State) (die la : Nat) (leaf : W64) : Line :=
  match leafEntry leaf with
  | none => lineNow s die la
  | some e => match keyOf s e with
    | some km => lineCrypt true km la (lineNow s die la)
    | none => lineNow s die la

def fieldOfLine (x : Line) (off n : Nat) : Nat := x.toNat / 2 ^ (8 * off) % 2 ^ (8 * n)

/-- Does a WAITC's compare hold between memory's value and the operand? -/
def waitHolds (i : Instr) (m v : Nat) : Bool := match i with
  | .waitc f => (setpLane f.ty.toNat (modF f 8 6) false m v).1
  | _ => false

def waitBytes (i : Instr) : Nat := match i with
  | .waitc f => if typeRegs f.ty.toNat = 2 then 8 else 4
  | _ => 4

/-- The word a waiter names, as it stands. -/
def waiterWord (s : State) (o : Op) (pa : Nat) : Nat :=
  let leaf := match o.accs with
    | a :: _ => a.leaf
    | [] => 0
  let die := homeDie s pa (fld leaf 62 61)
  fieldOfLine (plainNow s die (pa / 128) leaf) (pa % 128) (waitBytes o.instr)

/-- After a write to a line (of the bytes of `k`; the line's VMAX is now `wct`) every wait on it compares again, with an entry or held at its core (R106: the result is
the same); the first satisfying value is the answer, with the VMAX that goes with it (R260). A queue
waiter is marked when its object's bytes change: a queue operation takes the mark away again, so it stays after other writes alone (spec/14 R279). -/
def scanMonitors (s : State) (la k wct : Nat) : State :=
  { s with mem := { s.mem with waiters := s.mem.waiters.map (fun w =>
      if w.queue && w.pa / 128 = la && k / 2 ^ (w.pa % 128) % 2 ^ 64 ≠ 0 then { w with hit := some 1 }
      else if !w.queue && w.hit.isNone && w.pa / 128 = la then
        match findOp s w.op with
        | some o =>
          let m := waiterWord s o w.pa
          if waitHolds o.instr m (nth o.b (lowLane o.lanes)).toNat then { w with hit := some (BitVec.ofNat 64 m), vm := wct } else w
        | none => w
      else w) } }

/-! ### Reads -/

/-- A read's outcome: the line's plain bytes, its side-band and window, the lease end and VMAX that go with it; or a fault. -/
inductive ReadRes where
  | ok (data : Line) (side : W128) (win : Option Nat) (lease vmax : Nat)
  | bad (f : AFault)

/-- Any request to a gated slice ends its power gating (log 7). -/
def ungate (s : State) (die la : Nat) : State :=
  { s with mem := { s.mem with gated := putC false s.mem.gated (sliceOf die (128 * la)) false } }

/-- The lease that goes with a read whose data is kept as a copy (R155): no copy outlives a grant that its slice does not hold (spec/24 R394; DEDUCED, log 24). -/
def leaseFor (s : State) (r : LReq) (keep : Bool) : State × Nat :=
  if keep && !(rangeOf s (128 * r.la) = .fabric && (findL2 s r.die r.la).isNone) then grantLease s r.die r.la else (s, 0)

/-- A request must wait: the step it belongs to does not happen. -/
def hold (s : State) (h : Hold) : State := { s with holds := s.holds ++ [h] }

/-- A request that must cross the die link while it is down waits at its requester (spec/24 R401): the step it belongs to does not happen. -/
def atLink (s : State) (src home : Nat) : State := if bit s.regs.dlstat 0 || src = home then s else hold s .link

/-- Whether a host-homed line may be read, or written, here: under S or E (spec/24 R394), held with the line or, where no way may hold the line, for its request alone. -/
def grantOk (s : State) (r : LReq) (write : Bool) : Bool :=
  if rangeOf s (128 * r.la) = .fabric && portUp s (portOf (128 * r.la)) && !quarantinedLine s r.la then
    match findL2 s r.die r.la, passOf s r.la with
    | some k, _ => if write then (getL2 s k).grant = 2 else (getL2 s k).grant ≠ 0
    | none, some p => p.excl || !write
    | none, none => false
  else true

/-- The step being made uses the grant of a line that no way holds. -/
def usePass (s : State) (la : Nat) : State := if (passOf s la).isNone then s else
  { s with mem := { s.mem with passes := s.mem.passes.map (fun p => if p.line = la then { p with used := true } else p) } }

/-- Whether a request to the line waits at its slice: a snoop awaits its answer (spec/24 R395), or a grant is needed. -/
def sliceHolds (s : State) (r : LReq) (write : Bool) : Bool := s.mem.snoops.contains r.la || !grantOk s r write

/-! ### Bandwidth (spec/05 R100) -/

def bucketCap (v : W64) : Nat := 8 * Nat.max 1 (fld v 15 8)
def bucketRate (v : W64) : Nat := Nat.min 64 (fld v 6 0)
def bandwidth (s : State) (sid : Nat) : W64 := look Regs.sidbwReset s.regs.sidbw sid

/-- Units of 16 bytes in a SID's bucket now: it refills from the clock noted with it, none before that. -/
def bucketNow (s : State) (slice sid : Nat) : Nat :=
  let v := bandwidth s sid
  let k := slice * 32 + sid
  if s.sclk < look 0 s.mem.bucketAt k then 0
  else Nat.min (bucketCap v) (look 0 s.mem.bucket k + bucketRate v * (s.sclk - look 0 s.mem.bucketAt k))

/-- Before a SID's RATE or BURST changes, every slice's bucket of it takes what the clocks until now have brought. -/
def settleBuckets (s : State) (sid : Nat) : State :=
  (List.range 192).foldl (fun t c =>
    let k := c * 32 + sid
    if s.sclk < look 0 s.mem.bucketAt k then t
    else { t with mem := { t.mem with bucket := putC 0 t.mem.bucket k (bucketNow s c sid), bucketAt := putC 0 t.mem.bucketAt k s.sclk } }) s

/-- A SID whose RATE is 0 is entitled to nothing. -/
def entitled (s : State) (slice sid cost : Nat) : Bool := bucketRate (bandwidth s sid) ≠ 0 && cost ≤ bucketNow s slice sid

/-- Whether a SID takes lent bytes. -/
def lends (s : State) (sid : Nat) : Bool := bit (bandwidth s sid) 16 || bucketRate (bandwidth s sid) = 0

/-- Bytes that a slice has granted in this slice clock, with those that a step granted beyond an earlier clock's 1,024. -/
def grantedBytes (s : State) (slice : Nat) : Nat :=
  let used := look (0, 0) s.mem.clkBytes slice
  used.2 - 1024 * (s.sclk - used.1)

def fitsClock (s : State) (slice cost : Nat) : Bool := grantedBytes s slice + 16 * cost ≤ 1024

/-- Slice clocks in which a SID's RATE brings `short` units. -/
def refillTime (s : State) (sid short : Nat) : Nat := (short + bucketRate (bandwidth s sid) - 1) / bucketRate (bandwidth s sid)

/-- A grant of `cost` units, of which the bucket pays `paid`: the slice's clock and round-robin place follow. What a step takes beyond the bucket is paid by the clocks to
come (log 7). -/
def charge (s : State) (slice sid cost paid : Nat) : State :=
  let k := slice * 32 + sid
  let at_ := Nat.max s.sclk (look 0 s.mem.bucketAt k)
  let got := if s.sclk < at_ then look 0 s.mem.bucket k else bucketNow s slice sid
  let wait := if paid ≤ got then 0 else refillTime s sid (paid - got)
  { s with mem := { s.mem with
    bucket := putC 0 s.mem.bucket k (got + wait * bucketRate (bandwidth s sid) - paid), bucketAt := putC 0 s.mem.bucketAt k (at_ + wait)
    clkBytes := putC (0, 0) s.mem.clkBytes slice (s.sclk, grantedBytes s slice + 16 * cost), lastSid := putC 31 s.mem.lastSid slice sid } }

/-- A request still waits: its operation has not been performed and still has an access on the line; a device's place stands until its step is made. -/
def stillWaits (s : State) (w : SliceWait) : Bool := w.dev.isSome || match findOp s w.op with
  | some o => o.phase = 0 && !o.granted.contains w.line && o.accs.any (fun a => !a.done && a.pa.isSome && a.pa.getD 0 / 128 = w.line)
  | none => false

/-- The requests that wait at a slice. -/
def waitsAt (s : State) (slice : Nat) : List SliceWait := s.mem.waits.filter (fun w => w.slice = slice && stillWaits s w)

/-- The oldest waiting request of each SID. -/
def oldestAt (s : State) (slice : Nat) : List SliceWait :=
  let ws := waitsAt s slice
  ws.filter (fun w => ws.all (fun x => x.sid ≠ w.sid || w.since ≤ x.since))

/-- Place of a SID in the round, which starts after the SID granted last (before any, at SID 0). -/
def sidPlace (s : State) (slice sid : Nat) : Nat := (sid + 31 - look 31 s.mem.lastSid slice) % 32

/-- Whether the slice grants a request of `sid` now, ahead of every other that waits, and what its bucket pays: entitled requests first, by SID in round-robin order, each
SID's oldest first; then lent bytes, in the same order, when no entitled request claims them. R100 does not say how many a visit grants, nor what becomes of one that the clock's
remaining bytes cannot hold: the model grants one, and passes over the other for a smaller one (DESIGN CHOICE, log 7). `self` are the waiting requests that this one is not
to yield to (itself). -/
def grantNow (s : State) (slice sid cost : Nat) (self : SliceWait → Bool) : Option Nat :=
  let heads := (oldestAt s slice).filter (fun w => !self w && fitsClock s slice w.cost)
  let mine := (waitsAt s slice).all (fun w => self w || w.sid ≠ sid)
  let ahead := fun (w : SliceWait) => sidPlace s slice w.sid < sidPlace s slice sid
  if !fitsClock s slice cost || !(mine || (oldestAt s slice).any (fun w => self w && w.sid = sid)) then none
  else if entitled s slice sid cost then
    if heads.any (fun w => entitled s slice w.sid w.cost && ahead w) then none else some cost
  else if !lends s sid || heads.any (fun w => entitled s slice w.sid w.cost || (lends s w.sid && ahead w)) then none
  else some 0

/-- The place of the step being made among those that wait. -/
def selfWait (s : State) (w : SliceWait) : Bool := w.dev.isSome && w.dev = s.ev

/-- A device's request is charged as it is made. The first of a step at a slice waits for its grant, in a place of its own among those that wait; those that follow it in one step
go with it, and what they take beyond the clock and the bucket is charged to the clocks to come (log 7). -/
def payFor (s : State) (slice sid cost : Nat) : State :=
  let k := slice * 32 + sid
  match grantNow s slice sid cost (selfWait s), decide (look 0 s.mem.paid k = s.turnNo) with
  | some n, _ =>
    let t := charge s slice sid cost n
    { t with mem := { t.mem with paid := putC 0 t.mem.paid k s.turnNo } }
  | none, true => charge s slice sid cost (if bucketRate (bandwidth s sid) = 0 then 0 else cost)
  | none, false => hold s (.tokens slice sid cost)

/-- A request is let in at its slice: its bandwidth is charged (R93, R100), unless it has been; a pending snoop (spec/24 R395) or a grant not held (R394) makes it wait. -/
def admitReq (s : State) (r : LReq) (write : Bool) (cost : Nat) : State :=
  let s := if r.paid then s else payFor s (sliceOf r.die (128 * r.la)) r.sid cost
  if s.mem.snoops.contains r.la then hold s .snoop
  else if grantOk s r write then usePass s r.la
  else hold s (.grant r.la write r.die r.sid r.pol)

/-- Units for the sectors of a line that move (R100). -/
def sectorCost (sec : BitVec 4) : Nat := 2 * popcount sec

/-- A second access of one request: it costs nothing more, and a line that no way could take is not placed again (R104). -/
def LReq.again (s : State) (r : LReq) : LReq := { r with paid := true, pol := if (findL2 s r.die r.la).isNone then 2 else r.pol }

/-- Read sectors of a line (spec/04 R72, R78; spec/08 R152, R155); `keep`: L1 or the stash keeps a copy under a lease. -/
def readLine (s : State) (r : LReq) (need : BitVec 4) (keep : Bool) : State × ReadRes :=
  match sliceRefuses s r with
  | some f => (s, .bad f)
  | none =>
    let s := ungate (atLink (admitReq s r false (sectorCost (if r.prot.isSome then 15 else need))) r.src r.die) r.die r.la
    match r.prot with
    | none =>
      let p := fetchRaw s r need
      if poisoned p.1 r.la then (p.1, .bad (refusal 6 6 r.la))
      else
        let g := leaseFor p.1 r keep
        (g.1, .ok p.2.1 p.2.2.1 p.2.2.2 g.2 (vmaxOf g.1 r.die r.la))
    | some e => match keyOf s e with
      | none => (s, .bad (refusal 9 (e % 16) r.la))
      | some km =>
        let p := fetchRaw s r 15
        if poisoned p.1 r.la then (p.1, .bad (refusal 6 6 r.la))
        else if lineTag km r.la p.2.1 ≠ p.2.2.1.setWidth 64 then (p.1, .bad (refusal 9 (e % 16) r.la))
        else
          let g := leaseFor p.1 r keep
          (g.1, .ok (lineCrypt true km r.la p.2.1) 0 none g.2 (vmaxOf g.1 r.die r.la))

/-! ### Writes -/

/-- A write has been performed: its WCT, VMAX, the line's bump if its kind bumps, and the monitors (R156, R260, R117, R176). -/
def afterWrite (s : State) (r : LReq) (k : Nat) (bumps : Bool) : State × Nat :=
  let wct := Nat.max s.time (lmaxOf s r.die r.la)
  let s := { s with mem := { s.mem with vmax := putC 0 s.mem.vmax (homeKey r.die r.la) (Nat.max wct (vmaxOf s r.die r.la)) } }
  let s := if bumps && (rangeOf s (128 * r.la)).isDram then bump s r.la wct else s
  (scanMonitors s r.la k (vmaxOf s r.die r.la), wct)

/-- A store that overwrites the whole line clears its poison (R72). -/
def healPoison (s : State) (la k : Nat) : State :=
  if k = 2 ^ 128 - 1 then { s with mem := { s.mem with poison := putC false s.mem.poison (lineKey s la) false } } else s

/-- A write's outcome: its WCT, or a fault with nothing written. -/
inductive WriteRes where
  | ok (wct : Nat)
  | bad (f : AFault)

/-- Store ciphertext and its tag. -/
def storeSealed (s : State) (r : LReq) (e : Nat) (km : BitVec 768) (plain : Line) : State :=
  let c := lineCrypt false km r.la plain
  healPoison (storeRaw s r (2 ^ 128 - 1) c (fun _ => (lineTag km r.la c).setWidth 128) ((boundSlot s e).map (· + 1))) r.la (2 ^ 128 - 1)

/-- Write bytes of a line (spec/08 R156, R438; spec/26 R415). `side` changes a side-band (STD). A partial store of an open line whose sector fill meets a poisoned line is
performed and raises no reason 6: R72 lets the fill complete, and does not say whether such a store is an access that reads the line (DESIGN CHOICE, log 29). -/
def writeLine (s : State) (r : LReq) (k : Nat) (data : Line) (side : W128 → W128) (bumps : Bool) : State × WriteRes :=
  match sliceRefuses s r with
  | some f => (s, .bad f)
  | none =>
    let s := ungate (atLink (admitReq s r true (sectorCost (if r.prot.isSome then 15 else touched k))) r.src r.die) r.die r.la
    match r.prot with
    | none =>
      let s := healPoison (storeRaw s r k data side none) r.la k
      let a := afterWrite s r k bumps
      (a.1, .ok a.2)
    | some e => match keyOf s e with
      | none => (s, .bad (refusal 9 (e % 16) r.la))
      | some km =>
        if k = 2 ^ 128 - 1 then
          let a := afterWrite (storeSealed s r e km data) r k bumps
          (a.1, .ok a.2)
        else
          let p := fetchRaw s r 15
          if poisoned p.1 r.la then (p.1, .bad (refusal 6 6 r.la))
          else if lineTag km r.la p.2.1 ≠ p.2.2.1.setWidth 64 then (p.1, .bad (refusal 9 (e % 16) r.la))
          else
            let a := afterWrite (storeSealed p.1 (LReq.again p.1 r) e km (mergeLine (lineCrypt true km r.la p.2.1) data k)) r k bumps
            (a.1, .ok a.2)

/-- Ask the directory, where a grant is needed (R394). -/
def askGrant (s : State) (r : LReq) (write : Bool) : State := if grantOk s r write then s else emit s (.wantGrant r.la write)

end Sys2Proof.Machine
end

