-- ==== Sys2Proof/Machine/Translate.lean ====
section
/-!
DEFINITION. Virtual addresses: the page walk and its checks in order (spec/04 R79-R84), TLBs (R85), a service thread's own translation
(spec/24 R437), and the fault records a failing access leaves (spec/04 R88).
-/
namespace Sys2Proof.Machine

/-- Whose translation an access uses: a service thread (`thread`) or a context, its root, and what its requests carry. `phys`: addresses are
physical (SPROOT.EN = 0). `core` names the L1 TLB. -/
structure XCtx where
  thread : Option Nat
  core : Nat
  ctx : Nat
  world : Nat
  sid : Nat
  root : Nat
  phys : Bool

/-- A context's own accesses, from a unit of `core`. -/
def ctxX (s : State) (core ctx world sid : Nat) : XCtx :=
  { thread := none, core := core, ctx := ctx, world := world, sid := sid, root := (ctxWord s ctx 0).toNat, phys := false }

/-- A service thread's accesses (spec/24 R437). -/
def threadX (s : State) (q : Nat) : XCtx :=
  let r := (getThread s q).sproot
  { thread := some q, core := 0x1FF, ctx := 0, world := 0, sid := 0, root := 2 ^ 13 * fld r 51 13, phys := !bit r 0 }

def unitX (s : State) (u : UnitId) : XCtx := match u with
  | .thread q => threadX s q
  | u => let w := whoIs s u
    ctxX s (match u with
      | .warp c _ => c
      | .front c _ => c
      | .thread _ => 0) w.ctx w.world w.sid

def XCtx.die (x : XCtx) : Nat := match x.thread with
  | some _ => 0
  | none => dieOf x.core

/-! ### The walk (R79-R83) -/

/-- A walk's outcome: the leaf with its address and level, or the fault. -/
inductive WalkRes where
  | leaf (e : W64) (ea level : Nat)
  | bad (f : AFault)

/-- log2 of a leaf's page size (R82); none: a dash. -/
def pageBits (level span : Nat) : Option Nat :=
  match level with
  | 1 => if span = 0 then some 32 else none
  | 2 => if span ≤ 2 then some (22 + 2 * span) else none
  | 3 => some (12 + 2 * span)
  | _ => none

/-- R81, R82: is a leaf well formed at its level? -/
def leafOk (e : W64) (level : Nat) : Bool :=
  match pageBits level (fld e 4 3) with
  | none => false
  | some n =>
    fld e 6 5 = 0 && fld e 62 61 ≠ 3 && (bit e 7 || fld e 60 56 = 0) && (fld e 55 52 ≠ 0 || fld e 11 8 = 0) &&
    4096 * fld e 51 12 % 2 ^ n = 0

/-- A walker's read of one entry: physical, uncharged (the spec names no SID for it, log 30), cached nowhere but as its slice has it. No rule
says which world it carries: the model gives it 0 (DESIGN CHOICE, log 29). -/
def walkReq (s : State) (die ea : Nat) : LReq :=
  { src := die, la := ea / 128, die := homeDie s ea 0, world := 0, sid := 0, pol := 2, prot := none, phys := true, paid := true }

/-- One entry read by a walker of a die: an atomic read at its home slice (R84), which may refuse it: poison (R72), the node table (R114), a port or line that is
lost (spec/24 R393, R398). -/
def walkRead (s : State) (die ea : Nat) : State × (AFault ⊕ W64) :=
  let r := readLine s (walkReq s die ea) (touched (255 * 2 ^ (ea % 128))) false
  match r.2 with
  | .bad f => (r.1, .inl f)
  | .ok d _ _ _ _ => (r.1, .inr (BitVec.ofNat 64 (fieldOfLine d (ea % 128) 8)))

/-- Which entry of a leaf's group an access uses when the entries differ is unspecified (R82): one of the group's leaves of that span, with its address. -/
def groupEntry (s : State) (ea : Nat) (e : W64) : W64 × Nat :=
  let n := 4 ^ fld e 4 3
  let base := ea / (8 * n) * (8 * n)
  let es := (List.range n).map (fun i => (BitVec.ofNat 64 (cohRead s (base + 8 * i) 8), base + 8 * i))
  let alike := es.filter (fun x => bit x.1 0 && bit x.1 1 && fld x.1 4 3 = fld e 4 3)
  if alike.all (fun x => x.1 == e) then (e, ea) else alike.getD (Config.pick s.freeNo % alike.length) (e, ea)

/-- Walk from a table at `level` with `fuel` levels left. `path` gathers the tables passed, by level. -/
def walkFrom (die : Nat) (va : W64) : Nat → State → List (Nat × Nat) → Nat → Nat → State × List (Nat × Nat) × WalkRes
  | 0, s, path, _, _ => (s, path, .bad { cause := 6, reason := 3, level := 3, pte := 0, eaddr := 0 })
  | fuel + 1, s, path, table, level =>
    let ea := table + 8 * fld va (51 - 10 * level) (42 - 10 * level)
    let path := path ++ [(level, table)]
    let r := walkRead s die ea
    match r.2 with
    | .inl f => (r.1, path, .bad { f with level := level })
    | .inr e =>
      let bad := fun (cause reason : Nat) => (r.1, path, WalkRes.bad { cause := cause, reason := reason, level := level, pte := e, eaddr := ea })
      if !bit e 0 then bad 5 0
      else if bit e 1 then
        let g := groupEntry r.1 ea e
        if leafOk g.1 level then (r.1, path, .leaf g.1 g.2 level)
        else (r.1, path, .bad { cause := 6, reason := 3, level := level, pte := g.1, eaddr := g.2 })
      else if fld e 63 52 ≠ 0 || fld e 12 2 ≠ 0 || level = 3 then bad 6 3
      else walkFrom die va fuel r.1 path (2 ^ 13 * fld e 51 13) (level + 1)

/-- A walk from the root, as memory stands. -/
def walk (s : State) (root : Nat) (va : W64) : WalkRes := (walkFrom 0 va 4 { s with regs := { s.regs with dlstat := 1 } } [] root 0).2.2

/-! ### Walk caches (R85) -/

/-- The top bits of an address that lead to a table of a level. -/
def walkPref (va : W64) (level : Nat) : Nat := va.toNat % 2 ^ 52 / 2 ^ (52 - 10 * level)

def walkHits (va : W64) (space : Nat) (e : WalkEnt) : Bool := e.space = space && walkPref va e.level = e.pref

/-- Where a walk begins: at its root, or at a table that the die's walk cache gives; which entries are kept is not architectural (log 7). -/
def walkStart (s : State) (x : XCtx) (va : W64) : State × Nat × Nat :=
  match x.thread with
  | some _ => (s, x.root, 0)
  | none =>
    let es := (look [] s.mem.walkc x.die).filter (walkHits va x.ctx)
    match es[Config.pick s.freeNo % (es.length + 1)]? with
    | some e => (bumpFree s, e.table, e.level)
    | none => (bumpFree s, x.root, 0)

/-- The tables that a successful walk passed enter the die's walk cache. -/
def walkKeep (s : State) (x : XCtx) (va : W64) (path : List (Nat × Nat)) : State :=
  match x.thread with
  | some _ => s
  | none =>
    let new := (path.filter (fun p => p.1 ≠ 0)).map (fun p => ({ space := x.ctx, level := p.1, pref := walkPref va p.1, table := p.2 } : WalkEnt))
    let old := (look [] s.mem.walkc x.die).filter (fun e => new.all (fun n => !(n.space = e.space && n.level = e.level && n.pref = e.pref)))
    { s with mem := { s.mem with walkc := putC [] s.mem.walkc x.die (new ++ old) } }

/-- A walk as a walker makes it: the tables it passed and its outcome. -/
def walkNow (s : State) (x : XCtx) (va : W64) : State × List (Nat × Nat) × WalkRes :=
  let b := walkStart s x va
  walkFrom x.die va (4 - b.2.2) b.1 [] b.2.1 b.2.2

/-- Size of a leaf's page. -/
def leafBits (e : W64) (level : Nat) : Nat := (pageBits level (fld e 4 3)).getD 12

/-- Reason 4 of R83, and R114: the page lies in one populated range and off the node table, and HOME agrees. -/
def pagePlaced (s : State) (e : W64) (level : Nat) : Bool :=
  let base := 4096 * fld e 51 12
  let size := 2 ^ leafBits e level
  let r := rangeOf s base
  let t := 2 ^ 22 * fld s.regs.treebase 51 22
  r = rangeOf s (base + size - 1) && r ≠ .unpopulated && r ≠ .device &&
  (r = .fabric || fld e 62 61 = (match r with
    | .localA => 1
    | .localB => 2
    | _ => 0)) &&
  !(bit s.regs.treebase 0 && base < t + 2 ^ 22 && t < base + size)

/-- The checks after the walk, in order: reasons 4, 2, 7, 1 (R83). -/
def leafCheck (s : State) (x : XCtx) (e : W64) (ea level : Nat) (write : Bool) : Option AFault :=
  let bad := fun (n : Nat) => some ({ cause := 6, reason := n, level := level, pte := e, eaddr := ea } : AFault)
  if !pagePlaced s e level then bad 4
  else if fld e 55 52 ≠ 0 && fld e 55 52 ≠ x.world then bad 2
  else if bit e 7 && fld e 60 56 ≠ x.sid then bad 7
  else if write && !bit e 2 then bad 1
  else none

/-- The physical address a leaf gives. -/
def leafPa (e : W64) (level : Nat) (va : W64) : Nat :=
  let n := leafBits e level
  4096 * fld e 51 12 + va.toNat % 2 ^ n

/-! ### TLBs (R85) -/

def tlbMatch (ctx : Nat) (va : W64) (t : TlbEnt) : Bool := t.space = ctx && t.vpage = va.toNat / 2 ^ t.size

/-- The entries a requester can use: its core's and its die's, or the thread's own. -/
def tlbsFor (s : State) (x : XCtx) : List TlbEnt := match x.thread with
  | some q => (getThread s q).tlb
  | none => (getCore s x.core).tlb ++ look [] s.mem.tlbs (dieOf x.core)

/-- A cached translation, if one is kept: replacement is not architectural (log 7). -/
def tlbLookup (s : State) (x : XCtx) (va : W64) : State × Option TlbEnt :=
  match (tlbsFor s x).find? (tlbMatch x.ctx va) with
  | some t => (bumpFree s, if Config.keeps s.freeNo then some t else none)
  | none => (s, none)

def tlbAdd (t : TlbEnt) (l : List TlbEnt) : List TlbEnt :=
  t :: l.filter (fun y => !(y.space = t.space && y.vpage = t.vpage && y.size = t.size))

/-- A TLB holds at most `cap` entries: an older one, any, makes room (R85; log 7). -/
def tlbFit (n cap : Nat) (l : List TlbEnt) : List TlbEnt := if l.length ≤ cap then l else l.eraseIdx (1 + Config.pick n % (l.length - 1))

/-- Cache a walk's leaf. -/
def tlbInsert (s : State) (x : XCtx) (va e : W64) (ea level : Nat) : State :=
  let n := leafBits e level
  let t : TlbEnt := { space := x.ctx, vpage := va.toNat / 2 ^ n, size := n, leaf := e, eaddr := ea, level := level }
  match x.thread with
  | some q => setThread s q { getThread s q with tlb := tlbAdd t (getThread s q).tlb }
  | none =>
    let d := dieOf x.core
    let s := { bumpFree s with mem := { s.mem with tlbs := putC [] s.mem.tlbs d (tlbFit s.freeNo 65536 (tlbAdd t (look [] s.mem.tlbs d))) } }
    bumpFree (setCore s x.core { getCore s x.core with tlb := tlbFit s.freeNo 256 (tlbAdd t (getCore s x.core).tlb) })

/-! ### One access -/

inductive XRes where
  | ok (pa : Nat) (leaf : W64)
  | bad (f : AFault)

/-- An access at physical addresses (R437, EN = 0): PROT reason 4 outside the populated ranges, in the device registers and in the node table (R114). -/
def physAccess (s : State) (va : W64) : XRes :=
  let r := rangeOf s va.toNat
  if r = .unpopulated || r = .device || inTree s va.toNat then .bad { cause := 6, reason := 4, level := 0, pte := 0, eaddr := 128 * (va.toNat / 128) }
  else .ok va.toNat 0

def checkLeaf (s : State) (x : XCtx) (va e : W64) (ea level : Nat) (write : Bool) : XRes :=
  match leafCheck s x e ea level write with
  | some f => .bad f
  | none => .ok (leafPa e level va) e

/-- A walk with its checks; a leaf that passes the page's own checks is cached (R84). -/
def walkAccess (s : State) (x : XCtx) (va : W64) (write : Bool) : State × XRes :=
  let w := walkNow s x va
  match w.2.2 with
  | .bad f => (w.1, .bad f)
  | .leaf e ea level =>
    let s := bumpFree w.1
    (if pagePlaced s e level then tlbInsert (walkKeep s x va w.2.1) x va e ea level else s, checkLeaf s x va e ea level write)

/-- Translate one access: the TLB if it holds the page, else a walk. -/
def translate (s : State) (x : XCtx) (va : W64) (write : Bool) : State × XRes :=
  if fld va 63 52 ≠ 0 then (s, .bad { cause := 5, reason := 0, level := 0, pte := 0, eaddr := 0 })
  else if x.phys then (s, physAccess s va)
  else
    let t := tlbLookup s x va
    match t.2 with
    | some e => (t.1, checkLeaf t.1 x va e.leaf e.eaddr e.level write)
    | none => walkAccess t.1 x va write

/-- Where the leaf of an access just translated lies, and its level (R88's EADDR and level). -/
def leafAt (s : State) (x : XCtx) (va : W64) : Nat × Nat :=
  match (tlbsFor s x).find? (tlbMatch x.ctx va) with
  | some t => (t.eaddr, t.level)
  | none => (0, 0)

/-- The size, as a power of 2, of the cached translation an access uses; 0 with none. -/
def tlbSize (s : State) (x : XCtx) (va : W64) : Nat := (((tlbsFor s x).find? (tlbMatch x.ctx va)).map (fun t => t.size)).getD 0

/-- The request of one line that an access makes: a leaf of 0 is a physical access. With no page there is no HOME: a fabric line then homes by the hash, as for HOME 0b00
(R91 states none; DESIGN CHOICE, log 30). -/
def lineReq (s : State) (x : XCtx) (pa : Nat) (leaf : W64) (pol : Nat) : LReq :=
  { src := x.die, la := pa / 128, die := homeDie s pa (fld leaf 62 61), world := x.world, sid := x.sid, pol := pol, prot := leafEntry leaf, phys := leaf = 0
    paid := false }

/-! ### Fault records (R88) -/

/-- DETAIL of a faulting access (spec/22 R365). -/
def detailOf (f : AFault) (access : Nat) : W32 :=
  if f.cause = 9 then BitVec.ofNat 32 f.reason
  else if f.cause = 0x33 then BitVec.ofNat 32 (f.reason * 256 + access)
  else if f.cause = 7 then BitVec.ofNat 32 access
  else BitVec.ofNat 32 (f.reason * 256 + f.level * 16 + access)

/-- ORIGIN of a lane, a front-end context or a thread (R88). -/
def originOf : UnitId → Nat → Nat
  | .warp c k, l => 2 ^ 23 * c + 2 ^ 17 * k + 2 ^ 12 * l
  | .front c _, _ => 2 ^ 23 * c + 0x3F * 2 ^ 17
  | .thread q, _ => 0x1FF * 2 ^ 23 + 2 ^ 17 * q

/-- The most records a die's buffer holds (R89). -/
def faultRoom : Nat := 256

def faultsFull (s : State) (die : Nat) : Bool := faultRoom ≤ (look [] s.mem.faults die).length

/-- A fault record joins its die's buffer, unless the context has no fault ring (R88, R89); while the buffer is full the faulting access stays outstanding. -/
def pushFault (s : State) (die ctx world : Nat) (va : W64) (f : AFault) (access source origin merged : Nat) (reqid : W64) : State :=
  if ctxWord s ctx 1 = 0 then s
  else if faultsFull s die then hold s .faults
  else
    let causew := 2 ^ 24 * f.cause + 2 ^ 20 * (f.reason % 16) +
      2 ^ 18 * (if f.cause = 9 || f.cause = 0x33 then 0 else f.level) + 2 ^ 15 * access + 2 ^ 12 * source
    let r : FaultRec :=
      { ctx := ctx
        words := [0, va, f.pte, BitVec.ofNat 64 s.time, BitVec.ofNat 64 f.eaddr, BitVec.ofNat 64 (2 ^ 32 * origin + causew),
          BitVec.ofNat 64 (2 ^ 32 * merged + 2 ^ 16 * world + ctx), reqid]
        counted := false, unusable := false, retryAt := 0 }
    { s with mem := { s.mem with faults := putC [] s.mem.faults die (look [] s.mem.faults die ++ [r]) } }

end Sys2Proof.Machine
end

