-- ==== Sys2Proof/Machine/Stash.lean ====
section
/-!
DEFINITION. The stash and its mappings (spec/08 R157-R161): filling, refreshing and writing back mapped entries, and bytes by offset.
-/
namespace Sys2Proof.Machine

/-- Entry `e` of a core's stash: its tag when mapped (R158). -/
def stashTag (s : State) (core e : Nat) : Option StashTag := look none (getCore s core).tags e
def setStashTag (s : State) (core e : Nat) (t : Option StashTag) : State :=
  setCore s core { getCore s core with tags := putC none (getCore s core).tags e t }

/-- `n` stash bytes from an offset. -/
def stashRead (s : State) (core off n : Nat) : Nat := memBytes (getCore s core).stash off n
/-- Write the bytes of the byte mask `k`. -/
def stashPut (s : State) (core off k v n : Nat) : State :=
  setCore s core { getCore s core with stash := memPut (getCore s core).stash off k v n }

/-- A team's grant on each of its cores, in bytes: first offset and length (R157). -/
def grantOf (s : State) (handle : Nat) : Nat × Nat := match findTeam s handle with
  | some t => (t.stashBase, t.stashLen)
  | none => (0, 0)

/-- Whether `n` bytes from an offset lie in the team's grant. -/
def inGrant (s : State) (handle off n : Nat) : Bool :=
  let g := grantOf s handle
  g.1 ≤ off && off + n ≤ g.1 + g.2

/-- One line of an entry's memory: 128 bytes, with the lease and VMAX that came with them. -/
def entryLine (s : State) (x : XCtx) (va : W64) : State × (AFault ⊕ (Line × Nat × Nat)) :=
  let t := translate s x va false
  match t.2 with
  | .bad f => (t.1, .inl f)
  | .ok pa leaf =>
    let r := readLine t.1 (lineReq t.1 x pa leaf 0) 15 true
    match r.2 with
    | .bad f => (r.1, .inl { f with pte := if f.cause = 9 then leaf else f.pte })
    | .ok d _ _ lease vmax => (r.1, .inr (d, lease, vmax))

/-- A refusal that a home slice gives a request (spec/04 R88), no page-table entry deciding it. -/
def AFault.atSlice (f : AFault) : Bool := f.cause = 6 && (f.reason = 5 || f.reason = 6)

/-- Fill an entry's clean bytes from memory, taking a lease (R159): its two lines are requested together, so each may be refused at its slice. -/
def fillEntry (s : State) (x : XCtx) (core e : Nat) (t : StashTag) : State × List AFault :=
  let a := entryLine s x t.va
  let other := fun (s : State) => entryLine s x (t.va + 128)
  match a.2 with
  | .inl f =>
    if f.atSlice then
      let b := other a.1
      match b.2 with
      | .inl g => (b.1, if g.atSlice then [f, g] else [f])
      | .inr _ => (b.1, [f])
    else (a.1, [f])
  | .inr (d0, l0, v0) =>
    let b := other a.1
    match b.2 with
    | .inl f => (b.1, [f])
    | .inr (d1, l1, v1) =>
      let k := 2 ^ 256 - 1 - t.dirty.toNat
      let s := stashPut b.1 core (256 * e) k (d0.toNat + 2 ^ 1024 * d1.toNat) 256
      (setStashTag s core e (some { t with filled := true, lease := Nat.min l0 l1, vmax := Nat.max v0 v1 }), [])

/-- An access touches an entry: an unfilled one is filled, one whose lease has ended refreshed (R159). -/
def touchEntry (s : State) (x : XCtx) (core e : Nat) : State × List AFault :=
  match stashTag s core e with
  | none => (s, [])
  | some t => if t.filled && s.time < t.lease then (s, []) else fillEntry s x core e t

/-- Bytes of a mapped entry become dirty (R160). -/
def dirtyEntry (s : State) (core e : Nat) (bytes : BitVec 256) : State := match stashTag s core e with
  | none => s
  | some t => setStashTag s core e (some { t with dirty := t.dirty ||| bytes })

/-- A stash write of `n` bytes: those of each mapped entry they reach become dirty (R160). -/
def stashStore (s : State) (core off n v : Nat) : State :=
  (List.range ((off % 256 + n + 255) / 256)).foldl
    (fun s i => dirtyEntry s core (off / 256 + i) (BitVec.ofNat 256 ((2 ^ n - 1) * 2 ^ (off % 256) / 2 ^ (256 * i)))) (stashPut s core off (2 ^ n - 1) v n)

/-- Sectors of L1, by address. -/
def l1Sector (pa : Nat) : Nat := pa / 32

/-- A core's copy of a sector is dropped (R153). -/
def dropL1 (s : State) (core sector : Nat) : State :=
  let c := getCore s core
  setCore s core { c with l1 := c.l1.map (fun e =>
    if e.line = sector / 4 then { e with valid := e.valid &&& ~~~BitVec.ofNat 4 (2 ^ (sector % 4)) } else e) }

/-- A core's copies of sectors of a line, which one of its units has now read or written at the slice, are dropped: a later load must not read older bytes (spec/13 R273). -/
def dropOlder (s : State) (core la : Nat) (sectors : BitVec 4) : State :=
  if (getCore s core).l1.any (fun e => e.line = la) then ((List.range 4).filter (fun i => sectors.getLsbD i)).foldl (fun s i => dropL1 s core (4 * la + i)) s else s

/-- The write-back of one line of an entry: its dirty bytes as one write transaction (R160). The core's L1 gives up its copy of the line. -/
def wbLine (s : State) (x : XCtx) (core e half : Nat) (t : StashTag) : State × (AFault ⊕ Nat) :=
  let k := t.dirty.toNat / 2 ^ (128 * half) % 2 ^ 128
  if k = 0 then (s, .inr 0)
  else
    let p := translate s x (t.va + BitVec.ofNat 64 (128 * half)) true
    match p.2 with
    | .bad f => (p.1, .inl f)
    | .ok pa leaf =>
      let d : Line := BitVec.ofNat 1024 (stashRead p.1 core (256 * e + 128 * half) 128)
      let w := writeLine p.1 (lineReq p.1 x pa leaf 0) k d (fun m => m) true
      match w.2 with
      | .bad f => (w.1, .inl { f with pte := if f.cause = 9 then leaf else f.pte })
      | .ok wct => (dropOlder w.1 core (pa / 128) 15, .inr wct)

/-- Write back an entry's dirty bytes, each line on its own: the greatest WCT, and the faults with their addresses. The entry stays mapped; a line that is written turns clean. -/
def wbEntry (s : State) (x : XCtx) (core e : Nat) : State × Nat × List (AFault × W64) :=
  [0, 1].foldl (fun (p : State × Nat × List (AFault × W64)) half =>
    match stashTag p.1 core e with
    | none => p
    | some t =>
      let a := wbLine p.1 x core e half t
      match a.2 with
      | .inl f => (a.1, p.2.1, p.2.2 ++ [(f, t.va + BitVec.ofNat 64 (128 * half))])
      | .inr w =>
        (if t.dirty.toNat / 2 ^ (128 * half) % 2 ^ 128 = 0 then a.1
          else setStashTag a.1 core e (some { t with dirty := t.dirty &&& ~~~BitVec.ofNat 256 ((2 ^ 128 - 1) * 2 ^ (128 * half)) }),
         Nat.max p.2.1 w, p.2.2)) (s, 0, [])

/-- Mapped entries of a team on a core. -/
def teamEntries (s : State) (core handle : Nat) : List Nat :=
  ((getCore s core).tags.filter (fun p => match p.2 with
    | some t => t.handle = handle
    | none => false)).map (fun p => p.1)

/-- Write back a list of entries, collecting the greatest WCT and the faults. -/
def wbEntries (x : XCtx) (core : Nat) : List Nat → State → State × Nat × List (AFault × W64)
  | [], s => (s, 0, [])
  | e :: r, s =>
    let a := wbEntry s x core e
    let b := wbEntries x core r a.1
    (b.1, Nat.max a.2.1 b.2.1, a.2.2 ++ b.2.2)

/-- The context a team's own accesses go through, from one of its cores. -/
def teamX (s : State) (core : Nat) (t : Team) : XCtx := ctxX s core t.ctx t.world t.sid

end Sys2Proof.Machine
end

