-- ==== Sys2Proof/Machine/LongOp.lean ====
section
/-!
DEFINITION. Long-latency operations in flight (spec/02 R25, spec/08 R163-R166, R261): their issue with the address checks of R164, the order
that R154, R169, R174, R175 and spec/14 R285 set among one issuer's operations, lanes that fault, and the writing of results (spec/09 R190).
-/
namespace Sys2Proof.Machine

/-! ### What a word is -/

/-- Bytes of a type code's value. -/
def typeBytes (t : Nat) : Nat :=
  match t with
  | 0 => 1
  | 4 => 1
  | 1 => 2
  | 5 => 2
  | 8 => 2
  | 9 => 2
  | 3 => 8
  | 7 => 8
  | 11 => 8
  | 14 => 16
  | _ => 4

/-- The word's fields, in full form. -/
def instrFull (i : Instr) : Full := match i.form with
  | .full _ _ f => f
  | _ => { pneg := false, pred := 7, dst := 0, sa := 0, sb := 0, sc := 0, ha := false, hb := false, hc := false, ty := 7, md := 0, fsel := false }

def instrOp (i : Instr) : Nat := match i.form with
  | .full op _ _ => op
  | _ => 0

def isScalar : UnitId → Bool
  | .warp _ _ => false
  | _ => true

/-- The core of an operation: its L1 and its L1 TLB. -/
def opCore (o : Op) : Nat := match o.unit with
  | .warp c _ => c
  | .front c _ => c
  | .thread _ => 0x1FF

/-- Destination field and 32-bit registers of a long-latency result (spec/02 R30); one s register holds 64 bits. -/
def instrDst (i : Instr) : Option (BitVec 9 × Nat) :=
  match (wspec (instrOp i) false (instrFull i)).d with
  | .val n => some ((instrFull i).dst, n)
  | _ => none

def instrDidx (i : Instr) : BitVec 9 := match instrDst i with
  | some d => d.1
  | none => 0x1FF

/-- The access code of a record (spec/04 R88). -/
def accessCode (i : Instr) : Nat :=
  match i with
  | .st _ => 1
  | .sts _ => 1
  | .std _ => 1
  | .strel _ => 1
  | .atom _ => 2
  | .atoms _ => 2
  | .cas _ => 2
  | .join _ => 2
  | .tqinit _ => 2
  | .tqkill _ => 2
  | .tqacq _ => 2
  | .tqput _ => 2
  | .tqget _ => 2
  | .tqret _ => 2
  | _ => 0

/-- Whether a word needs a page's W (R83 reason 1). -/
def accessWrites (i : Instr) : Bool := accessCode i ≠ 0

/-- Bytes each lane's access covers. -/
def accessBytes (i : Instr) : Nat :=
  match i with
  | .ldd _ => 4
  | .std _ => 4
  | .join _ => 64
  | .tqinit _ => 64
  | .tqkill _ => 64
  | .tqacq _ => 64
  | .tqput _ => 64
  | .tqget _ => 64
  | .tqret _ => 64
  | .pref _ => 1
  | .tenrol _ => 1
  | .tsettle _ => 1
  | .tread _ => 1
  | .tcmp _ => 1
  | .tdrop _ => 1
  | i => typeBytes (instrFull i).ty.toNat

def opPol (i : Instr) : Nat :=
  match i with
  | .ld f => modF f 2 1
  | .st f => modF f 2 1
  | .ldd f => modF f 2 1
  | .std f => modF f 2 1
  | .ldacq f => modF f 2 1
  | .strel f => modF f 2 1
  | .atom f => modF f 2 1
  | .cas f => modF f 2 1
  | .pref f => modF f 2 1
  | _ => 0

/-- The scope at which an operation holds its issuer's later memory words until it has returned: an acquire, and every FENCE (spec/08 R169, R174, R175, R176; spec/06 R123; spec/14 R285; spec/19 R341). -/
def acquireAt (i : Instr) : Option Nat :=
  let ord := fun (f : Full) => if modF f 5 3 = 0 then none else some (modF f 5 3 - 1)
  match i with
  | .ldacq f => some (modF f 5 3)
  | .atom f => ord f
  | .atoms f => ord f
  | .cas f => ord f
  | .fence f => some (modF f 5 3)
  | .waitc f => some (modF f 5 3)
  | .tread _ => some 4
  | .tcmp _ => some 4
  | .tqinit f => some (modF f 5 3)
  | .tqkill f => some (modF f 5 3)
  | .tqacq f => some (modF f 5 3)
  | .tqget f => some (modF f 5 3)
  | .join _ => some 3
  | .bar _ => some 2
  | .ctxrestore _ => some 5
  | _ => none

/-- The scope at which an operation is a release, if it is one. -/
def releaseAt (i : Instr) : Option Nat :=
  let ord := fun (f : Full) => if modF f 5 3 = 0 then none else some (modF f 5 3 - 1)
  match i with
  | .strel f => some (modF f 5 3)
  | .atom f => ord f
  | .atoms f => ord f
  | .cas f => ord f
  | .fence f => if modF f 7 6 = 1 then none else some (modF f 5 3)
  | .tqinit f => some (modF f 5 3)
  | .tqkill f => some (modF f 5 3)
  | .tqput f => some (modF f 5 3)
  | .tqret f => some (modF f 5 3)
  | .join _ => some 3
  | .spawn _ => some 3
  | .bar _ => some 2
  | .notifyHost _ => some 5
  | _ => none

/-- Operations that are memory events of their issuer (spec/13 R265); copies, matrix words (R264, R276) and structural tree words (spec/06 R131) are not. -/
def isMemoryEvent (i : Instr) : Bool := match i with
  | .xcopy _ => false
  | .xreplay _ => false
  | .xcancel _ => false
  | .mma _ => false
  | .mmaj _ => false
  | .mgrp _ => false
  | .mzero _ => false
  | .mdrain _ => false
  | .glr _ => false
  | .glw _ => false
  | .gres _ => false
  | .preempt _ => false
  | .preemptRel _ => false
  | .tnode _ => false
  | .tenrol _ => false
  | .trep _ => false
  | .tsettle _ => false
  | .tdrop _ => false
  | .smap _ => false
  | .pref _ => false
  | .retain _ => false
  | .unpin _ => false
  | _ => true

/-! ### Order among one issuer's operations -/

def sameIssuer (a b : Op) : Bool := a.unit = b.unit && a.handle = b.handle && a.num = b.num

def overlap (a na b nb : Nat) : Bool := a < b + nb && b < a + na

/-- Whether two accesses may name a common byte: by physical address, or by place in the page while one is not translated. -/
def sameBytes (i j : Instr) (a b : LaneAcc) : Bool :=
  match a.pa, b.pa with
  | some p, some q => overlap p (accessBytes i) q (accessBytes j)
  | _, _ => overlap (a.va.toNat % 4096) (accessBytes i) (b.va.toNat % 4096) (accessBytes j)

/-- Earlier operations of the issuer. -/
def earlier (s : State) (o : Op) : List Op := s.ops.filter (fun p => p.id < o.id && sameIssuer p o && isMemoryEvent p.instr)

/-- R169, R174: an earlier acquire has not returned. -/
def heldByAcquire (s : State) (o : Op) : Bool := (earlier s o).any (fun p => (acquireAt p.instr).isSome && p.phase = 0)

def isStashWord (i : Instr) : Bool := match i with
  | .lds _ => true
  | .sts _ => true
  | .atoms _ => true
  | _ => false

/-- The stash entries that a SUNMAP names: first and number. -/
def sunmapSpan (o : Op) : Nat × Nat :=
  ((nth o.a (lowLane o.lanes)).toNat % 2 ^ 32 / 256, (nth o.b (lowLane o.lanes)).toNat % 2 ^ 32 / 256)

/-- Whether an access may name a byte that a SUNMAP writes back or unmaps: by its stash offset, or by its place in the page of a mapped entry. -/
def sunmapMeets (s : State) (u o : Op) (a : LaneAcc) : Bool :=
  let r := sunmapSpan u
  if isStashWord o.instr then overlap (256 * r.1) (256 * r.2) a.va.toNat (accessBytes o.instr)
  else (getCore s (opCore u)).tags.any (fun p => r.1 ≤ p.1 && p.1 < r.1 + r.2 && match p.2 with
    | some t => overlap (t.va.toNat % 4096) 256 (a.va.toNat % 4096) (accessBytes o.instr)
    | none => false)

def isSunmap (i : Instr) : Bool := match i with
  | .sunmap _ => true
  | _ => false

/-- R154: an earlier access to a common byte has not been performed. -/
def heldBySame (s : State) (o : Op) (a : LaneAcc) : Bool :=
  (earlier s o).any (fun p => p.accs.any (fun b => !b.done && sameBytes o.instr p.instr a b) || (isSunmap p.instr && p.phase = 0 && sunmapMeets s p o a))

/-- Every earlier memory operation of the issuer has been performed (spec/08 R175, spec/13 R268). -/
def earlierDone (s : State) (o : Op) : Bool := (earlier s o).all (fun p => p.phase ≠ 0)

/-- Greatest time that a team's unit waits for at a release. -/
def passed (s : State) (t : Nat) : Bool := t < s.time

/-! ### Faulting lanes (R164, spec/22 R363) -/

/-- Whether the unit that issued an operation is still the one in its slot. -/
def ownerHere (s : State) (o : Op) : Bool :=
  match o.unit with
  | .thread _ => true
  | .warp c k => (getWarp s c k).live && (whoIs s o.unit).handle = o.handle && (whoIs s o.unit).num = o.num
  | .front c k => (getFront s c k).live && (whoIs s o.unit).handle = o.handle

/-- The record of a lane of an operation. -/
def opRec (s : State) (o : Op) (l : Nat) (va : W64) (i : TrapInfo) : TrapRec :=
  { mkRec s .lane o.unit l o.pc o.hdr o.word o.widx (instrDidx o.instr) { i with addr := va } 0 with
    srca := (nth o.a l).setWidth 64, srcb := (nth o.b l).setWidth 64, srcc := (nth o.c l).setWidth 64 }

/-- A lane leaves an operation. -/
def dropLane (s : State) (id l : Nat) : State :=
  match findOp s id with
  | some o => setOp s { o with lanes := o.lanes &&& ~~~laneBit l, accs := o.accs.filter (fun a => a.lane ≠ l) }
  | none => s

/-- A lane of an operation traps: detached and filed, or its scalar unit stops at the word (R166, spec/24 R386). -/
def trapOpLane (s : State) (id l : Nat) (va : W64) (i : TrapInfo) : State :=
  match findOp s id with
  | none => s
  | some o =>
    let s' := dropLane s id l
    if !ownerHere s o then s'
    else match o.unit with
      | .warp c k => laneTrap s' c k (opRec s o l va i)
      | u => takeTrap s' u o.pc o.hdr o.word o.widx (instrDidx o.instr) { i with addr := va }

def faultInfo (f : AFault) (access : Nat) : TrapInfo :=
  { cause := BitVec.ofNat 8 f.cause, detail := detailOf f access, addr := 0 }

/-- The fault-ring record of a lane's access: XLATE and PROT only (R164, R88). -/
def ringFor (s : State) (o : Op) (die : Nat) (va : W64) (f : AFault) (l merged : Nat) : State :=
  if f.cause ≠ 5 && f.cause ≠ 6 then s
  else match o.unit with
    | .thread _ => s
    | u => pushFault s die o.ctx o.world va f (accessCode o.instr)
        (match u with
          | .front _ _ => 2
          | _ => 0) (originOf u l) merged 0

/-- An operation's pending marks in its core's L1 clear (spec/08 R153). -/
def clearMarks (s : State) (o : Op) (keep : Nat → Bool) : State :=
  match o.unit with
  | .thread _ => s
  | _ =>
    let c := opCore o
    setCore s c { getCore s c with l1pend := (getCore s c).l1pend.filter (fun p => p.1 ≠ o.id || keep p.2) }

/-- The flag of an operation falls and the operation is gone (R261). -/
def retireOp (s : State) (o : Op) : State :=
  let s := dropOp (clearMarks s o (fun _ => false)) o.id
  if ownerHere s o then lowerFlag s o.unit o.flag else s

/-- One value a lane from the accesses. -/
def accResults (accs : List LaneAcc) : List W128 :=
  (List.range 32).map (fun l => match accs.find? (fun a => a.lane = l) with
    | some a => a.res
    | none => 0)

/-- An operation with no lane left is over; one whose accesses are all done has been performed. -/
def settleOp (s : State) (id : Nat) : State :=
  match findOp s id with
  | none => s
  | some o =>
    if o.lanes = 0 then retireOp s o
    else if o.phase = 0 && !o.accs.isEmpty && o.accs.all (fun a => a.done) then setOp s { o with phase := 1, res := accResults o.accs }
    else s

/-- Accesses of an operation are performed with results; when all are, so is the operation. A sector's pending mark stands while an access to it does (R153). -/
def finishAccs (s : State) (id : Nat) (done : List LaneAcc) : State :=
  match findOp s id with
  | none => s
  | some o =>
    let accs := o.accs.map (fun a => (done.find? (fun d => d.lane = a.lane)).getD a)
    let s := clearMarks s o (fun k => accs.any (fun a => !a.done && a.pa.getD 0 / 32 = k))
    settleOp (setOp s { o with accs := accs }) id

/-- Words that make one access for all their active lanes (spec/08 R176, spec/14 R279, R283). -/
def oneAccess (i : Instr) : Bool := match i with
  | .waitc _ => true
  | .tqinit _ => true
  | .tqkill _ => true
  | .tqacq _ => true
  | .tqput _ => true
  | .tqget _ => true
  | .tqret _ => true
  | _ => false

/-- The lanes that an access stands for. -/
def accLanes (o : Op) (a : LaneAcc) : List Nat := if oneAccess o.instr then lanesIn o.lanes else [a.lane]

/-- Every access of a list traps with one fault, after the one record of the earliest (R88, R164), which counts `merged` requests: those of a walk that failed, or the
one that a slice refused. The list pairs operations with accesses. -/
def faultAll (s : State) (die : Nat) (f : AFault) (merged : Nat) (ts : List (Nat × LaneAcc)) : State :=
  match ts with
  | [] => s
  | (id, a) :: _ =>
    let s := match findOp s id with
      | some o => ringFor s o die a.va f a.lane merged
      | none => s
    let s := ts.foldl (fun s t => match findOp s t.1 with
      | some o => (accLanes o t.2).foldl (fun s l => trapOpLane s t.1 l t.2.va (faultInfo f (accessCode o.instr))) s
      | none => s) s
    ts.foldl (fun s t => settleOp s t.1) s

/-! ### Issue -/

/-- An operation as it issues. -/
def mkOp (s : State) (x : Issued) (i : Instr) (lanes : Mask) (accs : List LaneAcc) (arg : Nat) : Op :=
  let w := whoIs s x.u
  { id := s.nextOp, unit := x.u, handle := w.handle, num := w.num, ctx := w.ctx, world := w.world, sid := w.sid, slice := w.slice,
    instr := i, word := x.word, pc := x.pc, hdr := x.hdr, widx := x.widx, lanes := lanes, a := x.a, b := x.b, c := x.c, flag := x.flag,
    accs := accs, granted := [], bufs := [], phase := 0, held := false, res := [], wrote := 0, writesReg := (instrDst i).isSome,
    issued := s.time, wct := 0, arg := arg }

/-- A new operation: its flag's count rises by one (R25). -/
def newOp (s : State) (x : Issued) (i : Instr) (lanes : Mask) (accs : List LaneAcc) (arg : Nat) : State :=
  raiseFlag { s with ops := s.ops ++ [mkOp s x i lanes accs arg], nextOp := s.nextOp + 1 } x.u x.flag

/-- What goes on after its word without a flag, from time `wct` on: a GRES (spec/22 R375). No flag is numbered 12. -/
def newSilent (s : State) (x : Issued) (i : Instr) (lanes : Mask) (arg wct : Nat) : State :=
  { s with ops := s.ops ++ [{ mkOp s x i lanes [] arg with flag := 12, wct := wct }], nextOp := s.nextOp + 1 }

/-- An access awaiting its translation. -/
def rawAcc (l : Nat) (va : W64) : LaneAcc := { lane := l, va := va, pa := none, leaf := 0, xlatAt := 0, size := 0, done := false, res := 0 }

/-- R164's first two checks, on the address alone. -/
def addrCheck (i : Instr) (va : W64) (n : Nat) : Option AFault :=
  let f := fun (c : Nat) => some ({ cause := c, reason := 0, level := 0, pte := 0, eaddr := 0 } : AFault)
  if fld va 63 52 ≠ 0 then f 5
  else match i with
    | .pref _ => none
    | _ => if va.toNat % n ≠ 0 then f 7 else none

/-- The record of a lane of the word being issued. -/
def issueTrap (s : State) (x : Issued) (l : Nat) (va : W64) (f : AFault) (access : Nat) : State :=
  match x.u with
  | .warp c k => laneTrap s c k { laneRec s x l f.cause (detailOf f access) false x.didx with addr := va }
  | _ => trapWord s x { faultInfo f access with addr := va }

/-- Reason 11: a queue operation on a page of a protected world (spec/14 R279), found by the walk. -/
def queueLeaf (i : Instr) (leaf : W64) (ea level : Nat) : Option AFault :=
  match i with
  | .tqinit _ => if fld leaf 55 52 ≠ 0 then some { cause := 6, reason := 11, level := level, pte := leaf, eaddr := ea } else none
  | .tqkill _ => if fld leaf 55 52 ≠ 0 then some { cause := 6, reason := 11, level := level, pte := leaf, eaddr := ea } else none
  | .tqacq _ => if fld leaf 55 52 ≠ 0 then some { cause := 6, reason := 11, level := level, pte := leaf, eaddr := ea } else none
  | .tqput _ => if fld leaf 55 52 ≠ 0 then some { cause := 6, reason := 11, level := level, pte := leaf, eaddr := ea } else none
  | .tqget _ => if fld leaf 55 52 ≠ 0 then some { cause := 6, reason := 11, level := level, pte := leaf, eaddr := ea } else none
  | .tqret _ => if fld leaf 55 52 ≠ 0 then some { cause := 6, reason := 11, level := level, pte := leaf, eaddr := ea } else none
  | _ => none

/-- Tree words name a granule; they read and write nothing at their address (spec/06 R128). -/
def isTreeWord (i : Instr) : Bool := match i with
  | .tenrol _ => true
  | .tsettle _ => true
  | .tread _ => true
  | .tcmp _ => true
  | .tdrop _ => true
  | _ => false

/-- Reason 8 of TENROL: ENROL, W and a DRAM frame; with no leaf (`phys`), reason 4 outside DRAM (spec/06 R130). -/
def enrolLeaf (s : State) (phys : Bool) (i : Instr) (pa : Nat) (leaf : W64) (ea level : Nat) : Option AFault :=
  match i with
  | .tenrol _ =>
    if phys then (if (rangeOf s pa).isDram then none else some { cause := 6, reason := 4, level := 0, pte := 0, eaddr := 128 * (pa / 128) })
    else if bit leaf 63 && bit leaf 2 && (rangeOf s pa).isDram then none
    else some { cause := 6, reason := 8, level := level, pte := leaf, eaddr := ea }
  | _ => none

/-- The page's checks for a word. -/
def wordLeafCheck (s : State) (x : XCtx) (i : Instr) (leaf : W64) (ea level : Nat) : Option AFault :=
  match leafCheck s x leaf ea level (accessWrites i) with
  | some f => some f
  | none => match enrolLeaf s false i (4096 * fld leaf 51 12) leaf ea level with
    | some f => some f
    | none => queueLeaf i leaf ea level

/-- A lane's access as it issues: checked; translated when its TLBs hold the page (R85), otherwise left to a walk, as is a fault for whose record there is no room yet (R89). -/
def laneAccess (s : State) (x : Issued) (i : Instr) (l : Nat) (va : W64) : State × (AFault ⊕ LaneAcc) :=
  match addrCheck i va (accessBytes i) with
  | some f => (s, .inl f)
  | none =>
    let cx := unitX s x.u
    let t := tlbLookup s cx va
    match t.2 with
    | none => (t.1, .inr (rawAcc l va))
    | some e => match wordLeafCheck t.1 cx i e.leaf e.eaddr e.level with
      | some f => (t.1, if faultsFull t.1 cx.die then .inr (rawAcc l va) else .inl f)
      | none => (t.1, .inr { rawAcc l va with pa := some (leafPa e.leaf e.level va), leaf := e.leaf, xlatAt := s.turnNo, size := leafBits e.leaf e.level })

/-- What a slice would refuse a scalar unit's access at once, so that the unit can stop at the word (spec/02 R40, spec/24 R386; log 8). -/
def scalarPrecheck (s : State) (cx : XCtx) (i : Instr) (pa : Nat) (leaf : W64) : Option AFault :=
  let r := lineReq s cx pa leaf (opPol i)
  if isTreeWord i then none
  else match sliceRefuses s r with
  | some f => some f
  | none =>
    if poisoned s r.la && !(accessCode i = 1 && r.prot.isNone) then some (refusal 6 6 r.la)
    else match r.prot with
      | none => none
      | some e => match keyOf s e with
        | none => some { refusal 9 (e % 16) r.la with pte := leaf }
        | some km => if lineTag km r.la (lineNow s r.die r.la) ≠ (sideNow s r.die r.la).setWidth 64
          then some { refusal 9 (e % 16) r.la with pte := leaf } else none

/-- A scalar unit's access, translated as it issues; a fault stops the unit at the word. On a core a walk that must wait (for the die link, a grant, room for its record) holds
no word (spec/09 R187): it is left to a later turn. A service thread is held until it can be made (spec/24 R384), since its trap is precise (R386): its step does not happen.
What a slice comes to refuse after the issue traps when it is refused, with the word's own record (log 8). -/
def scalarAccess (s : State) (x : Issued) (i : Instr) (va : W64) : State × (AFault ⊕ LaneAcc) :=
  match addrCheck i va (accessBytes i) with
  | some f => (s, .inl f)
  | none =>
    let cx := unitX s x.u
    let t := translate s cx va (accessWrites i)
    let waits : Bool := cx.thread.isNone && !t.1.holds.isEmpty
    match t.2 with
    | .bad f => if waits || (cx.thread.isNone && faultsFull s cx.die) then (s, .inr (rawAcc 0 va)) else (t.1, .inl f)
    | .ok pa leaf =>
      if waits then (s, .inr (rawAcc 0 va)) else
      let at_ := leafAt t.1 cx va
      match enrolLeaf t.1 cx.phys i pa leaf at_.1 at_.2, queueLeaf i leaf at_.1 at_.2, scalarPrecheck t.1 cx i pa leaf with
      | some f, _, _ => (t.1, .inl f)
      | none, some f, _ => (t.1, .inl f)
      | none, none, some f => (t.1, .inl f)
      | none, none, none => (t.1, .inr { rawAcc 0 va with pa := some pa, leaf := leaf, xlatAt := s.turnNo, size := if leaf = 0 then 0 else leafBits leaf at_.2 })

/-- The ring record of a fault found at issue. -/
def issueRing (s : State) (x : Issued) (i : Instr) (va : W64) (f : AFault) (l : Nat) : State :=
  if (f.cause ≠ 5 && f.cause ≠ 6) || fld va 63 52 ≠ 0 then s
  else match x.u with
    | .thread _ => s
    | u => let w := whoIs s u
      pushFault s (unitDie u) w.ctx w.world va f (accessCode i)
        (match u with
          | .front _ _ => 2
          | _ => 0) (originOf u l) 1 0

/-- Issue the accesses of a word: each lane's address, the faulting lanes detached, the rest an operation. A scalar unit that faults issues nothing. -/
def issueAccess (s : State) (x : Issued) (i : Instr) (addrs : List (Nat × W64)) (arg : Nat) : State :=
  match x.u with
  | .warp _ _ =>
    let r := addrs.foldl (fun (p : State × List LaneAcc × Mask) q =>
      let a := laneAccess p.1 x i q.1 q.2
      match a.2 with
      | .inl f => (issueTrap (issueRing a.1 x i q.2 f q.1) x q.1 q.2 f (accessCode i), p.2.1, p.2.2)
      | .inr acc => (a.1, p.2.1 ++ [acc], p.2.2 ||| laneBit q.1)) (s, [], 0)
    if r.2.2 = 0 then r.1 else newOp r.1 x i r.2.2 r.2.1 arg
  | _ => match addrs with
    | [] => s
    | (l, va) :: _ =>
      let a := scalarAccess s x i va
      match a.2 with
      | .inl f => issueTrap (issueRing a.1 x i va f l) x l va f (accessCode i)
      | .inr acc => newOp a.1 x i 1 [acc] arg

/-- The same for a word that makes one access, at `va`: a fault traps every active lane, with one record (spec/08 R176, spec/14 R279). -/
def issueOne (s : State) (x : Issued) (i : Instr) (va : W64) : State :=
  match x.u with
  | .warp _ _ =>
    let l := lowLane x.act
    let a := laneAccess s x i l va
    match a.2 with
    | .inl f => (lanesIn x.act).foldl (fun s l => issueTrap s x l va f (accessCode i)) (issueRing a.1 x i va f l)
    | .inr acc => newOp a.1 x i x.act [acc] 0
  | _ => issueAccess s x i [(0, va)] 0

/-- Lane addresses from source A. -/
def laneAddrs (x : Issued) : List (Nat × W64) :=
  match x.u with
  | .warp _ _ => (lanesIn x.act).map (fun l => (l, (nth x.a l).setWidth 64))
  | _ => [(0, (nth x.a 0).setWidth 64)]

/-- One address for the whole word: the lowest active lane's (spec/08 R176, spec/14 R283). -/
def oneAddr (x : Issued) : W64 :=
  match x.u with
  | .warp _ _ => (nth x.a (lowLane x.act)).setWidth 64
  | _ => (nth x.a 0).setWidth 64

/-! ### Results -/

/-- Write lanes of an operation's result to its destination, if its unit is still there. -/
def writeResult (s : State) (o : Op) (m : Mask) : State :=
  match instrDst o.instr with
  | none => s
  | some (d, n) =>
    if !ownerHere s o then s
    else match o.unit with
      | .warp c k => if d.toNat < 320 then setWarp s c k (writeLate (getWarp s c k) d.toNat n m o.res) else s
      | u => writeScalar s u n d.toNat (nth o.res 0)

/-- A performed operation writes lanes of its result; with every lane written its flag falls (R165, R190). -/
def writeLanes (s : State) (id : Nat) (lanes : Mask) : State :=
  match findOp s id with
  | none => s
  | some o =>
    let m := lanes &&& o.lanes &&& ~~~o.wrote
    let s := writeResult s o m
    let o := { o with wrote := o.wrote ||| m }
    if o.lanes &&& ~~~o.wrote = 0 then retireOp s o else setOp s o

/-- Mark an operation performed with its results. -/
def performed (s : State) (id : Nat) (res : List W128) : State :=
  match findOp s id with
  | some o => setOp s { o with phase := 1, res := res }
  | none => s

/-- The same value for every lane. -/
def everyLane (v : Nat) : List W128 := List.replicate 32 (BitVec.ofNat 128 v)

end Sys2Proof.Machine
end

