-- ==== Sys2Proof/Machine/Records.lean ====
section
/-!
DEFINITION. Trap records that wait at a core for their Gleaner (spec/22 R363, R364, R367): handler tables, and when a record can be filed, or waits for room.
-/
namespace Sys2Proof.Machine

def getGleaner (s : State) (die : Nat) : Gleaner := look Gleaner.reset s.gleaners die
def setGleaner (s : State) (die : Nat) (g : Gleaner) : State := { s with gleaners := put s.gleaners die g }

/-! ### Handler tables (R366) -/

def ctxHtab (s : State) (ctx i : Nat) : W64 := match findCtx s ctx with
  | some c => c.htab.getD i 0
  | none => 0

/-- The handler entry of a cause; 0: none. -/
def handlerOf (s : State) (ctx cause : Nat) : W64 := if 1 ≤ cause && cause ≤ 9 && cause ≠ 5 then ctxHtab s ctx cause else 0

/-! ### Filing (R363, R364, R367) -/

/-- The die whose Gleaner files a record. -/
def recDie (r : TrapRec) : Nat := unitDie r.unit

/-- Records in a die's cribs and waiting sheaves, and on pending lists from that die. -/
def cribRecords (g : Gleaner) : Nat := sumL ((g.cribs ++ g.waiting).map (fun c => c.recs.length))
def pendingFrom (s : State) (die : Nat) : Nat := sumL (s.threads.map (fun t => (t.2.pending.filter (fun r => recDie r = die)).length))

/-- Beyond 4,096 records of a die on the pending lists, a record waits (R367). -/
def listRoom (s : State) (die : Nat) : Bool := pendingFrom s die < 4096

/-- An XLATE record waits for its walk's fault-ring record (R367). -/
def awaitsRing (s : State) (r : TrapRec) : Bool :=
  s.mem.faults.any (fun f => f.2.any (fun q => q.ctx = r.ctx && fld (q.words.getD 5 0) 31 24 = 5 && fld (q.words.getD 1 0) 51 12 = fld r.addr 51 12))

/-- What joins a crib: a lane's record for a cause with a handler. -/
def isCribbed (s : State) (r : TrapRec) : Bool := !r.direct && r.kind = .lane && r.cause ≠ 5 && handlerOf s r.ctx r.cause.toNat ≠ 0

def sameCrib (c : Crib) (r : TrapRec) : Bool := c.cause = r.cause && c.world = r.world && c.ctx = r.ctx

/-- Room for a record in its Gleaner: in its key's crib or a new one, or on the pending lists. -/
def roomFor (s : State) (r : TrapRec) : Bool :=
  let g := getGleaner s (recDie r)
  if isCribbed s r then cribRecords g < 2048 && (g.cribs.any (fun c => sameCrib c r) || g.cribs.length < 64) else listRoom s (recDie r)

/-- A record may be filed as far as its own wait goes: for its warp's WCTMAX (R363), for its walk's fault-ring record (R367). -/
def mayFile (s : State) (r : TrapRec) : Bool :=
  (!(r.direct || r.kind = .lane) || passed s r.wait) && !(!r.direct && (r.kind = .lane || r.kind = .front) && r.cause = 5 && awaitsRing s r)

/-- The core's 16 places for records that wait for room are taken (R364). Records that wait for anything else hold none; and of more than 16 that wait for room, those that
lanes of a running clause left when the places were taken, the rule says nothing: they wait behind (log 21). -/
def bufferFull (s : State) (c : Nat) : Bool := 16 ≤ ((getCore s c).trapBuf.filter (fun r => mayFile s r && !roomFor s r)).length

end Sys2Proof.Machine
end

