-- ==== Sys2Proof/Machine/Transcend.lean ====
section
/-!
DEFINITION. The transcendental functions, correctly rounded (spec/11 R225; spec/12 R253's GELU). A value that is not exact is irrational, so
it is enclosed in a fixed-point interval whose ends are rounded; the precision grows until both ends round alike. Past the last
precision the value is a free value (log 10).
-/
namespace Sys2Proof.Machine

/-- Terms of a series with a floor at each division: `t` is the term, `k` its number, `y` the argument at scale 2^p. -/
def expTerms (p y : Nat) : Nat → Nat → Nat → Nat
  | 0, _, _ => 0
  | fuel + 1, k, t => if t = 0 then 0 else t + expTerms p y fuel (k + 1) (t * y / (2 ^ p * (k + 1)))

/-- A lower bound of 2^p * e^(y / 2^p), for 0 <= y <= 2^p. -/
def expLow (p y : Nat) : Nat := expTerms p y (p + 8) 0 (2 ^ p)

/-- What the floors of a series of at most p + 8 terms can lose, generously. -/
def slack (p : Nat) : Nat := 16 * p + 256

/-- Odd powers of u over odd numbers, floored: a lower bound of 2^p * atanh(u / 2^p). -/
def atanhTerms (p u2 : Nat) : Nat → Nat → Nat → Nat
  | 0, _, _ => 0
  | fuel + 1, k, t => if t = 0 then 0 else t / (2 * k + 1) + atanhTerms p u2 fuel (k + 1) (t * u2 / 2 ^ p)

def atanhLow (p u : Nat) : Nat := atanhTerms p (u * u / 2 ^ p) (p + 8) 0 u

/-- A lower bound of 2^p * ln 2. -/
def ln2Low (p : Nat) : Nat := 2 * atanhLow p (2 ^ p / 3)

/-- Machin's pi / 4 = 4 atan(1/5) - atan(1/239): alternating series; `q` is 1/x^2's divisor. -/
def atanTerms (p q : Nat) : Nat → Nat → Nat → Int
  | 0, _, _ => 0
  | fuel + 1, k, t =>
    if t = 0 then 0
    else (if k % 2 = 0 then (1 : Int) else -1) * (t / (2 * k + 1) : Nat) + atanTerms p q fuel (k + 1) (t / q)

/-- 2^p * pi, within the slack. -/
def piFix (p : Nat) : Nat :=
  (4 * (4 * atanTerms p 25 (p + 8) 0 (2 ^ p / 5) - atanTerms p (239 * 239) (p + 8) 0 (2 ^ p / 239))).toNat

/-- Alternating series of sine (k from 1) or cosine (k from 0): t_(k+2) = t_k * y^2 / ((k+1)(k+2)). -/
def trigTerms (p y2 : Nat) : Nat → Nat → Bool → Nat → Int
  | 0, _, _, _ => 0
  | fuel + 1, k, neg, t =>
    if t = 0 then 0
    else (if neg then -(t : Int) else t) + trigTerms p y2 fuel (k + 2) (!neg) (t * y2 / (2 ^ p * ((k + 1) * (k + 2))))

/-- Round an enclosed value lo * 2^e < v < hi * 2^e: the result, if both ends agree. -/
def roundBetween (f : Fmt) (rm : Nat) (ftz neg : Bool) (lo hi : Nat) (e : Int) : Option FR :=
  if lo = 0 || hi ≤ lo then none
  else
    let a := froundNZ f rm ftz neg lo e true
    let b := froundNZ f rm ftz neg (hi - 1) e true
    if a = b then some a else none

/-- The first precision that decides. -/
def firstSome (g : Nat → Option FR) : List Nat → Option FR
  | [] => none
  | p :: t => match g p with
    | some r => some r
    | none => firstSome g t

/-- Precisions tried. -/
def precisions (f : Fmt) : List Nat := let p := 2 * f.fb + 40
  [p, 2 * p, 4 * p, 8 * p]

/-- The free value of log 10. -/
def openFR (fn : Nat) (f : Fmt) (rm : Nat) (x : Nat) : FR :=
  { bits := (Config.openReal fn (f.w * 64 + f.fb) rm (BitVec.ofNat 64 x)).toNat % 2 ^ f.w
    flags := (Config.openRealFlags fn (f.w * 64 + f.fb) rm (BitVec.ofNat 64 x)).toNat }

def settle (fn : Nat) (f : Fmt) (rm x : Nat) (g : Nat → Option FR) : FR := match firstSome g (precisions f) with
  | some r => r
  | none => openFR fn f rm x

/-- Floor and fraction of m * 2^e, e negative: the fraction at scale 2^(-e). -/
def splitInt (neg : Bool) (m : Nat) (e : Int) : Int × Nat × Nat :=
  let d := 2 ^ (-e).toNat
  let v : Int := if neg then -(m : Int) else m
  let n := v / (d : Int)
  (n, (v - n * d).toNat, (-e).toNat)

/-- EXP2 of a non-zero finite value. -/
def exp2Fin (f : Fmt) (rm : Nat) (ftz : Bool) (x : Nat) (neg : Bool) (m : Nat) (e : Int) : FR :=
  let top : Int := e + topBit m
  if 13 ≤ top then
    -- far beyond either end of every format
    froundNZ f rm ftz false 1 (if neg then -8000 else 8000) true
  else
    let v : Int := if neg then -(m : Int) else m
    if 0 ≤ e then froundNZ f rm ftz false 1 (v * (2 ^ e.toNat : Int)) false
    else if top < -(f.fb : Int) - 8 then
      let k := f.fb + 8
      if neg then froundNZ f rm ftz false (2 ^ k - 1) (-(k : Int)) true else froundNZ f rm ftz false (2 ^ k) (-(k : Int)) true
    else
      let s := splitInt neg m e
      if s.2.1 = 0 then froundNZ f rm ftz false 1 s.1 false
      else
        settle 1 f rm x (fun p =>
          -- y = fraction * ln 2 at scale 2^p
          let y := s.2.1 * ln2Low p / 2 ^ s.2.2
          let lo := expLow p y
          roundBetween f rm ftz false (lo - 1) (lo + slack p + 2 * slack p) (s.1 - p))

/-- EXP2 (R225). -/
def fexp2 (f : Fmt) (rm : Nat) (ftz : Bool) (a : Nat) : FR :=
  match fdec f (ftzIn f ftz a) with
  | .nan s => { bits := canon f, flags := if s then fNV else 0 }
  | .inf n => { bits := if n then zeroBits f false else infBits f false, flags := 0 }
  | .fin n m e => if m = 0 then froundNZ f rm false false 1 0 false else exp2Fin f rm ftz a n m e

/-- LOG2 of a positive m * 2^e. -/
def log2Fin (f : Fmt) (rm : Nat) (ftz : Bool) (x m : Nat) (e : Int) : FR :=
  let t := topBit m
  let k : Int := e + t
  if m = 2 ^ t then fround f rm ftz (decide (k < 0)) k.natAbs 0 false
  else
    settle 2 f rm x (fun p =>
      -- u = (z - 1) / (z + 1), z = m / 2^t
      let u := (m - 2 ^ t) * 2 ^ p / (m + 2 ^ t)
      let lnz := 2 * atanhLow p u
      let l2 := ln2Low p
      let lo := lnz * 2 ^ p / (l2 + slack p)
      let hi := (lnz + slack p) * 2 ^ p / l2 + 1
      let a : Int := k * (2 ^ p : Int) + lo - 1
      let b : Int := k * (2 ^ p : Int) + hi + 1
      if 0 < a then roundBetween f rm ftz false a.toNat b.toNat (-(p : Int))
      else if b < 0 then roundBetween f rm ftz true b.natAbs a.natAbs (-(p : Int))
      else none)

/-- LOG2 (R225). -/
def flog2 (f : Fmt) (rm : Nat) (ftz : Bool) (a : Nat) : FR :=
  match fdec f (ftzIn f ftz a) with
  | .nan s => { bits := canon f, flags := if s then fNV else 0 }
  | .inf n => if n then { bits := canon f, flags := fNV } else { bits := infBits f false, flags := 0 }
  | .fin n m e =>
    if m = 0 then { bits := infBits f true, flags := fDZ }
    else if n then { bits := canon f, flags := fNV }
    else log2Fin f rm ftz a m e

/-- Sine (or cosine) of pi * a / 2^j, 0 < a / 2^j <= 1/4: an enclosure with `p` bits below the leading one. -/
def trigEnclose (cosine : Bool) (p a j : Nat) : Nat × Nat × Nat :=
  let z := j - topBit a
  let q := p + (if cosine then 0 else z)
  let y := a * piFix q / 2 ^ j
  let y2 := y * y / 2 ^ q
  let v := (if cosine then trigTerms q y2 (q + 8) 0 false (2 ^ q) else trigTerms q y2 (q + 8) 1 false y).toNat
  let hi := v + slack q
  (v - slack q, if 2 ^ q < hi then 2 ^ q else hi, q)

/-- sin(pi * v) or cos(pi * v) of a non-zero finite v = (-1)^neg * m * 2^e. -/
def trigFin (cosine : Bool) (f : Fmt) (rm : Nat) (ftz : Bool) (x : Nat) (neg : Bool) (m : Nat) (e : Int) : FR :=
  let one := fun (s : Bool) => froundNZ f rm false s 1 0 false
  if 0 ≤ e then
    let odd := e = 0 && m % 2 = 1
    if cosine then one odd else { bits := zeroBits f neg, flags := 0 }
  else
    let j := (-e).toNat
    -- position in [0, 2) half-turns of |v|, in units of 2^-j
    let r := m % 2 ^ (j + 1)
    let half := r / 2 ^ j = 1          -- in [1, 2)
    let t := r % 2 ^ j                 -- in [0, 1)
    if t = 0 then (if cosine then one half else { bits := zeroBits f neg, flags := 0 })
    else if 2 * t = 2 ^ j then
      (if cosine then { bits := zeroBits f false, flags := 0 } else one (half != neg))
    else
      -- fold into (0, 1/2)
      let up := 2 ^ j < 2 * t
      let t' := if up then 2 ^ j - t else t
      let sgn := if cosine then half != up else half != neg
      -- fold into (0, 1/4]: cosine of t' is sine of 1/2 - t'
      let far := 2 ^ j < 4 * t'
      let a := if far then 2 ^ j - 2 * t' else 2 * t'
      let useCos := cosine != far
      settle (if cosine then 4 else 3) f rm x (fun p =>
        let en := trigEnclose useCos p a (j + 1)
        roundBetween f rm ftz sgn en.1 en.2.1 (-(en.2.2 : Int)))

/-- SIN and COS (R225), in half-turns. -/
def ftrig (cosine : Bool) (f : Fmt) (rm : Nat) (ftz : Bool) (a : Nat) : FR :=
  match fdec f (ftzIn f ftz a) with
  | .nan s => { bits := canon f, flags := if s then fNV else 0 }
  | .inf _ => { bits := canon f, flags := fNV }
  | .fin n m e =>
    if m = 0 then (if cosine then froundNZ f rm false false 1 0 false else { bits := zeroBits f n, flags := 0 })
    else trigFin cosine f rm ftz a n m e

/-- GELU of R253 on f32: x / (1 + e^(-1.702 x)), rounded to nearest even. -/
def fgelu (a : Nat) : FR :=
  match fdec f32 a with
  | .nan s => { bits := canon f32, flags := if s then fNV else 0 }
  | .inf n => { bits := if n then zeroBits f32 true else infBits f32 false, flags := 0 }
  | .fin n m e =>
    if m = 0 then { bits := zeroBits f32 n, flags := 0 }
    else if 9 ≤ e + topBit m then
      if n then froundNZ f32 0 false true 1 (-1000) true
      else froundNZ f32 0 false false (m * 2 ^ 40 - 1) (e - 40) true
    else
      match firstSome (fun p =>
        let num := 851 * m
        let t := if 0 ≤ e + p then num * 2 ^ (e + p).toNat / 500 else num / (500 * 2 ^ (-(e + p)).toNat)
        let l := ln2Low p
        let k0 := t / (l + slack p)
        let lo := expLow p (t - k0 * (l + slack p))
        let hi := expLow p (t + 1 - k0 * l) + slack p
        -- sigma(-|t|) = 1 / (1 + 2^k0 * e^r)
        let slo := 2 ^ (2 * p) / (2 ^ p + hi * 2 ^ k0)
        let shi := 2 ^ (2 * p) / (2 ^ p + lo * 2 ^ k0) + 1
        let a := if n then slo else 2 ^ p - shi
        let b := if n then shi else 2 ^ p - slo
        roundBetween f32 0 false n (m * a) (m * b) (e - p)) [700, 1400, 2800] with
      | some r => r
      | none => openFR 5 f32 0 a

/-! ### The words (R225), and FMA, FRND, FCLASS (R222, R226) -/

/-- A one-operand floating word. -/
def float1 (s : State) (x : Issued) (f : Full) (lat : Nat) (g : Fmt → Nat → Bool → Nat → FR) : State :=
  let t := f.ty.toNat
  let en := trapEnables s x.u
  compute s x lat (typeRegs t) f.dst (fun a _ _ => fpLane en (g (fmtOf t) (modF f 2 1) (modB f 3) a)) (fun v => v)

/-- Transcendental latency (spec/09 R191). -/
def transLat (f : Full) : Nat := if f.ty.toNat = 11 then 24 else 12

/-- FMA (R222). -/
def execFma (f : Full) (s : State) : Host.Outcome State Fault Refusal :=
  issueFull 0x40 f s (fun s x =>
    let t := f.ty.toNat
    let en := trapEnables s x.u
    compute s x (fpLat t) (typeRegs t) f.dst
      (fun a b c => fpLane en (ffma (fmtOf t) (modF f 2 1) (modB f 3) (modB f 4) (modB f 5) a b c)) (fun v => v))

/-- RCP (R225). -/
def execRcp (f : Full) (s : State) : Host.Outcome State Fault Refusal :=
  issueFull 0x41 f s (fun s x => float1 s x f (transLat f) frcp)

/-- RSQ (R225). -/
def execRsq (f : Full) (s : State) : Host.Outcome State Fault Refusal :=
  issueFull 0x42 f s (fun s x => float1 s x f (transLat f) frsq)

/-- SQRT (R225). -/
def execSqrt (f : Full) (s : State) : Host.Outcome State Fault Refusal :=
  issueFull 0x43 f s (fun s x => float1 s x f (transLat f) fsqrt)

/-- EXP2 (R225). -/
def execExp2 (f : Full) (s : State) : Host.Outcome State Fault Refusal :=
  issueFull 0x44 f s (fun s x => float1 s x f (transLat f) fexp2)

/-- LOG2 (R225). -/
def execLog2 (f : Full) (s : State) : Host.Outcome State Fault Refusal :=
  issueFull 0x45 f s (fun s x => float1 s x f (transLat f) flog2)

/-- SIN (R225). -/
def execSin (f : Full) (s : State) : Host.Outcome State Fault Refusal :=
  issueFull 0x46 f s (fun s x => float1 s x f (transLat f) (ftrig false))

/-- COS (R225). -/
def execCos (f : Full) (s : State) : Host.Outcome State Fault Refusal :=
  issueFull 0x47 f s (fun s x => float1 s x f (transLat f) (ftrig true))

/-- FRND (R226). -/
def execFrnd (f : Full) (s : State) : Host.Outcome State Fault Refusal :=
  issueFull 0x48 f s (fun s x => float1 s x f 4 ffrnd)

/-- FCLASS (R226). -/
def execFclass (f : Full) (s : State) : Host.Outcome State Fault Refusal :=
  issueFull 0x49 f s (fun s x =>
    compute s x 4 1 f.dst (fun a _ _ => plain (2 ^ fclass (fmtOf f.ty.toNat) (modB f 3) a)) (fun v => v))

/-- ADD (i) on f32 (R221): no FTZ. -/
def execAddF32Imm (f : Imm) (s : State) : Host.Outcome State Fault Refusal :=
  issueImm 0x4D f s (fun s x =>
    compute s x 4 1 f.dst (fun a _ _ => fpLane (trapEnables s x.u) (fadd f32 f.mi.toNat false a f.imm.toNat)) (fun v => v))

/-- MUL (i) on f32 (R221). -/
def execMulF32Imm (f : Imm) (s : State) : Host.Outcome State Fault Refusal :=
  issueImm 0x4E f s (fun s x =>
    compute s x 4 1 f.dst (fun a _ _ => fpLane (trapEnables s x.u) (fmul f32 f.mi.toNat false a f.imm.toNat)) (fun v => v))

end Sys2Proof.Machine
end

