-- ==== Sys2Proof/Machine/Convert.lean ====
section
/-!
DEFINITION. The conversions CVT, CVTD and CVTX (spec/10 R207-R210), and the convergence check that warp-wide words share (spec/11 R227).
-/
namespace Sys2Proof.Machine

/-- Width and sign of an integer type code 0-7 (spec/02 R31). -/
def cvtBits (t : Nat) : Nat := 8 * 2 ^ (t % 4)
def cvtSigned (t : Nat) : Bool := t < 4

/-- The value of `x` as integer type `t` (spec/10 R195). -/
def cvtInt (t x : Nat) : Int :=
  let n := cvtBits t
  let v := x % 2 ^ n
  if cvtSigned t && 2 ^ (n - 1) ≤ v then (v : Int) - 2 ^ n else v

/-- An integer written as type `t`: sign- or zero-extended to its registers (spec/10 R195). -/
def cvtWrite (t : Nat) (i : Int) : Nat := wrapTo (if cvtBits t = 64 then 64 else 32) i

/-- CVT of one value (spec/10 R208). -/
def cvtVal (dt st rm : Nat) (ftz : Bool) (x : Nat) : FR :=
  let v : FV := if 8 ≤ st then fdec (fmtOf st) (ftzIn (fmtOf st) ftz x) else intV (cvtInt st x)
  if 8 ≤ dt then fconv (fmtOf dt) rm ftz v
  else
    let n := cvtBits dt
    let sg := cvtSigned dt
    match v with
    | .nan _ => { bits := 0, flags := fNV }
    | .inf neg => { bits := cvtWrite dt (clampTo sg n (if neg then -(2 ^ 64) else 2 ^ 64)), flags := fNV }
    | .fin neg m e =>
      if st < 8 then { bits := cvtWrite dt (clampTo sg n (cvtInt st x)), flags := 0 }
      else
        let r := rndInt rm neg m e
        let i : Int := if neg then -(r.1 : Int) else r.1
        let k := clampTo sg n i
        if k ≠ i then { bits := cvtWrite dt k, flags := fNV }
        else { bits := cvtWrite dt i, flags := if r.2 then fNX else 0 }

/-- CVT (R208): HI reads a 16-bit float from [31:16]. -/
def execCvt (f : Full) (s : State) : Host.Outcome State Fault Refusal :=
  issueFull 0x4A f s (fun s x =>
    let t := f.ty.toNat
    let st := modF f 7 4
    let en := trapEnables s x.u
    compute s x 4 (typeRegs t) f.dst
      (fun a _ _ => fpLane en (cvtVal t st (modF f 2 1) (modB f 3) (if modB f 8 then a / 2 ^ 16 else a))) (fun v => v))

/-! ### Warp-wide words -/

/-- A warp-wide word over a converged warp, or its precise ILLSTATE with the diverged mask (spec/11 R227). -/
def warpWide (s : State) (x : Issued) (body : State → State) : State :=
  match x.u with
  | .warp c k =>
    let m := divergedMask (getWarp s c k)
    if m = 0 then body s else trapWord s x (illstate m)
  | _ => s

/-! ### CVTD -/

/-- Least E from `es` at which round_rne(M / 2^(E-b)) fits, or 254. -/
def leastExp (m : Nat) (e : Int) (b mmax : Nat) : List Nat → Nat
  | [] => 254
  | k :: t => if (rndInt 0 false m (e - ((k : Int) - b))).1 ≤ mmax then k else leastExp m e b mmax t

/-- Magnitude of an f32 that is a number: mantissa and exponent. -/
def magOf (a : Nat) : Nat × Int := match fdec f32 a with
  | .fin _ m e => (m, e)
  | _ => (0, 0)

def signOf (a : Nat) : Bool := a / 2 ^ 31 % 2 = 1
def badF32 (a : Nat) : Bool := match fdec f32 a with
  | .fin _ _ _ => false
  | _ => true

/-- Element bits of D8 or D4 (spec/10 R197). -/
def packEl (d4 : Bool) (sel neg : Bool) (m : Nat) : Nat :=
  if d4 then sel.toNat * 8 + neg.toNat * 4 + m else sel.toNat * 128 + neg.toNat * 64 + m

/-- The block of 32 values (R209): the exponent pair, the element bytes, and each lane's flags. -/
def cvtdBlock (d4 : Bool) (gap : Nat) (act : Mask) (xs : List Nat) : Nat × List Nat × List Nat :=
  let b := if d4 then 128 else 132
  let mmax := if d4 then 3 else 63
  if xs.any badF32 then
    (0xFFFF, xs.map (fun _ => 0), xs.zipIdx.map (fun p => if badF32 p.1 && act.getLsbD p.2 then fNV else 0))
  else
    let key := maxL (xs.map (fun a => a % 2 ^ 31))
    let mm := magOf key
    let e1 := leastExp mm.1 mm.2 b mmax ((List.range 255).filter (fun k => gap ≤ k))
    let e0 := e1 - gap
    let els := xs.map (fun a =>
      let v := magOf a
      let q := (rndInt 0 false v.1 (v.2 - ((e0 : Int) - b))).1
      if q ≤ mmax then packEl d4 false (signOf a) q
      else
        let q1 := (rndInt 0 false v.1 (v.2 - ((e1 : Int) - b))).1
        packEl d4 true (signOf a) (if q1 ≤ mmax then q1 else mmax))
    let pair := e1 * 256 + e0
    let fl := (xs.zip els).map (fun p => match dval d4 p.2 pair with
      | some d => if (exactAdd d.1 d.2.1 d.2.2 (!signOf p.1) (magOf p.1).1 (magOf p.1).2).2.1 = 0 then 0 else fNX
      | none => 0)
    (pair, els, fl)

/-- CVTD (R209): warp-wide; element k comes from lane k, +0 from an inactive lane. -/
def execCvtd (f : Full) (s : State) : Host.Outcome State Fault Refusal :=
  issueFull 0x4B f s (fun s x => warpWide s x (fun s =>
    let xs := (List.range 32).map (fun l => if x.act.getLsbD l then ftzIn f32 (modB f 3) (nth x.a l).toNat else 0)
    let blk := cvtdBlock (f.ty.toNat = 13) (modF f 8 5) x.act xs
    let en := trapEnables s x.u
    postLanes s x 4 (vdst f.dst 2) false x.didx
      ((blk.2.1.zip blk.2.2).map (fun p => { val := p.1 + 2 ^ 32 * blk.1, flags := p.2, cause := fpCause en p.2 }))))

/-! ### CVTX -/

/-- The decode form of CVTX (R210). -/
def cvtxDecode (d4 : Bool) (rm : Nat) (ftz : Bool) (a b : Nat) : FR :=
  match dval d4 (if d4 then a % 16 else a % 256) (b % 2 ^ 16) with
  | none => { bits := canon f32, flags := 0 }
  | some v => fround f32 rm ftz v.1 v.2.1 v.2.2 false

/-- The pack form: two f32 to one register of 16-bit halves (R210). -/
def cvtxPack (dt rm : Nat) (ftz : Bool) (a b : Nat) : FR :=
  let lo := cvtVal dt 10 rm ftz a
  let hi := cvtVal dt 10 rm ftz b
  { bits := lo.bits + 2 ^ 16 * hi.bits, flags := lo.flags ||| hi.flags }

/-- CVTX (R210). -/
def execCvtx (f : Full) (s : State) : Host.Outcome State Fault Refusal :=
  issueFull 0x4C f s (fun s x =>
    let en := trapEnables s x.u
    let rm := modF f 2 1
    let ftz := modB f 3
    compute s x 4 1 f.dst (fun a b _ => fpLane en
      (if modB f 7 then cvtxPack f.ty.toNat rm ftz a b else cvtxDecode (modB f 6) rm ftz a b)) (fun v => v))

end Sys2Proof.Machine
end

