-- ==== Sys2Proof/Machine/Lanes.lean ====
section
/-!
DEFINITION. The words that combine lanes, SHFL, VOTE and REDUX, and PRMT (spec/11 R227-R231).
-/
namespace Sys2Proof.Machine

/-! ### SHFL (R228) -/

/-- The lane that lane `l` reads, or none when `.shift` leaves the segment. `sz` is the segment size, `k` operand B. -/
def shflFrom (mode sz l k : Nat) : Option Nat :=
  let g := l - l % sz
  match mode with
  | 0 => some (g + k % sz)
  | 1 => some (g + (l - g + sz - k % sz) % sz)
  | 2 =>
    let j : Int := l - intVal 2 k
    if (g : Int) ≤ j && j < g + sz then some j.toNat else none
  | _ => some (l ^^^ (k % sz))

/-- SHFL (R228). -/
def execShfl (f : Full) (s : State) : Host.Outcome State Fault Refusal :=
  issueFull 0x52 f s (fun s x => warpWide s x (fun s =>
    let n := typeRegs f.ty.toNat
    let sz := 32 / 2 ^ modF f 5 3
    computeAt s x 6 n f.dst (fun l _ b c =>
      plain ((match shflFrom (modF f 2 1) sz l b with
        | some j => (nth x.a j).toNat
        | none => c) % 2 ^ (32 * n))) (fun v => v)))

/-! ### VOTE (R229) -/

/-- VOTE (R229): kinds 0-3 write a value, kinds 4-7 a predicate bit, for each active lane. -/
def execVote (f : Full) (s : State) : Host.Outcome State Fault Refusal :=
  issueFull 0x53 f s (fun s x => warpWide s x (fun s =>
    match x.u with
    | .warp c k =>
      let cm := readPred (getWarp s c k) f.sa.toNat
      let m := cm &&& x.act
      let n := popcount m
      let a := popcount x.act
      let kind := modF f 3 1
      let res := (List.range 32).map (fun l => plain (match kind with
        | 0 => m.toNat
        | 1 => n
        | 2 => popcount (m &&& BitVec.ofNat 32 (2 ^ l - 1))
        | 3 => lowLane m
        | 4 => (decide (n = a)).toNat
        | 5 => (n != 0).toNat
        | 6 => (n = 0 || n = a : Bool).toNat
        | _ => (0 < n && n < a : Bool).toNat))
      postLanes s x 4 (if kind < 4 then vdst f.dst 1 else .pred f.dst.toNat) false x.didx res
    | _ => s))

/-! ### REDUX (R230) -/

/-- One step of a reduction: the combined value and its flags. -/
def reduxOp (t rop rm : Nat) (ftz : Bool) (a b : Nat) : FR :=
  if t = 10 then
    match rop with
    | 0 => fadd f32 rm ftz a b
    | 1 => fminmax f32 ftz false a b
    | _ => fminmax f32 ftz true a b
  else
    let p := intVal t a
    let q := intVal t b
    { bits := match rop with
        | 0 => (a + b) % 2 ^ 32
        | 1 => if p ≤ q then a else b
        | 2 => if p ≤ q then b else a
        | 3 => a &&& b
        | 4 => a ||| b
        | _ => a ^^^ b
      flags := 0 }

/-- A value read as an operand before any step: FTZ, canonical NaN, NV of a signalling one. -/
def reduxRead (t : Nat) (ftz : Bool) (a : Nat) : FR :=
  if t = 10 then
    let y := ftzIn f32 ftz a
    match fdec f32 y with
    | .nan sg => { bits := canon f32, flags := if sg then fNV else 0 }
    | _ => { bits := y, flags := 0 }
  else { bits := a % 2 ^ 32, flags := 0 }

/-- One round of the fixed tree at distance `d`. -/
def reduxRound (op : Nat → Nat → FR) (d : Nat) (xs : List (Option FR)) : List (Option FR) :=
  (List.range 32).map (fun l =>
    let here := (xs[l]?).join
    let there := (xs[l + d]?).join
    if l % (2 * d) ≠ 0 then none
    else match here, there with
      | some a, some b => let r := op a.bits b.bits
        some { bits := r.bits, flags := a.flags ||| b.flags ||| r.flags }
      | some a, none => some a
      | none, b => b)

/-- The inclusive scan: the value of each active lane and the flags of every step. -/
def reduxScan (op : Nat → Nat → FR) : Option Nat → Nat → List (Option FR) → List (Option Nat) × Nat
  | _, fl, [] => ([], fl)
  | acc, fl, none :: t => let r := reduxScan op acc fl t
    (none :: r.1, r.2)
  | none, fl, some a :: t => let r := reduxScan op (some a.bits) (fl ||| a.flags) t
    (some a.bits :: r.1, r.2)
  | some v, fl, some a :: t =>
    let y := op v a.bits
    let r := reduxScan op (some y.bits) (fl ||| a.flags ||| y.flags) t
    (some y.bits :: r.1, r.2)

/-- REDUX (R230): a fixed tree, or with SCAN a serial prefix; it never traps. -/
def execRedux (f : Full) (s : State) : Host.Outcome State Fault Refusal :=
  issueFull 0x54 f s (fun s x => warpWide s x (fun s =>
    let t := f.ty.toNat
    let ftz := modB f 3
    let op := reduxOp t (modF f 7 5) (modF f 2 1) ftz
    let xs := (List.range 32).map (fun l => if x.act.getLsbD l then some (reduxRead t ftz (nth x.a l).toNat) else none)
    if modB f 4 then
      let r := reduxScan op none 0 xs
      post s x 6 (vdst f.dst 1) x.act (r.1.map (fun v => BitVec.ofNat 128 (v.getD 0))) (BitVec.ofNat 5 r.2)
    else
      let r := (([1, 2, 4, 8, 16].foldl (fun xs d => reduxRound op d xs) xs).headD none).getD { bits := 0, flags := 0 }
      post s x 6 (vdst f.dst 1) x.act (List.replicate 32 (BitVec.ofNat 128 r.bits)) (BitVec.ofNat 5 r.flags)))

/-! ### PRMT (R231) -/

/-- Result byte for one control byte. -/
def prmtByte (src ctl : Nat) : Nat :=
  let b := src / 2 ^ (8 * (ctl % 8)) % 256
  if ctl / 8 % 2 = 1 then 0
  else if ctl / 16 % 2 = 1 then (if 128 ≤ b then 255 else 0)
  else b

def prmtVal (nib : Bool) (a b c : Nat) : Nat :=
  let src := a % 2 ^ 32 + 2 ^ 32 * (b % 2 ^ 32)
  if nib then sumL ((List.range 8).map (fun i => src / 2 ^ (4 * (c / 2 ^ (4 * i) % 16)) % 16 * 2 ^ (4 * i)))
  else sumL ((List.range 4).map (fun i => prmtByte src (c / 2 ^ (8 * i) % 256) * 2 ^ (8 * i)))

/-- PRMT (R231). -/
def execPrmt (f : Full) (s : State) : Host.Outcome State Fault Refusal :=
  issueFull 0x55 f s (fun s x => compute s x 2 1 f.dst (fun a b c => plain (prmtVal (modB f 1) a b c)) (fun v => v))

end Sys2Proof.Machine
end

