-- ==== Sys2Proof/Machine/Paired.lean ====
section
/-!
DEFINITION. The paired words (spec/02 R35-R37, R44; spec/11 R232): each half has the effect of its full form with every MOD bit zero; both
halves read before either writes; a half that traps a lane leaves the other half's result.
-/
namespace Sys2Proof.Machine

/-- TYPE code of a PTYPE (spec/02 R35). -/
def ptypeCode (p : Nat) : Nat := if p = 0 then 2 else if p = 1 then 6 else if p = 2 then 10 else 6

/-- One lane of an f32 half. -/
def halfFlt (en : BitVec 4) (pop d v : Nat) : LaneRes :=
  match pop with
  | 1 => fpLane en (fadd f32 0 false d v)
  | 2 => fpLane en (fsub f32 0 false d v)
  | 3 => fpLane en (fsub f32 0 false v d)
  | 4 => fpLane en (fmul f32 0 false d v)
  | 5 => fpLane en (fminmax f32 false false d v)
  | _ => fpLane en (fminmax f32 false true d v)

/-- One lane of an integer half. -/
def halfInt (pop t d v : Nat) : LaneRes :=
  let i := fun (g : Int → Int → Int) => plain (intOut t false (g (intVal t d) (intVal t v)))
  match pop with
  | 1 => i (fun a b => a + b)
  | 2 => i (fun a b => a - b)
  | 3 => i (fun a b => b - a)
  | 4 => i (fun a b => a * b)
  | 5 => i (fun a b => if a ≤ b then a else b)
  | 6 => i (fun a b => if a ≤ b then b else a)
  | 7 => plain (d &&& v)
  | 8 => plain (d ||| v)
  | 9 => plain (d ^^^ v)
  | 10 => plain (shlN 32 d v)
  | 11 => plain (shrN t d v)
  | _ => plain v

/-- One lane of a half: D and SRC to a result (spec/02 R44). -/
def halfLane (en : BitVec 4) (pop t : Nat) (d v : Nat) : LaneRes :=
  if t = 10 then halfFlt en pop d v else halfInt pop t d v

/-- A half's latency (spec/02 R44). -/
def halfLat (pop t : Nat) : Nat := if t = 10 || pop = 4 then 4 else 2

/-- Results of a half, read at issue: D from the register file, SRC from its slot. -/
def halfRes (s : State) (x : Issued) (h : Half) (src : List W128) : List LaneRes :=
  match x.u with
  | .warp c k =>
    let w := getWarp s c k
    let en := trapEnables s x.u
    let t := ptypeCode h.pty.toNat
    (List.range 32).map (fun l => halfLane en h.pop.toNat t (readLane w 1 h.d.toNat l).toNat (nth src l).toNat)
  | _ => []

/-- The first half to trap a lane files its record; the other half's result is still written (spec/11 R232). -/
def quiet (tm : Mask) (res : List LaneRes) : List LaneRes :=
  res.zipIdx.map (fun p => if tm.getLsbD p.2 then { p.1 with cause := none } else p.1)

/-- The word as its half's full form reads it, for the record (spec/22 R365): A is D and B is SRC, the other way round for RSUB. -/
def halfIssued (x : Issued) (w : Warp) (h : Half) (src : List W128) : Issued :=
  let d := readVec w 1 h.d.toNat
  let swap := h.pop = 3
  { x with a := if swap then src else d, b := if swap then d else src, c := [], didx := h.d.setWidth 9 }

/-- Detach the lanes that a half traps, with the half's own operands. -/
def trapHalf (s : State) (x : Issued) (half : Bool) (h : Half) (src : List W128) (res : List LaneRes) (w : Warp) : State :=
  trapLanes s (halfIssued x w h src) half (h.d.setWidth 9) res

/-- A paired word (spec/02 R36). A lane that both halves trap files one record, half 0's (log 14). -/
def pairBody (pop : Nat) (f : Pair) (s : State) (x : Issued) : State :=
  match x.u with
  | .warp c k =>
    let w := getWarp s c k
    let h0 := f.h0 pop
    let h1 := f.h1
    let r0 := if h0.pop = 0 then [] else halfRes s x h0 x.b
    let r1 := if h1.pop = 0 then [] else halfRes s x h1 x.c
    let m0 := trapMask x.act r0
    let m1 := trapMask x.act r1
    let put := fun (s : State) (h : Half) (m : Mask) (r : List LaneRes) =>
      if h.pop = 0 then s
      else post s x (halfLat h.pop.toNat (ptypeCode h.pty.toNat)) (.reg h.d.toNat 1) (x.act &&& ~~~m)
        (r.map (fun v => BitVec.ofNat 128 v.val)) (laneFlags x.act r)
    let s := put s h0 m0 r0
    let s := put s h1 m1 r1
    let s := trapHalf s x false h0 x.b r0 w
    trapHalf s x true h1 x.c (quiet m0 r1) w
  | _ => s

/-- A paired word whose half 0 has POP `pop`. -/
def issuePair (pop : Nat) (f : Pair) (s : State) : Host.Outcome State Fault Refusal :=
  issue s (viewPair pop f) (pairBody pop f)

/-- PAIR_NOP (spec/02 R44): half 0 is NOP. -/
def execPairNop (f : Pair) (s : State) : Host.Outcome State Fault Refusal := issuePair 0 f s

/-- PAIR_ADD (spec/02 R44): half 0 is ADD. -/
def execPairAdd (f : Pair) (s : State) : Host.Outcome State Fault Refusal := issuePair 1 f s

/-- PAIR_SUB (spec/02 R44): half 0 is SUB. -/
def execPairSub (f : Pair) (s : State) : Host.Outcome State Fault Refusal := issuePair 2 f s

/-- PAIR_RSUB (spec/02 R44): half 0 is RSUB. -/
def execPairRsub (f : Pair) (s : State) : Host.Outcome State Fault Refusal := issuePair 3 f s

/-- PAIR_MUL (spec/02 R44): half 0 is MUL. -/
def execPairMul (f : Pair) (s : State) : Host.Outcome State Fault Refusal := issuePair 4 f s

/-- PAIR_MIN (spec/02 R44): half 0 is MIN. -/
def execPairMin (f : Pair) (s : State) : Host.Outcome State Fault Refusal := issuePair 5 f s

/-- PAIR_MAX (spec/02 R44): half 0 is MAX. -/
def execPairMax (f : Pair) (s : State) : Host.Outcome State Fault Refusal := issuePair 6 f s

/-- PAIR_AND (spec/02 R44): half 0 is AND. -/
def execPairAnd (f : Pair) (s : State) : Host.Outcome State Fault Refusal := issuePair 7 f s

/-- PAIR_OR (spec/02 R44): half 0 is OR. -/
def execPairOr (f : Pair) (s : State) : Host.Outcome State Fault Refusal := issuePair 8 f s

/-- PAIR_XOR (spec/02 R44): half 0 is XOR. -/
def execPairXor (f : Pair) (s : State) : Host.Outcome State Fault Refusal := issuePair 9 f s

/-- PAIR_SHL (spec/02 R44): half 0 is SHL. -/
def execPairShl (f : Pair) (s : State) : Host.Outcome State Fault Refusal := issuePair 10 f s

/-- PAIR_SHR (spec/02 R44): half 0 is SHR. -/
def execPairShr (f : Pair) (s : State) : Host.Outcome State Fault Refusal := issuePair 11 f s

/-- PAIR_MOV (spec/02 R44): half 0 is MOV. -/
def execPairMov (f : Pair) (s : State) : Host.Outcome State Fault Refusal := issuePair 12 f s

end Sys2Proof.Machine
end

