-- ==== Sys2Proof/Machine/Control.lean ====
section
/-!
DEFINITION. The control words: transfers, the decision queue's push, EXIT, YIELD, TRAP and NOP (spec/15 R299-R314, spec/22 R379). A transfer
takes effect at the clause's end (R307, Machine/Clause).
-/
namespace Sys2Proof.Machine

/-- Change the clause in progress of any unit. -/
def mapUnitRun (s : State) (u : UnitId) (g : ClauseRun → ClauseRun) : State := setRun s u ((getRun s u).map g)

/-- A word with a reserved opcode: it names nothing and is never legal (spec/02 R39, R43). -/
def viewReserved (w : W64) (_ : UKind) (_ : ClauseRun) : WView :=
  let pair := w.getLsbD 63
  { word := w, pred := if pair then fld w 62 60 else fld w 54 52, pneg := !pair && bit w 55, legal := false, a := noSrc, b := noSrc, c := noSrc,
    named := [], reads := [], flag := none, didx := 0x1FF }

/-- RESERVED_OPCODE (R43): ILLINS and nothing else. -/
def execReservedOpcode (word : W64) (s : State) : Host.Outcome State Fault Refusal := issue s (viewReserved word) (fun s _ => s)

/-- A code target (spec/15 R299): a signed byte displacement from the clause's header, modulo 2^52. -/
def codeTarget (pc : Addr) (disp : W128) : Addr := pc + (disp.setWidth 32).signExtend 52

def aligned8 (a : Addr) : Bool := a.toNat % 8 = 0

/-- Hold the word at issue: it is issued again, one cycle later (spec/09 R187). -/
def holdWord (s : State) (x : Issued) : State := mapUnitRun s x.u (fun r => { r with idx := x.widx })

/-- A scalar transfer to `disp`, or the ILLSTATE of a misaligned target. -/
def transferTo (s : State) (x : Issued) (disp : W128) (g : ClauseRun → ClauseRun) : State :=
  let t := codeTarget x.pc disp
  if aligned8 t then mapUnitRun s x.u (fun r => g { r with target := some t }) else trapWord s x (illstate 0)

/-- NOP (R314). -/
def execNop (f : Full) (s : State) : Host.Outcome State Fault Refusal := issueFull 0x00 f s (fun s _ => s)

/-- BRA (R300). -/
def execBra (f : Full) (s : State) : Host.Outcome State Fault Refusal :=
  issueFull 0x01 f s (fun s x => transferTo s x (nth x.a 0) (fun r => r))

/-- BRC (R300): a branch not taken transfers nothing, so its target is not looked at (log 14). -/
def execBrc (f : Full) (s : State) : Host.Outcome State Fault Refusal :=
  issueFull 0x02 f s (fun s x =>
    let zero := (nth x.b 0).setWidth 64 = (0 : W64)
    if zero = modB f 1 then transferTo s x (nth x.a 0) (fun r => r) else s)

/-- The address of the clause after the one at `pc` (spec/02 R21). -/
def nextClause (pc : Addr) (hdr : W64) : Addr := pc + BitVec.ofNat 52 (8 * (hdrCount hdr + 1))

/-- The return stack of a scalar unit. -/
def unitStack (s : State) : UnitId → List Addr
  | .warp _ _ => []
  | .front c k => (getFront s c k).stack
  | .thread q => (getThread s q).stack

/-- CALL (R300, R301): the push happens at the clause's end. -/
def execCall (f : Full) (s : State) : Host.Outcome State Fault Refusal :=
  issueFull 0x03 f s (fun s x =>
    if 16 ≤ (unitStack s x.u).length then trapWord s x (illstate 0)
    else transferTo s x (nth x.a 0) (fun r => { r with push := some (nextClause x.pc x.hdr) }))

/-- RET (R300, R301): on an empty stack it halts a core's context and is ILLSTATE on the service processor. -/
def execRet (f : Full) (s : State) : Host.Outcome State Fault Refusal :=
  issueFull 0x04 f s (fun s x =>
    if (unitStack s x.u).isEmpty then
      match x.u with
      | .thread _ => trapWord s x (illstate 0)
      | u => mapUnitRun s u (fun r => { r with halts := true })
    else mapUnitRun s x.u (fun r => { r with pops := true }))

/-- Cores of a team (spec/19 R324). -/
def teamCores (s : State) (handle : Nat) : Nat := match findTeam s handle with
  | some t => t.shape.cores
  | none => 1

/-- A warp's local index (spec/15 R302): its rank among the team's warps on its core. -/
def localIndex (s : State) (w : Warp) : Nat := w.num / teamCores s w.handle

/-- The team's live warps on a core, by local index. -/
def liveMask (s : State) (core handle : Nat) : BitVec 48 :=
  (getCore s core).warps.foldl (fun m p =>
    if p.2.live && p.2.handle = handle && p.2.sheaf.isNone then m ||| BitVec.ofNat 48 (2 ^ localIndex s p.2) else m) 0

/-- The values of a push: value 2i is the low word of s(B+i), value 2i+1 its high word (R303). -/
def dqVals (b : List W128) (n : Nat) : List W32 :=
  (b.flatMap (fun v => [v.setWidth 32, v.extractLsb' 32 32])).take n

/-- DQPUSH (R303). -/
def execDqpush (f : Full) (s : State) : Host.Outcome State Fault Refusal :=
  issueFull 0x05 f s (fun s x =>
    let ctl := (nth x.c 0).setWidth 64
    let n := fld ctl 55 52
    let base := fld ctl 51 48
    let t := codeTarget x.pc (nth x.a 0)
    let has := modB f 1
    if fld ctl 63 56 ≠ 0 || 8 < n || 16 < base + n || (has && !aligned8 t) then trapWord s x (illstate 0)
    else match x.u with
      | .front c k =>
        let fr := getFront s c k
        let m := BitVec.ofNat 48 (fld ctl 47 0) &&& liveMask s c fr.handle
        if m = 0 then s
        else if 32 ≤ fr.dq.length then holdWord s x
        else setFront s c k { fr with dq := fr.dq ++
          [{ mask := m, target := if has then some t else none, vbase := base, vals := dqVals x.b n }] }
      | _ => s)

/-- Add a lane to the group of its target. -/
def addBranch (t : Addr) (l : Nat) : List (Addr × Mask) → List (Addr × Mask)
  | [] => [(t, laneBit l)]
  | (a, m) :: r => if a = t then (a, m ||| laneBit l) :: r else (a, m) :: addBranch t l r

/-- VBR (R310): any misaligned target is a precise ILLSTATE and no lane branches. -/
def execVbr (f : Full) (s : State) : Host.Outcome State Fault Refusal :=
  issueFull 0x06 f s (fun s x =>
    let ls := lanesIn x.act
    if ls.all (fun l => aligned8 (codeTarget x.pc (nth x.a l))) then
      mapUnitRun s x.u (fun r => { r with
        branches := ls.foldl (fun bs l => addBranch (codeTarget x.pc (nth x.a l)) l bs) [] })
    else trapWord s x (illstate 0))

/-- EXIT (R311): the active lanes exit at the clause's end with status [7:0]. -/
def execExit (f : Full) (s : State) : Host.Outcome State Fault Refusal :=
  issueFull 0x07 f s (fun s x =>
    mapUnitRun s x.u (fun r => { r with exits := x.act, exitSt := x.a.map (fun v => v.toNat % 256) }))

/-- YIELD (R313). -/
def execYield (f : Full) (s : State) : Host.Outcome State Fault Refusal :=
  issueFull 0x08 f s (fun s x => mapUnitRun s x.u (fun r => { r with yielded := true }))

/-- TRAP (R379): UTRAP with the operand as DETAIL; in a scalar clause it stops the unit (R362, R386). -/
def execTrap (f : Full) (s : State) : Host.Outcome State Fault Refusal :=
  issueFull 0x09 f s (fun s x =>
    match x.u with
    | .warp c k =>
      (lanesIn x.act).foldl (fun s l => laneTrap s c k (laneRec s x l 8 ((nth x.a l).setWidth 32) false 0x1FF)) s
    | _ => trapWord s x { cause := 8, detail := (nth x.a 0).setWidth 32, addr := 0 })

end Sys2Proof.Machine
end

