-- ==== Sys2Proof/Machine/SysReg.lean ====
section
/-!
DEFINITION. System registers: who may read and write each (spec/02 R46), what a read returns, and what SWRITE of a register with no behaviour
of its own writes (spec/02 R45, R3). A register whose write is a row of the opcode table is handed on: the SWRITE stands posted at its unit, and
that row runs next at the unit, before its next word: in the same step where the unit itself holds the register, in its next step where the module does (log 15).
-/
namespace Sys2Proof.Machine

/-- R46: may a unit of this kind read register `n`? -/
def sysReadOk (n : Nat) (k : UKind) : Bool :=
  let v := k = .vector
  let c := k = .core
  let p := k = .sp
  if n ≤ 3 || n = 0x0C || n = 0x10 then true
  else if 4 ≤ n && n ≤ 0x0B then v || c
  else if n = 0x11 || n = 0x13 then v
  else if n = 0x12 then v || c
  else if 0x14 ≤ n && n ≤ 0x17 then c
  else if (0x18 ≤ n && n ≤ 0x1E) || n = 0x2D || n = 0x2E || (0x1C0 ≤ n && n < 0x200) then p
  else true

/-- R46: may a unit of this kind write register `n`? -/
def sysWriteOk (n : Nat) (k : UKind) : Bool :=
  let c := k = .core
  let p := k = .sp
  if n = 0x11 then k = .vector
  else if n = 0x14 || n = 0x16 then c
  else if n = 0x0C || n = 0x18 || (0x1A ≤ n && n ≤ 0x1C) || n = 0x1E then p
  else if n = 0x2A || n = 0x2C then false
  else if 0x20 ≤ n then p
  else false

/-- COREID of R12; the service processor reads CORE 0x1FF and PAIR 0xFF. -/
def coreIdOf : UnitId → Nat
  | .thread _ => 0x1FF * 2 ^ 16 + 0xFF * 2 ^ 8
  | .warp c _ => 2 ^ 16 * c + c / 2 * 2 ^ 8 + c % 2 * 2 + dieOf c
  | .front c _ => 2 ^ 16 * c + c / 2 * 2 ^ 8 + c % 2 * 2 + dieOf c

def modIdOf (u : UnitId) : Nat := 0x9120211001000000 + unitDie u

/-- CTXID of R47. A service thread's own record has no context: while it stands first, CTXID reads VALID 1, WORLD 0, CTX 0 (DESIGN CHOICE, log 15). -/
def ctxIdOf (s : State) : UnitId → Nat
  | .thread q => match (getThread s q).pending with
    | [] => 0
    | r :: _ => 2 ^ 20 + 2 ^ 16 * r.world + r.ctx
  | u => let w := whoIs s u
    2 ^ 20 + 2 ^ 16 * w.world + w.ctx

/-- Whether a unit is a sheaf (spec/22 R369). -/
def isSheaf (s : State) : UnitId → Bool
  | .warp c k => (getWarp s c k).sheaf.isSome
  | _ => false

def unitCore : UnitId → Nat
  | .warp c _ => c
  | .front c _ => c
  | .thread _ => 0

/-- The registers 0x004-0x00A held per team (spec/19 R333, R336; spec/20 R352; spec/08 R157; spec/12 R234). -/
def teamReg (s : State) (n : Nat) (t : Team) : Nat :=
  let isTask := t.isTask
  match n with
  | 4 => 2 ^ 32 * t.handle + t.tid
  | 5 => t.param.toNat
  | 6 => if isTask then t.taskj.toNat else 0
  | 7 => match t.stage, findSlice s t.slice with
    | some _, some sl => match sl.pipe with
      | some p => p.decl.toNat
      | none => 0
    | _, _ => 0
  | 8 => match t.stage with
    | some g => 2 ^ 17 + 2 ^ 16 * t.handoff.toNat + t.start / 2 * 2 ^ 8 + g
    | none => 0
  | 9 => 2 ^ 32 * (t.stashBase + t.stashLen) + t.stashBase
  | _ => (t.tileBase + t.tileLen) * 2 ^ 4 + t.tileBase

/-- Lines retained by a range, module-wide (HELD of R101). -/
def heldLines (s : State) (i : Nat) : Nat := (s.mem.l2.filter (fun e => e.2.used && e.2.range = some i)).length

/-- Whether some overlay load is in progress on a core (spec/07 R149). -/
def ovlBusy (s : State) (c : Nat) : Bool := (getSlot s c 0).loading.isSome || (getSlot s c 1).loading.isSome

/-- Registers 0x010-0x01E, the reader's own copy. -/
def ownReg (s : State) (u : UnitId) (n : Nat) : Nat :=
  match u with
  | .warp c k =>
    let w := getWarp s c k
    if n = 0x10 then w.wctmax else if n = 0x11 then w.fpstat.toNat else if n = 0x12 then (fptrap s w.ctx).toNat else w.dqt.toNat
  | .front c k =>
    let f := getFront s c k
    if n = 0x10 then f.wctmax
    else if n = 0x12 then (fptrap s f.ctx).toNat
    else if n = 0x14 then f.ovlcmd.toNat
    else if n = 0x15 then
      2 ^ 28 * f.ovlcode + (getSlot s c 1).valid.toNat * 32 + (getSlot s c 0).valid.toNat * 16 + (ovlBusy s c).toNat * 2 + f.ovlerr.toNat
    else if n = 0x16 then f.ovlstub.toNat else f.ovlpc.toNat
  | .thread q =>
    let t := getThread s q
    match n with
    | 0x10 => t.wctmax
    | 0x18 => t.wakest.toNat
    | 0x19 => t.pending.length
    | 0x1A => t.tlbiva.toNat
    | 0x1B => t.tlbicmd.toNat
    | 0x1C => t.slicecmd.toNat
    | 0x1D => t.slicestat.toNat + 2 * t.sliceGo.isSome.toNat
    | _ => t.sproot.toNat

/-- SPCTL of a thread (spec/24 R385). -/
def spctlOf (s : State) (q : Nat) : Nat :=
  let t := getThread s q
  let pc := match t.run with
    | some r => r.pc.toNat
    | none => t.pc.toNat
  pc / 8 * 8 + t.halt.toNat * 2 + t.runBit.toNat

/-- Registers held per die or module. -/
def moduleReg (s : State) (n : Nat) : Nat :=
  let r := s.regs
  if n = 0x0C then r.bootstat.toNat
  else if n = 0x20 then r.memsplit.toNat
  else if n = 0x21 then r.treebase.toNat
  else if n = 0x22 then r.leasecfg.toNat
  else if n = 0x23 then r.swapcfg.toNat
  else if n = 0x24 then r.vcarb.toNat
  else if n = 0x25 then r.monstata.toNat
  else if n = 0x26 then r.monstatb.toNat
  else if n = 0x27 then r.tilctl.toNat
  else if n = 0x28 then r.imgpool.toNat
  else if n = 0x29 then r.qrcfg.toNat
  else if n = 0x2A then r.qrstat.toNat
  else if n = 0x2B then r.qrcmd.toNat
  else if n = 0x2C then r.dlstat.toNat
  else if n = 0x2D then r.ctxcmd.toNat + 2 * r.ctxGo.isSome.toNat
  else if n = 0x2E then r.worldtab.toNat
  else if n < 0x50 then (look 0 r.fwctl (n - 0x40)).toNat
  else if n < 0x60 then (look 0 r.fwlim (n - 0x50)).toNat
  else if n < 0x70 then (look 0 r.fwscale (n - 0x60)).toNat
  else if n < 0xA0 then (look Regs.sidwayReset r.sidway (n - 0x80)).toNat
  else if n < 0xC0 then (look Regs.sidbwReset r.sidbw (n - 0xA0)).toNat
  else if n < 0xD0 then (look 0 r.retbase (n - 0xC0)).toNat
  else if n < 0xE0 then (look 0 r.retlim (n - 0xD0)).toNat
  else if n < 0xF0 then (look 0 r.retctl (n - 0xE0)).toNat
  else if n < 0x100 then (look 0 r.retstat (n - 0xF0)).toNat + heldLines s (n - 0xF0)
  else if n < 0x140 then (look 0 r.hqbase (n - 0x100)).toNat
  else if n < 0x180 then (look Regs.hqctlReset r.hqctl (n - 0x140)).toNat
  else if n < 0x1C0 then (look 0 r.hqnotify (n - 0x180)).toNat
  else if n < 0x200 then spctlOf s (n - 0x1C0)
  else (look 0 r.portctl (n - 0x200)).toNat

/-- The 64-bit value of a system register as a unit reads it (spec/02 R46). -/
def sysRead (s : State) (u : UnitId) (n : Nat) : Nat :=
  if n = 0 then modIdOf u
  else if n = 1 then coreIdOf u
  else if n = 2 then s.time % 2 ^ 64
  else if n = 3 then ctxIdOf s u
  else if n = 0x0B then (getCore s (unitCore u)).latch
  else if 4 ≤ n && n ≤ 0x0A then
    if isSheaf s u then 0
    else match findTeam s (whoIs s u).handle with
      | some t => teamReg s n t
      | none => 0
  else if 0x10 ≤ n && n ≤ 0x1E then ownReg s u n
  else moduleReg s n

/-- The die that holds a register of the module or of one die, if another die's units must cross the link for it: MONSTATB stands on die B; where the module's registers
stand is not stated, and the model has them with the service processor, on die A, but for TIME, which each die reads at home (DESIGN CHOICE, log 18). -/
def regDie (n : Nat) : Option Nat := if n = 0x26 then some 1 else if n = 0x0C || 0x20 ≤ n then some 0 else none

/-- A register access that must cross the die link while it is down waits at its unit (spec/24 R401). -/
def regLink (s : State) (u : UnitId) (n : Nat) : State := match regDie n with
  | some d => if bit s.regs.dlstat 0 || unitDie u = d then s else { s with holds := s.holds ++ [.link] }
  | none => s

/-- SREAD (R45): the value, or one half, as of the issue cycle. -/
def execSread (f : Full) (s : State) : Host.Outcome State Fault Refusal :=
  issueFull 0x0C f s (fun s x =>
    let n := sysNum f
    if !sysReadOk n x.kind then trapWord s x (illstate 0)
    else
      let s := regLink s x.u n
      let v := sysRead s x.u n
      let part := modF f 5 4
      let v := if part = 1 then v % 2 ^ 32 else if part = 2 then v / 2 ^ 32 else v
      compute s x 4 (if part = 0 then 2 else 1) f.dst (fun _ _ _ => plain v) (fun v => v))

/-! ### Writes -/

/-- Keep the bits of `mask` from `v` and the others of `old` (spec/02 R3: a write to any other bit is ignored). -/
def maskWrite (old v mask : W64) : W64 := (old &&& ~~~mask) ||| (v &&& mask)

/-- Bits [hi:lo] set. -/
def ones (hi lo : Nat) : W64 := BitVec.ofNat 64 ((2 ^ (hi + 1 - lo) - 1) * 2 ^ lo)

/-- The row of the opcode table that performs a write of register `n`, if it has one. -/
def rowOf (n : Nat) (v : W64) (src : WSrc) : Option Instr :=
  if n = 0x0C then some (.bootstatWrite src)
  else if n = 0x14 then (if bit v 0 then some (.overlayLoad src) else none)
  else if n = 0x18 then some (.wakestClear src)
  else if n = 0x1B then
    if !bit v 0 then none
    else match fld v 9 8 with
      | 0 => some (.tlbiPage src)
      | 1 => some (.tlbiContext src)
      | 2 => some (.tlbiAll src)
      | _ => none
  else if n = 0x1C then
    if !bit v 0 then none
    else match fld v 2 1 with
      | 1 => some (.sliceForm src)
      | 2 => some (.sliceResume src)
      | 3 => some (.sliceKill src)
      | _ => none
  else if n = 0x1E then some (.sprootWrite src)
  else if n = 0x20 then some (.memsplitWrite src)
  else if n = 0x21 then some (.treebaseWrite src)
  else if n = 0x2B then (if bit v 0 then (if bit v 1 then some (.qrWriteback src) else some (.qrRelease src)) else none)
  else if n = 0x2D then (if bit v 0 then some (.contextDestroy src) else none)
  else if 0x40 ≤ n && n < 0x50 then some (.fwctlWrite src)
  else if 0x50 ≤ n && n < 0x60 then some (.fwlimWrite src)
  else if 0x60 ≤ n && n < 0x70 then some (.fwscaleWrite src)
  else if 0xC0 ≤ n && n < 0xD0 then some (.retbaseWrite src)
  else if 0xD0 ≤ n && n < 0xE0 then some (.retlimWrite src)
  else if 0xE0 ≤ n && n < 0xF0 then some (.retctlWrite src)
  else if 0xF0 ≤ n && n < 0x100 then some (.retstatWrite src)
  else if 0x1C0 ≤ n && n < 0x200 then some (.spctlWrite src)
  else if 0x200 ≤ n && n < 0x210 then some (.portctlWrite src)
  else none

/-- A plain write of a register held per die or module. -/
def plainWrite (r : Regs) (n : Nat) (v : W64) : Regs :=
  if n = 0x22 then { r with leasecfg := v &&& ones 15 0 }
  else if n = 0x23 then { r with swapcfg := v &&& ones 31 0 }
  else if n = 0x24 then { r with vcarb := v &&& ones 23 0 }
  else if n = 0x25 then { r with monstata := v &&& (ones 63 32 ||| ones 9 0) }
  else if n = 0x26 then { r with monstatb := v &&& (ones 63 32 ||| ones 9 0) }
  else if n = 0x27 then { r with tilctl := v &&& ones 1 0 }
  else if n = 0x28 then { r with imgpool := v &&& (ones 51 16 ||| ones 4 0) }
  else if n = 0x29 then (if r.qrstat = 0 then { r with qrcfg := v &&& (ones 51 12 ||| ones 4 0) } else r)
  else if n = 0x2B then { r with qrcmd := maskWrite r.qrcmd v (ones 31 8 ||| ones 1 1) }
  else if n = 0x2D then { r with ctxcmd := maskWrite r.ctxcmd v (ones 31 16) }
  else if n = 0x2E then { r with worldtab := v &&& (ones 51 10 ||| ones 0 0) }
  else if n < 0xA0 then { r with sidway := putC Regs.sidwayReset r.sidway (n - 0x80) (v &&& ones 31 0) }
  else if n < 0xC0 then
    { r with sidbw := putC Regs.sidbwReset r.sidbw (n - 0xA0) (v &&& (ones 39 32 ||| ones 16 8 ||| ones 6 0)) }
  else if n < 0x140 then { r with hqbase := putC 0 r.hqbase (n - 0x100) (v &&& ones 51 12) }
  else if n < 0x180 then
    let old := look Regs.hqctlReset r.hqctl (n - 0x140)
    { r with hqctl := putC Regs.hqctlReset r.hqctl (n - 0x140) (maskWrite old v (ones 55 7 ||| ones 0 0) &&& (ones 55 7 ||| ones 1 0)) }
  else
    -- HQNOTIFY: a thread writes CONS; PROD is the host's (R320)
    let old := look 0 r.hqnotify (n - 0x180)
    { r with hqnotify := putC 0 r.hqnotify (n - 0x180) (maskWrite old v (ones 63 32)) }

/-- Set a unit's posted write. -/
def setPosted (s : State) (u : UnitId) (p : Option (Nat × W64)) : State := match u with
  | .warp _ _ => s
  | .front c k => setFront s c k { getFront s c k with posted := p }
  | .thread q => setThread s q { getThread s q with posted := p }

/-- A plain write of a register of the unit's own. -/
def ownWrite (s : State) (u : UnitId) (n : Nat) (v : W64) : State :=
  match u with
  | .warp c k => setWarp s c k { getWarp s c k with fpstat := v.setWidth 5 }
  | .front c k =>
    let f := getFront s c k
    if n = 0x14 then setFront s c k { f with ovlcmd := maskWrite f.ovlcmd v (ones 51 16 ||| ones 14 4 ||| ones 1 1) }
    else setFront s c k { f with ovlstub := v &&& ones 51 3 }
  | .thread q =>
    let t := getThread s q
    if n = 0x1A then setThread s q { t with tlbiva := v &&& ones 51 12 }
    else if n = 0x1B then
      let w := maskWrite t.tlbicmd v (ones 31 16 ||| ones 9 8)
      -- a GO with the reserved SCOPE is refused (R86); like any refused GO it leaves CTX and SCOPE (DESIGN CHOICE, log 29)
      setThread s q { t with tlbicmd := if bit v 0 then t.tlbicmd ||| 4 else w }
    else setThread s q { t with slicecmd := maskWrite t.slicecmd v (ones 63 56 ||| ones 51 6 ||| ones 2 1) }

/-- Registers whose writes reach copies on both dies before they retire: the windows' (spec/04 R73) and those of the second-level cache and the network (spec/05 R94). -/
def bothDies (n : Nat) : Bool := (0x24 ≤ n && n ≤ 0x26) || (0x40 ≤ n && n < 0x100)

/-- A write of a register crosses the die link to where it stands and to its copies (spec/24 R401). -/
def writeLink (s : State) (u : UnitId) (n : Nat) : State := if bothDies n then atLink (regLink s u n) 0 1 else regLink s u n

/-- SWRITE (R45): access is checked; a register with a row of its own is posted, any other is written. A row of a register that the unit itself holds runs in the same
step (`ownRow`), so the write takes effect at its issue cycle. -/
def execSwrite (f : Full) (s : State) : Host.Outcome State Fault Refusal :=
  issueFull 0x0D f s (fun s x =>
    let n := sysNum f
    if !sysWriteOk n x.kind then trapWord s x (illstate 0)
    else
      let s := writeLink s x.u n
      let src := match x.u with
        | .warp _ _ => nth x.a (lowLane x.act)
        | _ => nth x.a 0
      let v : W64 := if modF f 5 4 = 1 then BitVec.ofNat 64 (src.toNat % 2 ^ 32) else src.setWidth 64
      if (rowOf n v (.unit x.u)).isSome then setPosted s x.u (some (n, v))
      else if n < 0x20 then ownWrite s x.u n v
      else { (if 0xA0 ≤ n && n < 0xC0 then settleBuckets s (n - 0xA0) else s) with regs := plainWrite s.regs n v })

/-- The write a row event performs: its register, its value, and the state with it taken; none when no such write stands. -/
def takeWrite (s : State) (src : WSrc) : Option (Nat × W64 × State) :=
  match src with
  | .unit (.front c k) => match (getFront s c k).posted with
    | some p => some (p.1, p.2, setPosted s (.front c k) none)
    | none => none
  | .unit (.thread q) => match (getThread s q).posted with
    | some p => some (p.1, p.2, setPosted s (.thread q) none)
    | none => none
  | .unit (.warp _ _) => none
  | .host => match s.host.regq with
    | [] => none
    | p :: t => some (p.1, p.2, { s with host := { s.host with regq := t } })

/-- A row event over its write: it stutters when the write it stands for is not there (log 2). -/
def rowEvent (s : State) (src : WSrc) (lo hi : Nat) (g : State → Nat → W64 → State) : Host.Outcome State Fault Refusal :=
  match takeWrite s src with
  | some (n, v, s') => if lo ≤ n && n ≤ hi then .next (g s' (n - lo) v) else .next s
  | none => .next s

/-- A row event over a register with copies on both dies (spec/04 R73, spec/05 R94): the write crosses the die link. -/
def copiedRow (s : State) (src : WSrc) (lo hi : Nat) (g : State → Nat → W64 → State) : Host.Outcome State Fault Refusal :=
  rowEvent s src lo hi (fun s i v => g (atLink s 0 1) i v)

/-- One of several rows over one command register: the row whose operation the write names; another stutters (log 2). -/
def opEvent (s : State) (src : WSrc) (n : Nat) (op : W64 → Bool) (g : State → W64 → State) : Host.Outcome State Fault Refusal :=
  match takeWrite s src with
  | some (m, v, s') => if m = n && op v then .next (g s' v) else .next s
  | none => .next s

/-- The operation of a SLICECMD write (spec/19 R328). -/
def sliceOp (k : Nat) (v : W64) : Bool := bit v 0 && fld v 2 1 = k

/-- The three rows of SLICECMD (spec/19 R328): a GO is accepted, unless the thread's last one is still being performed, and BUSY reads 1 until `g` has performed it. -/
def sliceEvent (s : State) (src : WSrc) (k : Nat) (g : State → Nat → W64 → State) : Host.Outcome State Fault Refusal :=
  match src with
  | .unit (.thread q) =>
    let go := match (getThread s q).sliceGo with
      | some v => if sliceOp k v then g s q v else s
      | none => s
    match takeWrite s src with
    | some (m, v, s') =>
      if m = 0x1C && sliceOp k v then
        let s := ownWrite s' (.thread q) 0x1C v
        let t := getThread s q
        .next (setThread s q (if t.sliceGo.isSome then { t with slicestat := t.slicestat ||| 4 } else { t with sliceGo := some v, sliceMark := s.nextOp }))
      else .next go
    | none => .next go
  | _ => .next s

/-- The GO being performed is over: ERR as given; SLICE changes only with an accepted FORM. -/
def sliceOver (s : State) (q : Nat) (err : Bool) : State :=
  let t := getThread s q
  setThread s q { t with sliceGo := none, slicestat := if err then t.slicestat ||| 4 else t.slicestat &&& ~~~4#64 }

/-! ### Rows of simple registers -/

/-- MEMSPLIT_WRITE (R69). Of a write with LOCALGB above 288, the field is ignored and LOCK is written: the rule can also be read as ignoring the whole write
(DESIGN CHOICE, log 29). -/
def execMemsplitWrite (src : WSrc) (s : State) : Host.Outcome State Fault Refusal :=
  rowEvent s src 0x20 0x20 (fun s _ v =>
    let r := s.regs
    if bit r.memsplit 63 then s
    else
      let gb := fld v 8 0
      let keep := fld r.memsplit 8 0
      { s with regs := { r with memsplit := BitVec.ofNat 64 (2 ^ 63 * (bit v 63).toNat + (if gb ≤ 288 then gb else keep)) } })

/-- WAKEST_CLEAR (R387): write one to clear. -/
def execWakestClear (src : WSrc) (s : State) : Host.Outcome State Fault Refusal :=
  rowEvent s src 0x18 0x18 (fun s _ v => match src with
    | .unit (.thread q) => let t := getThread s q
      setThread s q { t with wakest := t.wakest &&& ~~~(v.setWidth 6) }
    | _ => s)

/-- BOOTSTAT's STAGE (R428): a write that raises it to 5 or to 7 is accepted. -/
def bootStage (s : State) : Nat := fld s.regs.bootstat 15 8

end Sys2Proof.Machine
end

