-- ==== Sys2Proof/Machine/MemInstr.lean ====
section
/-!
DEFINITION. The memory instructions (spec/08 R163-R180) and the events that carry them out: walks (spec/04 R83, R88), bandwidth (spec/05 R100),
fills, writes, line locks (spec/08 R173, R438). A word's operation performs its accesses line by line in any order its rules allow.
-/
namespace Sys2Proof.Machine

/-! ### Issue -/

/-- LD (R167). -/
def execLd (f : Full) (s : State) : Host.Outcome State Fault Refusal :=
  issueFull 0x58 f s (fun s x => issueAccess s x (.ld f) (laneAddrs x) 0)

/-- A mapped entry's physical address, as its team's page tables have it now. -/
def entryPa (s : State) (t : StashTag) : Option Nat :=
  match findTeam s t.handle with
  | none => none
  | some tm => match walk s (ctxWord s tm.ctx 0).toNat t.va with
    | .leaf e _ level => some (leafPa e level t.va)
    | .bad _ => none

/-- `.nt`: a mapped entry that holds the sector reads it again at its next access (R168). -/
def dropStashSector (s : State) (core sector : Nat) : State :=
  let c := getCore s core
  setCore s core { c with tags := c.tags.map (fun p => match p.2 with
    | some t => if entryPa s t = some (sector * 32 / 256 * 256) then (p.1, some { t with lease := 0 }) else p
    | none => p) }

/-- A store's effect on its own core once its address is known: L1's copies of its sectors are invalidated and the sectors marked pending (R153); `.nt` also ends stash leases on
them (R168). -/
def storeMark (s : State) (o : Op) (a : LaneAcc) : State :=
  match o.unit, a.pa with
  | .thread _, _ => s
  | _, none => s
  | u, some pa =>
    if accessCode o.instr = 0 then s
    else
      let core := match u with
        | .warp c _ => c
        | .front c _ => c
        | .thread _ => 0
      let s := dropL1 s core (l1Sector pa)
      let s := setCore s core { getCore s core with l1pend := (getCore s core).l1pend ++ [(o.id, l1Sector pa)] }
      match o.instr with
      | .st f => if modF f 4 3 = 1 then dropStashSector s core (l1Sector pa) else s
      | _ => s

/-- The operation just issued, if one was. -/
def lastOp (before after : State) : Option Op := if after.nextOp = before.nextOp then none else findOp after before.nextOp

/-- After a store has issued: its marks for the addresses already translated. -/
def markIssued (before after : State) : State :=
  match lastOp before after with
  | none => after
  | some o => o.accs.foldl (fun s a => storeMark s o a) after

/-- The bytes of a line that a store's accesses write, higher lanes last (R151): byte mask and data. -/
def storeImage (o : Op) (accs : List LaneAcc) (at_ : LaneAcc → Nat) : Nat × Nat :=
  accs.foldl (fun (p : Nat × Nat) a =>
    let n := accessBytes o.instr
    let off := at_ a % 128
    let k := (2 ^ n - 1) * 2 ^ off
    let v := (nth o.b a.lane).toNat % 2 ^ (8 * n) * 2 ^ (8 * off)
    let keep := p.2 - (p.2 / 2 ^ (8 * off) % 2 ^ (8 * n)) * 2 ^ (8 * off)
    (p.1 ||| k, keep + v)) (0, 0)

/-- The virtual lines of a list of accesses, ascending. -/
def vaLines (accs : List LaneAcc) : List Nat :=
  (dedup (accs.map (fun a => a.va.toNat / 128))).foldl (fun l x => (l.filter (· < x)) ++ [x] ++ l.filter (fun y => x < y)) []

/-- What stands between the operation that opened a buffer and operation `o` and keeps them from one transaction: an acquire or a fence that is not over, which holds `o` (R169,
R174-R176; spec/13 R268), or an access of the issuer, outside the buffer, to bytes that `o` stores on the line, for R154 keeps the order of all three. -/
def wcClash (s : State) (o : Op) (line owner : Nat) : Bool :=
  s.ops.any (fun p => sameIssuer p o && isMemoryEvent p.instr && owner < p.id && p.id < o.id && (((acquireAt p.instr).isSome && p.phase = 0) ||
    (!p.bufs.contains (line, owner) && p.accs.any (fun b => !b.done && o.accs.any (fun a => a.va.toNat / 128 = line && sameBytes o.instr p.instr a b)))))

/-- A `.wc` store enters the warp's buffers (R168): at most four, the oldest sent for a fifth, one that covers its line sent. A buffer that the store may not join is
sent, and the store opens another. -/
def wcEnter (s : State) (c k : Nat) (id line : Nat) : State :=
  let w := getWarp s c k
  match findOp s id with
  | none => s
  | some o =>
    let buf := w.wc.find? (fun b => b.line = line && !wcClash s o line b.op)
    let owner := match buf with
      | some b => b.op
      | none => id
    let s := setOp s { o with bufs := o.bufs ++ [(line, owner)] }
    let wc := match buf with
      | some _ => w.wc
      | none =>
        let l := w.wc.filter (fun b => b.line ≠ line)
        (if 4 ≤ l.length then l.drop 1 else l) ++ [{ op := owner, line := line }]
    let mask := (s.ops.filter (fun p => p.bufs.contains (line, owner))).foldl
      (fun m p => m ||| (storeImage p (p.accs.filter (fun a => a.va.toNat / 128 = line)) (fun a => a.va.toNat)).1) 0
    setWarp s c k { w with wc := if mask = 2 ^ 128 - 1 then wc.filter (fun b => b.line ≠ line) else wc }

/-- ST (R168). -/
def execSt (f : Full) (s : State) : Host.Outcome State Fault Refusal :=
  issueFull 0x59 f s (fun s x =>
    let t := markIssued s (issueAccess s x (.st f) (laneAddrs x) 0)
    match lastOp s t, x.u with
    | some o, .warp c k => if modF f 4 3 = 2 then (vaLines o.accs).foldl (fun s l => wcEnter s c k o.id l) t else t
    | _, _ => t)

/-- LDD (R170). -/
def execLdd (f : Full) (s : State) : Host.Outcome State Fault Refusal :=
  issueFull 0x5C f s (fun s x => issueAccess s x (.ldd f) (laneAddrs x) 0)

/-- STD (R170). -/
def execStd (f : Full) (s : State) : Host.Outcome State Fault Refusal :=
  issueFull 0x5D f s (fun s x => markIssued s (issueAccess s x (.std f) (laneAddrs x) 0))

/-- LDACQ (R169). -/
def execLdacq (f : Full) (s : State) : Host.Outcome State Fault Refusal :=
  issueFull 0x5E f s (fun s x => issueAccess s x (.ldacq f) (laneAddrs x) 0)

/-- STREL (R169). -/
def execStrel (f : Full) (s : State) : Host.Outcome State Fault Refusal :=
  issueFull 0x5F f s (fun s x => markIssued s (issueAccess s x (.strel f) (laneAddrs x) 0))

/-- ATOM (R171). -/
def execAtom (f : Full) (s : State) : Host.Outcome State Fault Refusal :=
  issueFull 0x60 f s (fun s x => markIssued s (issueAccess s x (.atom f) (laneAddrs x) 0))

/-- CAS (R171). -/
def execCas (f : Full) (s : State) : Host.Outcome State Fault Refusal :=
  issueFull 0x62 f s (fun s x => markIssued s (issueAccess s x (.cas f) (laneAddrs x) 0))

/-- FENCE (R175). -/
def execFence (f : Full) (s : State) : Host.Outcome State Fault Refusal :=
  issueFull 0x63 f s (fun s x => newOp s x (.fence f) x.act [] 0)

/-- WAITC (R176): one access; a fault traps every active lane. -/
def execWaitc (f : Full) (s : State) : Host.Outcome State Fault Refusal :=
  issueFull 0x64 f s (fun s x => issueOne s x (.waitc f) (oneAddr x))

/-- PREF (R179): a lane whose address cannot be used is dropped; nothing traps. -/
def execPref (f : Full) (s : State) : Host.Outcome State Fault Refusal :=
  issueFull 0x67 f s (fun s x =>
    let r := (laneAddrs x).foldl (fun (p : State × List LaneAcc) q =>
      let a := match x.u with
        | .warp _ _ => laneAccess p.1 x (.pref f) q.1 q.2
        | _ => scalarAccess p.1 x (.pref f) q.2
      match a.2 with
      | .inl _ => (a.1, p.2)
      | .inr acc => (a.1, p.2 ++ [acc])) (s, [])
    if r.2.isEmpty then r.1 else newOp r.1 x (.pref f) x.act r.2 0)

/-! ### Stash words (R157, R371) -/

/-- LDS, STS and ATOMS issue: each lane's offset aligned and in the team's grant. A sheaf has no stash. -/
def stashIssue (s : State) (x : Issued) (i : Instr) : State :=
  if isSheaf s x.u then trapWord s x (illstate 0)
  else
    let n := accessBytes i
    let h := (whoIs s x.u).handle
    let r := (lanesIn x.act).foldl (fun (p : State × List LaneAcc × Mask) l =>
      let off := (nth x.a l).toNat % 2 ^ 32
      let bad := fun (c r : Nat) => issueTrap p.1 x l (BitVec.ofNat 64 off)
        { cause := c, reason := r, level := 0, pte := 0, eaddr := 0 } (accessCode i)
      if off % n ≠ 0 then (bad 7 0, p.2.1, p.2.2)
      else if !inGrant s h off n then (bad 6 9, p.2.1, p.2.2)
      else (p.1, p.2.1 ++ [{ rawAcc l (BitVec.ofNat 64 off) with pa := some off }], p.2.2 ||| laneBit l)) (s, [], 0)
    if r.2.2 = 0 then r.1 else newOp r.1 x i r.2.2 r.2.1 0

/-- LDS (R167). -/
def execLds (f : Full) (s : State) : Host.Outcome State Fault Refusal := issueFull 0x5A f s (fun s x => stashIssue s x (.lds f))

/-- STS (R167). -/
def execSts (f : Full) (s : State) : Host.Outcome State Fault Refusal := issueFull 0x5B f s (fun s x => stashIssue s x (.sts f))

/-- ATOMS (R171). -/
def execAtoms (f : Full) (s : State) : Host.Outcome State Fault Refusal := issueFull 0x61 f s (fun s x => stashIssue s x (.atoms f))

/-! ### Mapping and retention words (R177): performed once their operation is -/

/-- SMAP (R178). -/
def execSmap (f : Full) (s : State) : Host.Outcome State Fault Refusal :=
  issueFull 0x65 f s (fun s x => if isSheaf s x.u then trapWord s x (illstate 0) else newOp s x (.smap f) x.act [] 0)

/-- SUNMAP (R178). -/
def execSunmap (f : Full) (s : State) : Host.Outcome State Fault Refusal :=
  issueFull 0x66 f s (fun s x => if isSheaf s x.u then trapWord s x (illstate 0) else newOp s x (.sunmap f) x.act [] 0)

/-- RETAIN (R180). -/
def execRetain (f : Full) (s : State) : Host.Outcome State Fault Refusal :=
  issueFull 0x68 f s (fun s x => newOp s x (.retain f) x.act [] 0)

/-- UNPIN (R180). -/
def execUnpin (f : Full) (s : State) : Host.Outcome State Fault Refusal :=
  issueFull 0x69 f s (fun s x => newOp s x (.unpin f) x.act [] 0)

/-! ### TLB_WALK (spec/04 R83, R85, R88) -/

/-- Whose page tables an operation's accesses use: a context's on a die, or a thread's own. -/
def spaceOf (o : Op) : Option Nat × Nat × Nat := match o.unit with
  | .thread q => (some q, 0, 0)
  | _ => (none, unitDie o.unit, o.ctx)

/-- The accesses that a walk of a page serves: identical misses of one die (R85). -/
def walkTargets (s : State) (space : Option Nat × Nat × Nat) (page : Nat) : List (Nat × LaneAcc) :=
  s.ops.flatMap (fun o => if spaceOf o = space
    then (o.accs.filter (fun a => a.pa.isNone && a.va.toNat / 4096 = page)).map (fun a => (o.id, a)) else [])

/-- The distinct misses of a die, oldest operation first. -/
def misses (s : State) (die : Nat) : List ((Option Nat × Nat × Nat) × Nat) :=
  (s.ops.flatMap (fun o => if unitDie o.unit = die then (o.accs.filter (fun a => a.pa.isNone)).map (fun a => (spaceOf o, a.va.toNat / 4096)) else [])).eraseDups

/-- A die holds 4,096 outstanding misses; a further one waits at its requester (R85). -/
def missRoom (s : State) (die : Nat) (m : (Option Nat × Nat × Nat) × Nat) : Bool := ((misses s die).take 4096).contains m

def isPref : Instr → Bool
  | .pref _ => true
  | _ => false

/-- An access of an operation gets its physical address, from a page of 2^`size` bytes. -/
def setAccPa (s : State) (id : Nat) (a : LaneAcc) (pa : Nat) (leaf : W64) (size : Nat) : State :=
  match findOp s id with
  | none => s
  | some o =>
    let a' : LaneAcc := { a with pa := some pa, leaf := leaf, xlatAt := s.turnNo, size := size }
    storeMark (setOp s { o with accs := o.accs.map (fun y => if y.lane = a.lane then a' else y) }) o a'

/-- A prefetch that faults is dropped (spec/08 R179). -/
def dropPrefs (s : State) (ts : List (Nat × LaneAcc)) : State :=
  ts.foldl (fun s t => match findOp s t.1 with
    | some o => if isPref o.instr then finishAccs s o.id [{ t.2 with done := true }] else s
    | none => s) s

def notPref (s : State) (t : Nat × LaneAcc) : Bool := match findOp s t.1 with
  | some o => !isPref o.instr
  | none => false

/-- A failed walk: one record for all its requests, each lane's access being one (DESIGN CHOICE, log 29). -/
def walkFailed (s : State) (die : Nat) (f : AFault) (ts : List (Nat × LaneAcc)) : State :=
  faultAll (dropPrefs s ts) die f (ts.filter (notPref s)).length (ts.filter (notPref s))

/-- The translation an operation's accesses use. -/
def opX (s : State) (o : Op) : XCtx := match o.unit with
  | .thread q => threadX s q
  | _ => ctxX s (opCore o) o.ctx o.world o.sid

/-- A walk that succeeds: each access passes its own checks or faults, one record a reason (R88). -/
def walkLeaf (s : State) (die : Nat) (e : W64) (ea level : Nat) (ts : List (Nat × LaneAcc)) : State :=
  let s := ts.foldl (fun s t => match findOp s t.1 with
    | some o => tlbInsert s (opX s o) t.2.va e ea level
    | none => s) s
  let res := ts.map (fun t => (t, match findOp s t.1 with
    | some o => wordLeafCheck s (opX s o) o.instr e ea level
    | none => none))
  let ok := res.filter (fun r => r.2.isNone)
  let s := ok.foldl (fun s r => setAccPa s r.1.1 r.1.2 (leafPa e level r.1.2.va) e (leafBits e level)) s
  [2, 7, 1, 8, 11].foldl (fun s n =>
    let bad := res.filter (fun r => match r.2 with
      | some f => f.reason = n
      | none => false)
    match bad with
    | (_, some f) :: _ => walkFailed s die f (bad.map (fun r => r.1))
    | _ => s) s

/-- TLB_WALK (R83). A walk that would need a record while the die's buffer is full stays outstanding (R89). -/
def execTlbWalk (op page : Nat) (s : State) : Host.Outcome State Fault Refusal :=
  match findOp s op with
  | none => .next s
  | some o =>
    let die := unitDie o.unit
    let ts := walkTargets s (spaceOf o) page
    match ts with
    | [] => .next s
    | (_, a) :: _ =>
      if (opX s o).phys || !missRoom s die (spaceOf o, page) then .next s
      else
        let w := walkNow s (opX s o) a.va
        match w.2.2 with
        | .bad f => .next (walkFailed w.1 die f ts)
        | .leaf e ea level =>
          let t := bumpFree w.1
          if pagePlaced t e level then .next (walkLeaf (walkKeep t (opX s o) a.va w.2.1) die e ea level ts)
          else .next (walkFailed t die { cause := 6, reason := 4, level := level, pte := e, eaddr := ea } ts)

/-! ### Releases (R160, R175) -/

/-- A release sends the unit's buffers that stand open before it in program order (R168, R175); `id` is its operation. -/
def sendWc (s : State) (u : UnitId) (id : Nat) : State := match u with
  | .warp c k => setWarp s c k { getWarp s c k with wc := (getWarp s c k).wc.filter (fun b => id < b.op) }
  | _ => s

/-- Write-backs that fault: a ring record for each (R88), and the issuing lanes detached with the first (R160). -/
def wbFaults (s : State) (o : Op) (fs : List (AFault × W64)) : State :=
  let s := fs.foldl (fun s f => if f.1.cause ≠ 5 && f.1.cause ≠ 6 then s else match o.unit with
    | .thread _ => s
    | u => pushFault s (unitDie u) o.ctx o.world f.2 f.1 1 0 (originOf u (lowLane o.lanes)) 1 0) s
  match fs with
  | [] => s
  | f :: _ => (lanesIn o.lanes).foldl (fun s l => trapOpLane s o.id l f.2 (faultInfo f.1 1)) s

/-- The write-backs of a release at TEAM scope or wider: every dirty mapped entry of the team on the issuing core. -/
def releaseWb (s : State) (o : Op) : State :=
  match o.unit with
  | .warp c k =>
    if (getWarp s c k).sheaf.isSome then s
    else
      let r := wbEntries (opX s o) c (teamEntries s c o.handle) s
      settleOp (wbFaults (raiseWct r.1 o.unit r.2.1) o r.2.2) o.id
  | _ => s

/-- One step of a release's wait: buffers sent, earlier operations done, write-backs made, module time past WCTMAX. -/
def releaseStep (s : State) (o : Op) (scope : Nat) : State × Bool :=
  let s := if ownerHere s o then sendWc s o.unit o.id else s
  if !earlierDone s o then (s, false)
  else if scope < 2 then (s, true)
  else
    let s := if o.held || !ownerHere s o then s else
      let s := releaseWb s o
      match findOp s o.id with
      | some o => setOp s { o with held := true }
      | none => s
    (s, !ownerHere s o || passed s (unitWct s o.unit))

/-- An operation may send a request: no earlier acquire holds it, and if it is a release its wait is over. -/
def readyToSend (s : State) (o : Op) : State × Bool :=
  if heldByAcquire s o then (s, false)
  else match releaseAt o.instr with
    | none => (s, true)
    | some scope => releaseStep s o scope

/-- FENCE_COMPLETE (R175). -/
def execFenceComplete (op : Nat) (s : State) : Host.Outcome State Fault Refusal :=
  match findOp s op with
  | none => .next s
  | some o => match o.instr with
    | .fence f =>
      if heldByAcquire s o then .next s
      else if modF f 7 6 = 1 then
        if (earlier s o).all (fun p => p.phase ≠ 0 || accessCode p.instr = 1) then .next (retireOp s o) else .next s
      else
        let r := releaseStep s o (modF f 5 3)
        match r.2, findOp r.1 op with
        | true, some o => .next (retireOp r.1 o)
        | _, _ => .next r.1
    | _ => .next s

/-! ### BANDWIDTH_GRANT (spec/05 R100) -/

/-- The accesses of an operation on one line that are not performed. -/
def lineAccs (o : Op) (line : Nat) : List LaneAcc := o.accs.filter (fun a => !a.done && match a.pa with
  | some pa => pa / 128 = line
  | none => false)

/-- The line's request, whose bandwidth BANDWIDTH_GRANT grants. -/
def opReq (s : State) (o : Op) (a : LaneAcc) : LReq := { lineReq s (opX s o) (a.pa.getD 0) a.leaf (opPol o.instr) with paid := true }

/-- Units a request costs (R100): two for each sector it moves, an atomic or a wait's compare two; a line of a protected page moves whole (spec/08 R152, R438), as does a prefetch's. -/
def opCost (o : Op) (accs : List LaneAcc) : Nat :=
  if accessCode o.instr = 2 || oneAccess o.instr then 2
  else if isPref o.instr || accs.any (fun a => (leafEntry a.leaf).isSome) then 8
  else 2 * (dedup (accs.map (fun a => a.pa.getD 0 / 32))).length

/-- A `.wc` transaction may go only once its buffer has been sent (R168). -/
def wcOpen (s : State) (o : Op) (a : LaneAcc) : Bool :=
  match o.unit with
  | .warp c k => o.bufs.any (fun b => b.1 = a.va.toNat / 128 && (getWarp s c k).wc.any (fun w => w.op = b.2 && w.line = b.1))
  | _ => false

/-- What a transaction of a line carries: the accesses of its operation, or of every operation merged in the same buffer. -/
def lineGroup (s : State) (o : Op) (line : Nat) : List (Op × LaneAcc) :=
  let own := (lineAccs o line).map (fun a => (o, a))
  match own with
  | [] => []
  | (_, a) :: _ =>
    match o.bufs.find? (fun b => b.1 = a.va.toNat / 128) with
    | none => own
    | some b => s.ops.flatMap (fun p => if p.bufs.contains b && sameIssuer p o
        then (p.accs.filter (fun y => !y.done && y.va.toNat / 128 = b.1)).map (fun y => (p, y)) else [])

/-! ### L1 (R152, R153, R155) -/

/-- Lines of L1: 128 KiB (R152). -/
def l1Lines : Nat := 1024

/-- A fill's copy, unless a sector of it is pending: then the core's older copy of what has been read goes too (spec/13 R273); protected lines are held as ciphertext with their tag. A full L1 gives up a line, any (log 7). -/
def installL1 (s : State) (core : Nat) (r : LReq) (lease vmax : Nat) (sectors : BitVec 4) : State :=
  let c := getCore s core
  let pend := (List.range 4).any (fun i => sectors.getLsbD i && c.l1pend.any (fun p => p.2 = r.la * 4 + i))
  if pend then dropOlder s core r.la sectors
  else
    let e : L1Line := { line := r.la, data := lineNow s r.die r.la, valid := sectors, lease := lease, vmax := vmax,
                        tag := (sideNow s r.die r.la).setWidth 64 }
    let old := c.l1.filter (fun y => y.line ≠ r.la)
    bumpFree (setCore s core { c with l1 := e :: (if old.length < l1Lines then old else old.eraseIdx (Config.pick s.freeNo % old.length)) })

/-! ### Reads -/

/-- A value as a load writes it: signed bytes and halves extended (R167); in a scalar clause to 64 bits (log 14). -/
def loadVal (i : Instr) (scalar : Bool) (v : Nat) : Nat :=
  let t := (instrFull i).ty.toNat
  let w := if scalar then 64 else 32
  match t with
  | 0 => if 128 ≤ v then v + (2 ^ w - 256) else v
  | 1 => if 2 ^ 15 ≤ v then v + (2 ^ w - 2 ^ 16) else v
  | 2 => if scalar && 2 ^ 31 ≤ v then v + (2 ^ 64 - 2 ^ 32) else v
  | _ => v

/-- FMT that LDD and STD need. -/
def fmtFor (i : Instr) : Nat := if (instrFull i).ty.toNat = 12 then 1 else 2

/-- The window a line stands under: the one it was filled under, or would be filled under now. -/
def winNow (s : State) (die la : Nat) : Option Nat := match findL2 s die la with
  | some k => (getL2 s k).win
  | none => windowOf s (128 * la)

def windowOk (s : State) (i : Instr) (die la : Nat) : Bool := match winNow s die la with
  | some n => winEn s n && winFmt s n = fmtFor i
  | none => false

def isLdd : Instr → Bool
  | .ldd _ => true
  | _ => false

def isStd : Instr → Bool
  | .std _ => true
  | _ => false

/-- Byte offset in SIDE of the four scale bytes of the block pair that holds a byte of a line (R76, R170). -/
def sideOff (i : Instr) (off : Nat) : Nat := off / (2 * fmtBlock (fmtFor i)) * 4

/-- What a load's lane receives from its line. -/
def laneValue (o : Op) (a : LaneAcc) (data : Line) (side : W128) : Nat :=
  let off := a.pa.getD 0 % 128
  if isLdd o.instr then fieldOfLine data off 4 + 2 ^ 32 * (side.toNat / 2 ^ (8 * sideOff o.instr off) % 2 ^ 32)
  else loadVal o.instr (isScalar o.unit) (fieldOfLine data off (accessBytes o.instr))

/-- Raise the issuer's WCTMAX, if it is still there (R260), and what a later GRES of it waits for (spec/22 R375). -/
def raiseOpWct (s : State) (o : Op) (t : Nat) : State :=
  let s := { s with ops := s.ops.map (fun p => if instrOp p.instr = 0x17 && o.id < p.id && sameIssuer o p then { p with wct := Nat.max p.wct t } else p) }
  if ownerHere s o then raiseWct s o.unit t
  else match findTeam s o.handle with
    | some m => if m.st = .ending then setTeam s { m with wctmax := Nat.max m.wctmax t } else s
    | none => s

/-- A read of one line performed at its home slice for an operation's lanes. -/
def serveRead (s : State) (o : Op) (line : Nat) : State :=
  let accs := lineAccs o line
  match accs with
  | [] => s
  | a :: _ =>
    let r := opReq s o a
    let core := match o.unit with
      | .thread _ => false
      | _ => true
    let lease := core && opPol o.instr ≠ 2 && !isLdd o.instr && !(match o.instr with
      | .pref f => modF f 6 6 = 1
      | _ => false)
    let sectors : BitVec 4 := if r.prot.isSome then 15
      else accs.foldl (fun m a => m ||| BitVec.ofNat 4 (2 ^ (a.pa.getD 0 % 128 / 32))) 0
    if isLdd o.instr && (sliceRefuses s r).isNone && !windowOk s o.instr r.die line then faultAll s r.die (refusal 6 10 line) 1 (accs.map (fun a => (o.id, a)))
    else
      let p := readLine s r (if isPref o.instr then 15 else sectors) lease
      match p.2 with
      | .bad f =>
        if isPref o.instr then finishAccs p.1 o.id (accs.map (fun a => { a with done := true }))
        else faultAll p.1 r.die { f with pte := if f.cause = 9 then a.leaf else f.pte } 1 (accs.map (fun a => (o.id, a)))
      | .ok data side _ le vm =>
        let s := if lease then installL1 p.1 (opCore o) r le vm (if isPref o.instr then 15 else sectors)
          else if core && !isPref o.instr then dropOlder p.1 (opCore o) line sectors else p.1
        let s := if isPref o.instr then s else raiseOpWct s o vm
        finishAccs s o.id (accs.map (fun a => { a with done := true, res := BitVec.ofNat 128 (laneValue o a data side) }))

/-- A copy in L1 that serves an access: its lease not ended (R155), kept (log 7), and for a protected page its tag good (R152). -/
def l1Find (s : State) (core : Nat) (a : LaneAcc) : Option L1Line :=
  let pa := a.pa.getD 0
  (getCore s core).l1.find? (fun e => e.line = pa / 128 && e.valid.getLsbD (pa % 128 / 32) && s.time < e.lease)

/-- An access of a line that is served from L1's copy `e`, or refused for its tag (R152). -/
def l1Access (s : State) (o : Op) (e : L1Line) (a : LaneAcc) : State :=
  let tagged := fun (k : Nat) => faultAll s (unitDie o.unit) { refusal 9 (k % 16) e.line with pte := a.leaf } 1 [(o.id, a)]
  let got := fun (d : Line) => finishAccs (raiseOpWct s o e.vmax) o.id [{ a with done := true, res := BitVec.ofNat 128 (laneValue o a d 0) }]
  match leafEntry a.leaf with
  | none => got e.data
  | some k => match keyOf s k with
    | none => tagged k
    | some km => if lineTag km e.line e.data ≠ e.tag then tagged k else got (lineCrypt true km e.line e.data)

/-- A load's accesses on a line, served from L1 where a copy of their sectors stands (R152). Whether L1 has kept its copy is one question for all of them, so lanes that read the
same bytes share one access (R151). A host-homed line that its port has lost, or that is quarantined, is left to its slice, which refuses it (spec/24 R398). -/
def l1Serve (s : State) (o : Op) (line : Nat) : State :=
  match o.unit with
  | .thread _ => s
  | _ =>
    let hits := (lineAccs o line).filter (fun a => !heldBySame s o a && (l1Find s (opCore o) a).isSome)
    if hits.isEmpty || (rangeOf s (128 * line) = .fabric && (quarantinedLine s line || !portUp s (portOf (128 * line)))) then s
    else if Config.keeps s.freeNo then hits.foldl (fun s a => match findOp s o.id, l1Find s (opCore o) a with
      | some p, some e => l1Access s p e a
      | _, _ => s) (bumpFree s)
    else bumpFree s

/-! ### Writes -/

/-- The side-band change of an STD: for each block pair, the scales of the highest lane that addresses it (R170). -/
def stdSide (o : Op) (accs : List LaneAcc) (side : W128) : W128 :=
  accs.foldl (fun m a =>
    let k := 8 * sideOff o.instr (a.pa.getD 0 % 128)
    let v := (nth o.b a.lane).toNat / 2 ^ 32 % 2 ^ 32
    BitVec.ofNat 128 (m.toNat - m.toNat / 2 ^ k % 2 ^ 32 * 2 ^ k + v * 2 ^ k)) side

/-- The bytes of a transaction, operations in program order and lanes ascending. -/
def groupImage (g : List (Op × LaneAcc)) : Nat × Nat :=
  g.foldl (fun (p : Nat × Nat) t =>
    let q := storeImage t.1 [t.2] (fun a => a.pa.getD 0)
    let keep := BitVec.ofNat 1024 p.2 &&& ~~~BitVec.ofNat 1024 (spreadBytes q.1 128)
    (p.1 ||| q.1, keep.toNat + q.2)) (0, 0)

/-- A store's transaction is performed: its WCT enters the issuer's WCTMAX, its pending marks clear (R153, R156). -/
def storeDone (s : State) (g : List (Op × LaneAcc)) (wct : Nat) : State :=
  g.foldl (fun s t =>
    finishAccs (raiseOpWct s t.1 wct) t.1.id [{ t.2 with done := true }]) s

/-- A store transaction of one line performed at its home slice (R156, R117). -/
def serveStore (s : State) (o : Op) (line : Nat) : State :=
  let g := lineGroup s o line
  match g with
  | [] => s
  | (_, a) :: _ =>
    let r := opReq s o a
    let im := groupImage g
    let ts := g.map (fun t => (t.1.id, t.2))
    if isStd o.instr && (sliceRefuses s r).isNone && !windowOk s o.instr r.die line then faultAll s r.die (refusal 6 10 line) 1 ts
    else
      let w := writeLine s r im.1 (BitVec.ofNat 1024 im.2) (if isStd o.instr then stdSide o (g.map (fun t => t.2)) else fun m => m) true
      match w.2 with
      | .bad f => faultAll w.1 r.die { f with pte := if f.cause = 9 then a.leaf else f.pte } 1 ts
      | .ok wct => storeDone w.1 g wct

/-! ### Atomics (R171-R173) -/

/-- aop(m, x) of R172. -/
def aopVal (aop t m x : Nat) : Nat :=
  let n := 8 * typeBytes t
  let p := intVal t m
  let q := intVal t x
  if t = 10 || t = 11 then
    let f := fmtOf t
    (match aop with
      | 0 => fadd f 0 false m x
      | 1 => fminmax f false false m x
      | _ => fminmax f false true m x).bits
  else
    match aop with
    | 0 => (m + x) % 2 ^ n
    | 1 => if p ≤ q then m else x
    | 2 => if p ≤ q then x else m
    | 3 => m &&& x
    | 4 => m ||| x
    | 5 => m ^^^ x
    | 6 => x
    | _ => if x ≤ m then 0 else (m + 1) % 2 ^ n

/-- One lane's step on a word: its new value, and whether it writes. -/
def atomStep (o : Op) (l m : Nat) : Nat × Bool :=
  let n := 8 * accessBytes o.instr
  let b := (nth o.b l).toNat % 2 ^ n
  match o.instr with
  | .cas _ => if m = b then ((nth o.c l).toNat % 2 ^ n, true) else (m, false)
  | i => (aopVal (modF (instrFull i) 8 6) (instrFull i).ty.toNat m b, true)

/-- Serial execution over the lanes of one address, ascending: the results, the final value, whether anything is written (R171). -/
def atomSerial (o : Op) : List LaneAcc → Nat → Bool → List LaneAcc × Nat × Bool
  | [], m, w => ([], m, w)
  | a :: t, m, w =>
    let st := atomStep o a.lane m
    let r := atomSerial o t st.1 (w || st.2)
    ({ a with done := true, res := BitVec.ofNat 128 (loadVal o.instr (isScalar o.unit) m) } :: r.1, r.2)

/-- The accesses of an operation to one address. -/
def addrAccs (o : Op) (pa : Nat) : List LaneAcc := o.accs.filter (fun a => !a.done && a.pa = some pa)

/-- An atomic on one address, performed in one step at the home slice or under the line lock. -/
def serveAtom (s : State) (o : Op) (pa : Nat) : State :=
  let accs := addrAccs o pa
  match accs with
  | [] => s
  | a :: _ =>
    let r := opReq s o a
    let n := accessBytes o.instr
    let ts := accs.map (fun a => (o.id, a))
    let p := readLine s r (BitVec.ofNat 4 (2 ^ (pa % 128 / 32))) false
    match p.2 with
    | .bad f => faultAll p.1 r.die { f with pte := if f.cause = 9 then a.leaf else f.pte } 1 ts
    | .ok data _ _ _ vm =>
      let q := atomSerial o accs (fieldOfLine data (pa % 128) n) false
      let s := raiseOpWct p.1 o vm
      if q.2.2 then
        let w := writeLine s (LReq.again s r) ((2 ^ n - 1) * 2 ^ (pa % 128)) (BitVec.ofNat 1024 (q.2.1 * 2 ^ (8 * (pa % 128)))) (fun m => m) true
        match w.2 with
        | .bad f => faultAll w.1 r.die { f with pte := if f.cause = 9 then a.leaf else f.pte } 1 ts
        | .ok wct => finishAccs (raiseOpWct w.1 o wct) o.id q.1
      else finishAccs (raiseOpWct s o (Nat.max s.time (lmaxOf s r.die r.la))) o.id q.1

/-! ### The events -/

/-- Operations whose requests move data of a line at a slice. -/
inductive Traffic where
  | read | write | atomic | wait | none
deriving DecidableEq, Repr

def trafficOf : Instr → Traffic
  | .ld _ => .read
  | .ldd _ => .read
  | .ldacq _ => .read
  | .pref _ => .read
  | .st _ => .write
  | .std _ => .write
  | .strel _ => .write
  | .atom _ => .atomic
  | .cas _ => .atomic
  | .waitc _ => .wait
  | _ => .none

/-- Entries in use at a slice (spec/05 R106). -/
def entriesAt (s : State) (slice : Nat) : Nat := (s.mem.waiters.filter (fun w => w.entry && w.slice = slice)).length

/-- The most entries in use at one slice of a die. -/
def dieEntries (s : State) (die : Nat) : Nat :=
  maxL ((s.mem.waiters.filter (fun w => w.slice / 96 = die)).map (fun w => entriesAt s w.slice))

/-- PEAK and FULLCNT of R107, once an entry has been taken or refused. A written PEAK stands until then, though more entries may be in use (DESIGN CHOICE, log 29). -/
def monUpdate (s : State) (die : Nat) (full : Bool) : State :=
  let f := fun (v : W64) =>
    setFld (setFld v 9 0 (Nat.max (fld v 9 0) (dieEntries s die))) 63 32 (if full then sat (2 ^ 32 - 1) (fld v 63 32 + 1) else fld v 63 32)
  { s with regs := if die = 0 then { s.regs with monstata := f s.regs.monstata } else { s.regs with monstatb := f s.regs.monstatb } }

/-- The slice of a waiting operation's word: a fabric word's die is the one that its page names (R91). -/
def waitDie (s : State) (o : Op) (pa : Nat) : Nat := homeDie s pa (match o.accs with
  | a :: _ => fld a.leaf 62 61
  | [] => 0)

/-- A waiter takes an entry at its slice if one is free (R106). -/
def addWaiter (s : State) (o : Op) (pa : Nat) (queue : Bool) : State :=
  let die := waitDie s o pa
  let slice := sliceOf die pa
  let room := entriesAt s slice < 512
  let s := { s with mem := { s.mem with waiters := s.mem.waiters ++
    [{ op := o.id, pa := pa, slice := slice, entry := room, queue := queue, since := s.sclk, hit := none, vm := 0 }] } }
  monUpdate s die (!room && !queue)

/-- A WAITC's answer as its destination holds it: signed 32 bits extend in a scalar result (never issued there, R42). -/
def waitValue (o : Op) (m : Nat) : Nat := loadVal o.instr (isScalar o.unit) m

/-- The core that a word's answer comes to gives up its L1's older copy (spec/13 R273). -/
def forgetWord (s : State) (o : Op) (pa : Nat) : State := match o.unit with
  | .thread _ => s
  | _ => dropOlder s (opCore o) (pa / 128) (BitVec.ofNat 4 (2 ^ (pa % 128 / 32)))

/-- WAITC's first compare at its slice (R176): answered, or registered. -/
def serveWait (s : State) (o : Op) (a : LaneAcc) : State :=
  let r := opReq s o a
  let pa := a.pa.getD 0
  let p := readLine s r (BitVec.ofNat 4 (2 ^ (pa % 128 / 32))) false
  match p.2 with
  | .bad f => faultAll p.1 r.die { f with pte := if f.cause = 9 then a.leaf else f.pte } 1 [(o.id, a)]
  | .ok data _ _ _ vm =>
    let m := fieldOfLine data (pa % 128) (accessBytes o.instr)
    let o := { o with accs := o.accs.map (fun a => { a with done := true }) }
    let z := forgetWord p.1 o pa
    if waitHolds o.instr m (nth o.b (lowLane o.lanes)).toNat then
      raiseOpWct (setOp z { o with phase := 1, res := everyLane (waitValue o m) }) o vm
    else addWaiter (setOp z o) o pa false

/-- A prefetch that finds its line present is dropped (spec/08 R179): in L2 at LVL 1, else in its core's L1. -/
def prefPresent (s : State) (o : Op) (a : LaneAcc) : Bool := match o.instr with
  | .pref f =>
    let la := a.pa.getD 0 / 128
    if modF f 6 6 = 1 then (findL2 s (opReq s o a).die la).any (fun k => (getL2 s k).valid = 15)
    else match o.unit with
      | .thread _ => (findL2 s (opReq s o a).die la).any (fun k => (getL2 s k).valid = 15)
      | _ => (getCore s (opCore o)).l1.any (fun e => e.line = la && e.valid = 15 && s.time < e.lease)
  | _ => false

/-- What a granted request does at once: a read that hits is served, a WAITC compares, a miss of a host-homed line asks for its grant. -/
def afterGrant (s : State) (o : Op) (line : Nat) : State :=
  match lineAccs o line with
  | [] => s
  | a :: _ =>
    let r := opReq s o a
    let write := accessCode o.instr ≠ 0
    if prefPresent s o a then finishAccs s o.id ((lineAccs o line).map (fun a => { a with done := true }))
    else if sliceHolds s r write then askGrant s r write
    else match trafficOf o.instr with
      | .read => match findL2 s r.die line with
        | some k =>
          let need := (lineAccs o line).foldl (fun m a => m ||| BitVec.ofNat 4 (2 ^ (a.pa.getD 0 % 128 / 32))) (0 : BitVec 4)
          if need &&& ~~~(getL2 s k).valid = 0 then serveRead s o line else s
        | none => if (sliceRefuses s r).isSome then serveRead s o line else s
      | .wait => serveWait s o a
      | _ => s

/-- Key of one address's grant, while an atomic has other addresses to send on the line. -/
def addrKey (pa : Nat) : Nat := 2 ^ 60 + pa

/-- The accesses on a line whose request has not been granted: an atomic sends one request an address (R171). -/
def unsent (o : Op) (line : Nat) : List LaneAcc := (lineAccs o line).filter (fun a => !o.granted.contains line && !o.granted.contains (addrKey (a.pa.getD 0)))

/-- The place of an access's request among those of its word: lines by address (R151), an atomic's addresses by the lowest lane that names each (R171). -/
def sendPlace (o : Op) (a : LaneAcc) : Nat :=
  if accessCode o.instr = 2 then ((o.accs.filter (fun b => b.pa = a.pa)).map (fun b => b.lane)).foldl Nat.min a.lane else a.pa.getD 0 / 128

/-- Home slice of an access. -/
def accSlice (s : State) (a : LaneAcc) : Nat := sliceOf (homeDie s (a.pa.getD 0) (fld a.leaf 62 61)) (128 * (a.pa.getD 0 / 128))

/-- Requests that have been sent before this one from the same core to the same slice, and have not arrived: they arrive first (R109), and once they have a place at the slice its SIDs
are served as R100 says. A thread of the service processor is a source of its own (DESIGN CHOICE, log 7). A word's requests are sent in
their order once all its lanes are translated; those of other words when each is translated and nothing holds it (log 7). -/
def sentBefore (s : State) (o : Op) (a : LaneAcc) : Bool :=
  let waiting := fun (p : Op) (b : LaneAcc) => !b.done && b.pa.isSome && accSlice s b = accSlice s a && !p.granted.contains (b.pa.getD 0 / 128) &&
    !p.granted.contains (addrKey (b.pa.getD 0)) && !s.mem.waits.any (fun w => w.dev.isNone && w.op = p.id && w.line = b.pa.getD 0 / 128)
  o.accs.any (fun b => waiting o b && sendPlace o b < sendPlace o a) ||
  s.ops.any (fun p => p.id ≠ o.id && p.phase = 0 && opCore p = opCore o && (isThreadUnit p.unit = isThreadUnit o.unit) && trafficOf p.instr ≠ .none &&
    (releaseAt p.instr).isNone && !heldByAcquire s p && p.accs.all (fun b => b.pa.isSome) &&
    p.accs.any (fun b => waiting p b && !heldBySame s p b && !wcOpen s p b &&
      (b.xlatAt < a.xlatAt || (b.xlatAt = a.xlatAt && p.id < o.id))))
where
  isThreadUnit : UnitId → Option Nat
    | .thread q => some q
    | _ => none

/-- An earlier access of the issuer to a common byte, outside the accesses that go in the same transaction, has not been performed (R154). -/
def groupHeld (s : State) (g : List (Op × LaneAcc)) : Bool :=
  g.any (fun t => (earlier s t.1).any (fun p => p.accs.any (fun b => !b.done && sameBytes t.1.instr p.instr t.2 b &&
    !g.any (fun u => u.1.id = p.id && u.2.lane = b.lane && u.2.va = b.va))))

/-- The request of a line that its slice would grant next, with what it costs. -/
def nextRequest (o : Op) (line : Nat) : Option LaneAcc :=
  let us := unsent o line
  us.find? (fun a => us.all (fun b => sendPlace o a ≤ sendPlace o b))

/-- A grant: the line's, or one address's of an atomic that has others to send on the line. -/
def noteGrant (o : Op) (line : Nat) (a : LaneAcc) : Op :=
  { o with granted := o.granted ++ [if accessCode o.instr = 2 && (unsent o line).any (fun b => b.pa ≠ a.pa) then addrKey (a.pa.getD 0) else line] }

/-- A request that has arrived takes its place among those that wait, once. -/
def joinWaits (s : State) (w : SliceWait) : State :=
  let l := s.mem.waits.filter (stillWaits s)
  { s with mem := { s.mem with waits := if l.any (fun x => x.op = w.op && x.line = w.line) then l else l ++ [w] } }

/-- BANDWIDTH_GRANT (R100): the line's next request crosses the die link if it must (R93), and is granted bandwidth or takes its place among those that wait at the slice. -/
def execBandwidthGrant (op : Nat) (line : Nat) (s : State) : Host.Outcome State Fault Refusal :=
  match findOp s op with
  | none => .next s
  | some o =>
    if (unsent o line).isEmpty || o.phase ≠ 0 || trafficOf o.instr = .none || o.accs.any (fun a => a.pa.isNone) then .next s
    else
      let r := readyToSend s o
      match r.2, findOp r.1 op with
      | true, some o => match nextRequest o line with
        | none => .next r.1
        | some a =>
          let s := atLink r.1 (unitDie o.unit) (accSlice r.1 a / 96)
          if groupHeld s (lineGroup s o line) || wcOpen s o a || sentBefore s o a then .next s
          else if isPref o.instr && prefPresent s o a && !prefFar o then .next (finishAccs s o.id ((lineAccs o line).map (fun a => { a with done := true })))
          else
            let w : SliceWait := { slice := accSlice s a, sid := o.sid, cost := opCost o ((lineGroup s o line).map (fun t => t.2)), op := op, line := line, since := s.turnNo, dev := none }
            match grantNow s w.slice w.sid w.cost (fun x => x.op = op && x.line = line) with
            | none => .next (joinWaits s w)
            | some n =>
              let o := noteGrant o line a
              let s := charge (setOp s o) w.slice w.sid w.cost n
              .next (if o.granted.contains line then afterGrant (leaveWaits s op line) o line else leaveWaits s op line)
      | _, _ => .next r.1
where
  prefFar (o : Op) : Bool := match o.instr with
    | .pref f => modF f 6 6 = 1
    | _ => false
  leaveWaits (s : State) (op line : Nat) : State :=
    { s with mem := { s.mem with waits := s.mem.waits.filter (fun x => !(x.op = op && x.line = line)) } }

/-- LINE_FILL (R90): a granted read that missed is served from memory, placed by R96-R98, R104. -/
def execLineFill (op : Nat) (line : Nat) (s : State) : Host.Outcome State Fault Refusal :=
  match findOp s op with
  | none => .next s
  | some o => match lineAccs o line with
    | [] => .next s
    | a :: _ =>
      if trafficOf o.instr = .read && o.granted.contains line && !sliceHolds s (opReq s o a) false then .next (serveRead s o line)
      else if trafficOf o.instr = .wait && o.granted.contains line && !sliceHolds s (opReq s o a) false then .next (serveWait s o a)
      else .next s

/-- Whether a store's transaction leaves part of a protected line unwritten (R438). -/
def partialSealed (s : State) (o : Op) (line : Nat) : Bool :=
  match lineGroup s o line with
  | [] => false
  | g => (leafEntry ((g.headD (o, rawAcc 0 0)).2.leaf)).isSome && (groupImage g).1 ≠ 2 ^ 128 - 1

/-- An atomic's address of the same slice whose lowest lane is lower has not been performed (R171). -/
def addrBefore (s : State) (o : Op) (a : LaneAcc) : Bool :=
  o.accs.any (fun b => !b.done && b.pa ≠ a.pa && accSlice s b = accSlice s a && sendPlace o b < sendPlace o a)

/-- WRITE_PERFORM (R156): a store's line (`key` its number), or an open-world atomic's address. -/
def execWritePerform (op : Nat) (key : Nat) (s : State) : Host.Outcome State Fault Refusal :=
  match findOp s op with
  | none => .next s
  | some o =>
    match trafficOf o.instr with
    | .write => match lineAccs o key with
      | [] => .next s
      | a :: _ =>
        if o.granted.contains key && !sliceHolds s (opReq s o a) true && !partialSealed s o key &&
           (lineGroup s o key).all (fun t => t.2.pa.isSome)
        then .next (serveStore s o key) else .next s
    | .atomic => match addrAccs o key with
      | [] => .next s
      | a :: _ =>
        if o.granted.contains (key / 128) && !sliceHolds s (opReq s o a) true && (leafEntry a.leaf).isNone && !addrBefore s o a
        then .next (serveAtom s o key) else .next s
    | _ => .next s

/-- LINE_LOCK_ACQUIRE (R173, R438): the lock is taken, the read-modify-write made and the lock released in one step. -/
def execLineLockAcquire (op : Nat) (line : Nat) (s : State) : Host.Outcome State Fault Refusal :=
  match findOp s op with
  | none => .next s
  | some o =>
    match lineAccs o line with
    | [] => .next s
    | a :: _ =>
      if !(o.granted.contains line) || sliceHolds s (opReq s o a) true then .next s
      else match trafficOf o.instr with
        | .write => if partialSealed s o line && (lineGroup s o line).all (fun t => t.2.pa.isSome) then .next (serveStore s o line) else .next s
        | .atomic => if (leafEntry a.leaf).isSome && !addrBefore s o a then .next (serveAtom s o (a.pa.getD 0)) else .next s
        | _ => .next s

/-! ### Stash operations performed (R159, R161, R171) -/

/-- Touch the entries a list of accesses names; the accesses of an entry that cannot be filled fault (R159). A failed walk leaves one record for them all, a refusal at a slice
one for each request refused (spec/04 R88). -/
def touchAll (s : State) (o : Op) (core : Nat) : State :=
  (dedup (o.accs.map (fun a => a.va.toNat / 256))).foldl (fun s e =>
    let t := touchEntry s (opX s o) core e
    let ts := o.accs.filter (fun a => a.va.toNat / 256 = e)
    let base := match stashTag s core e with
      | some g => g.va
      | none => 0
    let va := fun (a : LaneAcc) => base + BitVec.ofNat 64 (a.va.toNat % 256)
    match t.2, ts with
    | f :: _, a :: _ =>
      let s := t.2.foldl (fun s f => if f.cause = 5 || f.cause = 6
        then pushFault s (unitDie o.unit) o.ctx o.world (va a) f 0 0 (originOf o.unit a.lane) (if f.atSlice then 1 else ts.length) 0 else s) t.1
      ts.foldl (fun s a => trapOpLane s o.id a.lane (va a) (faultInfo f 0)) s
    | _, _ => t.1) s

/-- One lane's stash access, in lane order. -/
def stashLane (s : State) (o : Op) (core : Nat) (a : LaneAcc) : State × LaneAcc :=
  let off := a.va.toNat
  let n := accessBytes o.instr
  let m := stashRead s core off n
  let got := { a with done := true, res := BitVec.ofNat 128 (loadVal o.instr false m) }
  match o.instr with
  | .sts _ => (stashStore s core off n ((nth o.b a.lane).toNat % 2 ^ (8 * n)), got)
  | .atoms _ => (stashStore s core off n (atomStep o a.lane m).1, got)
  | _ => (s, got)

/-- The VMAX of the mapped entries read (R260). -/
def entriesVmax (s : State) (core : Nat) (accs : List LaneAcc) : Nat :=
  maxL (accs.map (fun a => match stashTag s core (a.va.toNat / 256) with
    | some t => t.vmax
    | none => 0))

/-- LDS, STS or ATOMS performed in the core: lanes ascending is serial order (R151, R171). -/
def performStash (s : State) (o : Op) : State :=
  match o.unit with
  | .warp core _ =>
    let s := touchAll s o core
    match findOp s o.id with
    | none => s
    | some o =>
      let r := o.accs.foldl (fun (p : State × List LaneAcc) a => let q := stashLane p.1 o core a
        (q.1, p.2 ++ [q.2])) (s, [])
      let s := match o.instr with
        | .sts _ => r.1
        | _ => raiseOpWct r.1 o (entriesVmax r.1 core o.accs)
      finishAccs s o.id r.2
  | _ => s

end Sys2Proof.Machine
end

