-- ==== Sys2Proof/Machine/Sync.lean ====
section
/-!
DEFINITION. Token queues, team barriers and condition monitors (spec/14): the queue object and its operations, waiters and their service, references and
deposits, BAR, and the answers of WAITC (spec/08 R176, spec/05 R106).
-/
namespace Sys2Proof.Machine

/-! ### The object (R280) -/

/-- A token queue's fields. -/
structure QObj where
  bytes : Nat
  flags : Nat
  status : Nat
  cap : Nat
  refs : Nat
  waiters : Nat
  permits : Nat
  tokens : Nat
  pix : Nat
  fix : Nat
  cix : Nat
  rix : Nat
  owner : Nat
  dropcnt : Nat
  droptok : Nat
  dropbytes : Nat
  mbz : Bool
deriving DecidableEq, Repr

def QObj.zero : QObj :=
  { bytes := 0, flags := 0, status := 0, cap := 0, refs := 0, waiters := 0, permits := 0, tokens := 0, pix := 0, fix := 0, cix := 0,
    rix := 0, owner := 0, dropcnt := 0, droptok := 0, dropbytes := 0, mbz := false }

/-- The object in 64 bytes. -/
def parseQ (b : BitVec 512) : QObj :=
  { bytes := fld b 63 0, flags := fld b 124 120, status := fld b 119 116, cap := fld b 104 96, refs := fld b 95 80, waiters := fld b 79 64,
    permits := fld b 159 128, tokens := fld b 191 160, rix := fld b 199 192, cix := fld b 207 200, fix := fld b 215 208, pix := fld b 223 216,
    owner := fld b 255 224, dropcnt := fld b 287 256, droptok := fld b 319 288, dropbytes := fld b 383 320,
    mbz := fld b 127 125 ≠ 0 || fld b 115 105 ≠ 0 || fld b 511 384 ≠ 0 }

def packQ (q : QObj) : BitVec 512 :=
  BitVec.ofNat 512 (q.bytes % 2 ^ 64 + 2 ^ 64 * (q.waiters % 2 ^ 16) + 2 ^ 80 * (q.refs % 2 ^ 16) + 2 ^ 96 * (q.cap % 2 ^ 9) +
    2 ^ 116 * (q.status % 16) + 2 ^ 120 * (q.flags % 32) + 2 ^ 128 * (q.permits % 2 ^ 32) + 2 ^ 160 * (q.tokens % 2 ^ 32) +
    2 ^ 192 * (q.rix % 256) + 2 ^ 200 * (q.cix % 256) + 2 ^ 208 * (q.fix % 256) + 2 ^ 216 * (q.pix % 256) + 2 ^ 224 * (q.owner % 2 ^ 32) +
    2 ^ 256 * (q.dropcnt % 2 ^ 32) + 2 ^ 288 * (q.droptok % 2 ^ 32) + 2 ^ 320 * (q.dropbytes % 2 ^ 64))

/-- Malformed (R280). -/
def QObj.bad (q : QObj) : Bool :=
  q.mbz || 3 ≤ q.status ||
  (q.status ≠ 0 && (q.cap = 0 || 256 < q.cap || q.cap < q.permits + q.tokens || q.cap ≤ q.pix || q.cap ≤ q.fix || q.cap ≤ q.cix ||
    q.cap ≤ q.rix))

/-! ### Operations (R283-R286) -/

inductive QKind where
  | init | kill | acq | put | get | ret
deriving DecidableEq, Repr

/-- A queue operation: its operand B and C, `.try` or `.ord`, the issuing team. -/
structure QReq where
  kind : QKind
  b : Nat
  c : Nat
  flag : Bool
  handle : Nat

def QReq.n (r : QReq) : Nat := r.b % 512
def QReq.pos (r : QReq) : Nat := r.b / 2 ^ 24 % 256

/-- The operation a word asks for. -/
def qreqOf (i : Instr) (b c : W128) (handle : Nat) : Option QReq :=
  let mk := fun (k : QKind) (f : Full) => some ({ kind := k, b := b.toNat % 2 ^ 64, c := c.toNat % 2 ^ 32, flag := modB f 1, handle := handle } : QReq)
  match i with
  | .tqinit f => mk .init f
  | .tqkill f => mk .kill f
  | .tqacq f => mk .acq f
  | .tqput f => mk .put f
  | .tqget f => mk .get f
  | .tqret f => mk .ret f
  | _ => none

/-- Bits outside the fields of R283. -/
def QReq.strayBits (r : QReq) : Bool :=
  match r.kind with
  | .put => r.b / 2 ^ 32 ≠ 0 || r.b / 2 ^ 21 % 8 ≠ 0 || r.b / 2 ^ 9 % 2 ^ 7 ≠ 0
  | .ret => r.b / 2 ^ 32 ≠ 0 || r.b / 2 ^ 9 % 2 ^ 15 ≠ 0
  | _ => r.b / 512 ≠ 0

/-- The BADARG checks that do not involve CAP. -/
def QReq.badArg (r : QReq) : Bool :=
  match r.kind with
  | .init => r.n = 0 || 256 < r.n || r.b / 512 % 2 ^ 23 ≠ 0
  | .kill => false
  | .acq => r.n = 0 || r.strayBits
  | .get => r.n = 0 || r.strayBits
  | _ => r.n = 0 || r.strayBits || (!r.flag && r.pos ≠ 0)

/-- What an operation comes to: a result word and, if it changes the object, its new fields; or a wait. -/
inductive QRes where
  | word (v : Nat) (q : Option QObj)
  | wait

def qcode (n : Nat) : QRes := .word (2 ^ 28 * n) none

/-- Checks 7 to 9 and the effects of R286 on a LIVE queue. `older` says that an older waiter of its kind cannot proceed (R287). -/
def qlive (q : QObj) (r : QReq) (older : Bool) : QRes :=
  let ordered := (r.kind = .put || r.kind = .ret) && r.flag
  if q.cap < r.n || (ordered && q.cap ≤ r.pos) then qcode 4
  else match r.kind with
    | .acq =>
      if q.permits < r.n || older then (if r.flag then qcode 1 else .wait)
      else .word q.pix (some { q with permits := q.permits - r.n, pix := (q.pix + r.n) % q.cap })
    | .get =>
      if q.tokens < r.n || older then (if r.flag then qcode 1 else .wait)
      else .word (2 ^ 16 * q.flags + q.cix) (some { q with tokens := q.tokens - r.n, cix := (q.cix + r.n) % q.cap })
    | .put =>
      if r.flag && r.pos ≠ q.fix then .wait
      else if q.cap < q.permits + q.tokens + r.n then qcode 6
      else .word 0 (some { q with
        tokens := q.tokens + r.n, fix := (q.fix + r.n) % q.cap, bytes := (q.bytes + r.c) % 2 ^ 64
        flags := q.flags ||| r.b / 2 ^ 16 % 32 })
    | .ret =>
      if r.flag && r.pos ≠ q.rix then .wait
      else if q.cap < q.permits + q.tokens + r.n then qcode 6
      else .word 0 (some { q with permits := q.permits + r.n, rix := (q.rix + r.n) % q.cap })
    | _ => qcode 0

/-- One operation at its slice, in the order of R284. `full`: the team's list has no room for this address. -/
def qapply (q : QObj) (r : QReq) (full older : Bool) : QRes :=
  if q.bad then qcode 7
  else if r.badArg then qcode 4
  else match r.kind with
    | .init =>
      if full then qcode 8
      else if q.waiters ≠ 0 || q.refs ≠ 0 then qcode 3
      else .word 0 (some { QObj.zero with status := 1, cap := r.n, permits := r.n, owner := r.handle })
    | .kill =>
      if q.status = 0 then qcode 5
      else if q.status = 2 then qcode 2
      else .word 0 (some { q with status := 2, waiters := 0 })
    | _ =>
      if q.status = 0 then qcode 5
      else if q.status = 2 then qcode 2
      else qlive q r older

/-! ### The object in memory -/

/-- Read the 64 bytes of an object. -/
def qread (s : State) (r : LReq) (pa : Nat) : State × (AFault ⊕ QObj × Nat) :=
  let p := readLine s r (BitVec.ofNat 4 (3 * 2 ^ (pa % 128 / 32))) false
  match p.2 with
  | .bad f => (p.1, .inl f)
  | .ok data _ _ _ vm => (p.1, .inr (parseQ (BitVec.ofNat 512 (fieldOfLine data (pa % 128) 64)), vm))

/-- Write an object that has just been read: one write transaction (R285), which marks no queue waiter (R279). -/
def qwrite (s : State) (r : LReq) (pa : Nat) (q : QObj) : State × Nat :=
  let ws := s.mem.waiters
  let w := writeLine s (LReq.again s r) ((2 ^ 64 - 1) * 2 ^ (pa % 128)) (BitVec.ofNat 1024 ((packQ q).toNat * 2 ^ (8 * (pa % 128)))) (fun m => m) true
  let t := { w.1 with mem := { w.1.mem with waiters := w.1.mem.waiters.map (fun x =>
    if x.queue then (ws.find? (fun y => y.op = x.op)).getD x else x) } }
  match w.2 with
  | .ok wct => (t, wct)
  | .bad _ => (t, 0)

/-! ### Waiters (R287) -/

def qwaiters (s : State) (pa : Nat) : List Waiter := s.mem.waiters.filter (fun w => w.queue && w.pa = pa)

/-- The request of a waiting operation. -/
def waiterReq (s : State) (w : Waiter) : Option (Op × QReq) :=
  match findOp s w.op with
  | none => none
  | some o => (qreqOf o.instr (nth o.b (lowLane o.lanes)) (nth o.c (lowLane o.lanes)) o.handle).map (fun r => (o, r))

/-- An older waiter of a kind stands. -/
def olderOf (s : State) (pa : Nat) (k : QKind) : Bool :=
  (k = .acq || k = .get) && (qwaiters s pa).any (fun w => match waiterReq s w with
    | some p => p.2.kind = k
    | none => false)

/-- A swapped-out team whose wait is answered is ready again (R296), and its slice with it, once its image stands in the pool (spec/19 R330). -/
def markReady (s : State) (handle : Nat) : State :=
  match findTeam s handle with
  | some t =>
    if t.saved then
      let s := setTeam s { t with readyAgain := true }
      match findSlice s t.slice with
      | some x => if x.st = .resident && t.pool.isSome then setSlice s { x with st := .ready } else s
      | none => s
    else s
  | none => s

/-- Answer a waiter: its entry is freed, its operation performed with a value, its acquire's time noted. -/
def answerWaiter (s : State) (id v wct : Nat) : State :=
  let s := { s with mem := { s.mem with waiters := s.mem.waiters.filter (fun w => w.op ≠ id) } }
  match findOp s id with
  | none => s
  | some o =>
    let o := { o with phase := 1, res := everyLane v, wct := Nat.max o.wct wct, accs := o.accs.map (fun a => { a with done := true }) }
    markReady (raiseOpWct (setOp s o) o wct) o.handle

/-- The team's queue list without an address. -/
def unlistQueue (s : State) (handle pa : Nat) : State :=
  match findTeam s handle with
  | none => s
  | some t => setTeam s { t with queues := t.queues.filter (fun va => match walk s (ctxWord s t.ctx 0).toNat va with
      | .leaf e _ level => leafPa e level va ≠ pa
      | .bad _ => true) }

/-- TQKILL of a live queue: every waiter is answered KILLED and the address leaves its owner's list (R288). -/
def qkilled (s : State) (q : QObj) (pa wct : Nat) : State :=
  (qwaiters s pa).foldl (fun s w => answerWaiter s w.op (2 * 2 ^ 28) wct) (unlistQueue s q.owner pa)

/-- The first waiter of a list that may proceed now: ordered puts and returns at their place, then the oldest get, then the oldest acquire. -/
def pickWaiter (s : State) (q : QObj) (pa : Nat) : Option (Waiter × Op × QReq) :=
  let ws := (qwaiters s pa).filterMap (fun w => (waiterReq s w).map (fun p => (w, p.1, p.2)))
  let able := fun (p : Waiter × Op × QReq) => match qapply q p.2.2 false false with
    | .wait => false
    | .word _ _ => true
  match ws.find? (fun p => (p.2.2.kind = .put || p.2.2.kind = .ret) && able p) with
  | some p => some p
  | none =>
    match (ws.find? (fun p => p.2.2.kind = .get)).filter able with
    | some p => some p
    | none => (ws.find? (fun p => p.2.2.kind = .acq)).filter able

/-- One waiter served: it reads and changes the object now (R285). -/
def serveOne (s : State) (r : LReq) (pa : Nat) (q : QObj) (vm : Nat) (p : Waiter × Op × QReq) : State :=
  match qapply q p.2.2 false false with
  | .wait => s
  | .word v q' =>
    let q1 := q'.getD q
    let w := qwrite s r pa { q1 with waiters := q1.waiters - 1 }
    answerWaiter w.1 p.2.1.id v (Nat.max vm w.2)

/-- Rounds of service until no waiter can proceed. -/
def serveRounds : Nat → State → LReq → Nat → State
  | 0, s, _, _ => s
  | n + 1, s, r, pa =>
    let x := qread s (LReq.again s r) pa
    match x.2 with
    | .inl _ => x.1
    | .inr (q, vm) => match pickWaiter x.1 q pa with
      | none => x.1
      | some p => serveRounds n (serveOne x.1 r pa q vm p) r pa

/-- After each change to the object the slice serves its waiters, before anything else reaches the object (R287). -/
def serveQueue (s : State) (r : LReq) (pa : Nat) : State := serveRounds (qwaiters s pa).length s r pa

/-- R279: a waiter whose object other writes have touched is served or answered in some unspecified way (log 13). -/
def serveTouched (s : State) (pa : Nat) : State :=
  ((qwaiters s pa).filter (fun w => w.hit.isSome)).foldl (fun s w =>
    let n := s.freeNo
    let s := bumpFree s
    if Config.pick n % 2 = 0 then
      { s with mem := { s.mem with waiters := s.mem.waiters.map (fun y => if y.op = w.op then { y with hit := none } else y) } }
    else answerWaiter s w.op (Config.freeAnswer n).toNat 0) s

/-- QUEUE_WAITER_SERVE (R287): the slice serves the waiters of the object at a physical address. Every change has served those it lets proceed, so this turn finds such a
waiter only where a plain store has touched the object. -/
def execQueueWaiterServe (queue : Nat) (s : State) : Host.Outcome State Fault Refusal :=
  match qwaiters s queue with
  | [] => .next s
  | w :: _ => match findOp s w.op with
    | none => .next s
    | some o => match o.accs with
      | [] => .next s
      | a :: _ =>
        let r := opReq s o a
        let s := serveTouched s queue
        .next (serveQueue s r queue)

/-! ### The words -/

/-- A queue word issues: it will write its object, whose sectors its core's L1 gives up as it does for a store's (spec/08 R153; spec/13 R273). -/
def queueIssue (s : State) (x : Issued) (i : Instr) : State := markIssued s (issueOne s x i (oneAddr x))

/-- TQINIT (R286). -/
def execTqinit (f : Full) (s : State) : Host.Outcome State Fault Refusal :=
  issueFull 0x78 f s (fun s x => queueIssue s x (.tqinit f))
/-- TQKILL (R288). -/
def execTqkill (f : Full) (s : State) : Host.Outcome State Fault Refusal :=
  issueFull 0x79 f s (fun s x => queueIssue s x (.tqkill f))
/-- TQACQ (R286). -/
def execTqacq (f : Full) (s : State) : Host.Outcome State Fault Refusal :=
  issueFull 0x7A f s (fun s x => queueIssue s x (.tqacq f))
/-- TQPUT (R286). -/
def execTqput (f : Full) (s : State) : Host.Outcome State Fault Refusal :=
  issueFull 0x7B f s (fun s x => queueIssue s x (.tqput f))
/-- TQGET (R286). -/
def execTqget (f : Full) (s : State) : Host.Outcome State Fault Refusal :=
  issueFull 0x7C f s (fun s x => queueIssue s x (.tqget f))
/-- TQRET (R286). -/
def execTqret (f : Full) (s : State) : Host.Outcome State Fault Refusal :=
  issueFull 0x7D f s (fun s x => queueIssue s x (.tqret f))

/-- The team's list takes an initialised queue (R281). -/
def listQueue (s : State) (handle : Nat) (va : W64) : State :=
  match findTeam s handle with
  | some t => if t.queues.contains va then s else setTeam s { t with queues := t.queues ++ [va] }
  | none => s

/-- FULL of R284. -/
def listFull (s : State) (handle : Nat) (va : W64) : Bool :=
  match findTeam s handle with
  | some t => 32 ≤ t.queues.length && !t.queues.contains va
  | none => false

/-- A queue operation whose release wait is over is performed at its slice; it costs what an atomic costs (spec/05 R100). -/
def performQueueAt (s : State) (o : Op) (a : LaneAcc) (req : QReq) : State :=
  let pa := a.pa.getD 0
  let r := opReq s o a
  let x := qread (payFor s (sliceOf r.die (128 * r.la)) r.sid 2) r pa
  match x.2 with
  | .inl f => faultAll x.1 r.die { f with pte := if f.cause = 9 then a.leaf else f.pte } 1 [(o.id, a)]
  | .inr (q, vm) => match qapply q req (listFull x.1 o.handle a.va) (olderOf x.1 pa req.kind) with
    | .word v none => answerWaiter x.1 o.id v vm
    | .word v (some q') =>
      let w := qwrite x.1 r pa q'
      let s := match req.kind with
        | .init => listQueue w.1 o.handle a.va
        | .kill => qkilled w.1 q pa w.2
        | _ => w.1
      serveQueue (answerWaiter s o.id v (Nat.max vm w.2)) r pa
    | .wait =>
      let w := qwrite x.1 r pa { q with waiters := sat 0xFFFF (q.waiters + 1) }
      addWaiter w.1 o pa true

/-- Perform a queue operation, once its accesses are translated and nothing holds it. -/
def performQueue (s : State) (o : Op) : State :=
  match qreqOf o.instr (nth o.b (lowLane o.lanes)) (nth o.c (lowLane o.lanes)) o.handle with
  | none => s
  | some req =>
    if o.accs.any (fun a => a.pa.isNone || heldBySame s o a) || s.mem.waiters.any (fun w => w.op = o.id) then s
    else
      let r := readyToSend s o
      match r.2, findOp r.1 o.id with
      | true, some o => match o.accs with
        | [] => r.1
        | a :: _ => if sliceHolds r.1 (opReq r.1 o a) true then askGrant r.1 (opReq r.1 o a) true else performQueueAt r.1 o a req
      | _, _ => r.1

/-! ### References and deposits (R282, R289) -/

/-- A device's access to a queue object in a context: its request, or a fault; reason 11 for a protected page. -/
def qreach (s : State) (x : XCtx) (va : W64) : State × (AFault ⊕ LReq × Nat) :=
  let t := translate s x va true
  match t.2 with
  | .bad f => (t.1, .inl f)
  | .ok pa leaf =>
    if fld leaf 55 52 ≠ 0 then
      (t.1, .inl { cause := 6, reason := 11, level := (leafAt t.1 x va).2, pte := leaf, eaddr := (leafAt t.1 x va).1 })
    else
      let r := { lineReq t.1 x pa leaf 0 with phys := x.phys, paid := true }
      (payFor t.1 (sliceOf r.die (128 * r.la)) r.sid 2, .inr (r, pa))

/-- What taking a reference comes to. -/
inductive RefRes where
  | taken | dropped | busy
  | bad (f : AFault)

/-- Take a reference to a queue. -/
def takeRef (s : State) (x : XCtx) (va : W64) : State × RefRes :=
  let t := qreach s x va
  match t.2 with
  | .inl f => (t.1, .bad f)
  | .inr (r, pa) =>
    let q := qread t.1 r pa
    match q.2 with
    | .inl f => (q.1, .bad f)
    | .inr (o, _) =>
      if o.bad then (q.1, .dropped)
      else if o.refs = 0xFFFF then (q.1, .busy)
      else ((qwrite q.1 r pa { o with refs := o.refs + 1 }).1, .taken)

/-- The result of a deposit: 0 made, 4 KILLED, 5 DROPPED (R289). -/
def depositTo (q : QObj) (tok bytes flags : Nat) : QObj × Nat :=
  let drop := { q with
    dropcnt := sat (2 ^ 32 - 1) (q.dropcnt + 1), droptok := sat (2 ^ 32 - 1) (q.droptok + tok), dropbytes := (q.dropbytes + bytes) % 2 ^ 64 }
  if q.status ≠ 1 then (drop, 4)
  else if tok ≠ 0 && q.cap < q.permits + q.tokens + tok then (drop, 5)
  else ({ q with tokens := q.tokens + tok, fix := (q.fix + tok) % q.cap, bytes := (q.bytes + bytes) % 2 ^ 64, flags := q.flags ||| flags }, 0)

/-- A completion: the deposit, if one is made, and the reference falls, in one step. `dep` is tokens, bytes and flags. The last part is the WCT. -/
def finishRef (s : State) (x : XCtx) (va : W64) (dep : Option (Nat × Nat × Nat)) : State × Nat × Nat :=
  let t := qreach s x va
  match t.2 with
  | .inl _ => (t.1, 4, 0)
  | .inr (r, pa) =>
    let q := qread t.1 r pa
    match q.2 with
    | .inl _ => (q.1, 4, 0)
    | .inr (o, _) =>
      if o.bad then (q.1, 4, 0)
      else
        let d := match dep with
          | some (k, b, f) => depositTo o k b f
          | none => (o, 0)
        let w := qwrite q.1 r pa { d.1 with refs := d.1.refs - 1 }
        (serveQueue w.1 r pa, d.2, w.2)

/-! ### Ends of teams (R287, R290) -/

/-- A wait that ends with its team leaves its slice: its entry is freed, WAITERS falls by one, and its operation is over. A queue's address and request are given back. -/
def leaveQueue (s : State) (w : Waiter) (o : Op) : State × Option (LReq × Nat) :=
  let s1 := { dropOp s o.id with mem := { s.mem with waiters := s.mem.waiters.filter (fun y => y.op ≠ w.op) } }
  match w.queue, o.accs with
  | true, a :: _ =>
    let r := opReq s1 o a
    let q := qread s1 r w.pa
    match q.2 with
    | .inr (b, _) => ((qwrite q.1 r w.pa { b with waiters := b.waiters - 1 }).1, some (r, w.pa))
    | .inl _ => (q.1, none)
  | _, _ => (s1, none)

/-- The waits of a team's own units. -/
def teamWaits (s : State) (handle : Nat) : List (Waiter × Op) := s.mem.waiters.filterMap (fun w => match findOp s w.op with
  | some o => if o.handle = handle && !isScalarThread o.unit then some (w, o) else none
  | none => none)
where
  isScalarThread : UnitId → Bool
    | .thread _ => true
    | _ => false

/-- A team that exits or is killed: all its waits leave their queues and monitors, and then those queues serve the waiters that are left (R287). -/
def cancelWaiters (s : State) (handle : Nat) : State :=
  let r := (teamWaits s handle).foldl (fun (p : State × List (LReq × Nat)) w =>
    let a := leaveQueue p.1 w.1 w.2
    (a.1, p.2 ++ a.2.toList)) (s, [])
  r.2.foldl (fun s q => serveQueue s q.1 q.2) r.1

/-- TQKILL by the device of each queue a team still owns. -/
def killQueues (s : State) (t : Team) (core : Nat) : State :=
  t.queues.foldl (fun s va =>
    let x := qreach s (teamX s core t) va
    match x.2 with
    | .inl _ => x.1
    | .inr (r, pa) =>
      let q := qread x.1 r pa
      match q.2 with
      | .inl _ => q.1
      | .inr (o, _) =>
        if o.bad || o.status ≠ 1 || o.owner ≠ t.handle then q.1
        else
          let w := qwrite q.1 r pa { o with status := 2, waiters := 0 }
          qkilled w.1 o pa w.2) s

/-! ### Barriers (R291-R293) -/

/-- The team's warps that have not exited. -/
def teamWarps (s : State) (handle : Nat) : List (Nat × Nat) :=
  s.cores.flatMap (fun c => (c.2.warps.filter (fun w => w.2.live && w.2.handle = handle && w.2.sheaf.isNone)).map (fun w => (c.1, w.1)))

/-- All warps of a team's shape. -/
def shapeWarps (t : Team) : Nat := sumL (t.shape.roles.map (fun r => r.warps))

/-- BAR (R291): E and the repeat are checked at issue; the arrival is counted after its release (R292). -/
def execBar (f : Full) (s : State) : Host.Outcome State Fault Refusal :=
  issueFull 0x7E f s (fun s x =>
    match x.u with
    | .warp c k =>
      let w := getWarp s c k
      let d := divergedMask w
      let e := (nth x.a (lowLane x.act)).toNat % 2 ^ 32
      let b := modF f 8 5
      match w.sheaf.isSome, findTeam s w.handle with
      | false, some t =>
        let br := look Barrier.reset t.barriers b
        if d ≠ 0 then trapWord s x (illstate d)
        else if shapeWarps t < e || (match br.expect with
          | some e' => e' ≠ e
          | none => false) || br.arrived.any (fun p => p.1 = w.num) then trapWord s x (illstate 0)
        else
          let id := s.nextOp
          let s := newOp s x (.bar f) x.act [] 0
          setTeam s { t with barriers := putC Barrier.reset t.barriers b { br with expect := some e, arrived := br.arrived ++ [(w.num, id)] } }
      | _, _ => trapWord s x (illstate d)
    | _ => s)

/-- The warps of a team that have completed a generation count it in BCNT, which saturates (spec/19 R343). -/
def countGen (s : State) (handle : Nat) (nums : List Nat) : State :=
  (teamWarps s handle).foldl (fun s p =>
    let w := getWarp s p.1 p.2
    if nums.contains w.num then setWarp s p.1 p.2 { w with bcnt := sat 0xFFFF (w.bcnt + 1) } else s) s

/-- Complete a barrier's generation when its counted arrivals number E (R292): those warps count it, and their acquires are performed. -/
def barrierCheck (s : State) (handle b : Nat) : State :=
  match findTeam s handle with
  | none => s
  | some t =>
    let br := look Barrier.reset t.barriers b
    let counted := br.arrived.filter (fun p => match findOp s p.2 with
      | some o => o.arg = 1
      | none => false)
    let need := match br.expect with
      | some 0 => (teamWarps s handle).length
      | some e => e
      | none => 0
    if counted.isEmpty || counted.length < need then s
    else
      let rest := br.arrived.filter (fun p => !counted.contains p)
      let br := { br with expect := if rest.isEmpty then none else br.expect, arrived := rest, gen := br.gen + 1 }
      let s := setTeam s { t with barriers := putC Barrier.reset t.barriers b br }
      counted.foldl (fun s p => performed s p.2 []) (countGen s handle (counted.map (fun p => p.1)))

/-- Every barrier of a team looks again after a warp's exit. -/
def barriersCheck (s : State) (handle : Nat) : State := (List.range 16).foldl (fun s b => barrierCheck s handle b) s

/-- An arrival whose release wait is over is counted. -/
def performBar (s : State) (o : Op) : State :=
  if o.arg = 1 then s
  else
    let r := readyToSend s o
    match r.2, findOp r.1 o.id with
    | true, some o => match o.instr with
      | .bar f => barrierCheck (setOp r.1 { o with arg := 1 }) o.handle (modF f 8 5)
      | _ => r.1
    | _, _ => r.1

/-! ### Condition monitors (spec/08 R176, spec/05 R106) -/

/-- MONITOR_ANSWER (R176): the first satisfying value is the answer, and the entry is freed. -/
def execMonitorAnswer (op : Nat) (s : State) : Host.Outcome State Fault Refusal :=
  match s.mem.waiters.find? (fun w => w.op = op && !w.queue), findOp s op with
  | some w, some o => match w.hit with
    | none => .next s
    | some m => .next (answerWaiter (forgetWord s o w.pa) op (waitValue o m.toNat) w.vm)
  | _, _ => .next s

/-- MONITOR_REPOLL (R106): a wait held at its core re-reads its word every 256 slice clocks, a read like another, and takes an entry when one is free. It crosses
the die link if it must (R93). A value found before stays. FULLCNT counts the wait's first request alone (DESIGN CHOICE, log 29). -/
def execMonitorRepoll (op : Nat) (s : State) : Host.Outcome State Fault Refusal :=
  match s.mem.waiters.find? (fun w => w.op = op && !w.entry), findOp s op with
  | some w, some o =>
    if s.sclk < w.since + 256 then .next s
    else
      let die := waitDie s o w.pa
      let room := entriesAt s w.slice < 512
      let m := waiterWord s o w.pa
      let hit := w.queue || w.hit.isSome || !waitHolds o.instr m (nth o.b (lowLane o.lanes)).toNat
      let s := payFor (atLink s (unitDie o.unit) die) w.slice o.sid 2
      let s := { s with mem := { s.mem with waiters := s.mem.waiters.map (fun y =>
        if y.op = op then { y with
          entry := room, since := s.sclk, hit := if hit then y.hit else some (BitVec.ofNat 64 m), vm := if hit then y.vm else vmaxOf s die (w.pa / 128) } else y) } }
      .next (if room then monUpdate s die false else s)
  | _, _ => .next s

end Sys2Proof.Machine
end

