-- ==== Sys2Proof/Machine/Tree.lean ====
section
/-!
DEFINITION. The containment tree (spec/06): TREEBASE, the seven tree words, structural changes, roll-up and settle.
-/
namespace Sys2Proof.Machine

/-! ### The table -/

def treeOn (s : State) : Bool := bit s.regs.treebase 0

/-- TREEBASE_WRITE (R113). -/
def execTreebaseWrite (src : WSrc) (s : State) : Host.Outcome State Fault Refusal :=
  rowEvent s src 0x21 0x21 (fun s _ v =>
    let base := 2 ^ 22 * fld v 51 22
    let inside := (rangeOf s base).isDram && rangeOf s base = rangeOf s (base + 2 ^ 22 - 1)
    if bit s.regs.treebase 0 || (bit v 0 && !inside) then { s with regs := { s.regs with treebase := s.regs.treebase ||| 2 } }
    else { s with regs := { s.regs with treebase := v &&& (ones 51 22 ||| 1) } })

/-- Fields of a node's second word (R115). -/
def nodeCtx (s : State) (h : Nat) : Nat := fld (nodeWord s h 1) 47 32
def nodeWorld (s : State) (h : Nat) : Nat := fld (nodeWord s h 1) 31 28
def nodeDepth (s : State) (h : Nat) : Nat := fld (nodeWord s h 1) 27 24
def nodeChild (s : State) (h : Nat) : Nat := fld (nodeWord s h 1) 23 8
def nodeGran (s : State) (h : Nat) : Nat := fld (nodeWord s h 2) 63 32

def setNodeFld (s : State) (h i hi lo v : Nat) : State := setNodeWord s h i (setFld (nodeWord s h i) hi lo v)

/-- A node and its ancestors, from the node upward. -/
def chainFrom (s : State) : Nat → Nat → List Nat
  | 0, _ => []
  | n + 1, h => if nodeLive s h then h :: chainFrom s n (nodeParent s h) else []

def chainOf (s : State) (h : Nat) : List Nat := chainFrom s 16 h

/-- One structural change: one to each node of the chains, once (R119). -/
def structural (s : State) (nodes : List Nat) : State := (dedup nodes).foldl (fun s h => addCount s h 1) s

/-- The live nodes at or below a node. -/
def subtree (s : State) (h : Nat) : List Nat := (List.range 65536).filter (fun k => nodeLive s k && (chainOf s k).contains h)

/-- A node passes its PEND up; a root has no one to pass it to (R121). -/
def rollup (s : State) (h : Nat) : State :=
  let n := (nodeWord s h 3).toNat
  let p := nodeParent s h
  let s' := setNodeWord s h 3 0
  if n = 0 || !nodeLive s p then s'
  else raiseNodeWct (addPend (addCount s' p n) p n) p (look 0 s.mem.nodeWct h)

/-- The entries a roll-up reads: a node's and, of a node below another, its parent's. -/
def rollupNodes (s : State) (node : Nat) : List Nat := if nodeParent s node = 0 then [node] else [node, nodeParent s node]

/-- TREE_ROLLUP (R121). -/
def execTreeRollup (node : Nat) (s : State) : Host.Outcome State Fault Refusal :=
  if treeOn s && nodeLive s node then
    .next (rollup (readNodes (atLink s (homeDie s (nodeAddr s node) 0) (homeDie s (nodeAddr s ((rollupNodes s node).getLastD node)) 0)) (rollupNodes s node)) node)
  else .next s

/-- Pass up every bump held below a node, deepest first, as far as the node itself. -/
def settleBelow (s : State) (h : Nat) : State :=
  let ns := (subtree s h).filter (fun k => k ≠ h)
  ((List.range 16).reverse).foldl (fun s d => (ns.filter (fun k => nodeDepth s k = d)).foldl rollup s) s

/-! ### Issue -/

/-- A word over handles. -/
def treeIssue (s : State) (x : Issued) (i : Instr) : State :=
  if treeOn s then newOp s x i x.act [] 0 else trapWord s x (illstate 0)

/-- A word over addresses (R130). -/
def treeAddrIssue (s : State) (x : Issued) (i : Instr) : State :=
  if treeOn s then issueAccess s x i (laneAddrs x) 0 else trapWord s x (illstate 0)

/-- TNODE (R131). -/
def execTnode (f : Full) (s : State) : Host.Outcome State Fault Refusal :=
  issueFull 0x18 f s (fun s x => treeIssue s x (.tnode f))
/-- TENROL (R131). -/
def execTenrol (f : Full) (s : State) : Host.Outcome State Fault Refusal :=
  issueFull 0x19 f s (fun s x => treeAddrIssue s x (.tenrol f))
/-- TREP (R125). -/
def execTrep (f : Full) (s : State) : Host.Outcome State Fault Refusal :=
  issueFull 0x1A f s (fun s x => treeIssue s x (.trep f))
/-- TSETTLE (R122). -/
def execTsettle (f : Full) (s : State) : Host.Outcome State Fault Refusal :=
  issueFull 0x1B f s (fun s x => if modB f 1 then treeAddrIssue s x (.tsettle f) else treeIssue s x (.tsettle f))
/-- TREAD (R131). -/
def execTread (f : Full) (s : State) : Host.Outcome State Fault Refusal :=
  issueFull 0x1C f s (fun s x => if modB f 1 then treeAddrIssue s x (.tread f) else treeIssue s x (.tread f))
/-- TCMP (R131). -/
def execTcmp (f : Full) (s : State) : Host.Outcome State Fault Refusal :=
  issueFull 0x1D f s (fun s x => if modB f 1 then treeAddrIssue s x (.tcmp f) else treeIssue s x (.tcmp f))
/-- TDROP (R131). -/
def execTdrop (f : Full) (s : State) : Host.Outcome State Fault Refusal :=
  issueFull 0x1E f s (fun s x => if modB f 1 then treeAddrIssue s x (.tdrop f) else treeIssue s x (.tdrop f))

/-! ### Checks (R129) -/

/-- NOTOWN: the service processor passes it. -/
def ownsNode (s : State) (o : Op) (h : Nat) : Bool := match o.unit with
  | .thread _ => true
  | _ => nodeCtx s h = o.ctx && nodeWorld s h = o.world

def status (n : Nat) : Nat := 2 ^ 28 * n

/-- BADNODE and NOTOWN on one node. -/
def nodeCheck (s : State) (o : Op) (h : Nat) : Option Nat :=
  if !nodeLive s h then some 1 else if ownsNode s o h then none else some 2

/-- The granule form's checks: NOTENROL, then NOTOWN on its node. -/
def granCheck (s : State) (o : Op) (frame : Nat) : Option Nat :=
  let g := getGranule s frame
  if !g.v then some 8 else if ownsNode s o g.node then none else some 2

/-! ### Structural words -/

/-- The lowest-numbered free entry. -/
def freeNode (s : State) : Option Nat := ((List.range 65535).map (· + 1)).find? (fun h => !nodeLive s h)

def clearNode (s : State) (h : Nat) : State :=
  let s := (List.range 8).foldl (fun s i => setNodeWord s h i 0) s
  { s with mem := { s.mem with nodeWct := putC 0 s.mem.nodeWct h 0 } }

def isThreadOp (o : Op) : Bool := match o.unit with
  | .thread _ => true
  | _ => false

/-- TNODE of one lane: the result word. -/
def tnodeLane (s : State) (o : Op) (p : Nat) : State × Nat :=
  if p ≠ 0 && !nodeLive s p then (s, status 1)
  else if p ≠ 0 && !ownsNode s o p then (s, status 2)
  else
    let depth := if p = 0 then 0 else nodeDepth s p + 1
    if 16 ≤ depth then (s, status 3)
    else match freeNode s with
      | none => (s, status 5)
      | some h =>
        let ctx := if isThreadOp o then (if p = 0 then 0 else nodeCtx s p) else o.ctx
        let world := if isThreadOp o then (if p = 0 then 0 else nodeWorld s p) else o.world
        let s := clearNode s h
        let s := setNodeWord s h 1 (BitVec.ofNat 64 (2 ^ 48 * p + 2 ^ 32 * ctx + 2 ^ 28 * world + 2 ^ 24 * depth + 1))
        let s := if p = 0 then s else setNodeFld s p 1 23 8 (nodeChild s p + 1)
        (structural s (if p = 0 then [] else chainOf s p), h)

/-- TENROL of one lane. -/
def tenrolLane (s : State) (o : Op) (frame h : Nat) : State × Nat :=
  match nodeCheck s o h with
  | some n => (s, status n)
  | none =>
    let g := getGranule s frame
    if g.v && g.node ≠ h then (s, status 7)
    else if g.v then (s, 0)
    else
      let s := setGranule s frame { g with v := true, node := h }
      (structural (setNodeFld s h 2 63 32 (nodeGran s h + 1)) (chainOf s h), 0)

/-- TREP of one lane (R125): settle, switch, depths. -/
def trepLane (s : State) (o : Op) (n q : Nat) : State × Nat :=
  if !nodeLive s n || (q ≠ 0 && !nodeLive s q) then (s, status 1)
  else if !ownsNode s o n || (q ≠ 0 && !ownsNode s o q) then (s, status 2)
  else
    let below := subtree s n
    let base := nodeDepth s n
    let depth := if q = 0 then 0 else nodeDepth s q + 1
    let height := maxL (below.map (fun k => nodeDepth s k - base))
    if 16 ≤ depth + height then (s, status 3)
    else if below.contains q then (s, status 4)
    else
      let s := rollup (settleBelow s n) n
      let p := nodeParent s n
      let s := structural s (chainOf s p ++ chainOf s q)
      let s := if p = 0 then s else setNodeFld s p 1 23 8 (nodeChild s p - 1)
      let s := if q = 0 then s else setNodeFld s q 1 23 8 (nodeChild s q + 1)
      let s := setNodeFld s n 1 63 48 q
      (below.foldl (fun s k => setNodeFld s k 1 27 24 (nodeDepth s k - base + depth)) s, 0)

/-- TDROP of a node. -/
def tdropNode (s : State) (o : Op) (h : Nat) : State × Nat :=
  match nodeCheck s o h with
  | some n => (s, status n)
  | none =>
    if nodeChild s h ≠ 0 || nodeGran s h ≠ 0 then (s, status 6)
    else
      let s := rollup s h
      let p := nodeParent s h
      let s := structural s (chainOf s p)
      let s := if p = 0 then s else setNodeFld s p 1 23 8 (nodeChild s p - 1)
      (clearNode s h, 0)

/-- TDROP of a granule. -/
def tdropGran (s : State) (o : Op) (frame : Nat) : State × Nat :=
  match granCheck s o frame with
  | some n => (s, status n)
  | none =>
    let g := getGranule s frame
    let s := setGranule s frame { g with v := false }
    (structural (setNodeFld s g.node 2 63 32 (nodeGran s g.node - 1)) (chainOf s g.node), 0)

/-- The frame a lane's address names. -/
def laneFrame (o : Op) (l : Nat) : Nat := match o.accs.find? (fun a => a.lane = l) with
  | some a => a.pa.getD 0 / 4096
  | none => 0

/-- A handle operand: the low 16 bits. -/
def handleA (o : Op) (l : Nat) : Nat := (nth o.a l).toNat % 2 ^ 16
def handleB (o : Op) (l : Nat) : Nat := (nth o.b l).toNat % 2 ^ 16

/-- One lane of a structural word. -/
def treeLane (s : State) (o : Op) (l : Nat) : State × Nat :=
  match o.instr with
  | .tnode _ => tnodeLane s o (handleA o l)
  | .tenrol _ => tenrolLane s o (laneFrame o l) (handleB o l)
  | .trep _ => trepLane s o (handleA o l) (handleB o l)
  | .tdrop f => if modB f 1 then tdropGran s o (laneFrame o l) else tdropNode s o (handleA o l)
  | _ => (s, 0)

def isStructural (i : Instr) : Bool := match i with
  | .tnode _ => true
  | .tenrol _ => true
  | .trep _ => true
  | .tdrop _ => true
  | _ => false

/-- A tree word's messages to its nodes' home slices cross the die link where those are on the other die (spec/24 R401). -/
def treeLink (s : State) (o : Op) : State :=
  if bit s.regs.dlstat 0 then s
  else (lanesIn o.lanes).foldl (fun s l => atLink s (unitDie o.unit) (homeDie s (nodeAddr s (handleA o l)) 0)) s

/-- The nodes that a lane of a tree word names. -/
def namedNodes (s : State) (o : Op) (l : Nat) : List Nat :=
  let node := fun (g : Bool) => if g then [(getGranule s (laneFrame o l)).node] else [handleA o l]
  (match o.instr with
    | .tnode _ => [handleA o l]
    | .tenrol _ => [handleB o l]
    | .trep _ => [handleA o l, handleB o l]
    | .tdrop f => node (modB f 1)
    | .tsettle f => node (modB f 1)
    | .tread f => node (modB f 1)
    | .tcmp f => node (modB f 1)
    | _ => []).filter (fun h => h ≠ 0)

/-- The nodes whose entries a lane's word reads: those it names; the ancestors that a structural change counts in; the nodes below, whose bumps or depths it changes. -/
def nodesRead (s : State) (o : Op) (l : Nat) : List Nat :=
  let named := namedNodes s o l
  let chains := named.flatMap (chainOf s)
  match o.instr with
  | .tread _ => named
  | .tcmp _ => named
  | .tsettle f => if modB f 1 then named else dedup (named ++ named.flatMap (subtree s))
  | .trep _ => dedup (named ++ chains ++ subtree s (handleA o l))
  | _ => dedup (named ++ chains)

/-- A lane whose word reads a node with a poisoned line traps PROT with reason 6 (spec/04 R72); it names no address, so the entry's stands in its record (DESIGN CHOICE,
log 29). -/
def poisonedLane (s : State) (id l : Nat) : State := match findOp s id with
  | none => s
  | some o => if s.mem.poison.isEmpty then s else match (nodesRead s o l).find? (fun h => poisoned s (nodeLine s h)) with
    | none => s
    | some h =>
      let f := refusal 6 6 (nodeLine s h)
      let va : W64 := BitVec.ofNat 64 (nodeAddr s h)
      trapOpLane (ringFor s o (homeDie s (nodeAddr s h) 0) va f l 1) id l va (faultInfo f (accessCode o.instr))

/-- A tree word moves a sector of each node line that its lanes name, at that line's home slice (spec/05 R100). -/
def payNodes (s : State) (o : Op) : State :=
  (dedup ((lanesIn o.lanes).flatMap (fun l => (namedNodes s o l).map (nodeLine s)))).foldl
    (fun s la => payFor s (sliceOf (homeDie s (128 * la) 0) (128 * la)) o.sid 2) s

/-- A tree word reads the nodes that its lanes name and those that go with them; the lanes that meet a poisoned line trap. -/
def reachNodes (s : State) (o : Op) : State :=
  let ls := lanesIn o.lanes
  let s := readNodes (payNodes (treeLink s o) o) (dedup (ls.flatMap (nodesRead s o)))
  settleOp (ls.foldl (fun s l => poisonedLane s o.id l) s) o.id

/-- R122, R125: what happens-before a settle or a re-parent in its own program is done: the writes and structural changes before it. An earlier acquire or fence
holds every tree word (R131). -/
def treeReady (s : State) (o : Op) : Bool :=
  !heldByAcquire s o &&
  match o.instr with
  | .tsettle _ => changesDone
  | .trep _ => changesDone
  | _ => true
where
  changesDone : Bool := (s.ops.filter (fun p => p.id < o.id && sameIssuer p o)).all (fun p => p.phase ≠ 0 ||
    !(accessWrites p.instr || isStructural p.instr || match p.instr with
      | .sunmap _ => true
      | _ => false))

/-- A tree word whose turn has come: its nodes read, and one lane after another done by `lane`; a word with no lane left is over. -/
def treePerform (s : State) (o : Op) (lane : State → Op → Nat → State × Nat) : State :=
  let s := reachNodes s o
  match findOp s o.id with
  | none => s
  | some o =>
    let r := (lanesIn o.lanes).foldl (fun (p : State × List W128) l => let t := lane p.1 o l
      (t.1, setNth p.2 l (BitVec.ofNat 128 t.2))) (s, everyLane 0)
    performed r.1 o.id r.2

/-- TREE_OP_PERFORM (R124): the lanes in ascending order, all at one place in the tree order. -/
def execTreeOpPerform (op : Nat) (s : State) : Host.Outcome State Fault Refusal :=
  match findOp s op with
  | none => .next s
  | some o =>
    if !isStructural o.instr || o.phase ≠ 0 || o.accs.any (fun a => a.pa.isNone) || !treeOn s || !treeReady s o then .next s
    else .next (treePerform s o treeLane)

/-! ### Settles and reads -/

/-- A settle's status, its count brought up to date (R122). -/
def settleLane (s : State) (o : Op) (g : Bool) (l : Nat) : State × Nat :=
  if g then
    match granCheck s o (laneFrame o l) with
    | some n => (s, status n)
    | none => (s, 0)
  else match nodeCheck s o (handleA o l) with
    | some n => (s, status n)
    | none => (settleBelow s (handleA o l), 0)

/-- TSETTLE_COMPLETE (R122; log 12): once every write that happens-before the settle has been performed, its bump stands at its granule's node or above. -/
def execTsettleComplete (op : Nat) (s : State) : Host.Outcome State Fault Refusal :=
  match findOp s op with
  | none => .next s
  | some o => match o.instr with
    | .tsettle f =>
      if o.phase ≠ 0 || o.accs.any (fun a => a.pa.isNone) || !treeOn s || !treeReady s o then .next s
      else .next (treePerform s o (fun s o l => settleLane s o (modB f 1) l))
    | _ => .next s

/-- A count with the time that goes with it (R123), or the failing status. -/
def treeCount (s : State) (o : Op) (g : Bool) (l : Nat) : Nat ⊕ (Nat × Nat) :=
  if g then
    match granCheck s o (laneFrame o l) with
    | some n => .inl n
    | none => .inr ((getGranule s (laneFrame o l)).gcount.toNat, (getGranule s (laneFrame o l)).wct)
  else match nodeCheck s o (handleA o l) with
    | some n => .inl n
    | none => .inr ((nodeWord s (handleA o l) 0).toNat, look 0 s.mem.nodeWct (handleA o l))

/-- A lane's answer and its time. -/
def countLane (s : State) (o : Op) (l : Nat) : Nat × Nat :=
  match o.instr with
  | .tread f => match treeCount s o (modB f 1) l with
    | .inl _ => (2 ^ 64 - 1, 0)
    | .inr (c, t) => (c, t)
  | .tcmp f => match treeCount s o (modB f 1) l with
    | .inl n => (status n, 0)
    | .inr (c, t) =>
      let b := (nth o.b l).toNat % 2 ^ 64
      (if c = b then 0 else if c > b then 1 else 2, t)
  | _ => (0, 0)

/-- TREAD or TCMP: the counts are read, and the answer given once module time has passed the greatest WCT that goes with them (R123). -/
def performCount (s : State) (o : Op) : State :=
  if o.accs.any (fun a => a.pa.isNone) || heldByAcquire s o || !treeOn s then s
  else if o.held then
    if passed s o.wct then raiseOpWct (setOp s { o with phase := 1, accs := o.accs.map (fun a => { a with done := true }) }) o o.wct else s
  else
    let s := reachNodes s o
    match findOp s o.id with
    | none => s
    | some o =>
      let rs := (List.range 32).map (fun l => if o.lanes.getLsbD l then countLane s o l else (0, 0))
      setOp s { o with held := true, res := rs.map (fun r => BitVec.ofNat 128 r.1), wct := maxL (rs.map (fun r => r.2)) }

/-! ### The end of a context (R127) -/

/-- Free every node of a context, clearing the granules they hold; the bumps on their way through freed nodes reach the ancestors that stay first (R118). No
count changes otherwise; a surviving parent loses its child. Poison met on the way has no requester to report to (DESIGN CHOICE, log 12). What a surviving child of a freed node keeps is not stated: its PARENT handle and its DEPTH stay as they
were (DESIGN CHOICE, log 12). -/
def freeTree (s : State) (ctx : Nat) : State :=
  if !treeOn s then s
  else
    let ns := (List.range 65536).filter (fun h => nodeLive s h && nodeCtx s h = ctx)
    let below := (List.range 65536).filter (fun h => nodeLive s h && (chainOf s h).any (fun k => ns.contains k))
    let s := readNodes s (dedup (below.flatMap (fun k => [k, nodeParent s k])))
    let s := ((List.range 16).reverse).foldl (fun s d => (below.filter (fun k => nodeDepth s k = d)).foldl rollup s) s
    let s := { s with mem := { s.mem with granules := s.mem.granules.map (fun g =>
      if g.2.v && ns.contains g.2.node then (g.1, { g.2 with v := false }) else g) } }
    ns.foldl (fun s h =>
      let p := nodeParent s h
      let s := if nodeLive s p && !ns.contains p then setNodeFld s p 1 23 8 (nodeChild s p - 1) else s
      clearNode s h) s

end Sys2Proof.Machine
end

