-- ==== Sys2Proof/Machine/Clause.lean ====
section
/-!
DEFINITION. Clause boundaries: fetching and checking headers (spec/02 R21-R24), residency (spec/07 R150), the frontier (spec/15 R305-R308), the choice
among ready warps (spec/19 R343-R345), decision pops (R304), parking (spec/09 R193), overlay misses (R316), and the ends of clauses (R307).
-/
namespace Sys2Proof.Machine

/-! ### Code in overlay slots -/

/-- The valid slots of a core whose overlay holds an address. -/
def codeSlots (s : State) (c : Nat) (pc : Addr) : List Nat :=
  (List.range 2).filter (fun i => (getSlot s c i).valid && (getSlot s c i).image = pc.extractLsb' 16 36)

/-- The slot a fetch uses: with both slots holding the overlay, either (log 7). -/
def codeSlot (s : State) (c : Nat) (pc : Addr) : Option Nat :=
  match codeSlots s c pc with
  | [] => none
  | l => l[Config.pick s.freeNo % l.length]?

/-- A load in progress will hold the address: fetches wait for it (R150). -/
def slotLoading (s : State) (c : Nat) (pc : Addr) : Bool :=
  (List.range 2).any (fun i => match (getSlot s c i).loading with
    | some l => l.cmd.extractLsb' 16 36 = pc.extractLsb' 16 36
    | none => false)

/-- A code word of a slot. -/
def slotWord (s : State) (c i : Nat) (pc : Addr) : W64 := BitVec.ofNat 64 (memBytes (getSlot s c i).code (pc.toNat % 2 ^ 16) 8)

/-- The key of an entry at `pc` (R305). -/
def entryKey (s : State) (c : Nat) (pc : Addr) : Nat := match codeSlot s c pc with
  | some i => fld (slotWord s c i pc) 35 28
  | none => 256

/-- R24: may this header, fetched at `pc`, begin a clause on this kind of unit? An overlay is a 64 KiB aligned region (log 14). -/
def headerOk (hdr : W64) (pc : Addr) (scalar : Bool) : Bool :=
  let n := hdrCount hdr
  fld hdr 63 37 = 0 && n ≠ 0 && !(bit hdr 16 && 11 < fld hdr 15 12) && !(bit hdr 21 && 11 < fld hdr 20 17) &&
  (bit hdr 16 || fld hdr 15 12 = 0) && (bit hdr 21 || fld hdr 20 17 = 0) &&
  !(bit hdr 16 && bit hdr 21 && fld hdr 15 12 = fld hdr 20 17) && !(bit hdr 26 && bit hdr 27) && bit hdr 26 = scalar &&
  pc.toNat % 2 ^ 16 + 8 * n < 2 ^ 16

/-- The clause as it begins. -/
def newRun (hdr : W64) (pc : Addr) (words : List W64) (skip : Nat) (mask : Mask) (t0 : Nat) : ClauseRun :=
  { hdr := hdr, pc := pc, words := words, idx := 0, skip := skip, mask := mask, cyc := t0, written := t0, la := none, lb := none,
    lc := none, pend := [], branches := [], exits := 0, exitSt := [], target := none, push := none, pops := false, halts := false,
    yielded := false }

/-! ### Warps -/

/-- The frontier with its keys as residency now has them, in the order of R306. -/
def freshFrontier (s : State) (c : Nat) (fr : List FEntry) : List FEntry :=
  fr.foldl (fun l e => sortEntry { e with key := entryKey s c e.pc } l) []

/-- The oldest decision entry that names a warp it has not popped for (R304). -/
def popIndex (q : List DqEntry) (i : Nat) : Option Nat := q.findIdx? (fun e => e.mask.getLsbD i)

/-- The team's front-end context on a core. -/
def frontOf (s : State) (c handle : Nat) : Option Nat :=
  ((getCore s c).fronts.find? (fun f => f.2.live && f.2.handle = handle)).map (fun f => f.1)

/-- What a warp's boundary comes to. -/
inductive Boundary where
  | idle
  | park
  | blocked
  | trap (pc : Addr) (hdr : W64) (i : TrapInfo)
  | pop (front idx : Nat) (pc : Addr)
  | go (slot : Nat) (hdr : W64) (e : FEntry)

/-- The checks of R193, R24, R304, R227 on the first entry, in order. -/
def boundary (s : State) (c : Nat) (w : Warp) : Boundary :=
  match freshFrontier s c w.frontier with
  | [] => .idle
  | e :: _ => match codeSlot s c e.pc with
    | none => .park
    | some i =>
      let hdr := slotWord s c i e.pc
      let words := (List.range (hdrCount hdr)).map (fun k => slotWord s c i (e.pc + BitVec.ofNat 52 (8 * (k + 1))))
      if !headerOk hdr e.pc false then .trap e.pc hdr illins
      else if bit hdr 27 && e.word = 0 && w.sheaf.isSome then .trap e.pc hdr (illstate 0)
      else
        let popped := !(bit hdr 27) || e.word ≠ 0 || w.popFor.contains e.pc
        let front := frontOf s c w.handle
        match popped, front, front.bind (fun k => popIndex (getFront s c k).dq (localIndex s w)) with
        | false, some k, some j => .pop k j e.pc
        | false, _, _ => .park
        | true, _, _ =>
          if !flagsClear w.flags (fld hdr 11 0) then .park
          else if w.absent ≠ 0 && words.any wholeWarp then .blocked
          else .go i hdr e

/-- Whether a team's units may begin clauses (spec/26 R404); a sheaf has no team. -/
def teamRuns (s : State) (handle : Nat) : Bool := match findTeam s handle with
  | some t => t.st = .running && !t.saved
  | none => false

/-- A context of a team that is being stopped is held at a DQPUSH by a full queue (spec/15 R303): that word completes first (spec/26 R404). -/
def dqHeld (s : State) (c handle : Nat) : Bool := match frontOf s c handle with
  | none => false
  | some k => match (getFront s c k).run.bind (fun r => r.words[r.idx]?) with
    | some w => !w.getLsbD 63 && w.extractLsb' 56 7 = 5 && 32 ≤ (getFront s c k).dq.length
    | none => false

/-- A warp may begin a clause: its team runs, or its core's context waits for it to pop (log 14). -/
def warpMayRun (s : State) (w : Warp) : Bool := w.sheaf.isSome || teamRuns s w.handle || (match findTeam s w.handle with
  | some t => t.st = .stopping && !t.saved && dqHeld s (t.start + w.num % t.shape.cores) w.handle
  | none => false)

/-- The warps of a team that issues again begin their waits afresh (spec/19 R344, R345), and those that wait for absent lanes a new block (spec/22 R376): held, no clause of
theirs could begin. -/
def waitAfresh (s : State) (handle : Nat) : State :=
  { s with cores := s.cores.map (fun c => (c.1, { c.2 with warps := c.2.warps.map (fun w => (w.1,
    if w.2.live && w.2.handle = handle && w.2.sheaf.isNone then
      { w.2 with waiting := Nat.max s.cyc w.2.waiting, blocked := w.2.blocked.map (fun _ => s.time) } else w.2)) })) }

/-- A warp that stands ready for its issue slot. -/
def isReady (s : State) (w : Warp) : Bool :=
  w.live && w.run.isNone && !w.stopped && !w.parked && !w.frontier.isEmpty && warpMayRun s w

/-- Rank of a ready warp (R344): the lesser goes first. -/
def issueRank (s : State) (w : Warp) : List Nat :=
  if w.waiting + 256 ≤ s.cyc then [0, w.waiting]
  else [1, w.yieldWord.toNat, w.bcnt, w.yieldHint.toNat, w.admitted]

def lexLess : List Nat → List Nat → Bool
  | a :: x, b :: y => a < b || (a = b && lexLess x y)
  | [], _ :: _ => true
  | _, _ => false

/-- R343, R344: the issue slot is free of clauses and no ready warp of it ranks before this one. -/
def isPicked (s : State) (c k : Nat) : Bool :=
  ((getCore s c).warps.filter (fun p => p.1 % 4 = k % 4 && p.1 ≠ k)).all (fun p =>
    !(p.2.live && p.2.run.isSome) && !(isReady s p.2 && lexLess (issueRank s p.2) (issueRank s (getWarp s c k))))

/-- Pop a decision entry: values to w registers, target to DQT; the entry goes when every warp it names has popped (R302, R304). -/
def popDecision (s : State) (c k front idx : Nat) (pc : Addr) : State :=
  let f := getFront s c front
  let w := getWarp s c k
  match f.dq[idx]? with
  | none => s
  | some e =>
    let e' := { e with mask := e.mask &&& ~~~BitVec.ofNat 48 (2 ^ localIndex s w) }
    let dq := (setNth f.dq idx e').filter (fun x => x.mask ≠ 0)
    let regs := e.vals.zipIdx.foldl (fun m v => putC 0 m (e.vbase + v.2) v.1) w.w
    let s := setFront s c front { f with dq := dq }
    setWarp s c k { w with w := regs, dqt := e.target.getD 0, popFor := pc :: w.popFor }

/-- Whether every busy flag in the WAIT of a parked warp's clause counts only operations that `p` admits. -/
def waitsOnly (s : State) (c k : Nat) (p : Op → Bool) : Bool :=
  let w := getWarp s c k
  w.parked && w.blocked.isNone && match freshFrontier s c w.frontier with
    | [] => false
    | e :: _ => match codeSlot s c e.pc with
      | none => false
      | some i =>
        let wait := fld (slotWord s c i e.pc) 11 0
        !flagsClear w.flags wait && (s.ops.filter (fun o => o.unit = .warp c k && ownerHere s o && wait.testBit o.flag)).all p

/-- A monitor wait (spec/14 R295): a WAITC not yet answered, asked at its slice or not, or a queue operation that waits or is held there. -/
def isMonitorWait (s : State) (o : Op) : Bool := s.mem.waiters.any (fun x => x.op = o.id) || (o.phase = 0 && match o.instr with
  | .waitc _ => true
  | _ => false)

/-- A parked warp all of whose busy WAIT flags count only monitor waits (spec/14 R295). -/
def monitorBound (s : State) (c k : Nat) : Bool := waitsOnly s c k (isMonitorWait s)

/-- The warps of a core that are bound no longer note it, or the threshold would count over the break (spec/14 R295). A wait that has its answer, its flag about to fall, is no
break. -/
def endBreaks (s : State) (c : Nat) : State :=
  let k := getCore s c
  setCore s c { k with warps := k.warps.map (fun w => (w.1, if w.2.boundSince.isSome && !waitsOnly s c w.1 (fun o => isMonitorWait s o || o.phase = 1) then
    { w.2 with boundSince := none } else w.2)) }

/-- A warp leaves its issue slot for the parked pool (R162). -/
def parkWarp (s : State) (c k : Nat) (blocked : Bool) : State :=
  let w := getWarp s c k
  let s := setWarp s c k { w with parked := true, blocked := if blocked then some (w.blocked.getD s.time) else none }
  if monitorBound s c k then setWarp s c k { getWarp s c k with boundSince := some s.time } else s

/-- A team has issued a clause (spec/19 R334). -/
def teamIssued (s : State) (handle : Nat) : State := match findTeam s handle with
  | some t => setTeam s { t with issued := true }
  | none => s

/-- The clause begins: its words as the slot holds them now. -/
def startClause (s : State) (c k slot : Nat) (hdr : W64) (e : FEntry) : State :=
  let w := getWarp s c k
  let words := (List.range (hdrCount hdr)).map (fun j => slotWord s c slot (e.pc + BitVec.ofNat 52 (8 * (j + 1))))
  let run := newRun hdr e.pc words e.word e.mask (Nat.max s.cyc w.waiting)
  teamIssued (bumpFree (setWarp s c k { w with
    run := some run, frontier := w.frontier.drop 1, started := true, yieldWord := false, yieldHint := false, parked := false, blocked := none
    boundSince := none, popFor := w.popFor.filter (fun p => p ≠ e.pc || e.word ≠ 0) })) w.handle

/-- One look at a boundary: begin, park or trap. -/
def lookWarp (s : State) (c k : Nat) : State :=
  match boundary s c (getWarp s c k) with
  | .idle => s
  | .park => parkWarp s c k false
  | .blocked => parkWarp s c k true
  | .trap pc hdr i => trapUnit s (.warp c k) pc hdr hdr 15 0x1FF i
  | .pop _ _ _ => s
  | .go slot hdr e => startClause s c k slot hdr e

/-- CLAUSE_BEGIN of a warp. -/
def beginWarp (s : State) (c k : Nat) : State :=
  let w := getWarp s c k
  if !isReady s w || !w.rejoins.isEmpty || bufferFull s c || !isPicked s c k then s
  else
    let s := setWarp s c k { w with frontier := freshFrontier s c w.frontier }
    match boundary s c (getWarp s c k) with
    | .pop f j pc => lookWarp (popDecision s c k f j pc) c k
    | _ => lookWarp s c k

/-! ### Front-end contexts -/

/-- The addresses that the team's parked warps on a core miss (R306, R316). -/
def missedPcs (s : State) (c handle : Nat) : List Nat :=
  (getCore s c).warps.filterMap (fun p =>
    if p.2.live && p.2.handle = handle && p.2.sheaf.isNone && p.2.parked then
      match freshFrontier s c p.2.frontier with
      | e :: _ => if e.key = 256 && !slotLoading s c e.pc then some e.pc.toNat else none
      | [] => none
    else none)

def leastOf : List Nat → Nat
  | [] => 0
  | [x] => x
  | x :: t => Nat.min x (leastOf t)

/-- OVLMISS of a context (R316 step 4). -/
def ovlMissTrap (s : State) (c k : Nat) (pc : Addr) (miss : Nat) : State :=
  takeTrap s (.front c k) pc 0 0 15 0x1FF { cause := 0x30, detail := 0, addr := BitVec.ofNat 64 miss }

/-- Divert a context to its stub as if by CALL (R316), or trap. One that has halted issues nothing more (R301): it traps where there is no stub, and is not diverted to one
(log 14). -/
def divert (s : State) (c k : Nat) (miss : Nat) (own : Bool) : State :=
  let f := getFront s c k
  let stub : Addr := BitVec.ofNat 52 (fld f.ovlstub 51 3 * 8)
  if stub = 0 || (codeSlot s c stub).isNone || 16 ≤ f.stack.length then ovlMissTrap s c k f.pc miss
  else if f.halted then s
  else setFront s c k { f with
    stack := f.stack ++ [f.pc], pc := stub, word := 0, divRet := f.divRet ++ [(f.stack.length, f.word)]
    ovlpc := BitVec.ofNat 64 (miss / 8 * 8 + 2 + (!own).toNat) }

def stubActive (f : Front) : Bool := bit f.ovlpc 1

/-- CLAUSE_BEGIN of a front-end context: one that has halted issues nothing more (R301), a miss it cannot serve apart; one resumed inside a clause is at no boundary for a warp's miss (R316). -/
def beginFront (s : State) (c k : Nat) : State :=
  let f := getFront s c k
  if !f.live || f.run.isSome || f.stopped || f.posted.isSome || !teamRuns s f.handle then s
  else
    let misses := missedPcs s c f.handle
    if !stubActive f && f.word = 0 && !misses.isEmpty then divert s c k (leastOf misses) false
    else if f.halted then s
    else match codeSlot s c f.pc with
      | none => if slotLoading s c f.pc then s else divert s c k f.pc.toNat true
      | some i =>
        let hdr := slotWord s c i f.pc
        if !headerOk hdr f.pc true then trapUnit s (.front c k) f.pc hdr hdr 15 0x1FF illins
        else if !flagsClear f.flags (fld hdr 11 0) then s
        else
          let words := (List.range (hdrCount hdr)).map (fun j => slotWord s c i (f.pc + BitVec.ofNat 52 (8 * (j + 1))))
          teamIssued (bumpFree (setFront s c k { f with run := some { newRun hdr f.pc words 0 1 s.cyc with idx := f.word }, word := 0 })) f.handle

/-! ### Service-processor threads -/

/-- A code word of a thread, through its own translation (spec/24 R437). No rule gives the policy of a thread's clause fetches (spec/05 R98): the model takes `.noalloc`
(DESIGN CHOICE, log 30). -/
def threadWord (s : State) (q : Nat) (va : W64) : State × (AFault ⊕ W64) :=
  let x := threadX s q
  let t := translate s x va false
  match t.2 with
  | .bad f => (t.1, .inl f)
  | .ok pa leaf =>
    let r := readLine t.1 (lineReq t.1 x pa leaf 2) (BitVec.ofNat 4 (2 ^ (pa % 128 / 32))) false
    match r.2 with
    | .bad f => (r.1, .inl { f with pte := if f.cause = 9 then leaf else f.pte })
    | .ok d _ _ _ _ => (r.1, .inr (BitVec.ofNat 64 (fieldOfLine d (pa % 128) 8)))

/-- The words after a header; a fault comes with its address. -/
def threadWords (q : Nat) (pc : Addr) : Nat → Nat → State → State × ((AFault × W64) ⊕ List W64)
  | 0, _, s => (s, .inr [])
  | n + 1, i, s =>
    let va : W64 := (pc + BitVec.ofNat 52 (8 * (i + 1))).setWidth 64
    let a := threadWord s q va
    match a.2 with
    | .inl f => (a.1, .inl (f, va))
    | .inr w =>
      let b := threadWords q pc n (i + 1) a.1
      match b.2 with
      | .inl f => (b.1, .inl f)
      | .inr l => (b.1, .inr (w :: l))

/-- A clause fetch that faults (R437): WORD is 15 and PC the header's address; the header stands in the record where it could be read, and ADDR is the address that faulted
(spec/22 R365). -/
def fetchTrap (s : State) (q : Nat) (pc : Addr) (hdr : W64) (f : AFault × W64) : State :=
  takeTrap s (.thread q) pc hdr hdr 15 0x1FF { faultInfo f.1 5 with addr := f.2 }

/-- CLAUSE_BEGIN of a thread. -/
def beginThread (s : State) (q : Nat) : State :=
  let t := getThread s q
  if t.halt || t.run.isSome || t.sleeping.isSome || t.posted.isSome then s
  else if t.stopReq then setThread s q { t with halt := true, runBit := false, stopReq := false }
  else
    let h := threadWord s q (t.pc.setWidth 64)
    match h.2 with
    | .inl f => fetchTrap h.1 q t.pc 0 (f, t.pc.setWidth 64)
    | .inr hdr =>
      let s := h.1
      if !headerOk hdr t.pc true then trapUnit s (.thread q) t.pc hdr hdr 15 0x1FF illins
      else if !flagsClear t.flags (fld hdr 11 0) then s
      else
        let ws := threadWords q t.pc (hdrCount hdr) 0 s
        match ws.2 with
        | .inl f => fetchTrap ws.1 q t.pc hdr f
        | .inr l => setThread ws.1 q { getThread ws.1 q with run := some { newRun hdr t.pc l 0 1 s.cyc with idx := t.word }, word := 0 }

/-- The thread's next word is held because its set flag counts 63 (spec/09 R187). -/
def wordFull (s : State) (q : Nat) : Bool := match (getThread s q).run with
  | none => false
  | some r => match (r.words[r.idx]?).map decodeWord with
    | some i => match i.form with
      | .full op _ f => flagFull s (.thread q) (viewFull op f .sp r)
      | _ => false
    | none => false

/-- A thread that takes turns: running, not asleep, not held at its next word, not waiting for a flag of its next clause (spec/24 R384). -/
def threadReady (s : State) (q : Nat) : Bool :=
  let t := getThread s q
  !t.halt && t.sleeping.isNone && !wordFull s q &&
  (t.run.isSome || t.posted.isSome || t.stopReq || match (threadWord s q (t.pc.setWidth 64)).2 with
    | .inl _ => true
    | .inr hdr => flagsClear t.flags (fld hdr 11 0))

/-- The service processor's next thread: ascending, from the one after that which issued last (R384); the asked one when none is ready. -/
def nextThread (s : State) (q : Nat) : Nat :=
  (((List.range 64).map (fun i => (s.launch.lastThread + 1 + i) % 64)).find? (threadReady s)).getD q

/-- CLAUSE_BEGIN (R193). -/
def execClauseBegin (u : UnitId) (s : State) : Host.Outcome State Fault Refusal :=
  match u with
  | .warp c k => .next (beginWarp s c k)
  | .front c k => .next (beginFront s c k)
  | .thread q => .next (beginThread s q)

/-- WARP_UNPARK (R193, R345): what parked the warp is over. One that could not begin a clause if its lanes were there is not blocked on them (spec/22 R376). -/
def execWarpUnpark (core slot : Nat) (s : State) : Host.Outcome State Fault Refusal :=
  let w := getWarp s core slot
  if !w.live || !w.parked || w.stopped then .next s
  else match boundary s core w with
    | .idle => .next (setWarp s core slot { w with blocked := none })
    | .park => .next (setWarp s core slot { w with blocked := none })
    | .blocked => .next (setWarp s core slot { w with blocked := some (w.blocked.getD s.time) })
    | _ => .next (setWarp s core slot { w with parked := false, blocked := none, boundSince := none, waiting := Nat.max s.cyc w.waiting })

/-! ### Ends of clauses -/

/-- Exits of a team's threads enter its sums (spec/15 R312); the thread id is 32 times the warp number plus the lane (spec/01 R19). -/
def noteExits (s : State) (handle num : Nat) (lanes : Mask) (st : List Nat) : State :=
  match findTeam s handle with
  | none => s
  | some t =>
    let sum := (lanesIn lanes).foldl (fun (x : ExitSum) l =>
      let v := st.getD l 0
      { maxst := Nat.max x.maxst v, nz := x.nz + (if v = 0 then 0 else 1), low := if v = 0 then x.low else Nat.min x.low (32 * num + l)
        threads := x.threads + 1 }) t.sum
    setTeam s { t with sum := sum }

/-- Sheaf lanes that exit without having resumed their thread forward its record (spec/22 R371). -/
def sheafExits (s : State) (c k : Nat) (sh : Sheaf) (lanes : Mask) : State :=
  let s := setWarp s c k { getWarp s c k with sheaf := some { sh with done := sh.done ||| lanes } }
  (lanesIn (lanes &&& ~~~sh.done)).foldl (fun s l => match sh.recs[l]? with
    | some r => forwardRec s c r.slice r
    | none => s) s

/-- Where the lanes of the issuing entry go (R307). -/
def endFrontier (s : State) (c : Nat) (w : Warp) (r : ClauseRun) : List FEntry :=
  let ex := r.exits &&& r.mask
  let br := r.branches.map (fun b => (b.1, b.2 &&& r.mask &&& ~~~ex))
  let went := br.foldl (fun m b => m ||| b.2) ex
  let rest := r.mask &&& ~~~went
  let dest := if bit r.hdr 27 && r.skip = 0 && w.dqt ≠ 0 then w.dqt else nextClause r.pc r.hdr
  ((dest, rest) :: br).foldl (fun fr g => addEntry fr { key := entryKey s c g.1, pc := g.1, word := 0, mask := g.2 }) w.frontier

/-- The cycle after the one in which the last outstanding result is written (spec/09 R192). -/
def lastWrite : Nat → Nat → Warp → List Pend → Nat
  | 0, c, _, _ => c
  | n + 1, c, w, ps => if ps.isEmpty then c else
    let r := drainCycle c [] w ps
    lastWrite n (c + 1) r.1 r.2

/-- CLAUSE_END of a warp. -/
def endWarp (s : State) (c k : Nat) (r : ClauseRun) : State :=
  -- R192: the next clause begins once every result is written
  let fin := Nat.max r.cyc (lastWrite (drainBound r + 1) r.written (getWarp s c k) r.pend - 1)
  let e := drainTo (drainBound r) (getWarp s c k) r
  let w := e.1
  let r := e.2
  let ex := r.exits &&& r.mask
  let s := setWarp s c k { w with
    run := none, frontier := endFrontier s c w r, exited := w.exited ||| ex, wc := [], waiting := Nat.max s.cyc fin
    yieldWord := r.yielded, yieldHint := bit r.hdr 36 }
  match w.sheaf with
  | some sh => sheafExits s c k sh ex
  | none => noteExits s w.handle w.num ex r.exitSt

/-- Where a scalar clause leaves its unit: next clause and return stack. -/
def endScalar (pc : Addr) (stack : List Addr) (r : ClauseRun) : Addr × List Addr :=
  let next := nextClause pc r.hdr
  if r.pops then (stack.getLast?.getD next, stack.dropLast)
  else (r.target.getD next, match r.push with
    | some a => stack ++ [a]
    | none => stack)

/-- CLAUSE_END of a front-end context: the RET that pops a diversion's return clears ACT (R316). -/
def endFront (s : State) (c k : Nat) (r : ClauseRun) : State :=
  let f := getFront s c k
  let e := endScalar r.pc f.stack r
  let top := f.divRet.getLast?
  let back := r.pops && top.map Prod.fst = some e.2.length
  setFront s c k { f with
    run := none, pc := e.1, stack := e.2, halted := f.halted || r.halts, word := if back then (top.getD (0, 0)).2 else f.word
    divRet := if back then f.divRet.dropLast else f.divRet, ovlpc := if back then f.ovlpc &&& ~~~(2 : W64) else f.ovlpc }

/-- CLAUSE_END of a thread: RUN written 0 halts it at this boundary (spec/24 R385). -/
def endThread (s : State) (q : Nat) (r : ClauseRun) : State :=
  let t := getThread s q
  let e := endScalar r.pc t.stack r
  setThread s q { t with
    run := none, pc := e.1, stack := e.2, halt := t.halt || t.stopReq, runBit := t.runBit && !t.stopReq, stopReq := false }

/-- CLAUSE_END (R307). -/
def execClauseEnd (u : UnitId) (s : State) : Host.Outcome State Fault Refusal :=
  match getRun s u with
  | none => .next s
  | some r =>
    if r.idx < r.words.length then .next s
    else match u with
      | .warp c k => .next (endWarp s c k r)
      | .front c k => .next (endFront s c k r)
      | .thread q => .next (endThread s q r)

end Sys2Proof.Machine
end

