-- ==== Sys2Proof/Machine/Copy.lean ====
section
/-!
DEFINITION. Stream engines (spec/07): layout records and command blocks, arrivals, the start and its checks, sectors, completion, residues, replays and
cancels, overlay loads; and the structures a device writes for a context (spec/04 R439).
-/
namespace Sys2Proof.Machine

/-! ### A device's reads and writes in a context -/

/-- Read `n` bytes, line by line. The fault comes with its address. -/
def devRead (x : XCtx) (pol : Nat) : Nat → State → W64 → Nat → State × ((AFault × W64) ⊕ Nat)
  | 0, s, _, _ => (s, .inr 0)
  | fuel + 1, s, va, n =>
    if n = 0 then (s, .inr 0)
    else
      let c := Nat.min n (128 - va.toNat % 128)
      let t := translate s x va false
      match t.2 with
      | .bad f => (t.1, .inl (f, va))
      | .ok pa leaf =>
        let r := readLine t.1 (lineReq t.1 x pa leaf pol) (touched ((2 ^ c - 1) * 2 ^ (pa % 128))) false
        match r.2 with
        | .bad f => (r.1, .inl ({ f with pte := if f.cause = 9 then leaf else f.pte }, va))
        | .ok d _ _ _ _ =>
          let b := devRead x pol fuel r.1 (va + BitVec.ofNat 64 c) (n - c)
          match b.2 with
          | .inl e => (b.1, .inl e)
          | .inr v => (b.1, .inr (fieldOfLine d (pa % 128) c + v * 2 ^ (8 * c)))

/-- Write the bytes of `v` that the mask `k` names, line by line: the greatest WCT. -/
def devWrite (x : XCtx) (pol : Nat) (bumps : Bool) : Nat → State → W64 → Nat → Nat → Nat → State × ((AFault × W64) ⊕ Nat)
  | 0, s, _, _, _, _ => (s, .inr 0)
  | fuel + 1, s, va, n, k, v =>
    if n = 0 then (s, .inr 0)
    else
      let c := Nat.min n (128 - va.toNat % 128)
      let rest := fun (s : State) => devWrite x pol bumps fuel s (va + BitVec.ofNat 64 c) (n - c) (k / 2 ^ c) (v / 2 ^ (8 * c))
      if k % 2 ^ c = 0 then rest s
      else
        let t := translate s x va true
        match t.2 with
        | .bad f => (t.1, .inl (f, va))
        | .ok pa leaf =>
          let w := writeLine t.1 (lineReq t.1 x pa leaf pol) (k % 2 ^ c * 2 ^ (pa % 128))
            (BitVec.ofNat 1024 (v % 2 ^ (8 * c) * 2 ^ (8 * (pa % 128)))) (fun m => m) bumps
          match w.2 with
          | .bad f => (w.1, .inl ({ f with pte := if f.cause = 9 then leaf else f.pte }, va))
          | .ok wct =>
            let b := rest w.1
            match b.2 with
            | .inl e => (b.1, .inl e)
            | .inr m => (b.1, .inr (Nat.max wct m))

/-- Bytes at an address, over as many lines as they take. Structures that the device reads or writes have no policy field (R98): the model takes `.noalloc` for command
blocks, records and other device structures, and code 0b00 for WAITC, queue words, stash fills and write-backs, and overlay loads (DESIGN CHOICE, log 30). -/
def devGet (s : State) (x : XCtx) (va : W64) (n : Nat) : State × ((AFault × W64) ⊕ Nat) := devRead x 2 (n / 128 + 2) s va n

/-- 64-bit words at an address. -/
def devWords (s : State) (x : XCtx) (va : W64) (n : Nat) : State × ((AFault × W64) ⊕ List W64) :=
  let r := devGet s x va (8 * n)
  match r.2 with
  | .inl e => (r.1, .inl e)
  | .inr v => (r.1, .inr ((List.range n).map (fun i => BitVec.ofNat 64 (v / 2 ^ (64 * i)))))

/-- ORIGIN of an engine (spec/25 R403). -/
def engineOrigin (core eng : Nat) : Nat := 2 ^ 23 * core + 2 ^ 17 * eng

/-- ORIGIN of every other device structure (R439). -/
def deviceOrigin : Nat := 0x1FF * 2 ^ 23

/-- A fault of a device access enters the ring; a service thread's own does not (spec/24 R437). -/
def devFault (s : State) (x : XCtx) (va : W64) (f : AFault) (access source origin merged : Nat) (reqid : W64) : State :=
  if x.thread.isSome then s else pushFault s x.die x.ctx x.world va f access source origin merged reqid

/-- A structure the device writes for a context (R439): a line whose write faults is dropped and leaves a record; the others are written. The greatest WCT. -/
def structLines (x : XCtx) (source origin : Nat) (bumps : Bool) : Nat → State → W64 → Nat → Nat → State × Nat
  | 0, s, _, _, _ => (s, 0)
  | fuel + 1, s, va, n, v =>
    if n = 0 then (s, 0)
    else
      let c := Nat.min n (128 - va.toNat % 128)
      let w := devWrite x 2 bumps 2 s va c (2 ^ c - 1) (v % 2 ^ (8 * c))
      let s := match w.2 with
        | .inl (f, a) => devFault w.1 x a f 1 source origin 1 0
        | .inr _ => w.1
      let b := structLines x source origin bumps fuel s (va + BitVec.ofNat 64 c) (n - c) (v / 2 ^ (8 * c))
      (b.1, Nat.max b.2 (match w.2 with
        | .inl _ => 0
        | .inr wct => wct))

def structWrite (s : State) (x : XCtx) (va : W64) (n v source origin : Nat) (bumps : Bool) : State × Nat :=
  structLines x source origin bumps (n / 128 + 2) s va n v

/-- A line of source bytes, as an engine reads it: the sectors it needs, in one request. -/
def devLine (s : State) (x : XCtx) (pol : Nat) (va : W64) (need : BitVec 4) : State × ((AFault × W64) ⊕ Line) :=
  let t := translate s x va false
  match t.2 with
  | .bad f => (t.1, .inl (f, va))
  | .ok pa leaf =>
    let r := readLine t.1 (lineReq t.1 x pa leaf pol) need false
    match r.2 with
    | .bad f => (r.1, .inl ({ f with pte := if f.cause = 9 then leaf else f.pte }, va))
    | .ok d _ _ _ _ => (r.1, .inr d)

/-! ### Records (R134-R136) -/

/-- Bytes of an element (R31). -/
def elemBytes (t : Nat) : Nat := if t = 12 then 1 else if t = 9 then 2 else typeBytes t

/-- A tensor layout record's fields. -/
structure Tlr where
  base : W64
  rank : Nat
  etype : Nat
  pol : Nat
  idim : Nat
  box : List Nat
  dim : List Nat
  stride : List Nat
  bad : Bool

def nthN (l : List Nat) (i : Nat) : Nat := l.getD i 0

/-- Parse a record (R134) and say whether it is malformed (R135). `indirect`: a data record whose IDIM counts. -/
def parseTlr (ws : List W64) : Tlr :=
  let w := fun (i : Nat) => ws.getD i 0
  let rank := fld (w 1) 31 29
  let etype := fld (w 1) 28 25
  let es := elemBytes etype
  let box := fld (w 1) 15 0 :: (List.range 4).map (fun k => fld (w (4 + k)) 63 48)
  let dim := [fld (w 1) 63 32, fld (w 2) 31 0, fld (w 2) 63 32, fld (w 3) 31 0, fld (w 3) 63 32]
  let stride := es :: (List.range 4).map (fun k => fld (w (4 + k)) 39 0)
  let idim := fld (w 1) 22 20
  { base := BitVec.ofNat 64 (fld (w 0) 51 0), rank := rank, etype := etype, pol := fld (w 1) 24 23, idim := idim, box := box, dim := dim
    stride := stride
    bad := fld (w 0) 63 52 ≠ 0 || fld (w 1) 19 16 ≠ 0 || (List.range 4).any (fun k => fld (w (4 + k)) 47 40 ≠ 0) || rank = 0 || 5 < rank ||
      etype = 13 || etype = 15 || fld (w 1) 24 23 = 3 ||
      (List.range 5).any (fun k => if k < rank then nthN dim k = 0 || nthN box k = 0
        else nthN dim k ≠ 0 || nthN box k ≠ 0 || (k ≠ 0 && nthN stride k ≠ 0)) ||
      fld (w 0) 51 0 % es ≠ 0 || (List.range 4).any (fun k => nthN stride (k + 1) % es ≠ 0) || rank ≤ idim }

/-- A command block's fields (R136). -/
structure Ccb where
  data : W64
  index : W64
  dense : W64
  queue : W64
  origin : List Int
  w52 : Nat
  residue : W64
  bad : Bool

def ccbParts (w : Nat) : Nat := w / 2 ^ 24 % 256
def ccbScope (w : Nat) : Nat := w / 2 ^ 21 % 8
def ccbScatter (w : Nat) : Bool := w.testBit 20
def ccbDsp (w : Nat) : Bool := w.testBit 19
def ccbCore (w : Nat) : Nat := w / 2 ^ 15 % 16
def ccbEng (w : Nat) : Nat := w / 2 ^ 14 % 2
def ccbPol (w : Nat) : Nat := w / 2 ^ 12 % 4
def ccbTok (w : Nat) : Nat := w / 2 ^ 4 % 256

/-- Parse a command block; `dsp`, `parts` and `coresel` are the values that count (R137). -/
def parseCcb (addr : W64) (dsp : Bool) (parts coresel : Nat) (ws : List W64) : Ccb :=
  let w := fun (i : Nat) => ws.getD i 0
  let o := [fld (w 4) 31 0, fld (w 4) 63 32, fld (w 5) 31 0, fld (w 5) 63 32, fld (w 6) 31 0]
  let w52 := fld (w 6) 63 32
  { data := w 0, index := w 1, dense := w 2, queue := w 3, origin := o.map (fun v => (BitVec.ofNat 32 v).toInt), w52 := w52, residue := w 7
    bad := addr.toNat % 64 ≠ 0 || w52 % 16 ≠ 0 || (dsp && fld (w 2) 63 19 ≠ 0) || fld (w 2) 4 0 ≠ 0 || fld (w 7) 5 0 ≠ 0 ||
      (!dsp && coresel ≠ 0) || (dsp && ccbPol w52 ≠ 0) || parts = 0 || 192 < parts || 5 < ccbScope w52 || ccbPol w52 = 3 ||
      fld (w 0) 2 0 ≠ 0 || fld (w 1) 2 0 ≠ 0 }

/-! ### Copies and their engines (R132) -/

/-- The accesses of a copy's engine. -/
def copyX (s : State) (c : Copy) : XCtx := match c.unit with
  | .thread q => threadX s q
  | _ => ctxX s c.core c.ctx c.world c.sid

/-- The core of a team that holds a copy's engine. -/
def engineCore (s : State) (handle : Nat) (u : UnitId) (dsp : Bool) (coresel : Nat) : Nat :=
  match findTeam s handle, u with
  | some t, _ => if dsp then t.start + coresel else t.start
  | none, .warp c _ => c
  | none, .front c _ => c
  | none, .thread _ => 0

/-- Started copies of an engine. -/
def engineLoad (s : State) (core eng : Nat) : Nat := (s.copies.filter (fun c => c.started && c.core = core && c.eng = eng)).length

/-- A copy on a stash does not start, and moves nothing, while its team is stopped or out (R147, spec/26 R405). -/
def stashHeld (s : State) (c : Copy) : Bool := c.dsp && (match findTeam s c.handle with
  | some t => t.saved || t.st = .held
  | none => false)

/-- A copy or replay that became ready earlier is to start on the same engine (R132): not one that waits for its team or for a queue's reference. A replay's engine is
known once it has read its command block. -/
def engineQueue (s : State) (c : Copy) : Bool :=
  s.copies.any (fun d => d.id ≠ c.id && d.ready && !d.started && !d.stopped && !d.refWaits && !stashHeld s d && (!d.replay || d.ccb ≠ 0) && d.core = c.core &&
    d.eng = c.eng && d.readyAt < c.readyAt)

def newCopy (s : State) (o : Op) (ccb : W64) : Copy :=
  { id := s.nextOp, handle := o.handle, ctx := o.ctx, world := o.world, sid := o.sid, core := engineCore s o.handle o.unit false 0, ccb := ccb,
    replay := false, residue := 0, parts := 1, dsp := false, coresel := 0, eng := 0, arrivals := [], ready := false, readyAt := 0, refWaits := false, started := false,
    cancelled := false, stopped := false, noStat := false, words := [], data := [], index := [], total := 0, todo := [], missing := [],
    doneBefore := 0, moved := 0, fatal := 0, sec := 0, refTaken := false, replays := 0, firstVa := 0, firstSet := false, wct := 0, unit := o.unit, faulted := [] }

/-! ### Arrivals (R141) -/

/-- XCOPY (R140): the arrival is made once its read and its release are done. -/
def execXcopy (f : Full) (s : State) : Host.Outcome State Fault Refusal :=
  issueFull 0x6A f s (fun s x => if isSheaf s x.u then trapWord s x (illstate 0) else newOp s x (.xcopy f) x.act [] 0)

/-- A copy word's result for its issuer. -/
def copyStatus (code sectors : Nat) : List W128 := everyLane (2 ^ 28 * code + sectors % 2 ^ 28)

/-- Address operand of a copy word. -/
def wordAddr (o : Op) : W64 := (nth o.a (lowLane o.lanes)).setWidth 64

/-- The team's instance of a command block. -/
def findInstance (s : State) (o : Op) : Option Copy :=
  s.copies.find? (fun c => !c.replay && c.handle = o.handle && c.ccb = wordAddr o)

def hasArrived (s : State) (o : Op) : Bool := s.copies.any (fun c => c.arrivals.any (fun a => a.1 = o.id))

/-- Count an arrival whose release is over: it opens an instance, joins one, or fails. -/
def countArrival (s : State) (o : Op) (w : Nat) : State :=
  let first := (nth o.b (lowLane o.lanes)).toNat % 2 ^ 32
  let count := (nth o.c (lowLane o.lanes)).toNat % 2 ^ 32
  let join := fun (s : State) (c : Copy) =>
    let c := { c with arrivals := c.arrivals ++ [(o.id, first, count)] }
    { c with ready := c.parts ≤ c.arrivals.length, readyAt := s.turnNo }
  match findInstance s o with
  | some c => if c.ready then performed s o.id (copyStatus 2 0) else setCopy s (join s c)
  | none =>
    if ccbParts w = 0 || 5 < ccbScope w then performed s o.id (copyStatus 2 0)
    else
      let c := { newCopy s o (wordAddr o) with
        parts := ccbParts w, dsp := ccbDsp w, coresel := ccbCore w, eng := ccbEng w
        core := engineCore s o.handle o.unit (ccbDsp w) (ccbCore w) }
      { s with copies := s.copies ++ [join s c], nextOp := s.nextOp + 1 }

/-- One step of an arrival: its read, its release, its count. -/
def performArrival (s : State) (o : Op) : State :=
  if hasArrived s o || heldByAcquire s o then s
  else if o.arg = 0 then
    let x := opX s o
    let r := devGet s x (wordAddr o + 52) 4
    match r.2 with
    | .inl (f, va) => performed (devFault r.1 x va f 3 1 (engineOrigin (engineCore s o.handle o.unit false 0) 0) 1 0) o.id (copyStatus 2 0)
    | .inr w => setOp r.1 { o with arg := w + 1 }
  else
    let r := releaseStep s o (Nat.min 5 (ccbScope (o.arg - 1)))
    match r.2, findOp r.1 o.id with
    | true, some o => countArrival r.1 o (o.arg - 1)
    | _, _ => r.1

/-! ### The geometry (R138, R139) -/

def boxOf (t : Tlr) (k : Nat) : Nat := if k < t.rank then nthN t.box k else 1

/-- What a started copy moves, from the words it read. -/
structure Geo where
  ccb : Ccb
  data : Tlr
  index : Option Tlr
  u : Nat
  ub : Nat
  units : Nat
  scatter : Bool
  dsp : Bool

def copyGeo (c : Copy) : Geo :=
  let ccb := parseCcb c.ccb c.dsp c.parts c.coresel c.words
  let d := parseTlr c.data
  let ix := if ccb.index = 0 then none else some (parseTlr c.index)
  let u := match ix with
    | none => d.rank - 1
    | some _ => d.idim
  let ub := elemBytes d.etype * ((List.range 5).map (fun k => if k = u then 1 else boxOf d k)).foldl (· * ·) 1
  { ccb := ccb, data := d, index := ix, u := u, ub := ub
    units := match ix with
      | none => boxOf d u
      | some t => ((List.range 5).map (boxOf t)).foldl (· * ·) 1
    scatter := ccbScatter ccb.w52, dsp := c.dsp }

/-- Coordinates of a linear position in a box, dimension 0 fastest; dimension `skip` is held at 0. -/
def coords (t : Tlr) (skip : Option Nat) (pos : Nat) : List Nat :=
  ((List.range 5).foldl (fun (p : List Nat × Nat) k =>
    let b := if skip = some k then 1 else boxOf t k
    (p.1 ++ [p.2 % b], p.2 / b)) ([], pos)).1

/-- Address of an element, or none out of range. -/
def elemAddr (t : Tlr) (cs : List Int) : Option W64 :=
  if (List.range t.rank).all (fun k => 0 ≤ cs.getD k 0 && cs.getD k 0 < (nthN t.dim k : Int)) then
    some (t.base + BitVec.ofNat 64 (sumL ((List.range t.rank).map (fun k => nthN t.stride k * (cs.getD k 0).toNat))))
  else none

/-- Where the index of unit `n` stands: none for a direct copy, or out of range of the index tensor. -/
def indexVa (g : Geo) (n : Nat) : Option W64 := g.index.bind (fun t => elemAddr t ((coords t none n).map Int.ofNat))

/-- The elements of a sector: byte offset in the sector and address (none: out of range). -/
def sectorElems (g : Geo) (q : Option Int) (sec : Nat) : List (Nat × Option W64) :=
  let es := elemBytes g.data.etype
  let p0 := 32 * sec % g.ub / es
  (List.range (32 / es)).map (fun i =>
    let js := coords g.data (some g.u) (p0 + i)
    let cs := (List.range 5).map (fun k => g.ccb.origin.getD k 0 + (if k = g.u then (q.getD 0) else (js.getD k 0 : Int)))
    (es * i, if q.isNone then none else elemAddr g.data cs))

/-- Virtual address of a dense byte. -/
def denseVa (g : Geo) (off : Nat) : W64 := g.ccb.dense + BitVec.ofNat 64 off

/-! ### The start (R132, R137, R145, R282) -/

/-- Header words of a residue record. -/
def residueWords (c : Copy) (active : Bool) (done missing last reason : Nat) : List W64 :=
  [c.ccb, BitVec.ofNat 64 (c.total + 2 ^ 32 * done),
   BitVec.ofNat 64 (missing + 2 ^ 32 * (active.toNat + 2 ^ 16 * c.replays + 2 ^ 24 * reason + 2 ^ 28 * last)), c.firstVa, 0, 0, 0, 0]

def wordsNat (ws : List W64) : Nat := leBytes (wordBytes ws)

/-- Write a copy's residue header. -/
def writeHeader (s : State) (c : Copy) (active : Bool) (done missing last reason : Nat) : State :=
  if c.residue = 0 then s
  else (structWrite s (copyX s c) c.residue 64 (wordsNat (residueWords c active done missing last reason)) 1 (engineOrigin c.core c.eng) true).1

/-- The fault of a start's read, with the residue record's address where it is known. -/
def startFault (s : State) (c : Copy) (residue : W64) (e : AFault × W64) : State :=
  devFault s (copyX s c) e.2 e.1 3 1 (engineOrigin c.core c.eng) 1 residue

/-- Does the dense side in the stash break R137, or leave the team's grant (spec/08 R157)? A copy that its team's end has cancelled before its start moves nothing: the
stash it named is no longer the team's, and only its bound is left to test (R147; log 22). -/
def stashBad (s : State) (c : Copy) (g : Geo) : Bool :=
  let off := g.ccb.dense.toNat
  let len := g.units * g.ub
  393216 < off + len || match findTeam s c.handle with
    | some t => t.shape.cores ≤ c.coresel || !inGrant s c.handle off len ||
      (len ≠ 0 && (List.range ((off + len + 255) / 256 - off / 256)).any (fun i => (stashTag s c.core (off / 256 + i)).isSome))
    | none => !(c.cancelled && c.noStat)

/-- The sectors that a copy's arrivals name (R141). -/
def arrivedSectors (c : Copy) (g : Geo) : List Nat :=
  ((List.range g.units).filter (fun u => c.arrivals.any (fun a => a.2.1 ≤ u && u < a.2.1 + a.2.2))).flatMap
    (fun u => (List.range (g.ub / 32)).map (fun j => u * (g.ub / 32) + j))

/-- FATAL reason 1 of a copy's records and their agreement (R137). -/
def geoBad (g : Geo) : Bool :=
  let ixBad := match g.index with
    | none => false
    | some t => t.bad || t.etype ≠ 2 || t.idim ≠ 0
  g.data.bad || ixBad || (g.index.isNone && g.data.idim ≠ 0) || (List.range 5).any (fun k => g.data.rank ≤ k && g.ccb.origin.getD k 0 ≠ 0) ||
    g.ub % 32 ≠ 0 || 2 ^ 28 ≤ g.units * g.ub / 32

/-- The reads and checks of a start before any reference is taken: the copy with its words, or its FATAL reason. The residue header counts as readable
once read; a replay has read its own. R137 states no order among the reasons of a copy: the command block, the residue header (reason 2), the command block's form (1),
the records (2, 1), the stash (3) and the queue's alignment (1) are taken in this order (DESIGN CHOICE, log 22). -/
def startChecks (s : State) (c : Copy) : State × Copy :=
  let x := copyX s c
  let known := if c.replay then c.residue else 0
  let fatal := fun (s : State) (c : Copy) (n : Nat) => (s, { c with started := true, fatal := n })
  let a := devWords s x c.ccb 8
  match a.2 with
  | .inl e => fatal (startFault a.1 c known e) c 2
  | .inr ws =>
    let c := { c with words := ws }
    let ccb := parseCcb c.ccb c.dsp c.parts c.coresel ws
    let known := if c.replay then c.residue else ccb.residue
    let h := if c.replay || ccb.residue = 0 || fld ccb.residue 5 0 ≠ 0 then (a.1, .inr []) else devWords a.1 x ccb.residue 8
    match h.2 with
    | .inl e => fatal (startFault h.1 c known e) c 2
    | .inr hs =>
      let c := if hs.isEmpty then c else { c with residue := ccb.residue }
      if ccb.bad then fatal h.1 c 1
      else
        let d := devWords h.1 x ccb.data 8
        match d.2 with
        | .inl e => fatal (startFault d.1 c known e) c 2
        | .inr ds =>
          let i := if ccb.index = 0 then (d.1, .inr []) else devWords d.1 x ccb.index 8
          match i.2 with
          | .inl e => fatal (startFault i.1 c known e) c 2
          | .inr is =>
            let c := { c with data := ds, index := is }
            let g := copyGeo c
            if geoBad g then fatal i.1 c 1
            else if c.dsp && stashBad i.1 c g then fatal i.1 c 3
            else if fld ccb.queue 5 0 ≠ 0 then fatal i.1 c 1
            else (i.1, { c with total := g.units * g.ub / 32 })

/-- Take the reference of a start; none: it waits (R282). -/
def startRef (s : State) (c : Copy) : Option (State × Copy) :=
  let q := (parseCcb c.ccb c.dsp c.parts c.coresel c.words).queue
  if q = 0 then some (s, c)
  else
    let r := takeRef s (copyX s c) q
    match r.2 with
    | .taken => some (r.1, { c with refTaken := true })
    | .dropped => some (r.1, c)
    | .busy => if r.1.holds = [] then none else some (r.1, c)
    | .bad f => some (startFault r.1 c c.residue (f, q), { c with started := true, fatal := 2 })

/-- A copy's start. -/
def startCopy (s : State) (c : Copy) : State :=
  if 8 ≤ engineLoad s c.core c.eng || engineQueue s c then s
  else
    let a := startChecks s c
    if a.2.fatal ≠ 0 then setCopy a.1 a.2
    else match startRef a.1 a.2 with
      | none => setCopy s { c with refWaits := true }
      | some (s, c) =>
        if c.fatal ≠ 0 then setCopy s c
        else
          let c := { c with started := true, todo := arrivedSectors c (copyGeo c) }
          let s := writeHeader (setCopy s c) c true 0 0 0 0
          if c.residue ≠ 0 then
            { s with launch := { s.launch with
              resOwners := (c.ctx, c.residue, c.handle) :: s.launch.resOwners.filter (fun p => !(p.1 = c.ctx && p.2.1 = c.residue)) } }
          else s

/-- Which team issued the copy of a residue record. -/
def residueOwner (s : State) (ctx : Nat) (va : W64) : Option Nat :=
  (s.launch.resOwners.find? (fun p => p.1 = ctx && p.2.1 = va)).map (fun p => p.2.2)

/-- Bits set in a bitmap. -/
def bitsOf (v n : Nat) : List Nat := (List.range n).filter (fun i => v.testBit i)

/-- MBZ bits of a residue header (R145) that are not zero: the record is malformed (spec/00 R3). -/
def residueBad (hs : List W64) : Bool := fld (hs.getD 2 0) 47 33 ≠ 0 || (List.range 4).any (fun i => hs.getD (4 + i) 0 ≠ 0)

/-- A replay's start, in the order of R146. For a malformed residue record the chapter states no report: it is FATAL reason 1 as soon as its header is read
(DESIGN CHOICE, log 29). A start that must wait keeps what it has read of its engine, and reads again. -/
def startReplay (s : State) (c : Copy) : State :=
  let x := copyX s c
  let fatal := fun (s : State) (n : Nat) => setCopy s { c with started := true, fatal := n }
  let a := devWords s x c.residue 8
  match a.2 with
  | .inl e => fatal (startFault a.1 c c.residue e) 2
  | .inr hs =>
    let w2 := hs.getD 2 0
    if residueBad hs then fatal a.1 1
    else if bit w2 32 then fatal a.1 5
    else if fld w2 63 60 = 2 then fatal a.1 6
    else
      let c0 := { c with ccb := hs.getD 0 0 }
      let w := devGet a.1 x (c0.ccb + 52) 4
      let w52 := match w.2 with
        | .inl _ => 0
        | .inr v => v
      let owner := residueOwner s c.ctx c.residue
      let team := if ccbDsp w52 then owner.getD 0 else c.handle
      let c0 := { c0 with
        parts := ccbParts w52, dsp := ccbDsp w52, coresel := ccbCore w52, eng := ccbEng w52
        core := engineCore s team c.unit (ccbDsp w52) (ccbCore w52), handle := team }
      let issuerBad := ccbDsp w52 && (owner ≠ some c.handle || (findTeam s c.handle).isNone)
      -- R137's stash check belongs to step 4; it needs the team that step 6 finds
      let b := startChecks w.1 c0
      let waits := setCopy s { c0 with started := false, fatal := 0, handle := c.handle }
      if b.2.fatal ≠ 0 && !(b.2.fatal = 3 && issuerBad) then fatal b.1 b.2.fatal
      else if (parseCcb c0.ccb c0.dsp c0.parts c0.coresel b.2.words).residue ≠ c.residue then fatal b.1 5
      else if issuerBad then fatal b.1 3
      else if 8 ≤ engineLoad s c0.core c0.eng || engineQueue s c0 || stashHeld s c0 then waits
      else match startRef b.1 b.2 with
        | none => setCopy s { c0 with started := false, fatal := 0, handle := c.handle, refWaits := true }
        | some (t, c1) =>
          if c1.fatal ≠ 0 then fatal t c1.fatal
          else
            let n := fld w2 31 0
            let total := c1.total
            let m := if n = 0 then (t, .inr 0) else devGet t x (c.residue + 64) ((total + 7) / 8)
            match m.2 with
            | .inl e =>
              let t := startFault m.1 c1 c.residue e
              fatal (if c1.refTaken then (finishRef t x (parseCcb c1.ccb c1.dsp c1.parts c1.coresel c1.words).queue none).1 else t) 2
            | .inr v =>
              let c2 := { c1 with
                started := true, todo := bitsOf v total, doneBefore := fld (hs.getD 1 0) 63 32, replays := fld w2 55 48, firstVa := 0 }
              writeHeader (setCopy m.1 c2) { c2 with firstVa := hs.getD 3 0 } true c2.doneBefore n (fld w2 63 60) 0

/-! ### Moving sectors (R139, R144)

A turn of a started copy moves the sectors that are left in one dense line: it reads what they need, then writes each line of the other side once, a write
transaction of its own (spec/06 R117; log 12). -/

/-- The page and direction of an access, as a number. -/
def pageKey (va : W64) (write : Bool) : Nat := va.toNat / 4096 * 2 + write.toNat

/-- A sector's index and whether it is one: none when its index is out of range. -/
def indexOf (g : Geo) (n v : Nat) : Option Int := match g.index with
  | none => some (n : Int)
  | some _ => match indexVa g n with
    | none => none
    | some _ => some (BitVec.ofNat 32 v).toInt

/-- The index of unit `n` as memory stands, for what it says of pages. -/
def indexNow (s : State) (x : XCtx) (g : Geo) (n : Nat) : Option Int := match indexVa g n with
  | none => indexOf g n 0
  | some a => match (devRead x 0 2 s a 4).2 with
    | .inl _ => none
    | .inr v => indexOf g n v

/-- The addresses at which a sector is read, or written. -/
def sectorTouches (s : State) (x : XCtx) (g : Geo) (sec : Nat) (write : Bool) : List W64 :=
  let n := 32 * sec / g.ub
  let els := (sectorElems g (indexNow s x g n) sec).filterMap (fun p => p.2)
  let dense := if g.dsp then [] else [denseVa g (32 * sec)]
  if write then (if g.scatter then els else dense)
  else (indexVa g n).toList ++ (if g.scatter then dense else els)

/-- A sector's request joins, or joined, a walk that this copy has reported: it fails with it (R85). One that misses after the walk has ended walks again (spec/25). -/
def alreadyFaulted (c : Copy) (sec : Nat) (va : W64) (write : Bool) : Bool := c.faulted.any (fun p => p.1 = pageKey va write && p.2.contains sec)

/-- Record the fault of a request made for `secs`: one record for the requests of a page that miss together (R85, R88), of sectors still to move any that are there when
the walk ends (log 7); one for each refusal at a slice. -/
def sectorFault (s : State) (c : Copy) (secs : List Nat) (e : AFault × W64) (write : Bool) : State × Copy :=
  let paged := e.1.cause = 5 || (e.1.cause = 6 && e.1.reason ≠ 5 && e.1.reason ≠ 6 && e.1.reason ≠ 10)
  let k := pageKey e.2 write
  let g := copyGeo c
  let joined := if paged then (c.todo.filter (fun i => !secs.contains i && (Config.pick s.freeNo).testBit i &&
    (sectorTouches s (copyX s c) g i write).any (fun a => pageKey a write = k))) else []
  (devFault (bumpFree s) (copyX s c) e.2 e.1 (if write then 4 else 3) 1 (engineOrigin c.core c.eng) (if paged then secs.length + joined.length else 1) c.residue,
   { c with
     faulted := if paged then (k, secs ++ joined) :: c.faulted else c.faulted
     firstVa := if c.firstSet then c.firstVa else e.2, firstSet := true })

/-- The lines of a list of addresses, each with what stands in it. -/
def byLine {α : Type} (va : α → W64) (l : List α) : List (Nat × List α) :=
  (dedup (l.map (fun a => (va a).toNat / 128))).map (fun n => (n, l.filter (fun a => (va a).toNat / 128 = n)))

/-- The sectors of a line that bytes touch. -/
def needOf (es : Nat) (vas : List W64) : BitVec 4 := vas.foldl (fun m a => m ||| touched ((2 ^ es - 1) * 2 ^ (a.toNat % 128))) 0

/-- Read a sector's in-range elements, line by line: its bytes, and whether all could be read. Every line that cannot be is recorded. -/
def gatherElems (x : XCtx) (pol es sec : Nat) : List (Nat × List (Nat × W64)) → State → Copy → State × Copy × Bool × Nat
  | [], s, c => (s, c, true, 0)
  | (line, els) :: t, s, c =>
    let va : W64 := (els.headD (0, BitVec.ofNat 64 (128 * line))).2
    if alreadyFaulted c sec va false then
      let r := gatherElems x pol es sec t s c
      (r.1, r.2.1, false, r.2.2.2)
    else
      let d := devLine s x pol va (needOf es (els.map (fun e => e.2)))
      match d.2 with
      | .inl e =>
        let f := sectorFault d.1 c [sec] e false
        let r := gatherElems x pol es sec t f.1 f.2
        (r.1, r.2.1, false, r.2.2.2)
      | .inr m =>
        let r := gatherElems x pol es sec t d.1 c
        (r.1, r.2.1, r.2.2.1, r.2.2.2 + sumL (els.map (fun e => fieldOfLine m (e.2.toNat % 128) es * 2 ^ (8 * e.1))))

/-- A sector's index, read; the first part of the answer is none when the read faults. -/
def sectorIndex (s : State) (x : XCtx) (c : Copy) (g : Geo) (sec : Nat) : State × Copy × Option (Option Int) :=
  let n := 32 * sec / g.ub
  match g.index, indexVa g n with
  | some t, some a =>
    if alreadyFaulted c sec a false then (s, c, none)
    else
      let r := devRead x t.pol 2 s a 4
      match r.2 with
      | .inl e =>
        let f := sectorFault r.1 c [sec] e false
        (f.1, f.2, none)
      | .inr v => (r.1, c, some (indexOf g n v))
  | _, _ => (s, c, some (indexOf g n 0))

/-- The dense bytes of a sector, read. -/
def denseRead (s : State) (x : XCtx) (c : Copy) (g : Geo) (sec : Nat) : State × Copy × Option Nat :=
  if g.dsp then (s, c, some (stashRead s c.core (g.ccb.dense.toNat + 32 * sec) 32))
  else if alreadyFaulted c sec (denseVa g (32 * sec)) false then (s, c, none)
  else
    let r := devRead x (ccbPol g.ccb.w52) 2 s (denseVa g (32 * sec)) 32
    match r.2 with
    | .inl e =>
      let f := sectorFault r.1 c [sec] e false
      (f.1, f.2, none)
    | .inr v => (r.1, c, some v)

/-- Bytes of one line that an engine writes: each with its sector and address, `n` bytes of `v`. -/
structure Piece where
  sec : Nat
  va : W64
  n : Nat
  v : Nat

/-- The byte mask and bytes of the pieces of a line, later ones last. -/
def piecesImage (ps : List Piece) : Nat × Nat :=
  ps.foldl (fun (p : Nat × Nat) a =>
    let off := a.va.toNat % 128
    let old := p.2 / 2 ^ (8 * off) % 2 ^ (8 * a.n)
    (p.1 ||| (2 ^ a.n - 1) * 2 ^ off, p.2 - old * 2 ^ (8 * off) + a.v % 2 ^ (8 * a.n) * 2 ^ (8 * off))) (0, 0)

/-- Write lines, each one transaction: the sectors that could not be written are added to `lost`. -/
def writeLines (x : XCtx) (pol : Nat) : List (Nat × List Piece) → State → Copy → List Nat → State × Copy × List Nat
  | [], s, c, lost => (s, c, lost)
  | (line, ps) :: t, s, c, lost =>
    let base : W64 := BitVec.ofNat 64 (128 * line)
    let joined := (ps.filter (fun p => alreadyFaulted c p.sec p.va true)).map (fun p => p.sec)
    let ps := ps.filter (fun p => !joined.contains p.sec)
    match ps with
    | [] => writeLines x pol t s c (lost ++ joined)
    | p :: _ =>
      let im := piecesImage ps
      let w := devWrite x pol true 2 s base 128 im.1 im.2
      match w.2 with
      | .inl e =>
        let secs := dedup (ps.map (fun p => p.sec))
        let f := sectorFault w.1 c secs (e.1, p.va) true
        writeLines x pol t f.1 f.2 (lost ++ joined ++ secs)
      | .inr wct => writeLines x pol t w.1 { c with wct := Nat.max c.wct wct } (lost ++ joined)

/-- A list begun at its `n`-th element: which of several writes of one address stays is unspecified (R135; log 7). -/
def rotate {α : Type} (l : List α) (n : Nat) : List α := l.drop (n % Nat.max 1 l.length) ++ l.take (n % Nat.max 1 l.length)

/-- A sector completed; a replay clears its bit in the record (R146): a byte that cannot be reached is a dropped write (spec/04 R439). -/
def sectorDone (s : State) (c : Copy) (sec : Nat) : State × Copy :=
  let c := { c with moved := c.moved + 1 }
  if c.replay then
    let x := copyX s c
    let a := c.residue + 64 + BitVec.ofNat 64 (sec / 8)
    let r := devGet s x a 1
    match r.2 with
    | .inl e => (devFault r.1 x e.2 e.1 1 1 (engineOrigin c.core c.eng) 1 0, c)
    | .inr v => ((structWrite r.1 x a 1 (v - (v / 2 ^ (sec % 8) % 2) * 2 ^ (sec % 8)) 1 (engineOrigin c.core c.eng) true).1, c)
  else (s, c)

/-- What a sector brings to the other side: none when a read of it faulted. -/
def sectorPieces (s : State) (x : XCtx) (c : Copy) (g : Geo) (sec : Nat) : State × Copy × Option (List Piece) :=
  let es := elemBytes g.data.etype
  let u := sectorIndex s x c g sec
  match u.2.2 with
  | none => (u.1, u.2.1, none)
  | some q =>
    let els := (sectorElems g q sec).filterMap (fun p => p.2.map (fun a => (p.1, a)))
    if g.scatter then
      let d := denseRead u.1 x u.2.1 g sec
      (d.1, d.2.1, d.2.2.map (fun v => els.map (fun e => { sec := sec, va := e.2, n := es, v := v / 2 ^ (8 * e.1) })))
    else
      let d := gatherElems x g.data.pol es sec (byLine (fun e => e.2) els) u.1 u.2.1
      (d.1, d.2.1, if d.2.2.1 then some [{ sec := sec, va := denseVa g (32 * sec), n := 32, v := d.2.2.2 }] else none)

/-- Sectors left in the dense line of one of them. -/
def lineMates (c : Copy) (g : Geo) (sec : Nat) : List Nat :=
  c.todo.filter (fun i => (g.ccb.dense.toNat + 32 * i) / 128 = (g.ccb.dense.toNat + 32 * sec) / 128)

/-- Read what a list of sectors moves: the pieces, and the sectors found missing. -/
def readSectors (x : XCtx) (g : Geo) : List Nat → State → Copy → State × Copy × List Piece × List Nat
  | [], s, c => (s, c, [], [])
  | sec :: t, s, c =>
    let p := sectorPieces s x { c with todo := c.todo.filter (· ≠ sec) } g sec
    let r := readSectors x g t p.1 p.2.1
    match p.2.2 with
    | some ps => (r.1, r.2.1, ps ++ r.2.2.1, r.2.2.2)
    | none => (r.1, r.2.1, r.2.2.1, sec :: r.2.2.2)

/-- Move the sectors left in the dense line of sector `sec`. -/
def moveLine (s : State) (c : Copy) (sec : Nat) : State :=
  let g := copyGeo c
  let x := copyX s c
  let secs := lineMates c g sec
  let r := readSectors x g secs s c
  let c := r.2.1
  let ok := secs.filter (fun i => !r.2.2.2.contains i)
  let w := if !g.scatter && g.dsp then
      (r.2.2.1.foldl (fun s p => stashPut s c.core (g.ccb.dense.toNat + 32 * p.sec) (2 ^ 32 - 1) p.v 32) r.1, c, [])
    else
      let ps := if g.scatter then rotate r.2.2.1 (Config.pick r.1.freeNo) else r.2.2.1
      writeLines x (if g.scatter then g.data.pol else ccbPol g.ccb.w52) (byLine (fun p => p.va) ps) (bumpFree r.1) c []
  let d := (ok.filter (fun i => !w.2.2.contains i)).foldl (fun (p : State × Copy) i => sectorDone p.1 p.2 i) (w.1, w.2.1)
  setCopy d.1 { d.2 with missing := d.2.missing ++ secs.filter (fun i => r.2.2.2.contains i || w.2.2.contains i) }

/-- COPY_START (R132): the start of a ready copy; then, at each further turn, the sectors left in one of its dense lines move, in no order (log 7). -/
def execCopyStart (copy : Nat) (s : State) : Host.Outcome State Fault Refusal :=
  match findCopy s copy with
  | none => .next s
  | some c =>
    if !c.ready || c.stopped || stashHeld s c then .next s
    else if !c.started then .next (if c.replay then startReplay s c else startCopy s c)
    else if c.fatal ≠ 0 || c.cancelled || c.todo.isEmpty then .next s
    else
      .next (moveLine (bumpFree s) c (c.todo.getD (Config.pick s.freeNo % c.todo.length) 0))

/-! ### Completion (R142, R143, R145) -/

/-- A HELD team's answers wait for it (spec/26 R406). -/
def teamHolds (s : State) (handle : Nat) : Bool := match findTeam s handle with
  | some t => t.st = .held
  | none => false

/-- The status word reaches a contributor and its flag falls; a team that is out keeps its answer for its restore. -/
def copyAnswer (s : State) (id : Nat) (res : List W128) : State :=
  let s := performed s id res
  match findOp s id with
  | none => s
  | some o =>
    if teamHolds s o.handle then s
    else if ownerHere s o then writeLanes s id 0xFFFFFFFF#32
    else match findTeam s o.handle with
      | some _ => s
      | none => dropOp s id

/-- Bits [lo, hi) of a bitmap, as bytes. -/
def bitmapNat (ms : List Nat) : Nat := ms.foldl (fun v i => v ||| 2 ^ i) 0

/-- The end of a copy: deposit, residue, status words, in that order. -/
def endCopy (s : State) (c : Copy) : State :=
  let g := copyGeo c
  let x := copyX s c
  let missing := if c.cancelled then c.missing ++ c.todo else c.missing
  let last := missing.isEmpty && (!c.replay || c.moved ≠ 0)
  let d := if c.fatal ≠ 0 || g.ccb.queue = 0 then (s, 0, 0)
    else if c.refTaken then
      finishRef s x g.ccb.queue (some (if last then ccbTok g.ccb.w52 else 0, 32 * c.moved, 0))
    else (s, 4, 0)
  let code := if c.fatal ≠ 0 then 2 else if c.cancelled then 3 else if d.2.1 ≠ 0 then d.2.1 else if missing.isEmpty then 0 else 1
  let done := c.doneBefore + c.moved
  let c := { c with replays := if c.replay then sat 255 (c.replays + 1) else 0 }
  let s := if c.fatal ≠ 0 then (if c.replay then d.1 else writeHeader d.1 { c with total := 0, firstVa := 0, replays := 0 } false 0 0 2 c.fatal)
    else
      let s := writeHeader d.1 c false done missing.length code 0
      if missing.isEmpty || c.residue = 0 then s
      else (structWrite s x (c.residue + 64) ((c.total + 63) / 64 * 8) (bitmapNat missing) 1 (engineOrigin c.core c.eng) true).1
  let s := dropCopy s c.id
  if c.noStat then s
  else c.arrivals.foldl (fun s a => copyAnswer s a.1 (copyStatus code (if c.fatal ≠ 0 then 0 else done))) s

/-- COPY_COMPLETE (R142): no sector is left to move, and module time has passed the copy's writes (R148). -/
def execCopyComplete (copy : Nat) (s : State) : Host.Outcome State Fault Refusal :=
  match findCopy s copy with
  | none => .next s
  | some c =>
    if c.started && !c.stopped && (c.fatal ≠ 0 || c.cancelled || c.todo.isEmpty) && passed s c.wct then .next (endCopy s c) else .next s

/-! ### Replay and cancel (R146) -/

/-- XREPLAY (R146). -/
def execXreplay (f : Full) (s : State) : Host.Outcome State Fault Refusal :=
  issueFull 0x6B f s (fun s x =>
    let id := s.nextOp
    let s := newOp s x (.xreplay f) x.act [] 0
    match findOp s id with
    | none => s
    | some o =>
      let c := { newCopy s o 0 with
        replay := true, residue := wordAddr o, arrivals := [(id, 0, 0)], ready := true, readyAt := s.turnNo }
      { s with copies := s.copies ++ [c], nextOp := s.nextOp + 1 })

/-- Whether a copy belongs to the context that issued an operation. -/
def sameContext (c : Copy) (o : Op) : Bool := match c.unit, o.unit with
  | .thread a, .thread b => a = b
  | .thread _, _ => false
  | _, .thread _ => false
  | _, _ => c.ctx = o.ctx

/-- Cancel a copy: an open instance completes at once, a running copy starts no new sector. -/
def cancelCopy (s : State) (c : Copy) : State :=
  if !c.ready then
    c.arrivals.foldl (fun s a => copyAnswer s a.1 (copyStatus 3 0)) (dropCopy s c.id)
  else setCopy s { c with cancelled := true }

/-- XCANCEL (R146). -/
def execXcancel (f : Full) (s : State) : Host.Outcome State Fault Refusal :=
  issueFull 0x6C f s (fun s x =>
    let id := s.nextOp
    let s := newOp s x (.xcancel f) x.act [] 0
    match findOp s id with
    | none => s
    | some o =>
      let cs := s.copies.filter (fun c => sameContext c o && c.ccb = wordAddr o && !c.cancelled && (!c.replay || c.started || c.ccb ≠ 0))
      match cs[Config.pick s.freeNo % Nat.max 1 cs.length]? with
      | none => performed s id (everyLane (2 ^ 28))
      | some c => performed (cancelCopy (bumpFree s) c) id (everyLane 0))

/-! ### Teams that end or stop (R147) -/

/-- A team that ends: its stash copies are cancelled without status words, its open instances discarded. -/
def endTeamCopies (s : State) (handle : Nat) : State :=
  let s := { s with copies := s.copies.filter (fun c => !(c.handle = handle && !c.replay && !c.ready)) }
  { s with
    copies := s.copies.map (fun c => if c.handle = handle && c.dsp then { c with cancelled := true, noStat := true, stopped := false } else c)
    launch := { s.launch with resOwners := s.launch.resOwners.filter (fun p => p.2.2 ≠ handle) } }

/-- The stash range a started copy uses. -/
def copySpan (c : Copy) : Option (Nat × Nat × Nat) :=
  if c.dsp && c.started && c.fatal = 0 then
    let g := copyGeo c
    some (c.core, g.ccb.dense.toNat, g.units * g.ub)
  else none

/-! ### Overlays (R149, R150) -/

/-- OVERLAY_LOAD (R150). -/
def execOverlayLoad (src : WSrc) (s : State) : Host.Outcome State Fault Refusal :=
  rowEvent s src 0x14 0x14 (fun s _ v => match src with
    | .unit (.front c k) =>
      let f := getFront s c k
      let f := { f with ovlcmd := maskWrite f.ovlcmd v (ones 51 16 ||| ones 14 4 ||| ones 1 1) }
      if ovlBusy s c then setFront s c k { f with ovlerr := true }
      else
        let i := fld v 1 1
        let len := fld v 14 4
        let bad := len = 0 || 1024 < len
        let load : OvlLoad := { front := k, handle := f.handle, cmd := v, ctx := f.ctx, world := f.world, sid := f.sid }
        let s := endBreaks (setSlot s c i { getSlot s c i with valid := false, loading := if bad then none else some load }) c
        setFront s c k { f with ovlerr := false, ovlcode := if bad then 2 else f.ovlcode }
    | _ => s)

/-- How a load ended stands in the context that began it, if that is still there. -/
def ovlEnded (s : State) (core : Nat) (l : OvlLoad) (code : Nat) : State :=
  let f := getFront s core l.front
  if f.live && f.handle = l.handle then setFront s core l.front { f with ovlcode := code } else s

/-- OVERLAY_LOAD_DONE (R150): the bytes are in the slot, or a fault has ended the load. The reads are those of the context that began it, whatever holds its place now. -/
def execOverlayLoadDone (core slot : Nat) (s : State) : Host.Outcome State Fault Refusal :=
  let o := getSlot s core slot
  match o.loading with
  | none => .next s
  | some l =>
    let x := ctxX s core l.ctx l.world l.sid
    let n := 64 * fld l.cmd 14 4
    let r := devRead x 0 (n / 128 + 2) s (BitVec.ofNat 64 (2 ^ 16 * fld l.cmd 51 16)) n
    match r.2 with
    | .inl (e, a) =>
      let s := devFault r.1 x a e 5 1 (engineOrigin core (Config.pick r.1.freeNo % 2)) 1 0
      .next (setSlot (ovlEnded (bumpFree s) core l 2) core slot { o with loading := none })
    | .inr d =>
      .next (setSlot (ovlEnded r.1 core l 0) core slot
        { valid := true, image := l.cmd.extractLsb' 16 36, len := n, loading := none, code := memPut o.code 0 (2 ^ n - 1) d n })

end Sys2Proof.Machine
end

