-- ==== Sys2Proof/Machine/Matrix.lean ====
section
/-!
DEFINITION. Matrix words on core pairs (spec/12 R233-R251): their issue checks, MRDY, the matching of joint parts, the pair's arbiter, the fragments and the
one summation order of R244, and retirement.
-/
namespace Sys2Proof.Machine

/-! ### Fragments (R237-R239) -/

/-- K of an input type. -/
def matK (t : Nat) : Nat := match t with
  | 8 => 32
  | 9 => 32
  | 10 => 8
  | 13 => 128
  | _ => 64

/-- Element (m, k) of a fragment at `base`, as its bits. -/
def fragEl (rd : Nat → VReg) (t base m k : Nat) : Nat :=
  let at_ := fun (r : Nat) => (lane (rd (base + r)) (m % 32)).toNat
  match t with
  | 8 => at_ (16 * (m / 32) + k / 2) / 2 ^ (16 * (k % 2)) % 2 ^ 16
  | 9 => at_ (16 * (m / 32) + k / 2) / 2 ^ (16 * (k % 2)) % 2 ^ 16
  | 10 => at_ (8 * (m / 32) + k)
  | 13 => at_ (16 * (m / 32) + k / 8) / 2 ^ (4 * (k % 8)) % 16
  | _ => at_ (16 * (m / 32) + k / 4) / 2 ^ (8 * (k % 4)) % 256

/-- The exponent pair of block `j` of row (or column) `m`. -/
def fragScale (rd : Nat → VReg) (t base m j : Nat) : Nat :=
  (lane (rd (base + scaleQ t * (m / 32) + j / 2)) (m % 32)).toNat / 2 ^ (16 * (j % 2)) % 2 ^ 16

/-- The values of a row (or column): a D element of a NaN block is a quiet NaN. -/
def fragRow (rd : Nat → VReg) (t base sbase m : Nat) : List FV :=
  (List.range (matK t)).map (fun k =>
    let x := fragEl rd t base m k
    match t with
    | 0 => intV ((BitVec.ofNat 8 x).toInt)
    | 12 => match dval false x (fragScale rd t sbase m (k / 32)) with
      | some d => .fin d.1 d.2.1 d.2.2
      | none => .nan false
    | 13 => match dval true x (fragScale rd t sbase m (k / 32)) with
      | some d => .fin d.1 d.2.1 d.2.2
      | none => .nan false
    | _ => fdec (fmtOf t) x)

/-! ### The sum (R244) -/

/-- The exact sum of a group's products, and whether NV is raised; none of finite terms gives the sign of zero only when every term is negative. -/
def groupSum (ps : List (FV × FV)) : FV × Bool :=
  let prods := ps.map (fun p => fmulV p.1 p.2)
  let sig := ps.any (fun p => isSig p.1 || isSig p.2)
  let bad := prods.any (fun p => p.isNone)
  let pos := prods.any (fun p => p = some (.inf false))
  let neg := prods.any (fun p => p = some (.inf true))
  let nv := sig || bad || (pos && neg)
  if nv || prods.any (fun p => match p with
    | some (.nan _) => true
    | _ => false) then (.nan false, nv)
  else if pos then (.inf false, false)
  else if neg then (.inf true, false)
  else
    let r := prods.foldl (fun (a : Bool × Bool × Nat × Int) p => match p with
      | some (.fin n m e) =>
        let t := exactAdd a.2.1 a.2.2.1 a.2.2.2 n m e
        (a.1 && n, t.1, t.2.1, t.2.2)
      | _ => a) (true, false, 0, 0)
    (.fin (if r.2.2.1 = 0 then r.1 else r.2.1) r.2.2.1 r.2.2.2, false)

/-- A value rounded to f32. -/
def roundF32 (v : FV) : FR := fconv f32 0 false v

/-- One group or block added to an element. -/
def addGroup (t c : Nat) (ps : List (FV × FV)) : FR :=
  let g := groupSum ps
  let nv := if g.2 then fNV else 0
  if t = 12 || t = 13 then
    let r := faddV f32 0 false (fdec f32 c) g.1
    { r with flags := r.flags ||| nv }
  else
    let h := roundF32 g.1
    let r := faddV f32 0 false (fdec f32 c) (fdec f32 h.bits)
    { r with flags := r.flags ||| nv ||| h.flags }

/-- The groups of an element in ascending order of k. -/
def addGroups (t size : Nat) : Nat → List (FV × FV) → FR → FR
  | 0, _, c => c
  | n + 1, ps, c =>
    let r := addGroup t c.bits (ps.take size)
    addGroups t size n (ps.drop size) { r with flags := r.flags ||| c.flags }

/-- The integer of a value with exponent 0. -/
def fvInt : FV → Int
  | .fin n m _ => if n then -(m : Int) else m
  | _ => 0

/-- One element's update. -/
def matElem (t c : Nat) (row col : List FV) : FR :=
  let ps := row.zip col
  if t = 0 then
    { bits := wrapTo 32 ((BitVec.ofNat 32 c).toInt + ps.foldl (fun v p => v + fvInt p.1 * fvInt p.2) 0), flags := 0 }
  else
    let size := if t = 12 || t = 13 then 32 else 8
    addGroups t size (matK t / size) ps { bits := c, flags := 0 }

/-! ### Tiles -/

/-- A tile's words from a list of 4,096. -/
def tileWords (ws : List W32) : SMap W32 := (ws.zipIdx.map (fun p => (p.2, p.1))).filter (fun p => p.2 ≠ 0)

/-- A list of values by row with the columns that serve it: the new words and flags. -/
def matTile (t : Nat) (old : Nat → W32) (rows : List (Option (List FV × List (List FV)))) : List W32 × Nat :=
  rows.zipIdx.foldl (fun (a : List W32 × Nat) p =>
    match p.1 with
    | none => (a.1 ++ (List.range 64).map (fun n => old (64 * p.2 + n)), a.2)
    | some (row, cols) =>
      let es := cols.zipIdx.map (fun q => matElem t (old (64 * p.2 + q.2)).toNat row q.1)
      (a.1 ++ es.map (fun e => BitVec.ofNat 32 e.bits), es.foldl (fun f e => f ||| e.flags) a.2)) ([], 0)

/-! ### Words and parts -/

def matTypeOf (i : Instr) : Nat := (instrFull i).ty.toNat
def isGrouped (i : Instr) : Bool := instrOp i = 0x73

/-- Parts of the word's operation (R246, R250). -/
def partCount (i : Instr) : Nat :=
  let f := instrFull i
  match instrOp i with
  | 0x71 => 2 * modF f 8 7
  | 0x73 => if modF f 8 8 = 1 then 2 else 1
  | _ => 1

def partIndex (i : Instr) : Nat :=
  let f := instrFull i
  match instrOp i with
  | 0x71 => modF f 6 5
  | 0x73 => modF f 4 4
  | _ => 0

/-- Row count of group `g` (R248). -/
def groupRows (z : W64) (g : Nat) : Nat := fld z (7 * g + 6) (7 * g)
/-- Rows before group `g`. -/
def groupFirst (z : W64) (g : Nat) : Nat := sumL ((List.range g).map (groupRows z))

/-- The register spans of a word: first register and length (R240, R246, R249). -/
def matSpans (i : Instr) (z : W64) : List (Nat × Nat) :=
  let f := instrFull i
  let t := f.ty.toNat
  let fr := fragRegs t
  let q := scaleQ t
  let a := f.sa.toNat
  let b := f.sb.toNat
  let c := f.sc.toNat
  let l := match instrOp i with
    | 0x70 => [(a, fr), (b, fr), (c, 4 * q)]
    | 0x71 => match partCount i, partIndex i with
      | 2, 0 => [(a, fr), (c, 2 * q)]
      | 2, _ => [(b, fr), (c + 2 * q, 2 * q)]
      | _, 0 => [(a, fr / 2), (c, q)]
      | _, 1 => [(a + fr / 2, fr / 2), (c + q, q)]
      | _, 2 => [(b, fr / 2), (c + 2 * q, q)]
      | _, _ => [(b + fr / 2, fr / 2), (c + 3 * q, q)]
    | 0x73 =>
      let sideA := if partCount i = 2 && partIndex i = 1 then [] else [(a, fr), (c, 2 * q)]
      let sideB := if partCount i = 2 && partIndex i = 0 then []
        else ((List.range 8).filter (fun g => groupRows z g ≠ 0)).flatMap (fun g => [(b + 32 * g, fr), (c + 2 * q + 2 * q * g, 2 * q)])
      sideA ++ sideB
    | _ => []
  l.filter (fun p => p.2 ≠ 0)

/-! ### Issue (R240, R241) -/

/-- The Z of an MGRP as its warp's w registers stand. -/
def groupZ (w : Warp) (i : Instr) : W64 :=
  if isGrouped i then
    let cp := modF (instrFull i) 7 5
    BitVec.ofNat 64 ((look 0 w.w (2 * cp)).toNat + 2 ^ 32 * (look 0 w.w (2 * cp + 1)).toNat)
  else 0

/-- Whether a word consumes RDY. -/
def needsReady (i : Instr) : Bool := instrOp i = 0x70 || instrOp i = 0x71 || instrOp i = 0x73

/-- R240's ILLSTATE conditions after convergence, in order: does one hold? -/
def matIll (s : State) (w : Warp) (i : Instr) : Bool :=
  let z := groupZ w i
  let tile := (instrFull i).dst.toNat
  let granted := match findTeam s w.handle with
    | some t => w.sheaf.isNone && t.tileBase ≤ tile && tile < t.tileBase + t.tileLen
    | none => false
  !granted || (needsReady i && !w.rdy) || (isGrouped i && 64 < groupFirst z 8) || (matSpans i z).any (fun p => 320 < p.1 + p.2) ||
    (matSpans i z).any (fun p => w.budget < p.1 + p.2)

/-- The first part of each index among the unmatched parts that match `p` (R247): same word, team, core, tile and part count. -/
def partsMatch (a b : MPart) : Bool :=
  instrOp a.instr = instrOp b.instr && a.handle = b.handle && a.core = b.core && (instrFull a.instr).dst = (instrFull b.instr).dst &&
    partCount a.instr = partCount b.instr

def matchSet (unmatched : List MPart) (p : MPart) : List MPart :=
  (List.range (partCount p.instr)).filterMap (fun k => unmatched.find? (fun q => partsMatch q p && partIndex q.instr = k))

/-- A complete set's request, issued with its last part (R247). Parts of different types, or with different Z, are not performed (R247, R250). -/
def mkRequest (parts : List MPart) (last : MPart) : MReq :=
  { tile := (instrFull last.instr).dst.toNat, parts := parts, issueAt := last.issueAt, core := last.core, world := last.world
    perform := parts.all (fun p => matTypeOf p.instr = matTypeOf last.instr && p.z = last.z) }

/-- Parts stand in the order of their issue cycles; those of one cycle, which issue slots of one core may make, in the order of their turns (log 11). -/
def partBefore (a b : MPart) : Bool := a.issueAt < b.issueAt || (a.issueAt = b.issueAt && a.op < b.op)

def insertPart (p : MPart) : List MPart → List MPart
  | [] => [p]
  | q :: t => if partBefore p q then p :: q :: t else q :: insertPart p t

/-- The matcher of a pair (R247), given parts in the order in which they reach it: those left unmatched, and the requests formed. -/
def joinParts : List MPart → List MPart → List MReq → List MPart × List MReq
  | [], un, rs => (un, rs)
  | p :: t, un, rs =>
    let set := matchSet (un ++ [p]) p
    if set.length = partCount p.instr then joinParts t (un.filter (fun q => !set.any (fun r => r.op = q.op))) (rs ++ [mkRequest set p])
    else joinParts t (un ++ [p]) rs

def isJoint (r : MReq) : Bool := 1 < r.parts.length

/-- A part reaches its pair's matcher. A turn may come after that of a part issued later: the sets not granted yet are matched again, in the order of issue cycles. -/
def addPart (s : State) (p : MPart) : State :=
  let k := p.core / 2
  let pr := getPair s k
  if partCount p.instr = 1 then setPair s k { pr with reqs := pr.reqs ++ [mkRequest [p] p] }
  else
    let parts := (pr.unmatched ++ (pr.reqs.filter isJoint).flatMap (fun r => r.parts) ++ [p]).foldl (fun l q => insertPart q l) []
    let j := joinParts parts [] []
    setPair s k { pr with unmatched := j.1, reqs := pr.reqs.filter (fun r => !isJoint r) ++ j.2 }

/-- Issue of a matrix word: the checks, the operation of its flag, RDY consumed, its part. -/
def matrixIssue (s : State) (x : Issued) (i : Instr) : State :=
  warpWide s x (fun s => match x.u with
    | .warp c k =>
      let w := getWarp s c k
      if matIll s w i then trapWord s x (illstate 0)
      else
        let p : MPart := { op := s.nextOp, core := c, slot := k, handle := w.handle, num := w.num, instr := i, z := groupZ w i, rdySeq := w.rdySeq
                           wrAt := w.wrAtRdy, lost := w.rdyLost, issueAt := x.t, world := w.world }
        let s := newOp s x i x.act [] 0
        let w := getWarp s c k
        let s := setWarp s c k { w with rdy := w.rdy && !needsReady i }
        addPart s p
    | _ => s)

/-- MRDY (R241); a sheaf has no tiles (spec/22 R371). -/
def execMrdy (f : Full) (s : State) : Host.Outcome State Fault Refusal :=
  issueFull 0x72 f s (fun s x => match x.u with
    | .warp c k =>
      let w := getWarp s c k
      if w.sheaf.isSome then trapWord s x (illstate 0) else setWarp s c k { w with rdy := true, rdySeq := s.nextOp, rdyLost := false, wrAtRdy := w.wrSeq }
    | _ => s)

/-- MMA (R243). -/
def execMma (f : Full) (s : State) : Host.Outcome State Fault Refusal := issueFull 0x70 f s (fun s x => matrixIssue s x (.mma f))

/-- MMAJ (R246). -/
def execMmaj (f : Full) (s : State) : Host.Outcome State Fault Refusal := issueFull 0x71 f s (fun s x => matrixIssue s x (.mmaj f))

/-- MGRP (R248). -/
def execMgrp (f : Full) (s : State) : Host.Outcome State Fault Refusal := issueFull 0x73 f s (fun s x => matrixIssue s x (.mgrp f))

/-- MZERO (R251). -/
def execMzero (f : Full) (s : State) : Host.Outcome State Fault Refusal := issueFull 0x74 f s (fun s x => matrixIssue s x (.mzero f))

/-- MDRAIN (R254). -/
def execMdrain (f : Full) (s : State) : Host.Outcome State Fault Refusal := issueFull 0x75 f s (fun s x => matrixIssue s x (.mdrain f))

/-! ### The arbiter (R235) -/

def isDrainReq (r : MReq) : Bool := r.parts.any (fun p => instrOp p.instr = 0x75)

/-- The request to grant: the earliest issue cycle; in a tie of the two cores, the one whose turn it is. The flag says that there was a tie. -/
def pickRequest (pr : PairSt) : Option (MReq × Bool) :=
  match pr.reqs with
  | [] => none
  | r :: t =>
    let first := t.foldl (fun m q => Nat.min m q.issueAt) r.issueAt
    let cs := pr.reqs.filter (fun q => q.issueAt = first)
    let even := cs.find? (fun q => q.core % 2 = 0)
    let odd := cs.find? (fun q => q.core % 2 = 1)
    match even, odd with
    | some e, some o => some (if pr.evenNext then e else o, true)
    | some e, none => some (e, false)
    | none, some o => some (o, false)
    | none, none => none

def sameReq (a b : MReq) : Bool := a.parts.map MPart.op = b.parts.map MPart.op

/-- Cycles a granted request occupies the arbiter. -/
def occupancy (r : MReq) : Nat := if r.perform && r.parts.any (fun p => needsReady p.instr) then 8 else 1

/-- A clause on one of the pair's cores may still issue a word at or before a cycle. -/
def issuesBefore (s : State) (pair t : Nat) : Bool :=
  [2 * pair, 2 * pair + 1].any (fun c => (getCore s c).warps.any (fun w => w.2.live && match w.2.run with
    | some r => r.idx < r.words.length && r.cyc ≤ t
    | none => false))

/-- MATRIX_GRANT (R235): requests are granted in the order of their issue cycles, so every clause of the pair must be past the one granted. -/
def execMatrixGrant (pair : Nat) (s : State) : Host.Outcome State Fault Refusal :=
  let pr := getPair s pair
  match pickRequest pr with
  | none => .next s
  | some (r, tie) =>
    if s.cyc ≤ r.issueAt || issuesBefore s pair r.issueAt || s.cyc < pr.freeAt || (getCore s (2 * pair)).latch ≠ r.world || (getCore s (2 * pair + 1)).latch ≠ r.world then .next s
    else
      let drains := match isDrainReq r, r.parts with
        | true, p :: _ =>
          let d : Drain := { part := p, tile := r.tile, desc := match findOp s p.op with
                              | some o => wordAddr o
                              | none => 0
                             started := false, fatal := 0, refTaken := false, words := [], written := 0, faulted := false, bytes := 0, flags := 0
                             regs := [], wct := 0 }
          pr.drains ++ [d]
        | _, _ => pr.drains
      .next (setPair s pair { pr with
        reqs := pr.reqs.filter (fun q => !sameReq q r), granted := pr.granted ++ [r], freeAt := s.cyc + occupancy r, drains := drains
        evenNext := if tie then r.core % 2 = 1 else pr.evenNext })

/-! ### Retirement (R236, R242) -/

/-- A contributing warp's registers as its operands stand: results of words issued before its MRDY count as written (R241). -/
def partRegs (s : State) (p : MPart) : Nat → VReg :=
  let w := getWarp s p.core p.slot
  let w := match w.run with
    | some r => (r.pend.filter (fun (q : Pend) => q.seq ≤ p.wrAt)).foldl applyPend w
    | none => w
  fun r => look 0 w.v r

/-- R242: has a register of the part's spans been written since its MRDY, or is an older long-latency result for one still to come? Where an image has not
kept what stood at MRDY, either may be: the values are left open (log 11). -/
def partTainted (s : State) (p : MPart) : Bool :=
  let w := getWarp s p.core p.slot
  let inSpan := fun (r : Nat) => (matSpans p.instr p.z).any (fun q => q.1 ≤ r && r < q.1 + q.2)
  let wrote := w.wrLog.any (fun e => p.wrAt < e.2 && inSpan e.1)
  let coming := s.ops.any (fun o => o.id < p.rdySeq && o.unit = .warp p.core p.slot && o.handle = p.handle && o.num = p.num &&
    match instrDst o.instr with
    | some (d, n) => (List.range n).any (fun k => inSpan (d.toNat + k))
    | none => false)
  p.lost || wrote || coming

/-- The part that supplies rows (or columns, `k` its index) of an operand, with its fragment base and scale base. -/
def partFor (r : MReq) (isB : Bool) (half : Nat) : Option MPart :=
  let n := match r.parts with
    | p :: _ => partCount p.instr
    | [] => 1
  let k := if n = 1 then 0 else if n = 2 then isB.toNat else 2 * isB.toNat + half
  r.parts.find? (fun p => partIndex p.instr = k || n = 1)

/-- A row of A (or column of B of group `g`). -/
def operandRow (s : State) (r : MReq) (t : Nat) (isB : Bool) (g m : Nat) : List FV :=
  match partFor r isB (m / 32) with
  | none => []
  | some p =>
    let f := instrFull p.instr
    let q := scaleQ t
    if isB then fragRow (partRegs s p) t (f.sb.toNat + 32 * g) (f.sc.toNat + 2 * q + 2 * q * g) m
    else fragRow (partRegs s p) t f.sa.toNat f.sc.toNat m

/-- The rows an operation computes, each with its group: every row, or MGRP's (R249). -/
def rowGroups (i : Instr) (z : W64) : List (Option Nat) :=
  if isGrouped i then
    (List.range 64).map (fun m => (List.range 8).find? (fun g => groupFirst z g ≤ m && m < groupFirst z (g + 1)))
  else List.replicate 64 (some 0)

/-- The tile after a performed MMA, MMAJ or MGRP. -/
def multiply (s : State) (r : MReq) (i : Instr) (z : W64) (old : Tile) : Tile :=
  let t := matTypeOf i
  let cols := (List.range 8).map (fun g => if !isGrouped i && g ≠ 0 || (isGrouped i && groupRows z g = 0) then []
    else (List.range 64).map (fun n => operandRow s r t true g n))
  let rows := (rowGroups i z).zipIdx.map (fun p => p.1.map (fun g => (operandRow s r t false 0 p.2, cols.getD g [])))
  let res := matTile t (fun k => look 0 old.words k) rows
  { words := tileWords res.1, im := t = 0, tflags := old.tflags ||| BitVec.ofNat 5 res.2 }

/-- The tile with every computed element a free value (R242; log 11). -/
def freeTile (s : State) (i : Instr) (z : W64) (old : Tile) : Tile :=
  let rows := rowGroups i z
  { words := tileWords ((List.range 4096).map (fun k => match rows.getD (k / 64) none with
      | some _ => Config.freeTile (4096 * s.freeNo + k)
      | none => look 0 old.words k))
    im := matTypeOf i = 0
    tflags := old.tflags ||| Config.freeFlags s.freeNo }

/-- What a request does to its tile. -/
def retireTile (s : State) (pair : Nat) (r : MReq) : State :=
  let old := getTile s pair r.tile
  match r.parts with
  | [] => s
  | p :: _ =>
    if instrOp p.instr = 0x74 then setTile s pair r.tile Tile.reset
    else if instrOp p.instr = 0x75 then s
    else if !r.perform then setTile s pair r.tile { old with tflags := old.tflags ||| 1 }
    else if r.parts.any (partTainted s) then setTile (bumpFree s) pair r.tile (freeTile s p.instr p.z old)
    else setTile s pair r.tile (multiply s r p.instr p.z old)

/-- MATRIX_RETIRE (R236): the oldest granted operation retires; a drain does so when it completes. -/
def execMatrixRetire (pair : Nat) (s : State) : Host.Outcome State Fault Refusal :=
  match (getPair s pair).granted with
  | [] => .next s
  | r :: t =>
    if isDrainReq r then .next s
    else
      let s := retireTile s pair r
      let s := setPair s pair { getPair s pair with granted := t }
      .next (r.parts.foldl (fun s p => copyAnswer s p.op []) s)

end Sys2Proof.Machine
end

