-- ==== Sys2Proof/Machine/Drain.lean ====
section
/-!
DEFINITION. The epilogue processor (spec/12 R252-R259): drain descriptors, epilogue programs, the placement of outputs, completion, and what becomes of a
team's matrix work when it ends.
-/
namespace Sys2Proof.Machine

/-! ### Epilogue programs (R252, R253) -/

/-- Which fields an operation uses, as a mask over [26:0]; none for a reserved operation. -/
def eopUses (eop : Nat) : Option Nat :=
  let d := 7 * 2 ^ 24
  let a := 7 * 2 ^ 21
  let b := 7 * 2 ^ 18
  let i := 2 ^ 18 - 1
  match eop with
  | 0x00 => some 0
  | 0x01 => some (d + i)
  | 0x02 => some (d + i)
  | 0x03 => some (d + i)
  | 0x04 => some (d + a + b)
  | 0x05 => some (d + a + b)
  | 0x06 => some (d + a + b)
  | 0x07 => some (d + a + b)
  | 0x08 => some (d + a + b)
  | 0x09 => some (d + a + b)
  | 0x0A => some (d + a + b)
  | 0x0B => some (d + a)
  | 0x0C => some (d + a)
  | 0x0D => some (d + a + i)
  | 0x0E => some a
  | 0x0F => some 0
  | _ => none

/-- A word with a reserved EOP or a non-zero unused field. -/
def epiBad (w : W32) : Bool := match eopUses (fld w 31 27) with
  | none => true
  | some m => w.toNat % 2 ^ 27 &&& (2 ^ 27 - 1 - m) ≠ 0

/-- The program's state for one element: e0-e7, the output, the flags, whether END was reached. -/
structure EpiSt where
  e : List Nat
  out : Option Nat
  flags : Nat
  ended : Bool

/-- A value loaded by LDC or LDR: an operand of the program. -/
def epiLoad (x : Nat) : FR := match fdec f32 x with
  | .nan s => { bits := canon f32, flags := if s then fNV else 0 }
  | _ => { bits := x, flags := 0 }

/-- EA times 2^s. -/
def epiScale (x : Nat) (s : Int) : FR := match fdec f32 x with
  | .fin n m e => fround f32 0 false n m (e + s) false
  | v => roundF32 v

/-- An f32 as an operation writes it: a NaN is canonical. -/
def canonNaN (x : Nat) : Nat := if x / 2 ^ 23 % 2 ^ 8 = 255 && x % 2 ^ 23 ≠ 0 then 0x7FC00000 else x

/-- One word. `ld` reads the leading core's stash. -/
def epiStep (ld : Nat → Nat) (m n : Nat) (w : W32) (st : EpiSt) : EpiSt :=
  let d := fld w 26 24
  let a := nthN st.e (fld w 23 21)
  let b := nthN st.e (fld w 20 18)
  let imm := fld w 17 0
  let set := fun (r : FR) => { st with e := setNth st.e d r.bits, flags := st.flags ||| r.flags }
  if st.ended then st
  else match fld w 31 27 with
    | 0x01 => set (epiLoad (ld (4 * imm + 4 * n)))
    | 0x02 => set (epiLoad (ld (4 * imm + 4 * m)))
    | 0x03 => set { bits := canonNaN (2 ^ 14 * imm), flags := 0 }
    | 0x04 => set (fadd f32 0 false a b)
    | 0x05 => set (fsub f32 0 false a b)
    | 0x06 => set (fmul f32 0 false a b)
    | 0x07 => set (ffma f32 0 false false false a b (nthN st.e d))
    | 0x08 => set (fminmax f32 false false a b)
    | 0x09 => set (fminmax f32 false true a b)
    | 0x0A =>
      let x := fminmax f32 false true (nthN st.e d) a
      let y := fminmax f32 false false x.bits b
      set { y with flags := x.flags ||| y.flags }
    | 0x0B =>
      let x := fminmax f32 false true a 0
      set { x with bits := if isNan (fdec f32 a) then canon f32 else x.bits }
    | 0x0C => set (fgelu a)
    | 0x0D => set (epiScale a (BitVec.ofNat 18 imm).toInt)
    | 0x0E => { st with out := some a }
    | 0x0F => { st with ended := true }
    | _ => st

/-- The output of an element and the flags of its program. -/
def epiRun (ld : Nat → Nat) (prog : List W32) (im : Bool) (word : W32) (m n : Nat) : FR :=
  let e0 := if im then roundF32 (intV word.toInt) else { bits := word.toNat, flags := 0 }
  let st := prog.foldl (fun st w => epiStep ld m n w st)
    { e := [e0.bits, 0, 0, 0, 0, 0, 0, 0], out := none, flags := e0.flags, ended := false }
  { bits := st.out.getD (nthN st.e 0), flags := st.flags }

/-! ### Descriptors (R254) -/

structure DrainDesc where
  prog : W64
  dest : W64
  scales : W64
  queue : W64
  pitch : Nat
  plen : Nat
  kind : Nat
  ofmt : Nat
  gap : Nat
  scope : Nat
  tok : Nat
  pol : Nat
  rows : Nat
  first : Nat
  bad : Bool

def drainEsize (ofmt : Nat) : Nat := if ofmt = 0 then 2 else if ofmt = 1 then 4 else 1

/-- A descriptor's fields from its eight 64-bit words. -/
def parseDrain (ws : List W64) : DrainDesc :=
  let w := fun (i : Nat) => ws.getD i 0
  let k := fld (w 4) 63 32
  let c := fld (w 5) 31 0
  let kind := k / 2 ^ 25 % 4
  let ofmt := k / 2 ^ 23 % 4
  let gap := k / 2 ^ 19 % 16
  let pitch := fld (w 4) 31 0
  let rows := c / 2 ^ 8 % 128
  let first := c % 64
  let pol := k / 2 ^ 6 % 4
  { prog := w 0, dest := w 1, scales := w 2, queue := w 3, pitch := pitch, plen := k / 2 ^ 27 % 32 + 1, kind := kind, ofmt := ofmt, gap := gap
    scope := k / 2 ^ 16 % 8, tok := k / 2 ^ 8 % 256, pol := pol, rows := rows, first := first
    bad := k % 64 ≠ 0 || c / 2 ^ 15 ≠ 0 || c / 2 ^ 6 % 4 ≠ 0 || fld (w 5) 63 32 ≠ 0 || fld (w 6) 63 32 ≠ 0 || fld (w 7) 63 0 ≠ 0 ||
      kind = 3 || ofmt = 3 || (if ofmt = 2 then gap = 0 else gap ≠ 0) || 5 < k / 2 ^ 16 % 8 || rows = 0 || 64 < first + rows ||
      (if kind = 0 then pitch ≠ 0 else pitch % 4 ≠ 0 || pitch < 64 * drainEsize ofmt) || pol = 3 || (pol ≠ 0 && kind ≠ 2) ||
      (kind = 0 && fld (w 1) 63 9 ≠ 0) || (kind = 1 && fld (w 1) 63 19 ≠ 0) || (!(ofmt = 2 && kind ≠ 0) && w 2 ≠ 0) ||
      (w 0).toNat % 4 ≠ 0 || (w 3).toNat % 64 ≠ 0 }

/-- Registers of a KIND 0 destination. -/
def drainSpan (ofmt : Nat) : Nat := if ofmt = 0 then 64 else if ofmt = 1 then 128 else 34

/-- Stash ranges that a drain touches: program operands, destination, block exponents. -/
def drainRanges (d : DrainDesc) (prog : List W32) : List (Nat × Nat) :=
  prog.flatMap (fun w =>
    let o := 4 * fld w 17 0
    match fld w 31 27 with
    | 0x01 => [(o, 256)]
    | 0x02 => [(o + 4 * d.first, 4 * d.rows)]
    | _ => []) ++
  (if d.kind = 1 then (List.range d.rows).flatMap (fun r =>
      (d.dest.toNat + r * d.pitch, 64 * drainEsize d.ofmt) :: (if d.ofmt = 2 then [(d.scales.toNat + 4 * r, 4)] else []))
    else [])

/-! ### Outputs (R255) -/

/-- A drained row: its converted elements, its block exponents (both halves), the flags. -/
structure RowOut where
  els : List Nat
  pairs : Nat
  flags : Nat

def rowOut (d : DrainDesc) (outs : List FR) : RowOut :=
  let pf := outs.foldl (fun f r => f ||| r.flags) 0
  if d.ofmt = 2 then
    let blk := fun (h : Nat) => cvtdBlock false d.gap 0xFFFFFFFF#32 (((outs.drop (32 * h)).take 32).map FR.bits)
    let x := blk 0
    let y := blk 1
    { els := x.2.1 ++ y.2.1, pairs := x.1 + 2 ^ 16 * y.1, flags := (x.2.2 ++ y.2.2).foldl (fun f g => f ||| g) pf }
  else
    let cs := outs.map (fun r => fconv (if d.ofmt = 0 then bf16 else f32) 0 false (fdec f32 r.bits))
    { els := cs.map FR.bits, pairs := 0, flags := cs.foldl (fun f r => f ||| r.flags) pf }

/-- The bytes of a row, low element first. -/
def rowBytes (esize : Nat) : List Nat → Nat
  | [] => 0
  | x :: t => x + 2 ^ (8 * esize) * rowBytes esize t

/-- Register `i` of a destination span, in the lane of row `m`: which half of the rows it holds, and the word. -/
def spanHalf (ofmt i : Nat) : Nat :=
  if ofmt = 0 then i / 16 % 2 else if ofmt = 1 then i / 8 % 2 else if i < 32 then i / 16 else i - 32

def spanWord (ofmt i : Nat) (r : RowOut) : Nat :=
  let el := fun (n : Nat) => nthN r.els n
  if ofmt = 0 then
    let n := 32 * (i / 32) + 2 * (i % 16)
    el n + 2 ^ 16 * el (n + 1)
  else if ofmt = 1 then el (8 * (i / 16) + i % 8)
  else if i < 32 then rowBytes 1 ((List.range 4).map (fun j => el (4 * (i % 16) + j)))
  else r.pairs

/-- The register words of a KIND 0 drain: a lane whose row is not drained keeps its value. -/
def spanRegs (d : DrainDesc) (rows : List RowOut) : List (Nat × Mask × List W128) :=
  (List.range (drainSpan d.ofmt)).map (fun i =>
    let rowOf := fun (l : Nat) => 32 * spanHalf d.ofmt i + l
    (d.dest.toNat + i, maskOf (fun l => d.first ≤ rowOf l && rowOf l < d.first + d.rows),
      (List.range 32).map (fun l => match rows[rowOf l - d.first]? with
        | some r => BitVec.ofNat 128 (spanWord d.ofmt i r)
        | none => 0)))

/-- A store of a drain to memory: where, how many bytes, their value, the row and the first byte of it (none: block exponents). -/
structure DChunk where
  va : W64
  n : Nat
  v : Nat
  row : Nat
  off : Option Nat

/-- Cut `n` bytes at an address into pieces of one line each. -/
def lineChunks (row : Nat) (els : Bool) : Nat → W64 → Nat → Nat → Nat → List DChunk
  | 0, _, _, _, _ => []
  | fuel + 1, va, off, n, v =>
    if n = 0 then []
    else
      let c := Nat.min n (128 - va.toNat % 128)
      { va := va, n := c, v := v % 2 ^ (8 * c), row := row, off := if els then some off else none } ::
        lineChunks row els fuel (va + BitVec.ofNat 64 c) (off + c) (n - c) (v / 2 ^ (8 * c))

def drainChunks (d : DrainDesc) (rows : List RowOut) : List DChunk :=
  rows.zipIdx.flatMap (fun p =>
    let es := drainEsize d.ofmt
    lineChunks p.2 true 4 (d.dest + BitVec.ofNat 64 (p.2 * d.pitch)) 0 (64 * es) (rowBytes es p.1.els) ++
    (if d.ofmt = 2 then lineChunks p.2 false 2 (d.scales + BitVec.ofNat 64 (4 * p.2)) 0 4 p.1.pairs else []))

/-- What the stores of a drain have come to. -/
structure DStored where
  lost : List DChunk
  bytes : Nat
  wct : Nat
  lines : List Nat
  pages : List Nat

/-- Perform the stores: a faulting one is dropped and recorded, once for the requests of a page that fail together (R85, R257). -/
def storeChunks (x : XCtx) (core pol : Nat) (all : List DChunk) : List DChunk → State → DStored → State × DStored
  | [], s, a => (s, a)
  | c :: t, s, a =>
    let page := pageKey c.va true
    if a.pages.contains page then storeChunks x core pol all t s { a with lost := c :: a.lost }
    else
      let line := c.va.toNat / 128
      let w := devWrite x pol (!a.lines.contains line) 2 s c.va c.n (2 ^ c.n - 1) c.v
      match w.2 with
      | .inr wct => storeChunks x core pol all t w.1 { a with bytes := a.bytes + c.n, wct := Nat.max a.wct wct, lines := line :: a.lines }
      | .inl (f, va) =>
        let paged := f.cause = 5 || (f.cause = 6 && f.reason ≠ 5 && f.reason ≠ 6 && f.reason ≠ 10)
        let merged := if paged then (all.filter (fun q => pageKey q.va true = page)).length else 1
        let s := devFault w.1 x va f 4 1 (engineOrigin core 0) merged 0
        storeChunks x core pol all t s { a with lost := c :: a.lost, pages := if paged then page :: a.pages else a.pages }

/-- Elements of the drained rows none of whose bytes was dropped. -/
def elementsWritten (d : DrainDesc) (lost : List DChunk) : Nat :=
  let es := drainEsize d.ofmt
  let gone := lost.flatMap (fun c => match c.off with
    | some o => (List.range ((o + c.n + es - 1) / es - o / es)).map (fun k => 64 * c.row + o / es + k)
    | none => [])
  64 * d.rows - (dedup gone).length

/-! ### The start (R256) -/

def setDrain (s : State) (pair : Nat) (d : Drain) : State :=
  setPair s pair { getPair s pair with drains := (getPair s pair).drains.map (fun e => if e.part.op = d.part.op then d else e) }

/-- Run the program over the drained rows. -/
def drainRows (s : State) (core : Nat) (d : DrainDesc) (prog : List W32) (tile : Tile) : List RowOut :=
  (List.range d.rows).map (fun r =>
    let m := d.first + r
    rowOut d ((List.range 64).map (fun n => epiRun (fun o => stashRead s core o 4) prog tile.im (look 0 tile.words (64 * m + n)) m n)))

/-- Write the outputs of a drain that has passed its checks. -/
def drainWrite (s : State) (pair : Nat) (d : Drain) (g : DrainDesc) (x : XCtx) (prog : List W32) : State :=
  let core := d.part.core
  let rows := drainRows s core g prog (getTile s pair d.tile)
  let d := { d with started := true, written := 64 * g.rows, flags := rows.foldl (fun f (r : RowOut) => f ||| r.flags) 0 }
  let es := drainEsize g.ofmt
  match g.kind with
  | 0 => setDrain s pair { d with regs := spanRegs g rows }
  | 1 =>
    let s := rows.zipIdx.foldl (fun s p =>
      let s := stashStore s core (g.dest.toNat + p.2 * g.pitch) (64 * es) (rowBytes es p.1.els)
      if g.ofmt = 2 then stashStore s core (g.scales.toNat + 4 * p.2) 4 p.1.pairs else s) s
    setDrain s pair { d with bytes := g.rows * (64 * es + if g.ofmt = 2 then 4 else 0) }
  | _ =>
    let cs := drainChunks g rows
    let r := storeChunks x core g.pol cs cs s { lost := [], bytes := 0, wct := 0, lines := [], pages := [] }
    setDrain r.1 pair { d with
      written := elementsWritten g r.2.lost, faulted := !r.2.lost.isEmpty, bytes := r.2.bytes, wct := Nat.max d.wct r.2.wct }

/-- The checks of R256 in order, then the outputs. A reference that cannot be taken yet leaves everything as it was (R282). -/
def startDrain (s : State) (pair : Nat) (d : Drain) (x : XCtx) : State :=
  let core := d.part.core
  let fatal := fun (s : State) (d : Drain) (n : Nat) => setDrain s pair { d with started := true, fatal := n }
  let fault := fun (s : State) (e : AFault × W64) => devFault s x e.2 e.1 3 1 (engineOrigin core 0) 1 0
  if d.desc.toNat % 64 ≠ 0 then fatal s d 1
  else
    let a := devWords s x d.desc 8
    match a.2 with
    | .inl e => fatal (fault a.1 e) d 2
    | .inr ws =>
      let g := parseDrain ws
      let d := { d with words := ws }
      if g.bad then fatal a.1 d 1
      else
        let t := if g.queue = 0 then (a.1, RefRes.dropped) else takeRef a.1 x g.queue
        match t.2 with
        | .busy => { s with holds := t.1.holds }
        | .bad f => fatal (fault t.1 (f, g.queue)) d 2
        | r =>
          let d := { d with refTaken := match r with
                              | .taken => true
                              | _ => false }
          let p := devGet t.1 x g.prog (4 * g.plen)
          match p.2 with
          | .inl e => fatal (fault p.1 e) d 2
          | .inr v =>
            let prog := (List.range g.plen).map (fun i => BitVec.ofNat 32 (v / 2 ^ (32 * i)))
            let budget := (getWarp s d.part.core d.part.slot).budget
            if prog.any epiBad then fatal p.1 d 5
            else if (drainRanges g prog).any (fun q => !inGrant s d.part.handle q.1 q.2) then fatal p.1 d 3
            else if g.kind = 0 && (g.dest.toNat % 4 ≠ 0 || 320 < g.dest.toNat + drainSpan g.ofmt || budget < g.dest.toNat + drainSpan g.ofmt) then
              fatal p.1 d 4
            else drainWrite p.1 pair d g x prog

/-- Granted operations on the drain's tile that have not retired and precede it (R236). -/
def tileBusy (pr : PairSt) (d : Drain) : Bool :=
  (pr.granted.takeWhile (fun r => !r.parts.any (fun p => p.op = d.part.op))).any (fun r => r.tile = d.tile)

/-- DRAIN_START (R256): the oldest drain takes the epilogue processor once every earlier event of its warp has happened (spec/13 R272). -/
def execDrainStart (pair : Nat) (s : State) : Host.Outcome State Fault Refusal :=
  let pr := getPair s pair
  match pr.drains with
  | [] => .next s
  | d :: _ =>
    if d.started || tileBusy pr d then .next s
    else match findOp s d.part.op with
      | none => .next s
      | some o =>
        if heldByAcquire s o then .next s
        else
          let r := releaseStep s o 0
          if r.2 then .next (startDrain r.1 pair { d with wct := if ownerHere r.1 o then unitWct r.1 o.unit else 0 } (opX r.1 o)) else .next r.1

/-! ### Completion (R257, R258) -/

/-- Write lanes of a drain's register outputs (spec/08 R165). -/
def drainLanes (s : State) (d : Drain) (lanes : Mask) : State :=
  let c := d.part.core
  let k := d.part.slot
  setWarp s c k (d.regs.foldl (fun w r => writeLate w r.1 1 (r.2.1 &&& lanes) r.2.2) (getWarp s c k))

/-- STAT: FATAL, then the deposit's code, then the faulting stores, with the elements written. -/
def drainStat (d : Drain) (dep : Nat) : Nat :=
  if d.fatal ≠ 0 then 2 * 2 ^ 28 + d.fatal
  else 2 ^ 28 * (if dep ≠ 0 then dep else if d.faulted then 1 else 0) + d.written

/-- The end of a drain: deposit, STAT, flag. -/
def endDrain (s : State) (pair : Nat) (d : Drain) (x : XCtx) : State :=
  let g := parseDrain d.words
  let flags := (getTile s pair d.tile).tflags.toNat ||| d.flags
  let dep := if d.refTaken then
      finishRef s x g.queue (if d.fatal ≠ 0 then none else some (if d.faulted then 0 else g.tok, d.bytes, flags))
    else (s, if d.fatal = 0 && g.queue ≠ 0 then 4 else 0, 0)
  let s := (structWrite dep.1 x (d.desc + 48) 4 (drainStat d dep.2.1) 1 (engineOrigin d.part.core 0) false).1
  let s := drainLanes s d 0xFFFFFFFF#32
  let pr := getPair s pair
  copyAnswer (setPair s pair { pr with granted := pr.granted.drop 1, drains := pr.drains.drop 1 }) d.part.op []

/-- DRAIN_COMPLETE (R258): in grant order, once module time has passed its stores. -/
def execDrainComplete (pair : Nat) (s : State) : Host.Outcome State Fault Refusal :=
  let pr := getPair s pair
  match pr.drains, pr.granted with
  | d :: _, r :: _ =>
    match d.started && r.parts.any (fun p => p.op = d.part.op) && passed s d.wct, findOp s d.part.op with
    | true, some o => .next (endDrain s pair d (opX s o))
    | _, _ => .next s
  | _, _ => .next s

/-! ### Teams that end (R259) -/

/-- A team's matrix work on a pair goes: requests, parts and granted operations; a started drain gives its reference back. -/
def dropPairWork (s : State) (pair handle : Nat) : State :=
  let mine := fun (p : MPart) => p.handle = handle
  let s := ((getPair s pair).drains.filter (fun d => mine d.part && d.refTaken)).foldl (fun s d =>
    match findOp s d.part.op with
    | some o => (finishRef s (opX s o) (parseDrain d.words).queue none).1
    | none => s) s
  let pr := getPair s pair
  let keep := fun (r : MReq) => !r.parts.any mine
  setPair s pair { pr with
    reqs := pr.reqs.filter keep, granted := pr.granted.filter keep, unmatched := pr.unmatched.filter (fun p => !mine p)
    drains := pr.drains.filter (fun d => !mine d.part) }

/-- Free the tiles of a team on its pairs (R234, R259): a tile that is granted again reads +0. -/
def freeTiles (s : State) (t : Team) : State :=
  (List.range ((t.start + t.shape.cores + 1) / 2 - t.start / 2)).foldl (fun s i =>
    let p := t.start / 2 + i
    let pr := getPair s p
    setPair s p { pr with tiles := pr.tiles.filter (fun e => !(t.tileBase ≤ e.1 && e.1 < t.tileBase + t.tileLen)) }) s

/-- A team's matrix work and tiles go. -/
def endTeamMatrix (s : State) (t : Team) : State :=
  freeTiles ((List.range ((t.start + t.shape.cores + 1) / 2 - t.start / 2)).foldl (fun s i => dropPairWork s (t.start / 2 + i) t.handle) s) t

end Sys2Proof.Machine
end

