-- ==== Sys2Proof/Machine/Room.lean ====
section
/-!
DEFINITION. Room on cores (spec/19 R332, R337; spec/09 R183, R184; spec/15 R297, R308; spec/12 R234): latches and relatching (spec/26 R413), stash and tile
room, warp slots, and the units of a team as they start.
-/
namespace Sys2Proof.Machine

/-! ### Who holds a core -/

/-- Teams resident on a core, HELD ones included. -/
def coreTeams (s : State) (c : Nat) : List Team :=
  s.launch.teams.filter (fun t => !t.saved && t.start ≤ c && c < t.start + t.shape.cores)

/-- R413: a core is idle: nothing stands on it, and nothing that was issued from it or that serves it is outstanding. -/
def coreIdle (s : State) (c : Nat) : Bool :=
  let k := getCore s c
  (coreTeams s c).isEmpty && k.worker.isNone && k.warps.all (fun w => !w.2.live) && k.fronts.all (fun f => !f.2.live) &&
  k.slots.all (fun x => x.2.loading.isNone) &&
  s.ops.all (fun o => match o.unit with
    | .thread _ => true
    | .warp d _ => d ≠ c
    | .front d _ => d ≠ c) &&
  s.copies.all (fun x => x.core ≠ c || !x.ready) &&
  (getPair s (c / 2)).reqs.isEmpty && (getPair s (c / 2)).granted.isEmpty && (getPair s (c / 2)).drains.isEmpty

/-- A tile with one core's half cleared, IM and TFLAGS 0. -/
def clearHalf (odd : Bool) (t : Tile) : Tile :=
  { words := t.words.filter (fun p => (p.1 % 64 / 32 = 1) ≠ odd), im := false, tflags := 0 }

/-- R413: clear an idle core and latch a world. -/
def relatch (s : State) (c world : Nat) : State :=
  let s := setCore s c { getCore s c with latch := world, warps := [], fronts := [], l1 := [], l1pend := [], tlb := [], stash := [], tags := [] }
  let p := getPair s (c / 2)
  setPair s (c / 2) { p with tiles := p.tiles.map (fun t => (t.1, clearHalf (c % 2 = 1) t.2)) }

/-- The pipeline whose pool holds a pair (spec/20 R350). -/
def poolOf (s : State) (pair : Nat) : Option Nat :=
  (s.launch.slices.find? (fun x => match x.pipe with
    | some p => p.pool.any (fun e => e.1 = pair)
    | none => false)).map Slice.num

/-! ### Warp slots and budgets (R183) -/

/-- Budgets that a task slice's worker reserves on its core. -/
def workerBudgets (s : State) (c : Nat) : List Nat := match (getCore s c).worker.bind (findSlice s) with
  | some x => match x.shape.roles with
    | r :: _ => List.replicate r.warps r.budget
    | [] => []
  | none => []

/-- Budgets of the warps resident on a core: a worker's reservation stands for its task's warps. -/
def usedBudgets (s : State) (c : Nat) : List Nat :=
  let task := (getCore s c).task
  workerBudgets s c ++ ((getCore s c).warps.filter (fun w => w.2.live && !(task ≠ 0 && w.2.sheaf.isNone && w.2.handle = task))).map (fun w => w.2.budget)

def warpsFit (s : State) (c : Nat) (bs : List Nat) : Bool :=
  let u := usedBudgets s c ++ bs
  u.length ≤ 48 && sumL u ≤ 6144

/-- A free warp slot: which one is not stated (log 7). -/
def freeSlot (s : State) (c : Nat) : Option Nat :=
  let l := (List.range 48).filter (fun k => !(getWarp s c k).live)
  l[Config.pick s.freeNo % Nat.max 1 l.length]?

def frontsUsed (s : State) (c : Nat) : Nat :=
  ((getCore s c).fronts.filter (fun f => f.2.live)).length + (if (getCore s c).worker.isSome && (getCore s c).task = 0 then 1 else 0)

/-! ### Stash and tiles (R308, R332) -/

/-- Grants on a core, in 256-byte entries: first and length. -/
def coreGrants (s : State) (c : Nat) : List (Nat × Nat) :=
  ((coreTeams s c).filter (fun t => !t.isTask)).map (fun t => (t.stashBase / 256, t.stashLen / 256)) ++
  (match (getCore s c).worker.bind (findSlice s) with
    | some x => [((getCore s c).workBase / 256, x.shape.stash)]
    | none => [])

def freeEntry (s : State) (c e : Nat) : Bool :=
  (coreGrants s c).all (fun g => !(g.1 ≤ e && e < g.1 + g.2)) && (getCore s c).spills.all (fun p => p.1 ≠ e)

/-- The highest `n` free entries. -/
def spillRoom (s : State) (c n : Nat) : List Nat := (((List.range 1536).reverse).filter (freeEntry s c)).take n

/-- Lowest entry at which every core of a run has room for a grant above which its spill areas lie; `want` fixes it. -/
def stashRoom (s : State) (run : List (Nat × List Nat)) (len : Nat) (want : Option Nat) : Option Nat :=
  let ok := fun (b : Nat) => b + len ≤ 1536 && run.all (fun r =>
    (List.range len).all (fun i => freeEntry s r.1 (b + i) && !r.2.contains (b + i)))
  match want with
  | some b => if ok b then some b else none
  | none => (List.range 1537).find? ok

/-- Tile numbers in use on a pair. -/
def tileUsed (s : State) (pair t : Nat) : Bool :=
  [2 * pair, 2 * pair + 1].any (fun c => (coreTeams s c).any (fun x => x.tileBase ≤ t && t < x.tileBase + x.tileLen) ||
    match (getCore s c).worker.bind (findSlice s) with
    | some x => (getCore s c).workTile ≤ t && t < (getCore s c).workTile + x.shape.tiles
    | none => false)

/-- Lowest tile number at which every pair has room. -/
def tileRoom (s : State) (pairs : List Nat) (n : Nat) (want : Option Nat) : Option Nat :=
  let ok := fun (b : Nat) => b + n ≤ 8 && pairs.all (fun p => (List.range n).all (fun i => !tileUsed s p (b + i)))
  match want with
  | some b => if ok b then some b else none
  | none => if n = 0 then some 0 else (List.range 9).find? ok

/-! ### A run for a team (R332) -/

/-- Where a team fits: its cores, stash entry, tile base, each core's spill entries. -/
structure Spot where
  run : List Nat
  base : Nat
  tile : Nat
  spills : List (List Nat)

/-- Budgets of a shape's warps on core `j` of its run. -/
def coreBudgets (bs : List Nat) (c j : Nat) : List Nat := (bs.zipIdx.filter (fun p => p.2 % c = j)).map (fun p => p.1)

/-- Budgets of all warps, in team order (spec/01 R19). -/
def shapeBudgets (sh : Shape) : List Nat := sh.roles.flatMap (fun r => List.replicate r.warps r.budget)

/-- What placement asks of a run. -/
structure Want where
  slice : Nat
  world : Nat
  diepol : Nat
  cores : Nat
  budgets : List Nat
  stash : Nat
  tiles : Nat
  base : Option Nat
  tile : Option Nat

/-- Does a run starting at `c0` fit? -/
def runFits (s : State) (w : Want) (c0 : Nat) : Option Spot :=
  let run := (List.range w.cores).map (fun j => c0 + j)
  let die := dieOf c0
  let pairs := dedup (run.map (fun c => c / 2))
  let spills := run.zipIdx.map (fun p => spillRoom s p.1 (coreBudgets w.budgets w.cores p.2).length)
  if run.any (fun c => (getCore s c).sheafAt = some s.cyc) || c0 % 2 ≠ 0 || dieOf (c0 + w.cores - 1) ≠ die || (w.diepol ≠ 0 && w.diepol ≠ die + 1) then none
  else if pairs.any (fun p => match poolOf s p with
    | some n => n ≠ w.slice
    | none => false) then none
  else if run.zipIdx.all (fun p => ((getCore s p.1).latch = w.world || ((coreTeams s p.1).isEmpty && (getCore s p.1).worker.isNone)) &&
      frontsUsed s p.1 < 8 && warpsFit s p.1 (coreBudgets w.budgets w.cores p.2)) then
    match stashRoom s (run.zip spills) w.stash w.base, tileRoom s pairs w.tiles w.tile with
    | some b, some t =>
      if spills.zipIdx.all (fun p => p.1.length = (coreBudgets w.budgets w.cores p.2).length) then some { run := run, base := b, tile := t, spills := spills }
      else none
    | _, _ => none
  else none

/-- The lowest run that fits. -/
def findRun (s : State) (w : Want) : Option Spot := (List.range 320).findSome? (runFits s w)

/-- The run stands ready: every core of it latches the world or can be relatched now. -/
def runReady (s : State) (w : Want) (p : Spot) : Bool := p.run.all (fun c => (getCore s c).latch = w.world || coreIdle s c)

/-- Relatch what needs it, and reserve the spill areas for `owner`. -/
def claimRun (s : State) (w : Want) (p : Spot) (owner : Nat) : State :=
  (p.run.zip p.spills).foldl (fun s r =>
    let s := if (getCore s r.1).latch = w.world then s else relatch s r.1 w.world
    let k := getCore s r.1
    setCore s r.1 { k with spills := k.spills ++ r.2.map (fun e => (e, owner)) }) s

/-- Owner number of a task slice's reservation. -/
def sliceOwner (n : Nat) : Nat := 2 ^ 32 + n

def dropSpills (s : State) (c owner : Nat) : State :=
  let k := getCore s c
  setCore s c { k with spills := k.spills.filter (fun p => p.2 ≠ owner) }

/-! ### Units as they start -/

/-- A warp admitted to a free slot of its core: zero registers and its one entry (R184, R305), or as `f` makes it. -/
def admitWarp (s : State) (c : Nat) (w : Warp) : State :=
  match freeSlot s c with
  | none => s
  | some k => bumpFree (setWarp s c k { w with live := true, admitted := s.cyc, waiting := s.cyc })

def startFrontier (s : State) (c : Nat) (entry : W64) (mask : Mask) : List FEntry :=
  let pc : Addr := entry.setWidth 52
  [{ key := entryKey s c pc, pc := pc, word := 0, mask := mask }]

/-- A new warp of a team. -/
def newWarp (s : State) (c : Nat) (t : Team) (num budget : Nat) (entry : W64) : Warp :=
  { Warp.reset with
    handle := t.handle, num := num, budget := budget, ctx := t.ctx, world := t.world, sid := t.sid, slice := t.slice
    frontier := startFrontier s c entry 0xFFFFFFFF#32 }

/-- The lowest free front-end context of a core. -/
def freeFront (s : State) (c : Nat) : Nat := ((List.range 8).find? (fun k => !(getFront s c k).live)).getD 0

/-- A team's front-end context on a core: with no entry it issues nothing (R297); a task's begins at CODE whatever that is (R337). -/
def newFront (s : State) (c : Nat) (t : Team) : State :=
  setFront s c (freeFront s c) { Front.reset with
    live := true, handle := t.handle, ctx := t.ctx, world := t.world, sid := t.sid, slice := t.slice, pc := t.shape.fentry.setWidth 52
    halted := t.shape.fentry = 0 && !t.isTask }

/-- Entry and budget of every warp of a shape, in team order. -/
def shapeEntries (sh : Shape) : List (W64 × Nat) := sh.roles.flatMap (fun r => List.replicate r.warps (r.entry, r.budget))

/-- A team's fronts and warps start on its cores. -/
def startTeam (s : State) (t : Team) : State :=
  let s := { s with launch := { s.launch with teams := s.launch.teams ++ [t] } }
  let s := (List.range t.shape.cores).foldl (fun s j => newFront s (t.start + j) t) s
  (shapeEntries t.shape).zipIdx.foldl (fun s p =>
    let c := t.start + p.2 % t.shape.cores
    admitWarp s c (newWarp s c t p.2 p.1.2 p.1.1)) s

/-- The next handle of the module (R333). -/
def takeHandle (s : State) : State × Nat :=
  ({ s with launch := { s.launch with handleCtr := if s.launch.handleCtr = 0xFFFFFFFF then 1 else s.launch.handleCtr + 1 } }, s.launch.handleCtr)

/-- A team of a slice, not yet placed. -/
def mkTeam (x : Slice) (handle tid start base tile : Nat) (sh : Shape) : Team :=
  { handle := handle, slice := x.num, tid := tid, start := start, shape := sh, stashBase := 256 * base, stashLen := 256 * sh.stash, tileBase := tile
    tileLen := sh.tiles, queues := [], barriers := [], sum := ExitSum.reset, ended := 0, param := x.param, taskj := 0, isTask := false, stage := none
    handoff := false, st := .running, closed := false, killed := false, why := none, saved := false, pool := none, imgLen := 0, imgTime := 0, readyAgain := false, issued := false, ctx := x.ctx
    world := x.world, sid := x.sid, wctmax := 0, rejoins := [], frontRes := [], pops := [], marks := [], parts := [], divs := [] }

end Sys2Proof.Machine
end

