-- ==== Sys2Proof/Machine/Gleaner.lean ====
section
/-!
DEFINITION. The Gleaner (spec/22): filing records, cribs, sheaves, resumption, rejoins, the absent limit, and the words GINFO, GLR, GLW and GRES.
-/
namespace Sys2Proof.Machine

/-- Gather window in core cycles. -/
def gatherWindow (s : State) (ctx : Nat) : Nat :=
  let w := fld (ctxHtab s ctx 0) 31 0
  if w = 0 then 4096 else Nat.max 64 w

/-! ### Records (R365) -/

/-- ORIGIN of a record. -/
def recOrigin (r : TrapRec) : Nat := match r.kind, r.unit with
  | .slice, _ => 0xFFFFF000
  | _, .warp c k => 2 ^ 23 * c + 2 ^ 17 * k + 2 ^ 12 * r.lane
  | _, .front c _ => 2 ^ 23 * c + 0x3F * 2 ^ 17
  | _, .thread q => 0x1FF * 2 ^ 23 + 2 ^ 17 * q

/-- The 64 bytes of a record, low first. -/
def recBits (r : TrapRec) : BitVec 512 :=
  let body := r.kind ≠ .slice
  let w := fun (x : W64) => if body then x.toNat else 0
  let codew := 2 ^ 24 * r.cause.toNat +
    (if body then 2 ^ 16 * r.prio.toNat + 2 ^ 12 * (r.widx % 16) + r.half.toNat * 2 ^ 11 + r.didx.toNat else 0)
  BitVec.ofNat 512 (w r.pc + 2 ^ 64 * w r.wordv + 2 ^ 128 * w r.srca + 2 ^ 192 * w r.srcb + 2 ^ 256 * w r.srcc +
    2 ^ 320 * (codew + 2 ^ 32 * recOrigin r + 2 ^ 64 * (r.ctx % 2 ^ 16 + 2 ^ 16 * (r.world % 16)) + 2 ^ 96 * r.detail.toNat + 2 ^ 128 * r.addr.toNat))

def recWord (r : TrapRec) (n : Nat) : Nat := fld (recBits r) (32 * n + 31) (32 * n)

/-! ### Filing (R363, R364, R367) -/

/-- A slice's own record joins its thread's list, or waits for room: it has no core, and waits at core 0 (log 20). -/
def fileSlice (s : State) (r : TrapRec) : State :=
  if listRoom s (recDie r) then addPending s (sliceThread s r.slice) { r with filed := s.cyc } else bufferRec s 0 r

/-- THREAD of a context's fault-ring descriptor (spec/04 R89); none without a readable ring. -/
def ringThread (s : State) (r : TrapRec) : State × Option Nat :=
  let ring := ctxWord s r.ctx 1
  if ring = 0 then (s, none)
  else
    let sid := match findSlice s r.slice with
      | some x => x.sid
      | none => 0
    let d := devGet s (ctxX s (match r.unit with
      | .warp c _ => c
      | .front c _ => c
      | .thread _ => 0) r.ctx r.world sid) (ring + 12) 4
    match d.2 with
    | .inl _ => (d.1, none)
    | .inr v => (d.1, some (v % 64))

/-- A crib becomes a formed sheaf. -/
def formSheaf (g : Gleaner) (i : Nat) : Gleaner := match g.cribs[i]? with
  | some c => { g with cribs := g.cribs.eraseIdx i, waiting := g.waiting ++ [c] }
  | none => g

/-- Where a record comes in the order of one cycle (spec/23 R383): core, then slot, then lane. -/
def fileRank (r : TrapRec) : List Nat := match r.unit with
  | .warp c k => [c, k, r.lane]
  | .front c _ => [c, 63, 0]
  | .thread q => [0x1FF, q, 0]

/-- A record joins its crib in the order of its cycle. -/
def insertRec (r : TrapRec) : List TrapRec → List TrapRec
  | [] => [r]
  | p :: t => if p.filed = r.filed && lexLess (fileRank r) (fileRank p) then r :: p :: t else p :: insertRec r t

/-- A record of the same key, at any core of the die, that can be filed in this cycle and comes before this one (spec/23 R383): this one waits for it. -/
def dueBefore (s : State) (r : TrapRec) : Bool :=
  s.cores.any (fun c => dieOf c.1 = recDie r && c.2.trapBuf.any (fun p => recDie p = recDie r && isCribbed s p && mayFile s p && p.cause = r.cause && p.world = r.world &&
    p.ctx = r.ctx && lexLess (fileRank p) (fileRank r)))

/-- Sheaves of a die that have formed, placed or not, as cribs. -/
def formedCribs (s : State) (die : Nat) : List Crib := (getGleaner s die).waiting ++
  s.cores.flatMap (fun c => c.2.warps.filterMap (fun w => match w.2.sheaf, w.2.live with
    | some h, true => if h.die = die then (h.recs.head?).map (fun r => { cause := r.cause, world := r.world, ctx := r.ctx, recs := h.recs }) else none
    | _, _ => none))

/-- A sheaf of the same key has formed in this cycle that holds a record of this cycle which comes after this one (spec/23 R383): this one reaches the Gleaner later. -/
def filedAfter (s : State) (r : TrapRec) : Bool :=
  (formedCribs s (recDie r)).any (fun c => sameCrib c r && c.recs.any (fun p => p.filed = s.cyc && lexLess (fileRank r) (fileRank p)))

/-- A record joins its key's crib; at 32 records the crib forms. None: no room, or not yet. -/
def cribRecord (s : State) (r : TrapRec) : Option State :=
  let die := recDie r
  let g := getGleaner s die
  let r := { r with filed := s.cyc }
  if !roomFor s r || dueBefore s r || filedAfter s r then none
  else match g.cribs.findIdx? (fun c => sameCrib c r) with
    | some i =>
      let g := { g with cribs := g.cribs.zipIdx.map (fun p => if p.2 = i then { p.1 with recs := insertRec r p.1.recs } else p.1) }
      let full : Bool := match g.cribs[i]? with
        | some c => 32 ≤ c.recs.length
        | none => false
      some (setGleaner s die (if full then formSheaf g i else g))
    | none => some (setGleaner s die { g with cribs := g.cribs ++ [{ cause := r.cause, world := r.world, ctx := r.ctx, recs := [r] }] })

/-- A record joins a pending list, if there is room, and the die link is up when it comes from die B: the threads are on die A (spec/24 R401). -/
def listRec (s : State) (r : TrapRec) (q : Nat) : Option State :=
  if listRoom s (recDie r) && (recDie r = 0 || bit s.regs.dlstat 0) then some (addPending s q { r with filed := s.cyc }) else none

/-- A translation fault's record (R362, R367): to its ring's thread. -/
def fileXlate (s : State) (r : TrapRec) : Option State :=
  let t := ringThread s r
  listRec t.1 r (t.2.getD (sliceThread s r.slice))

/-- File a record, if it can be filed now. -/
def fileRec (s : State) (r : TrapRec) : Option State :=
  if !mayFile s r then none
  else if isCribbed s r then cribRecord s r
  else if !r.direct && (r.kind = .lane || r.kind = .front) && r.cause = 5 then fileXlate s r
  else listRec s r (sliceThread s r.slice)

/-- GLEANER_FILE (R367): the oldest record of a core's buffer that can be filed now; one whose ring must be asked for waits behind those that need not.
Records of one crib go in the order of R383. -/
def execGleanerFile (core : Nat) (s : State) : Host.Outcome State Fault Refusal :=
  let can := ((getCore s core).trapBuf.zipIdx).filterMap (fun p => (fileRec s p.1).map (fun t => (p.2, t)))
  match (can.find? (fun p => p.2.holds = [])).orElse (fun _ => can.head?) with
  | none => .next s
  | some (i, t) => .next (setCore t core { getCore t core with trapBuf := (getCore t core).trapBuf.eraseIdx i })

/-! ### Sheaves (R368-R370) -/

/-- A team whose image is written: what comes for its units waits in its record, as for one that is out. -/
def imageMade (s : State) (handle : Nat) : Bool := match findTeam s handle with
  | some t => t.imgLen ≠ 0
  | none => false

/-- The warp of a team (or the sheaf) that a record came from, where it now is. -/
def originWarp (s : State) (r : TrapRec) : Option (Nat × Nat) :=
  if imageMade s r.handle then none else s.cores.findSome? (fun c => (c.2.warps.find? (fun w => w.2.live && w.2.handle = r.handle && w.2.num = r.num)).map (fun w => (c.1, w.1)))

/-- Whether a warp at a boundary is ready: nothing of its first entry parks it. -/
def Boundary.isReady : Boundary → Bool
  | .trap _ _ _ => true
  | .pop _ _ _ => true
  | .go _ _ _ => true
  | _ => false

/-- Whether a boundary is held for absent lanes. -/
def Boundary.isBlocked : Boundary → Bool
  | .blocked => true
  | _ => false

/-- A warp is blocked now on absent lanes (R376): a clause could begin, but for the lanes it waits for. -/
def blockedNow (s : State) (c k : Nat) : Bool :=
  let w := getWarp s c k
  w.live && w.run.isNone && !w.stopped && w.rejoins.isEmpty && warpMayRun s w && w.blocked.isSome && (boundary s c w).isBlocked

/-- Some warp with a lane in the crib is blocked at a convergence point. -/
def cribBlocks (s : State) (c : Crib) : Bool :=
  c.recs.any (fun r => match originWarp s r with
    | some p => blockedNow s p.1 p.2
    | none => false)

/-- CRIB_WINDOW_EXPIRY (R368). -/
def execCribWindowExpiry (die crib : Nat) (s : State) : Host.Outcome State Fault Refusal :=
  let g := getGleaner s die
  match g.cribs[crib]? with
  | none => .next s
  | some c => match c.recs with
    | [] => .next s
    | r :: _ =>
      let w := gatherWindow s c.ctx
      if r.filed + w ≤ s.cyc || (r.filed + w / 8 ≤ s.cyc && cribBlocks s c) then .next (setGleaner s die (formSheaf g crib)) else .next s

/-- Budget of a crib's handler. -/
def cribBudget (s : State) (c : Crib) : Nat := 8 * fld (handlerOf s c.ctx c.cause.toNat) 63 56

def dieCores (die : Nat) : List Nat := (List.range 160).map (fun i => 160 * die + i)

/-- The core that takes a waiting sheaf: one that latches its world, or one to relatch when none does (R369, R370). -/
def sheafCore (s : State) (die : Nat) (c : Crib) : Option Nat :=
  match (dieCores die).find? (fun k => (getCore s k).latch = c.world && warpsFit s k [cribBudget s c] && (freeSlot s k).isSome) with
  | some k => some k
  | none =>
    if (dieCores die).any (fun k => (getCore s k).latch = c.world) then none
    else (dieCores die).find? (coreIdle s)

/-- Place a formed sheaf on a core. -/
def placeSheaf (s : State) (die core : Nat) (c : Crib) : State :=
  let s := if (getCore s core).latch = c.world then s else relatch s core c.world
  let old := c.recs.head?
  let slice := match old with
    | some r => r.slice
    | none => 0
  let sid := match findSlice s slice with
    | some x => x.sid
    | none => 0
  let lanes := maskOf (fun l => l < c.recs.length)
  let h := handlerOf s c.ctx c.cause.toNat
  let s := setCore s core { getCore s core with sheafAt := some s.cyc }
  admitWarp s core { Warp.reset with
    num := s.turnNo, budget := cribBudget s c, ctx := c.ctx, world := c.world, sid := sid, slice := slice
    frontier := startFrontier s core (BitVec.ofNat 64 (fld h 51 3 * 8)) lanes, exited := ~~~lanes
    sheaf := some { recs := c.recs, done := 0, slice := slice, die := die } }

/-- The oldest waiting sheaf that some core can take. -/
def sheafNext (s : State) (die : Nat) : Option (Nat × Nat × Crib) :=
  (getGleaner s die).waiting.zipIdx.findSome? (fun p => (sheafCore s die p.1).map (fun k => (p.2, k, p.1)))

/-- SHEAF_PLACE (R370). -/
def execSheafPlace (die : Nat) (s : State) : Host.Outcome State Fault Refusal :=
  match sheafNext s die with
  | none => .next s
  | some (i, k, c) =>
    let g := getGleaner s die
    .next (placeSheaf (setGleaner s die { g with waiting := g.waiting.eraseIdx i }) die k c)

/-! ### Resumption (R373, R374) -/

/-- Where a record's thread rejoins. -/
def resumePlace (r : TrapRec) (replay : Bool) : Addr × Nat :=
  let pc : Addr := r.pc.setWidth 52
  if replay then (pc, if r.widx = 15 then 0 else r.widx)
  else if r.widx + 1 < r.count then (pc, r.widx + 1)
  else (pc + BitVec.ofNat 52 (8 * (r.count + 1)), 0)

/-- The front-end context that a record came from. -/
def originFront (s : State) (r : TrapRec) : Option (Nat × Nat) := match findTeam s r.handle with
  | none => none
  | some t => if t.saved || t.imgLen ≠ 0 then none else (frontOf s (t.start + r.num) r.handle).map (fun k => (t.start + r.num, k))

/-- A stopped warp issues again: its trapping entry resumes at a place. -/
def resumeEntry (s : State) (c k : Nat) (e : FEntry) (mask : Mask) : State :=
  let w := getWarp s c k
  let fr := (w.frontier.map (fun x => { x with mask := x.mask &&& ~~~mask })).filter (fun x => x.mask ≠ 0)
  let moved := (w.frontier.foldl (fun m x => m ||| x.mask) 0) &&& mask
  endBreaks (setWarp s c k { w with stopped := false, waiting := Nat.max s.cyc w.waiting, frontier := addEntry fr { e with key := entryKey s c e.pc, mask := moved } }) c

/-- Resolve a record: its thread is to rejoin, its warp or context issues again, or nothing (a slice record). -/
def resumeRec (s : State) (r : TrapRec) (replay : Bool) : State :=
  let p := resumePlace r replay
  let e : FEntry := { key := r.prio.toNat, pc := p.1, word := p.2, mask := 0 }
  let out := fun (whole : Bool) (m : Mask) => match findTeam s r.handle with
    | some t => setTeam s { t with rejoins := t.rejoins ++ [(r.num, whole, e, m)] }
    | none => s
  match r.kind with
  | .slice => s
  | .thread => match r.unit with
    | .thread q => setThread s q { getThread s q with halt := false, trapped := false, runBit := true, pc := p.1, word := p.2 }
    | _ => s
  | .front => match originFront s r with
    | some (c, k) =>
      let f := getFront s c k
      setFront s c k (if r.cause = 0x30 then { f with stopped := false } else { f with stopped := false, pc := p.1, word := p.2 })
    | none => match findTeam s r.handle with
      | some t => if r.cause = 0x30 then s else setTeam s { t with frontRes := (r.num, p.1, p.2) :: t.frontRes }
      | none => s
  | .warp => match originWarp s r with
    | some (c, k) =>
      if r.cause = 0x22 then
        setWarp s c k { getWarp s c k with stopped := false, waiting := Nat.max s.cyc (getWarp s c k).waiting, blocked := if (getWarp s c k).parked then some s.time else none }
      else resumeEntry s c k e r.mask
    | none => if r.cause = 0x22 then s else out true r.mask
  | .lane => match originWarp s r with
    | some (c, k) =>
      let w := getWarp s c k
      setWarp s c k { w with rejoins := w.rejoins ++ [(e, laneBit r.lane)] }
    | none => out false (laneBit r.lane)

/-- Take one rejoin into a frontier: only a lane that is absent rejoins. A warp that no longer waits for absent lanes is no longer blocked (R376);
one that was not ready counts no wait from before (spec/19 R344). -/
def takeRejoin (s : State) (c k : Nat) (e : FEntry) (m : Mask) : State :=
  let w := getWarp s c k
  let m := m &&& w.absent
  let was := (boundary s c w).isReady
  let w := { w with absent := w.absent &&& ~~~m, frontier := addEntry w.frontier { e with key := entryKey s c e.pc, mask := m } }
  endBreaks (setWarp s c k { w with
    blocked := if (boundary s c w).isBlocked then w.blocked else none, waiting := if was then w.waiting else Nat.max s.cyc w.waiting }) c

/-- Whether a warp's team holds its rejoins (R374, R406). -/
def rejoinsHeld (s : State) (w : Warp) : Bool := match findTeam s w.handle with
  | some t => t.st = .held
  | none => false

/-- LANE_REJOIN (R374): at a clause boundary, or while parked. -/
def execLaneRejoin (core slot : Nat) (s : State) : Host.Outcome State Fault Refusal :=
  let w := getWarp s core slot
  match w.rejoins with
  | [] => .next s
  | (e, m) :: t =>
    if !w.live || w.run.isSome || rejoinsHeld s w then .next s
    else .next (takeRejoin (setWarp s core slot { w with rejoins := t }) core slot e m)

/-! ### The absent limit (R376) -/

def absLimit (s : State) (slice : Nat) : Nat := match findSlice s slice with
  | some x => x.abslim
  | none => 0

/-- ABSENT_TIMEOUT (R376). -/
def execAbsentTimeout (core slot : Nat) (s : State) : Host.Outcome State Fault Refusal :=
  let w := getWarp s core slot
  let lim := absLimit s w.slice
  match w.blocked, freshFrontier s core w.frontier with
  | some t, e :: _ =>
    if !blockedNow s core slot || lim = 0 || s.time < t + 1024 * lim then .next s
    else
      let hdr := match codeSlot s core e.pc with
        | some i => slotWord s core i e.pc
        | none => 0
      let s := setWarp s core slot { w with blocked := none }
      .next (takeTrap s (.warp core slot) e.pc hdr hdr 15 0x1FF { cause := 0x22, detail := w.absent, addr := 0 })
  | _, _ => .next s

/-! ### Records that go (R327, R374) -/

/-- Remove the records that a test names from buffers, cribs, waiting sheaves and pending lists; their sheaf lanes become threadless. -/
def dropRecords (s : State) (p : TrapRec → Bool) : State :=
  let keep := fun (l : List TrapRec) => l.filter (fun r => !p r)
  let cribs := fun (l : List Crib) => (l.map (fun c => { c with recs := keep c.recs })).filter (fun c => !c.recs.isEmpty)
  let sheaf := fun (h : Sheaf) => { h with done := h.done ||| maskOf (fun l => match h.recs[l]? with
    | some r => p r
    | none => false) }
  { s with
    threads := s.threads.map (fun t => (t.1, { t.2 with pending := keep t.2.pending }))
    gleaners := s.gleaners.map (fun g => (g.1, { cribs := cribs g.2.cribs, waiting := cribs g.2.waiting, resolving := g.2.resolving.filter (fun r => !p r.2) }))
    cores := s.cores.map (fun c => (c.1, { c.2 with
      trapBuf := keep c.2.trapBuf, warps := c.2.warps.map (fun w => (w.1, { w.2 with sheaf := w.2.sheaf.map sheaf })) })) }

/-- A team is gone: its records leave (R374). -/
def dropTeamRecords (s : State) (handle : Nat) : State := dropRecords s (fun r => r.kind ≠ .slice && r.kind ≠ .thread && r.handle = handle && handle ≠ 0)

/-- Every record that has not been resolved. -/
def liveRecords (s : State) : List TrapRec :=
  s.cores.flatMap (fun c => c.2.trapBuf ++ c.2.warps.flatMap (fun w => match w.2.sheaf with
    | some h => (h.recs.zipIdx.filter (fun r => !h.done.getLsbD r.2)).map (fun r => r.1)
    | none => [])) ++
  s.gleaners.flatMap (fun g => (g.2.cribs ++ g.2.waiting).flatMap (fun c => c.recs) ++ g.2.resolving.map (fun r => r.2)) ++ s.threads.flatMap (fun t => t.2.pending)

/-! ### The words (R378-R382) -/

/-- The record a sheaf lane serves, while it has its thread. -/
def servedRec (s : State) (c k l : Nat) : Option TrapRec := match (getWarp s c k).sheaf with
  | some h => if h.done.getLsbD l then none else h.recs[l]?
  | none => none

/-- A gleaning word of a unit that may issue it: a sheaf, or a thread with a current record; ILLSTATE elsewhere (R378). -/
def gleanWord (s : State) (x : Issued) (body : State → State) : State :=
  let ok := match x.u with
    | .warp _ _ => isSheaf s x.u
    | .front _ _ => false
    | .thread q => !(getThread s q).pending.isEmpty
  if ok then body s else trapWord s x (illstate 0)

/-- The record that lane `l` of a unit serves. -/
def currentRec (s : State) (u : UnitId) (l : Nat) : Option TrapRec := match u with
  | .warp c k => servedRec s c k l
  | .front _ _ => none
  | .thread q => (getThread s q).pending.head?

/-- GINFO (R380). -/
def execGinfo (f : Full) (s : State) : Host.Outcome State Fault Refusal :=
  issueFull 0x14 f s (fun s x => gleanWord s x (fun s =>
    let n := modF f 4 1
    let word := fun (l : Nat) => match currentRec s x.u l with
      | some r => recWord r n
      | none => 0
    match x.u with
    | .warp _ _ => post s x 4 (vdst f.dst 1) x.act ((List.range 32).map (fun l => BitVec.ofNat 128 (word l))) 0
    | u => writeScalar s u 1 f.dst.toNat (BitVec.ofNat 128 (word 0))))

/-- A record's origin as a GLR or GLW keeps it: 0 none; else 1 with kind (0 warp lane, 1 front-end context, 2 thread, 3 slice), lane, number, handle. -/
def packOrigin (r : TrapRec) : W128 :=
  let kind := match r.kind with
    | .lane => 0
    | .warp => 0
    | .front => 1
    | .thread => 2
    | .slice => 3
  let num := match r.unit with
    | .thread q => q
    | _ => r.num
  BitVec.ofNat 128 (1 + kind * 2 + r.lane * 2 ^ 3 + r.handle % 2 ^ 32 * 2 ^ 8 + 2 ^ 40 * num)

/-- The operand C of a GLR or GLW: where each lane's record came from. -/
def originVals (s : State) (u : UnitId) : List W128 :=
  (List.range 32).map (fun l => match currentRec s u l with
    | some r => packOrigin r
    | none => 0)

/-- GLR (R381). -/
def execGlr (f : Full) (s : State) : Host.Outcome State Fault Refusal :=
  issueFull 0x15 f s (fun s x => gleanWord s x (fun s => newOp s { x with c := originVals s x.u } (.glr f) x.act [] 0))

/-- GLW (R381). -/
def execGlw (f : Full) (s : State) : Host.Outcome State Fault Refusal :=
  issueFull 0x16 f s (fun s x => gleanWord s x (fun s => newOp s { x with c := originVals s x.u } (.glw f) x.act [] 0))

/-- Where an origin now is: nothing, a warp's lane, a front-end context, a thread, or a team that is out or held, for which the word waits. -/
inductive OriginAt where
  | gone
  | waits
  | warp (c k lane : Nat)
  | front (c k : Nat)
  | thread (q : Nat)

def findOrigin (s : State) (o : W128) : OriginAt :=
  let v := o.toNat
  let handle := v / 2 ^ 8 % 2 ^ 32
  let num := v / 2 ^ 40
  let ln := v / 2 ^ 3 % 32
  let out : Bool := match findTeam s handle with
    | some t => t.saved || t.st = .held
    | none => false
  if v % 2 = 0 then .gone
  else match v / 2 % 4 with
    | 2 => .thread num
    | 3 => .gone
    | 1 =>
      if out then .waits
      else match findTeam s handle with
        | some t => match frontOf s (t.start + num) handle with
          | some k => .front (t.start + num) k
          | none => .gone
        | none => .gone
    | _ =>
      if out then .waits
      else match s.cores.findSome? (fun c => (c.2.warps.find? (fun w => w.2.live && w.2.handle = handle && w.2.num = num)).map (fun w => (c.1, w.1))) with
        | some (c, k) => .warp c k ln
        | none => .gone

/-- What GLR reads. -/
def readOrigin (s : State) (o : W128) (sel : Nat) : Nat :=
  match findOrigin s o with
  | .warp c k l =>
    let w := getWarp s c k
    if sel < 320 then (if sel < w.budget then (lane (look 0 w.v sel) l).toNat else 0)
    else if sel < 336 then (look 0 w.w (sel - 320)).toNat
    else if sel < 343 then ((readPred w (sel - 336)).getLsbD l).toNat
    else 0
  | .front c k => if sel < 64 then (look 0 (getFront s c k).s sel).toNat else 0
  | .thread q => if sel < 64 then (look 0 (getThread s q).s sel).toNat else 0
  | _ => 0

/-- What GLW writes, and its status: a lane whose thread is gone is threadless (R374, R381). -/
def writeOrigin (s : State) (o : W128) (sel : Nat) (v : W64) : State × Nat :=
  match findOrigin s o with
  | .warp c k l =>
    let w := getWarp s c k
    if sel < 320 then
      if sel < w.budget then (setWarp s c k (writeLate w sel 1 (laneBit l) (List.replicate 32 (v.setWidth 128))), 0) else (s, 1)
    else if 336 ≤ sel && sel < 343 then
      (setWarp s c k (writePred w (sel - 336) (laneBit l) (if bit v 0 then laneBit l else 0)), 0)
    else (s, 1)
  | .front c k =>
    if sel < 64 then (setFront s c k { getFront s c k with s := putC 0 (getFront s c k).s sel v }, 0) else (s, 1)
  | .thread q =>
    if sel < 64 then (setThread s q { getThread s q with s := putC 0 (getThread s q).s sel v }, 0) else (s, 1)
  | _ => (s, if o.toNat % 2 = 1 && o.toNat / 2 % 4 = 3 then 1 else 2)

/-- Lanes of an operation: a scalar unit's one. -/
def opLanes (o : Op) : List Nat := lanesIn o.lanes

/-- A GLR or GLW waits while a team it aims at is out or held (R405). -/
def originWaits (s : State) (o : Op) : Bool := (opLanes o).any (fun l => match findOrigin s (nth o.c l) with
  | .waits => true
  | _ => false)

/-- The die on which an origin stands. -/
def originDie : OriginAt → Nat
  | .warp c _ _ => dieOf c
  | .front c _ => dieOf c
  | _ => 0

/-- A word to units on the other die crosses the die link (spec/24 R401). -/
def originLink (s : State) (o : Op) : State := (opLanes o).foldl (fun z l => match findOrigin s (nth o.c l) with
  | .gone => z
  | .waits => z
  | p => atLink z (unitDie o.unit) (originDie p)) s

/-- GLR performed. -/
def performGlr (s : State) (o : Op) : State :=
  let s := originLink s o
  if originWaits s o then s
  else performed s o.id ((List.range 32).map (fun l => BitVec.ofNat 128 (readOrigin s (nth o.c l) (nth o.a l).toNat)))

/-- GLW performed, lanes ascending. -/
def performGlw (s : State) (o : Op) : State :=
  let s := originLink s o
  if originWaits s o then s
  else
    let r := (opLanes o).foldl (fun (a : State × List W128) l =>
      let w := writeOrigin a.1 (nth o.c l) (nth o.a l).toNat ((nth o.b l).setWidth 64)
      (w.1, setNth a.2 l (BitVec.ofNat 128 (2 ^ 28 * w.2)))) (s, List.replicate 32 0)
    performed r.1 o.id r.2

/-- The record that lane `l` of a unit serves is taken from it: the lane is threadless, or the thread's next record is its current one (R382). -/
def takeRec (s : State) (u : UnitId) (l : Nat) : State := match u with
  | .warp c k =>
    let w := getWarp s c k
    setWarp s c k { w with sheaf := w.sheaf.map (fun h => { h with done := h.done ||| laneBit l }) }
  | .front _ _ => s
  | .thread q => setThread s q { getThread s q with pending := (getThread s q).pending.drop 1 }

/-- The records of a unit's active lanes leave it, and wait with operation `id` to be resolved (R375). -/
def holdLanes (s : State) (x : Issued) (id : Nat) : State :=
  (lanesIn x.act).foldl (fun s l => match currentRec s x.u l with
    | some r =>
      let die := unitDie x.u
      let s := takeRec s x.u l
      setGleaner s die { getGleaner s die with resolving := (getGleaner s die).resolving ++ [(id, r)] }
    | none => s) s

/-- GRES (R375, R382) issues on schedule (spec/09 R187): its lanes are threadless at once, and their records are resolved when the lanes' earlier events are over. It raises no flag. -/
def execGres (f : Full) (s : State) : Host.Outcome State Fault Refusal :=
  issueFull 0x17 f s (fun s x => gleanWord s x (fun s =>
    let id := s.nextOp
    let s := newSilent (sendWc s x.u id) x (.gres f) x.act (modB f 1).toNat (unitWct s x.u)
    holdLanes s x id))

/-- Earlier operations of a lane that GRES waits for: its memory operations, as FENCE `.rel.module` does, and its GLWs (R375). -/
def gresWaits (s : State) (o : Op) : Bool :=
  s.ops.any (fun p => p.id < o.id && sameIssuer p o && p.phase = 0 && (isMemoryEvent p.instr || instrOp p.instr = 0x16)) || !passed s o.wct

/-- The die of the unit that a record's resolution reaches, and 0 where none is left. -/
def resumeDie (s : State) (r : TrapRec) : Nat := match r.kind with
  | .front => ((originFront s r).map (fun p => dieOf p.1)).getD 0
  | .slice => 0
  | .thread => 0
  | _ => ((originWarp s r).map (fun p => dieOf p.1)).getD 0

/-- GRES resolves its records (R373-R375). -/
def performGres (s : State) (o : Op) : State :=
  if gresWaits s o then s
  else
    let mine := s.gleaners.flatMap (fun g => (g.2.resolving.filter (fun r => r.1 = o.id)).map (fun r => r.2))
    let s := mine.foldl (fun z r => atLink z (unitDie o.unit) (resumeDie s r)) s
    let s := { s with gleaners := s.gleaners.map (fun g => (g.1, { g.2 with resolving := g.2.resolving.filter (fun r => r.1 ≠ o.id) })) }
    dropOp (mine.foldl (fun s r => resumeRec s r (o.arg = 1)) s) o.id

end Sys2Proof.Machine
end

