-- ==== Sys2Proof/Machine/Ends.lean ====
section
/-!
DEFINITION. Ends of warps, teams, stages and slices (spec/15 R311, R312; spec/08 R160; spec/14 R290; spec/19 R330, R337, R338; spec/20 R351, R357, R358),
and the placing of a stage's team on its pair (R350, R351).
-/
namespace Sys2Proof.Machine

/-! ### Completion records (R312, R439) -/

def recordBits (sum : ExitSum) (cause time : Nat) : Nat :=
  sum.maxst % 256 + cause * 2 ^ 8 + 2 ^ 32 * (sum.nz % 2 ^ 32) + 2 ^ 64 * (sum.low % 2 ^ 32) + 2 ^ 96 * (sum.threads % 2 ^ 32) + 2 ^ 128 * (time % 2 ^ 64)

/-- The device's accesses for a slice's context. -/
def sliceX (s : State) (x : Slice) (core : Nat) : XCtx := ctxX s core x.ctx x.world x.sid

/-- Write a completion record at CREC + 32·t. -/
def writeRecord (s : State) (x : Slice) (core tid : Nat) (sum : ExitSum) (cause : Nat) : State :=
  (structWrite s (sliceX s x core) (x.crec + BitVec.ofNat 64 (32 * tid)) 32 (recordBits sum cause s.time) 3 deviceOrigin false).1

/-- A step's part that would cross the die link while it is down is put off: `late` is done in its place (spec/24 R401, R402). -/
def whenLinked (s : State) (f late : State → State) : State := if (f s).holds.contains .link then late s else f s

/-- A device's write for a killed team or slice: written, or put off until the die link retrains (spec/24 R402). -/
def writeLater (s : State) (x : Slice) (core : Nat) (va : W64) (len bits : Nat) : State :=
  whenLinked s (fun s => (structWrite s (sliceX s x core) va len bits 3 deviceOrigin false).1)
    (fun s => { s with mem := { s.mem with late := s.mem.late ++ [{ core := core, ctx := x.ctx, world := x.world, sid := x.sid, va := va, len := len, bits := bits }] } })

/-- A completion record of a killed slice (R312). -/
def killedRecord (s : State) (x : Slice) (core tid : Nat) (sum : ExitSum) (cause : Nat) : State :=
  writeLater s x core (x.crec + BitVec.ofNat 64 (32 * tid)) 32 (recordBits sum cause s.time)

def addSum (a b : ExitSum) : ExitSum :=
  { maxst := Nat.max a.maxst b.maxst, nz := a.nz + b.nz, low := Nat.min a.low b.low, threads := a.threads + b.threads }

/-- The slice is DONE: its service thread wakes and the entry is free (R330, R335). -/
def doneSlice (s : State) (x : Slice) : State :=
  wake { s with launch := { s.launch with slices := s.launch.slices.filter (fun y => y.num ≠ x.num) } } x.thread 4

/-! ### Stages (spec/20) -/

def setPipe (s : State) (n : Nat) (g : Pipe → Pipe) : State := match findSlice s n with
  | some x => setSlice s { x with pipe := x.pipe.map g }
  | none => s

def setStage (p : Pipe) (k : Nat) (g : Stage → Stage) : Pipe :=
  { p with stages := p.stages.zipIdx.map (fun q => if q.2 = k then g q.1 else q.1) }

def setFurrow (p : Pipe) (k : Nat) (g : Furrow → Furrow) : Pipe :=
  { p with furrows := p.furrows.zipIdx.map (fun q => if q.2 = k then g q.1 else q.1) }

/-- R358: every input furrow of the stage is CLOSED. -/
def stopsRelaunch (p : Pipe) (k : Nat) : Bool := p.furrows.all (fun f => f.dst ≠ k || f.closed)

/-- Resident teams of a stage. -/
def stageTeams (s : State) (n k : Nat) : List Team := s.launch.teams.filter (fun t => t.slice = n && t.stage = some k && !t.saved)

/-- The lowest pool pair's even core, where engine ends and device accesses run (R354). -/
def poolCore (p : Pipe) : Nat := match p.pool with
  | [] => 0
  | e :: t => 2 * t.foldl (fun m q => Nat.min m q.1) e.1

/-- Device bytes of a stage entry (R347) and of a furrow entry (R348). -/
def stageBits (g : Stage) : Nat :=
  g.cur % 256 + g.pend % 4 * 2 ^ 8 + g.ended.toNat * 2 ^ 10 + 2 ^ 32 * (g.occ % 2 ^ 32) + 2 ^ 64 * (g.movesIn % 2 ^ 32) + 2 ^ 96 * (g.movesOut % 2 ^ 32) +
    2 ^ 128 * (g.runs % 2 ^ 64) + 2 ^ 192 * (g.stalls % 2 ^ 64)

def furrowBits (f : Furrow) : Nat :=
  f.moved % 2 ^ 64 + 2 ^ 64 * (f.overrun % 2 ^ 32) + 2 ^ 96 * (f.faults % 2 ^ 32) + 2 ^ 128 * (f.closed.toNat + f.prodend.toNat * 2)

/-- The Tiller rewrites the device fields of a declaration (R347; log 14 says when). -/
def writePipe (s : State) (n : Nat) : State := match findSlice s n with
  | none => s
  | some x => match x.pipe with
    | none => s
    | some p =>
      let s := p.stages.zipIdx.foldl (fun s g =>
        (structWrite s (sliceX s x (poolCore p)) (p.decl + BitVec.ofNat 64 (64 + 64 * g.2 + 32)) 32 (stageBits g.1) 3 deviceOrigin false).1) s
      p.furrows.zipIdx.foldl (fun s f =>
        (structWrite s (sliceX s x (poolCore p)) (p.decl + BitVec.ofNat 64 (576 + 64 * f.2 + 32)) 20 (furrowBits f.1) 3 deviceOrigin false).1) s

/-- What a stage's team asks of its pair. -/
def stageWant (x : Slice) (g : Stage) : Want :=
  { slice := x.num, world := x.world, diepol := x.diepol, cores := 2, budgets := shapeBudgets g.shape, stash := g.shape.stash, tiles := g.shape.tiles
    base := none, tile := none }

/-- Place a team of stage `k` on a pair, where it fits and the pair is ready (R351). -/
def placeStage (s : State) (x : Slice) (k pair : Nat) : Option State :=
  match x.pipe.bind (fun p => p.stages[k]?) with
  | none => none
  | some g => match runFits s (stageWant x g) (2 * pair) with
    | none => none
    | some spot =>
      if !runReady s (stageWant x g) spot then none
      else
        let h := takeHandle s
        let s := claimRun h.1 (stageWant x g) spot h.2
        let t := { mkTeam x h.2 (2 ^ 24 * k + g.runs % 2 ^ 24) (2 * pair) spot.base spot.tile g.shape with stage := some k }
        some (setPipe (startTeam s t) x.num (fun p => setStage p k (fun g => { g with runs := g.runs + 1 })))

/-- Teams of a slice's stages on a pair, those that have left it for an image included. -/
def pairTeams (s : State) (n pair : Nat) : List Team := s.launch.teams.filter (fun t => t.slice = n && t.stage.isSome && t.start / 2 = pair)

/-- A pool pair with an owner and no team of its slice. -/
def pairIdle (s : State) (n : Nat) (e : Nat × Option Nat × Option Nat) : Bool := e.2.1.isSome && (pairTeams s n e.1).isEmpty

/-- The head item of a slice. -/
inductive Item where
  | saved (handle : Nat)
  | team (tid : Nat)
  | worker
  | init
  | pair (stage : Nat)
  | relaunch (pair : Nat)
deriving DecidableEq, Repr

/-- Stage of the next initial pair of a pool. -/
def nextPairStage (p : Pipe) : Option Nat :=
  (p.stages.zipIdx.findSome? (fun g =>
    let upto := sumL ((p.stages.take (g.2 + 1)).map (fun h => h.init))
    if p.pool.length < upto then some g.2 else none))

/-- Swapped-out and stopped teams that are ready, least team id first. -/
def savedReady (s : State) (n : Nat) : Option Team :=
  (s.launch.teams.filter (fun t => t.slice = n && t.saved && t.readyAgain && t.pool.isSome)).foldl (fun (a : Option Team) t => match a with
    | some b => if t.tid < b.tid then some t else some b
    | none => some t) none

/-- Items of a slice beside its saved teams. -/
def freshItem (s : State) (x : Slice) : Option Item :=
  match x.kind, x.pipe with
  | 1, _ => if x.next < x.teams then some (.team x.next) else none
  | 3, _ => if x.next < x.teams then some .worker else none
  | _, some p =>
    if !p.inited then some .init
    else match nextPairStage p with
      | some k => some (.pair k)
      | none => (p.pool.find? (fun e => pairIdle s x.num e && !(match e.2.1 with
          | some k => stopsRelaunch p k
          | none => true))).map (fun e => .relaunch e.1)
  | _, none => none

def headItem (s : State) (x : Slice) : Option Item :=
  match x.st with
  | .stopped => none
  | _ => match savedReady s x.num with
    | some t => some (.saved t.handle)
    | none => freshItem s x

/-- A team that a budget stop has taken off its cores, or is taking, waits for placement. -/
def budgetWaits (s : State) (n : Nat) : Bool := s.launch.teams.any (fun t => t.slice = n && t.why = some .budget && t.st = .held)

/-- READY while something waits, else RESIDENT; T0 of a pipeline is the time it first becomes RESIDENT (R330, R355). -/
def settleSlice (s : State) (n : Nat) : State := match findSlice s n with
  | none => s
  | some x => match x.st with
    | .stopped => s
    | _ =>
      if (headItem s x).isSome || budgetWaits s n then setSlice s { x with st := .ready }
      else setSlice s { x with st := .resident, pipe := x.pipe.map (fun p => { p with t0 := some (p.t0.getD s.time) }) }

/-- A pair places a team of the stage that owns it, unless the stage has stopped relaunching or the slice is stopped. -/
def relaunchPair (s : State) (n pair : Nat) : State := match findSlice s n with
  | none => s
  | some x => match x.pipe, x.st with
    | _, .stopped => s
    | none, _ => s
    | some p, _ => match p.pool.find? (fun e => e.1 = pair) with
      | some (_, some k, _) => if stopsRelaunch p k then s else (placeStage s x k pair).getD s
      | _ => s

/-- The slice of a pipeline is DONE once every stage and every sink end is over (R358); a stage's team that is out then goes with it (DESIGN CHOICE, log 28). -/
def pipeDone (s : State) (n : Nat) : State := match findSlice s n with
  | none => s
  | some x => match x.pipe with
    | none => s
    | some p =>
      if p.inited && p.stages.all (fun g => g.ended) && p.furrows.all (fun f => f.dst ≠ 15 || f.stopped) then
        let s := (s.launch.teams.filter (fun t => t.slice = n)).foldl (fun s t => dropTeam (endTeamCopies (cancelWaiters s t.handle) t.handle) t.handle) s
        let s := p.furrows.foldl (fun s f => (finishRef s (sliceX s x (poolCore p)) f.queue none).1) s
        doneSlice s x
      else s

/-- R358: a stage that has stopped relaunching and has no team ends. -/
def endStage (s : State) (n k : Nat) : State := match findSlice s n with
  | none => s
  | some x => match x.pipe with
    | none => s
    | some p => match p.stages[k]? with
      | none => s
      | some g =>
        if g.ended || !stopsRelaunch p k || !(stageTeams s n k).isEmpty then s
        else
          let s := writeRecord s x (poolCore p) k g.sum 0
          let s := setPipe s n (fun p => { setStage p k (fun g => { g with ended := true }) with
            furrows := p.furrows.map (fun f => if f.src = k then { f with prodend := true } else f)
            pool := p.pool.map (fun e => if e.2.1 = some k then (e.1, none, e.2.2) else e) })
          pipeDone (writePipe s n) n

/-- A stage's team has ended: its statuses, the handoff of a marked pair, the next team or the stage's end (R351, R357, R358), and the
slice's state (spec/19 R330). -/
def stageTeamEnded (s : State) (t : Team) (k : Nat) : State :=
  let pair := t.start / 2
  let s := setPipe s t.slice (fun p =>
    let p := setStage p k (fun g => { g with sum := addSum g.sum t.sum })
    match p.pool.find? (fun e => e.1 = pair) with
    | some (_, own, some taker) =>
      let gone := match p.stages[taker]? with
        | some g => g.ended
        | none => true
      let p := { p with pool := p.pool.map (fun e => if e.1 = pair then (pair, if gone then none else some taker, none) else e) }
      let giver := own.getD k
      let p := setStage p giver (fun g => { g with pend := 0, movesOut := if gone then g.movesOut else sat (2 ^ 32 - 1) (g.movesOut + 1) })
      setStage p taker (fun g => { g with pend := 0, movesIn := if gone then g.movesIn else sat (2 ^ 32 - 1) (g.movesIn + 1) })
    | _ => p)
  settleSlice (endStage (relaunchPair s t.slice pair) t.slice k) t.slice

/-! ### Slices that end -/

/-- A SPAWN or JOIN of the slice is still on its way to a deque. -/
def pushesOut (s : State) (n : Nat) : Bool := s.ops.any (fun o => o.slice = n && o.phase = 0 && (instrOp o.instr = 0x0A || instrOp o.instr = 0x0B))

/-- Worker cores of a task slice. -/
def workersOf (s : State) (n : Nat) : List Nat := (s.cores.filter (fun c => c.2.worker = some n)).map (fun c => c.1)

/-- Workers are released. -/
def freeWorkers (s : State) (n : Nat) : State :=
  (workersOf s n).foldl (fun s c =>
    let s := dropSpills s c (sliceOwner n)
    setCore s c { getCore s c with worker := none, task := 0, workBase := 0, workTile := 0, deque := [], lfsr := 0, probeAt := 0 }) s

/-- Is the slice over? Then its last record is written and it is DONE (R330, R337, R338). -/
def checkSlice (s : State) (n : Nat) : State := match findSlice s n with
  | none => s
  | some x =>
    let left := s.launch.teams.any (fun t => t.slice = n)
    match x.kind with
    | 1 => if x.teams ≤ x.next && !left then doneSlice s x else s
    | 3 =>
      if x.next ≠ 0 && !left && (workersOf s n).all (fun c => (getCore s c).deque.isEmpty) && !pushesOut s n then
        let s := writeRecord s x ((workersOf s n).headD 0) 0 x.sum 0
        doneSlice (freeWorkers s n) x
      else s
    | _ => pipeDone s n

/-! ### Teams that end (R311) -/

/-- Front-end contexts of a team, with their cores. -/
def teamFronts (s : State) (t : Team) : List (Nat × Nat) :=
  (List.range t.shape.cores).filterMap (fun j => (frontOf s (t.start + j) t.handle).map (fun k => (t.start + j, k)))

/-- Dirty entries are written back and the mappings removed; a fault is recorded with access 1 and source 2 and its bytes are lost (R160). -/
def exitWriteBacks (s : State) (t : Team) : State × Nat :=
  (List.range t.shape.cores).foldl (fun (a : State × Nat) j =>
    let c := t.start + j
    let es := teamEntries a.1 c t.handle
    let x := teamX a.1 c t
    let r := wbEntries x c es a.1
    let s := r.2.2.foldl (fun s f => devFault s x f.2 f.1 1 2 (originOf (.front c 0) 0) 1 0) r.1
    (es.foldl (fun s e => setStashTag s c e none) s, Nat.max a.2 r.2.1)) (s, 0)

/-- The end of a team begins: its contexts stop at once and their decision entries go (R297); its warps' WCTMAX is noted. -/
def beginEnd (s : State) (t : Team) : State :=
  let ws := s.cores.flatMap (fun c => (c.2.warps.filter (fun w => w.2.live && w.2.handle = t.handle)).map (fun w => w.2.wctmax))
  let s := (teamFronts s t).foldl (fun s p => setFront s p.1 p.2 { getFront s p.1 p.2 with stopped := true, run := none, posted := none, dq := [] }) s
  match findTeam s t.handle with
  | some u => setTeam s { u with st := .ending, closed := false, wctmax := Nat.max u.wctmax (maxL ws) }
  | none => s

/-- A JOIN that has written its count and not yet pushed its continuation (spec/19 R341, R342). -/
def pushWaits (o : Op) : Bool := instrOp o.instr = 0x0B && o.arg = 1

/-- An operation that an ending team waits for: its contexts' operations complete (R297). Copies go on or are cancelled by themselves (spec/07 R147); a push that waits
for room, and what stands behind it, outlives its team (spec/19 R342). -/
def holdsEnd (s : State) (handle : Nat) (o : Op) : Bool :=
  o.handle = handle && !(instrOp o.instr = 0x6A || instrOp o.instr = 0x6B) && !pushWaits o &&
  !s.ops.any (fun p => p.id < o.id && sameIssuer p o && pushWaits p)

/-- Once no operation of its own is left to complete, an ending team's waits go, then write-backs, copies, matrix work and queues, in the order of R311 and R290. -/
def closeTeam (s : State) (t : Team) : State :=
  let s := cancelWaiters s t.handle
  if s.ops.any (holdsEnd s t.handle) then s
  else
    let top := maxL ((teamFronts s t).map (fun p => (getFront s p.1 p.2).wctmax))
    let b := exitWriteBacks s t
    let s := endTeamMatrix (endTeamCopies b.1 t.handle) t
    let s := killQueues s t t.start
    match findTeam s t.handle with
    | some u => setTeam s { u with closed := true, wctmax := Nat.max u.wctmax (Nat.max top b.2) }
    | none => s

/-- What a team holds on its cores is freed. -/
def freeTeam (s : State) (t : Team) : State :=
  let s := (List.range t.shape.cores).foldl (fun s j =>
    let c := t.start + j
    let s := dropSpills s c t.handle
    let k := getCore s c
    setCore s c { k with
      task := if k.task = t.handle then 0 else k.task
      warps := k.warps.filter (fun w => !(w.2.live && w.2.handle = t.handle && w.2.sheaf.isNone))
      fronts := k.fronts.filter (fun f => !(f.2.live && f.2.handle = t.handle)) }) s
  dropTeam s t.handle

/-- A team's slice, one of those that a die-link loss has made DONE included. -/
def teamSlice (s : State) (t : Team) : Option Slice := (findSlice s t.slice).orElse (fun _ => s.launch.lost.find? (fun x => x.num = t.slice))

/-- The record of a team, or what its slice or stage gathers from it, a team that ended with CAUSE 0 among its RETIRED (spec/24 R402); then the team is gone. `late`: a record that must cross the die link waits for it alone. -/
def finishTeam (s : State) (t : Team) (cause : Nat) (late : Bool) : State := match teamSlice s t with
  | none => freeTeam s t
  | some x =>
    if t.isTask then freeTeam (setSlice s { x with sum := addSum x.sum t.sum, retired := x.retired + (1 - cause) }) t
    else
      let s := setSlice s { x with retired := x.retired + (1 - cause) }
      match t.stage with
      | some _ => freeTeam s t
      | none => freeTeam (if late then killedRecord s x t.start t.tid t.sum cause else writeRecord s x t.start t.tid t.sum cause) t

/-- After a team is gone its pair or its slice goes on. -/
def afterTeam (s : State) (t : Team) : State := match t.stage with
  | some k => stageTeamEnded s t k
  | none => checkSlice s t.slice

/-- An ending team goes on: closed, and its record written once module time has passed its greatest WCTMAX. KILL ends a killed slice's teams. -/
def tryFinish (s : State) (handle : Nat) : State := match findTeam s handle with
  | none => s
  | some t =>
    let killed := match findSlice s t.slice with
      | some x => x.killed
      | none => false
    if t.st ≠ .ending || killed then s
    else if !t.closed then closeTeam s t
    else if passed s t.wctmax then afterTeam (finishTeam s t 0 false) t
    else s

/-- A warp that is not the team's last ends: its registers are freed, decision entries and barriers go on without it (R292, R302). -/
def endOneWarp (s : State) (c k : Nat) (t : Team) : State :=
  let w := getWarp s c k
  let s := setWarp s c k Warp.reset
  let s := setTeam s { t with ended := t.ended + 1, wctmax := Nat.max t.wctmax w.wctmax }
  let s := match frontOf s c t.handle with
    | some i =>
      let f := getFront s c i
      let gone : BitVec 48 := BitVec.ofNat 48 (2 ^ localIndex s w)
      setFront s c i { f with dq := (f.dq.map (fun e => { e with mask := e.mask &&& ~~~gone })).filter (fun e => e.mask ≠ 0) }
    | none => s
  barriersCheck s t.handle

/-- Every lane has exited and no flag is busy. -/
def warpOver (w : Warp) : Bool := w.live && w.run.isNone && w.exited = 0xFFFFFFFF#32 && w.flags.isEmpty && w.rejoins.isEmpty

/-- WARP_END (R311); a sheaf ends once its GRES are over (spec/22 R375). Slot 48 + k stands for front-end context k: a task of no warps ends when it halts (spec/19 R337). -/
def execWarpEnd (core slot : Nat) (s : State) : Host.Outcome State Fault Refusal :=
  if slot < 48 then
    let w := getWarp s core slot
    if !warpOver w then .next s
    else if w.sheaf.isSome then
      if s.ops.any (fun o => o.unit = .warp core slot && ownerHere s o) then .next s else .next (setWarp s core slot Warp.reset)
    else match findTeam s w.handle with
      | none => .next (setWarp s core slot Warp.reset)
      | some t => match t.st with
        | .held => .next s
        | .ending => .next (tryFinish s t.handle)
        | _ => if t.ended + 1 < shapeWarps t then .next (endOneWarp s core slot t) else .next (tryFinish (beginEnd s t) t.handle)
  else
    let f := getFront s core (slot - 48)
    match findTeam s f.handle with
    | none => .next s
    | some t =>
      if !f.live || !t.shape.roles.isEmpty then .next s
      else match t.st with
        | .held => .next s
        | .ending => .next (tryFinish s t.handle)
        | _ => if f.halted && f.run.isNone then .next (tryFinish (beginEnd s t) t.handle) else .next s

end Sys2Proof.Machine
end

