-- ==== Sys2Proof/Machine/Form.lean ====
section
/-!
DEFINITION. SLICECMD FORM (spec/19 R323-R329): launch commands, team shapes, context descriptors, handler tables (spec/22 R366), task blocks
(R336, R338) and pipeline declarations (spec/20 R346-R349), read and checked; and the slice that an accepted FORM makes.
-/
namespace Sys2Proof.Machine

/-! ### Reads (R329) -/

/-- A read of FORM: what it gives, or a refusal. -/
abbrev FormRes (α : Type) := State × Option α

def formThen {α β : Type} (a : FormRes α) (f : State → α → FormRes β) : FormRes β := match a.2 with
  | none => (a.1, none)
  | some v => f a.1 v

/-- Words at an address; a fault or a refusal refuses the command. -/
def formWords (s : State) (x : XCtx) (va : W64) (n : Nat) : FormRes (List W64) :=
  let r := devWords s x va n
  match r.2 with
  | .inl _ => (r.1, none)
  | .inr ws => (r.1, some ws)

/-- Words at an address that must be aligned. -/
def formAligned (s : State) (x : XCtx) (va : W64) (al n : Nat) : FormRes (List W64) :=
  if va.toNat % al ≠ 0 then (s, none) else formWords s x va n

def formCheck {α : Type} (s : State) (ok : Bool) (v : α) : FormRes α := (s, if ok then some v else none)

/-! ### The launch command (R323) -/

structure Cmd where
  ctxd : W64
  shape : W64
  crec : W64
  param : W64
  teams : Nat
  kind : Nat
  diepol : Nat
  ordered : Bool
  dlrel : Nat
  budget : Nat
  link : W64

def parseCmd (ws : List W64) : Cmd :=
  let w := fun (i : Nat) => ws.getD i 0
  { ctxd := w 0, shape := w 1, crec := w 2, param := w 3, teams := fld (w 4) 31 0, kind := fld (w 4) 63 56, diepol := fld (w 4) 34 33
    ordered := bit (w 4) 32, dlrel := fld (w 5) 31 0, budget := (w 6).toNat, link := w 7 }

/-- Malformed, or a limit broken. -/
def cmdBad (ws : List W64) : Bool :=
  let c := parseCmd ws
  fld (ws.getD 4 0) 55 35 ≠ 0 || fld (ws.getD 5 0) 63 32 ≠ 0 || c.diepol = 3 || c.crec.toNat % 32 ≠ 0 ||
  match c.kind with
  | 1 => c.teams = 0 || c.link ≠ 0
  | 2 => c.teams ≠ 0
  | 3 => c.teams = 0 || 160 < c.teams
  | _ => true

/-! ### Team shapes (R324) -/

def parseShape (addr : W64) (ws : List W64) : Shape :=
  let w := fun (i : Nat) => ws.getD i 0
  let role := fun (i : Nat) => fld (w (4 + i / 2)) (32 * (i % 2) + 31) (32 * (i % 2))
  let n := ((List.range 4).takeWhile (fun i => w i ≠ 0)).length
  { addr := addr
    roles := (List.range n).map (fun i => { entry := w i, warps := role i % 256, budget := 8 * (role i / 2 ^ 16 % 256) })
    fentry := w 6, cores := fld (w 7) 4 0, tiles := fld (w 7) 12 8, stash := fld (w 7) 31 16 }

def entryBad (e : W64) : Bool := fld e 63 52 ≠ 0 || fld e 2 0 ≠ 0

/-- Malformed, or a limit broken: roles from role 0 upward, at least one, at most 192 warps (spec/01 R18). -/
def shapeBad (ws : List W64) : Bool :=
  let w := fun (i : Nat) => ws.getD i 0
  let role := fun (i : Nat) => fld (w (4 + i / 2)) (32 * (i % 2) + 31) (32 * (i % 2))
  let sh := parseShape 0 ws
  sh.roles.isEmpty ||
  (List.range 4).any (fun i => if i < sh.roles.length then
      let r := role i
      let rb := r / 2 ^ 16 % 256
      entryBad (w i) || r / 2 ^ 24 ≠ 0 || r / 2 ^ 8 % 256 ≠ 0 || rb < 4 || 40 < rb || r % 256 = 0 || 192 < r % 256
    else w i ≠ 0 || role i ≠ 0) ||
  192 < sumL (sh.roles.map (fun r => r.warps)) || entryBad sh.fentry || fld (w 7) 63 32 ≠ 0 || fld (w 7) 15 13 ≠ 0 || fld (w 7) 7 5 ≠ 0 ||
  sh.cores = 0 || 16 < sh.cores || 8 < sh.tiles || 1536 < sh.stash

/-- Warps of one core fit it with the team's grant and their spill areas (R332 with spec/09 R183 and spec/15 R308). -/
def coreFits (sh : Shape) (bs : List Nat) : Bool := bs.length ≤ 48 && sumL bs ≤ 6144 && sh.stash + bs.length ≤ 1536

/-- A team's warps fit its cores; a task team lies on one core. -/
def shapeFits (sh : Shape) : Bool := (List.range sh.cores).all (fun j => coreFits sh (coreBudgets (shapeBudgets sh) sh.cores j))

/-- A shape for worker cores: role 0 alone, on one core (R337). -/
def workerShape (sh : Shape) : Shape := { sh with roles := sh.roles.take 1, cores := 1 }

/-- Read and check a shape. -/
def readShape (s : State) (x : XCtx) (va : W64) : FormRes Shape :=
  formThen (formAligned s x va 64 8) (fun s ws => formCheck s (!shapeBad ws) (parseShape va ws))

/-! ### Contexts (R325, R326, R366) -/

def descBad (ws : List W64) : Bool := fld (ws.getD 2 0) 63 24 ≠ 0 || (List.range 4).any (fun i => ws.getD (4 + i) 0 ≠ 0)

def htabBad (ws : List W64) : Bool :=
  fld (ws.getD 0 0) 63 32 ≠ 0 || ws.getD 5 0 ≠ 0 || (List.range 6).any (fun i => ws.getD (10 + i) 0 ≠ 0) ||
  (List.range 9).any (fun i =>
    let h := ws.getD (i + 1) 0
    h ≠ 0 && (fld h 63 56 < 4 || 40 < fld h 63 56 || fld h 55 52 ≠ 0 || fld h 2 0 ≠ 0))

/-- The accesses of a context that a descriptor describes, before it exists. -/
def descX (ws : List W64) (sid : Nat) : XCtx :=
  { thread := none, core := 0, ctx := fld (ws.getD 2 0) 15 0, world := fld (ws.getD 2 0) 19 16, sid := sid, root := (ws.getD 0 0).toNat, phys := false }

/-- The descriptor with its handler table: refused if malformed, or unlike the live context of its number. -/
def readCtx (s : State) (q sid : Nat) (va : W64) : FormRes Ctx :=
  formThen (formAligned s (threadX s q) va 64 8) (fun s ws =>
    let id := fld (ws.getD 2 0) 15 0
    let unlike := match findCtx s id with
      | some c => c.desc ≠ ws
      | none => false
    if descBad ws || unlike then (s, none)
    else if ws.getD 3 0 = 0 then (s, some { id := id, desc := ws, htab := [] })
    else formThen (formAligned s (descX ws sid) (ws.getD 3 0) 64 16) (fun s hs => formCheck s (!htabBad hs) { id := id, desc := ws, htab := hs }))

/-! ### Task blocks (R336, R338) -/

def recWarps (r : List W64) : Nat := fld (r.getD 3 0) 63 56
def recBudget (r : List W64) : Nat := 8 * fld (r.getD 3 0) 55 50
/-- Where a record's warps begin: CODE + 8·WENT. -/
def recEntry (r : List W64) : W64 := r.getD 0 0 + ((r.getD 3 0).extractLsb' 32 16).signExtend 64 * 8

/-- A continuation record is malformed under a shape's reservation (R336). -/
def recBad (sh : Shape) (r : List W64) : Bool :=
  let w0 := match sh.roles with
    | x :: _ => (x.warps, x.budget)
    | [] => (0, 0)
  let rb := recBudget r / 8
  entryBad (r.getD 0 0) || (r.getD 2 0).toNat % 64 ≠ 0 || fld (r.getD 3 0) 49 48 ≠ 0 || 48 < recWarps r ||
  (if recWarps r = 0 then rb ≠ 0 || fld (r.getD 3 0) 47 32 ≠ 0 else rb < 4 || 40 < rb) ||
  w0.1 < recWarps r || w0.2 < recBudget r

def taskBad (sh : Shape) (ws : List W64) : Bool :=
  let p := fld (ws.getD 5 0) 4 0
  recBad sh (ws.take 4) || fld (ws.getD 5 0) 63 5 ≠ 0 || p < 6 || 16 < p || ws.getD 6 0 ≠ 0 || ws.getD 7 0 ≠ 0

/-! ### Pipeline declarations (R346-R349) -/

def parseStage (sh : Shape) (w1 : W64) : Stage :=
  { shape := sh, min := fld w1 7 0, init := fld w1 23 16, max := fld w1 15 8, weight := fld w1 47 32, cur := 0, pend := 0, peer := 0, occ := 0
    movesIn := 0, movesOut := 0, runs := 0, stalls := 0, ended := false, sum := ExitSum.reset }

def parseFurrow (ws : List W64) : Furrow :=
  let w3 := ws.getD 3 0
  { queue := ws.getD 0 0, ring := ws.getD 1 0, ccb := ws.getD 2 0, size := fld w3 26 16, slots := fld w3 8 0, src := fld w3 35 32, dst := fld w3 39 36
    moved := 0, overrun := 0, faults := 0, prodend := false, closed := false, unit := 0, slot := none, lack := [], stage := 0, words := [], stopped := false
    wct := 0 }

/-- A stage entry's fields, its shape apart. -/
def stageBad (ws : List W64) : Bool :=
  let g := parseStage { addr := 0, roles := [], fentry := 0, cores := 0, tiles := 0, stash := 0 } (ws.getD 1 0)
  fld (ws.getD 1 0) 31 24 ≠ 0 || fld (ws.getD 1 0) 63 48 ≠ 0 || g.weight = 0 || ws.getD 2 0 ≠ 0 || ws.getD 3 0 ≠ 0 || fld (ws.getD 4 0) 31 11 ≠ 0 ||
  g.min = 0 || g.init < g.min || g.max < g.init || 80 < g.max

def isEngine (f : Furrow) : Bool := f.src = 15 || f.dst = 15

/-- A furrow entry's fields. -/
def furrowBad (nstage : Nat) (ws : List W64) : Bool :=
  let f := parseFurrow ws
  let w3 := ws.getD 3 0
  fld w3 15 9 ≠ 0 || fld w3 31 27 ≠ 0 || fld w3 63 40 ≠ 0 || f.size = 0 || 1024 < f.size || f.slots = 0 || 256 < f.slots ||
  f.ring.toNat % 64 ≠ 0 || fld (ws.getD 6 0) 63 2 ≠ 0 || ws.getD 7 0 ≠ 0 || (!isEngine f && f.ccb ≠ 0) ||
  (f.src ≠ 15 && nstage ≤ f.src) || (f.dst ≠ 15 && nstage ≤ f.dst) || f.src = f.dst

/-- Stages that no furrow from a stage still left can feed leave first; a cycle stays. -/
def cycleLeft (fs : List Furrow) : Nat → List Nat → List Nat
  | 0, left => left
  | n + 1, left => cycleLeft fs n (left.filter (fun k => fs.any (fun f => f.dst = k && left.contains f.src)))

/-- What R349 asks of the stages and furrows together. -/
def pipeShapeBad (stages : List Stage) (fs : List Furrow) : Bool :=
  let ks := List.range stages.length
  80 < sumL (stages.map (fun g => g.init)) || ks.any (fun k => fs.all (fun f => f.dst ≠ k)) || cycleLeft fs 8 ks ≠ [] ||
  8 < (fs.filter (fun f => f.src = 15)).length || 8 < (fs.filter (fun f => f.dst = 15)).length

/-- The copy of an engine end's command block, with the words read. -/
def endCopyOf (x : XCtx) (core eng : Nat) (ccb : W64) (ws ds is : List W64) : Copy :=
  let w52 := fld (ws.getD 6 0) 63 32
  { id := 0, handle := 0, ctx := x.ctx, world := x.world, sid := x.sid, core := core, ccb := ccb, replay := false, residue := 0, parts := ccbParts w52, dsp := ccbDsp w52
    coresel := ccbCore w52, eng := eng, arrivals := [], ready := false, readyAt := 0, refWaits := false, started := false, cancelled := false, stopped := false, noStat := false
    words := ws, data := ds, index := is, total := 0, todo := [], missing := [], doneBefore := 0, moved := 0, fatal := 0, sec := 0, refTaken := false, replays := 0
    firstVa := 0, firstSet := false, wct := 0, unit := .front core 0, faulted := [] }

/-- Whether the access that takes a reference on an engine end's QUEUE would neither fault nor be refused (R137): FORM takes none. -/
def endRefable (s : State) (x : XCtx) (queue : W64) : FormRes Unit :=
  if queue = 0 then (s, some ())
  else
    let t := qreach s x queue
    match t.2 with
    | .inl _ => (t.1, none)
    | .inr (r, pa) => let q := qread t.1 r pa
      match q.2 with
      | .inl _ => (q.1, none)
      | .inr _ => (q.1, some ())

/-- An engine end's command block, its records and its residue header read, and its QUEUE reached; none when one of these accesses fails. A stash
dense side has no team (R137, log 14). -/
def readEnd (s : State) (x : XCtx) (core : Nat) (f : Furrow) : FormRes Copy :=
  let eng := if f.src = 15 then 0 else 1
  formThen (formAligned s x f.ccb 64 8) (fun s ws =>
    let c := endCopyOf x core eng f.ccb ws
    let ccb := parseCcb f.ccb false (c [] []).parts (c [] []).coresel ws
    if ccbDsp ccb.w52 then (s, none)
    else formThen (formWords s x ccb.data 8) (fun s ds =>
      formThen (if ccb.index = 0 then (s, some []) else formWords s x ccb.index 8) (fun s is =>
        formThen (if ccb.residue = 0 then (s, some []) else formWords s x ccb.residue 8) (fun s _ =>
          formThen (endRefable s x ccb.queue) (fun s _ => (s, some (c ds is)))))))

/-- R349's checks of an engine end; its words. -/
def checkEnd (s : State) (x : XCtx) (f : Furrow) : FormRes (List W64) :=
  if !isEngine f then (s, some [])
  else formThen (readEnd s x 0 f) (fun s c =>
    let g := copyGeo c
    formCheck s (!(g.ccb.bad || fld g.ccb.queue 5 0 ≠ 0 || geoBad g || g.scatter ≠ (f.dst = 15) || g.ub ≠ 64 * f.size)) (c.words ++ c.data ++ c.index))

/-- Every page of a ring lies in the retention range. -/
def ringInside (x : XCtx) (range : Nat) (f : Furrow) : List Nat → State → FormRes Unit
  | [], s => (s, some ())
  | off :: t, s =>
    let r := translate s x (f.ring + BitVec.ofNat 64 off) false
    match r.2 with
    | .bad _ => (r.1, none)
    | .ok pa _ => if inRet r.1 range pa then ringInside x range f t r.1 else (r.1, none)

/-- Offsets of a ring at which its pages are looked at: its first byte, every page after it, its last byte. -/
def ringOffsets (f : Furrow) : List Nat :=
  let n := 64 * f.size * f.slots
  (List.range ((n + 4095) / 4096)).map (fun i => 4096 * i) ++ [n - 1]

/-- Stage entries, each with its shape. -/
def readStages (x : XCtx) (ws : List W64) : List Nat → State → FormRes (List Stage)
  | [], s => (s, some [])
  | k :: t, s =>
    let e := (ws.drop (8 + 8 * k)).take 8
    if stageBad e then (s, none)
    else formThen (readShape s x (e.getD 0 0)) (fun s sh =>
      if sh.cores ≠ 2 || !shapeFits sh then (s, none)
      else formThen (readStages x ws t s) (fun s gs => (s, some (parseStage sh (e.getD 1 0) :: gs))))

/-- Furrow entries, each with its ring and its engine end. -/
def readFurrows (x : XCtx) (range nstage : Nat) (ws : List W64) : List Nat → State → FormRes (List Furrow)
  | [], s => (s, some [])
  | k :: t, s =>
    let e := (ws.drop (72 + 8 * k)).take 8
    let f := parseFurrow e
    if furrowBad nstage e then (s, none)
    else formThen (ringInside x range f (ringOffsets f) s) (fun s _ =>
      formThen (checkEnd s x f) (fun s ws' =>
        formThen (readFurrows x range nstage ws t s) (fun s fs => (s, some ({ f with words := ws' } :: fs)))))

/-- The declaration's head (R346). -/
def headBad (ws : List W64) : Bool :=
  let h := ws.getD 0 0
  fld h 31 20 ≠ 0 || fld h 15 13 ≠ 0 || fld h 7 4 ≠ 0 || fld h 12 8 = 0 || 16 < fld h 12 8 || fld h 3 0 = 0 || 8 < fld h 3 0 ||
  fld h 63 32 < 10 || 1000 < fld h 63 32 || (List.range 7).any (fun i => ws.getD (1 + i) 0 ≠ 0)

/-- Read and check a declaration (R349). -/
def readPipe (s : State) (x : XCtx) (va : W64) : FormRes Pipe :=
  formThen (formAligned s x va 64 200) (fun s ws =>
    let h := ws.getD 0 0
    let ns := fld h 3 0
    let nf := fld h 12 8
    let range := fld h 19 16
    let beyond := ((ws.drop (8 + 8 * ns)).take (8 * (8 - ns)) ++ ws.drop (72 + 8 * nf)).any (fun w => w ≠ 0)
    if headBad ws || beyond || !bit (retCtl s range) 0 || fld (retCtl s range) 20 16 ≠ x.sid then (s, none)
    else formThen (readStages x ws (List.range ns) s) (fun s gs =>
      formThen (readFurrows x range ns ws (List.range nf) s) (fun s fs =>
        formCheck s (!pipeShapeBad gs fs)
          { decl := va, interval := fld h 63 32, range := range, stages := gs, furrows := fs, pool := [], inited := false, t0 := none, samples := 0 })))

/-! ### The slice (R329) -/

/-- What LINK names: a task's root record, SPILL and SPLOG, or a pipeline. -/
structure Linked where
  root : List W64
  spill : W64
  splog : Nat
  pipe : Option Pipe

def readLink (s : State) (x : XCtx) (c : Cmd) (sh : Shape) : FormRes Linked :=
  match c.kind with
  | 2 => formThen (readPipe s x c.link) (fun s p => (s, some { root := [], spill := 0, splog := 0, pipe := some p }))
  | 3 => formThen (formWords s x c.link 8) (fun s ws =>
      formCheck s (!taskBad sh ws) { root := ws.take 4, spill := ws.getD 4 0, splog := fld (ws.getD 5 0) 4 0, pipe := none })
  | _ => (s, some { root := [], spill := 0, splog := 0, pipe := none })

def hqctl (s : State) (q : Nat) : W64 := look Regs.hqctlReset s.regs.hqctl q

/-- A free slice entry: which one is not stated (log 7). -/
def freeSlice (s : State) : Option Nat :=
  let l := (List.range 256).filter (fun n => (findSlice s n).isNone)
  l[Config.pick s.freeNo % Nat.max 1 l.length]?

/-- The slice of an accepted FORM. -/
def mkSlice (s : State) (q n : Nat) (c : Cmd) (cmd : List W64) (x : XCtx) (sh : Shape) (l : Linked) : Slice :=
  let dl := if c.dlrel = 0 then fld (hqctl s q) 55 32 else c.dlrel
  { num := n, thread := q, st := .ready, deadline := s.time + 1024 * dl, queue := q, sid := x.sid, abslim := fld (hqctl s q) 31 16
    budget := if c.budget = 0 then none else some c.budget, seq := s.launch.seqCtr + 1, ctx := x.ctx, world := x.world, kind := c.kind
    diepol := c.diepol, ordered := c.ordered, teams := c.teams, crec := c.crec, param := c.param, cmd := cmd, shape := sh, next := 0, retired := 0, formOps := (getThread s q).sliceMark, root := l.root
    spill := l.spill, splog := l.splog, sum := ExitSum.reset, pipe := l.pipe, killed := false, loss := none }

/-- Reads and checks of a FORM: the slice and the context it names. -/
def readForm (s : State) (q : Nat) (va : W64) : FormRes (Slice × Ctx) :=
  let sid := fld (hqctl s q) 15 11
  formThen (formWords s (threadX s q) va 8) (fun s cmd =>
    let c := parseCmd cmd
    if cmdBad cmd then (s, none)
    else formThen (readCtx s q sid c.ctxd) (fun s cx =>
      let x := descX cx.desc sid
      formThen (readShape s x c.shape) (fun s sh =>
        if !(if c.kind = 3 then shapeFits (workerShape sh) else shapeFits sh) then (s, none)
        else formThen (readLink s x c sh) (fun s l =>
          match freeSlice s with
          | none => (s, none)
          | some n => (bumpFree s, some (mkSlice s q n c cmd x sh l, cx))))))

/-- A refused FORM forms nothing: the translations that it cached for a context go too. -/
def refuseForm (s t : State) (q : Nat) : State :=
  sliceOver { t with cores := s.cores, mem := { t.mem with tlbs := s.mem.tlbs, walkc := s.mem.walkc } } q true

/-- FORM by thread `q` of the command at an address. The device fields of a pipeline's stages and furrows are written 0 (R347, log 14). -/
def formSlice (s : State) (q : Nat) (va : W64) : State :=
  let r := readForm s q va
  match r.2 with
  | none => refuseForm s r.1 q
  | some (x, cx) =>
    let t := r.1
    let l := t.launch
    let t := { t with launch := { l with
      ctxs := if (findCtx t cx.id).isSome then l.ctxs else l.ctxs ++ [cx], slices := l.slices ++ [x], seqCtr := x.seq } }
    writePipe (setThread t q { getThread t q with sliceGo := none, slicestat := BitVec.ofNat 64 (256 * x.num) }) x.num

/-- ADDR of a SLICECMD write. -/
def sliceAddr (v : W64) : W64 := BitVec.ofNat 64 (fld v 51 6 * 64)

/-- SLICE_FORM (R329). -/
def execSliceForm (src : WSrc) (s : State) : Host.Outcome State Fault Refusal :=
  sliceEvent s src 1 (fun s q v => formSlice s q (sliceAddr v))

end Sys2Proof.Machine
end

