-- ==== Sys2Proof/Machine/Launch.lean ====
section
/-!
DEFINITION. Host queues (spec/19 R321), RESUME and KILL (R335), the end of a context (R327), the module scheduler (R331-R334, R350), budgets, and task
slices with SPAWN and JOIN (R336-R342).
-/
namespace Sys2Proof.Machine

/-! ### Host queues (R321) -/

/-- A PROD write of queue `q`. -/
def prodWrite (s : State) (q : Nat) (v : W64) : State :=
  let ctl := hqctl s q
  let old := look 0 s.regs.hqnotify q
  let cons := fld old 63 32
  let ahead := fun (p : Nat) => (p + 2 ^ 32 - cons) % 2 ^ 32
  let new := fld v 31 0
  let bad := !bit ctl 0 || 2 ^ fld ctl 10 7 < ahead new || ahead new < ahead (fld old 31 0)
  let ctl' := setFld ctl 1 1 bad.toNat
  let s := { s with regs := { s.regs with hqctl := putC Regs.hqctlReset s.regs.hqctl q ctl' } }
  if bad then s
  else wake { s with regs := { s.regs with hqnotify := putC 0 s.regs.hqnotify q (setFld old 31 0 new) } } q 1

/-- HQ_PROD_WRITE (R321): PROD is the host's. -/
def execHqProdWrite (src : WSrc) (s : State) : Host.Outcome State Fault Refusal :=
  rowEvent s src 0x180 0x1BF (fun s q v => match src with
    | .host => prodWrite s q v
    | .unit _ => s)

/-! ### Placement order (R331, R334) -/

/-- A thread's memory operations issued before a slice's FORM, whose effects its root task must see (R341), are performed, and module time has passed what they brought. -/
def rootReady (s : State) (x : Slice) : Bool :=
  s.ops.all (fun o => o.phase ≠ 0 || x.formOps ≤ o.id || o.unit ≠ .thread x.thread || !isMemoryEvent o.instr) && passed s (unitWct s (.thread x.thread))

/-- Held back by ORDERED: the predecessor has not issued its first clause (R334). A root task's worker waits for what happens before its FORM; what such a wait holds back is
not stated, and it holds back what an ORDERED team's does (DESIGN CHOICE, log 20). -/
def orderedWait (s : State) (x : Slice) : Bool :=
  match headItem s x with
    | some .worker => x.next = 0 && !rootReady s x
    | some (.team t) => x.ordered && t ≠ 0 && s.launch.teams.any (fun u => u.slice = x.num && u.tid + 1 = t && !u.issued)
    | _ => false

/-- Earlier in the scheduler's order. -/
def sliceBefore (a b : Slice) : Bool := lexLess [a.deadline, a.queue, a.seq] [b.deadline, b.queue, b.seq]

/-- The slice the scheduler considers, with its head item (R331). -/
def headSlice (s : State) : Option (Slice × Item) :=
  let c := (s.launch.slices.filter (fun x => (headItem s x).isSome && !orderedWait s x)).foldl (fun (a : Option Slice) x => match a with
    | some b => if sliceBefore x b then some x else some b
    | none => some x) none
  c.bind (fun x => (headItem s x).map (fun i => (x, i)))

/-! ### Placement (R332, R333) -/

def teamWant (x : Slice) (sh : Shape) : Want :=
  { slice := x.num, world := x.world, diepol := x.diepol, cores := sh.cores, budgets := shapeBudgets sh, stash := sh.stash, tiles := sh.tiles
    base := none, tile := none }

/-- Place the next team of a grid on the lowest run that fits; one whose cores are not all idle yet is drained first. -/
def placeTeam (s : State) (x : Slice) : State :=
  let w := teamWant x x.shape
  match findRun s w with
  | none => s
  | some spot =>
    if !runReady s w spot then s
    else
      let h := takeHandle s
      let s := claimRun h.1 w spot h.2
      let t := mkTeam x h.2 x.next (spot.run.headD 0) spot.base spot.tile x.shape
      startTeam (setSlice s { x with next := x.next + 1 }) t

/-- Place a worker of a task slice: the first takes the root record (R338); its LFSR is seeded (R340). -/
def placeWorker (s : State) (x : Slice) : State :=
  let w := teamWant x (workerShape x.shape)
  match findRun s w with
  | none => s
  | some spot =>
    if !runReady s w spot then s
    else
      let c := spot.run.headD 0
      let s := claimRun s w spot (sliceOwner x.num)
      let s := setCore s c { getCore s c with
        worker := some x.num, task := 0, workBase := 256 * spot.base, workTile := spot.tile
        deque := if x.next = 0 then [.held x.root] else [], lfsr := 0xACE1#16 ^^^ BitVec.ofNat 16 c, probeAt := s.cyc }
      setSlice s { x with next := x.next + 1 }

/-- TQINIT of a furrow's queue by the Tiller: its code (R350). -/
def initQueue (s : State) (x : XCtx) (origin : Nat) (f : Furrow) : State × Nat :=
  let t := qreach s x f.queue
  let fault := fun (s : State) (e : AFault) => (devFault s x f.queue e 2 1 origin 1 0, 9)
  if f.queue.toNat % 64 ≠ 0 then (s, 9)
  else match t.2 with
  | .inl e => fault t.1 e
  | .inr (r, pa) =>
    let q := qread t.1 r pa
    match q.2 with
    | .inl e => fault q.1 e
    | .inr (o, _) => match qapply o { kind := .init, b := f.slots, c := 0, flag := false, handle := 0 } false false with
      | .word v (some o') => ((qwrite q.1 r pa o').1, v / 2 ^ 28)
      | .word v none => (q.1, v / 2 ^ 28)
      | .wait => (q.1, 9)

/-- Before any team: every queue is initialised, then referenced; a failure ends the slice (R350). -/
def initPipe (s : State) (x : Slice) (p : Pipe) : State :=
  let cx := sliceX s x 0
  let origin := engineOrigin 0 0
  let r := p.furrows.foldl (fun (a : State × Bool) f =>
    let b := initQueue a.1 cx origin f
    (b.1, a.2 && b.2 = 0)) (s, true)
  if !r.2 then doneSlice r.1 x
  else
    let s := p.furrows.foldl (fun s f =>
      let t := takeRef s cx f.queue
      match t.2 with
      | .bad e => devFault t.1 cx f.queue e 2 1 origin 1 0
      | _ => t.1) r.1
    setSlice s { x with pipe := some { p with inited := true } }

/-- The die of a pool, fixed by its first pair, as a DIEPOL. -/
def poolDie (x : Slice) (p : Pipe) : Nat := match p.pool with
  | [] => x.diepol
  | e :: _ => e.1 / 80 + 1

/-- The next initial pair of a pool: the lowest free pair on which the stage's team fits (R350). -/
def placePair (s : State) (x : Slice) (p : Pipe) (k : Nat) : State :=
  match p.stages[k]? with
  | none => s
  | some g =>
    let w := { stageWant x g with diepol := poolDie x p }
    match (List.range 160).find? (fun q => (poolOf s q).isNone && (runFits s w (2 * q)).isSome) with
    | none => s
    | some q => match placeStage s x k q with
      | none => s
      | some s => setPipe s x.num (fun p => { setStage p k (fun g => { g with cur := g.cur + 1 }) with pool := p.pool ++ [(q, some k, none)] })

/-- Place a head item, if it fits. -/
def placeItem (s : State) (x : Slice) (i : Item) : State :=
  match i, x.pipe with
  | .saved _, _ => s
  | .team _, _ => settleSlice (placeTeam s x) x.num
  | .worker, _ => settleSlice (placeWorker s x) x.num
  | .init, some p => initPipe s x p
  | .pair k, some p => settleSlice (placePair s x p k) x.num
  | .relaunch q, some _ => settleSlice (relaunchPair s x.num q) x.num
  | _, none => s

/-- A waiting sheaf that some core can take goes first (R331, spec/22 R370). -/
def sheavesFirst (s : State) : Bool := (sheafNext s 0).isSome || (sheafNext s 1).isSome

/-- SCHEDULER_PLACE (R331). -/
def execSchedulerPlace (s : State) : Host.Outcome State Fault Refusal :=
  if sheavesFirst s then .next s
  else match headSlice s with
    | none => .next s
    | some (x, i) => .next (placeItem s x i)

/-! ### Budgets (R335) -/

/-- The record of a slice whose budget is exhausted. -/
def budgetRec (s : State) (x : Slice) : TrapRec :=
  { mkRec s .slice (.thread x.thread) 0 0 0 0 0 0 { cause := 0x31, detail := BitVec.ofNat 32 x.num, addr := 0 } 0 with
    slice := x.num, world := x.world, ctx := x.ctx }

/-- The slice is STOPPED and its teams stop at their next clause boundaries. -/
def exhaust (s : State) (x : Slice) : State :=
  let s := wake (fileSlice (setSlice s { x with st := .stopped }) (budgetRec s x)) x.thread 4
  { s with launch := { s.launch with teams := s.launch.teams.map (fun t =>
    if t.slice = x.num && t.st = .running && !t.saved then { t with st := .stopping, why := some .budget } else t) } }

/-- RESUME: teams that the budget has not stopped yet issue on; one HELD waits for room in the image pool (spec/26 R412), one saved for its placement. -/
def resumeSlice (s : State) (x : Slice) (w : W64) : State :=
  let s := setSlice s { x with st := .ready, budget := if w = 0 then none else some w.toNat }
  let on := s.launch.teams.filter (fun t => t.slice = x.num && t.why = some .budget && t.st = .stopping)
  settleSlice (on.foldl (fun s t => waitAfresh (setTeam s { t with st := .running, why := none }) t.handle) s) x.num

/-- SLICE_RESUME (R335): a slice that is not STOPPED, or a budget word that cannot be read, is refused (log 14). -/
def execSliceResume (src : WSrc) (s : State) : Host.Outcome State Fault Refusal :=
  sliceEvent s src 2 (fun s q v => match findSlice s (fld v 63 56) with
    | none => sliceOver s q true
    | some x =>
      let r := devWords s (threadX s q) (sliceAddr v) 1
      match x.st, r.2 with
      | .stopped, .inr ws => if x.killed || x.loss.isSome then sliceOver s q true else sliceOver (resumeSlice r.1 x (ws.getD 0 0)) q false
      | _, _ => sliceOver r.1 q true)

/-! ### KILL (R335) -/

/-- The unit of furrow `f`'s engine end while its queue operation waits. -/
def endUnit (n f : Nat) : UnitId := .warp 512 (16 * n + f)

/-- Engine ends' waiting queue operations leave their queues. -/
def dropEndWaits (s : State) (n : Nat) : State :=
  (s.ops.filter (fun o => (List.range 16).any (fun f => o.unit = endUnit n f))).foldl (fun s o =>
    match s.mem.waiters.find? (fun w => w.op = o.id), o.accs with
    | some w, a :: _ =>
      let s := { s with mem := { s.mem with waiters := s.mem.waiters.filter (fun y => y.op ≠ o.id) } }
      let q := qread s (opReq s o a) w.pa
      dropOp (match q.2 with
        | .inr (b, _) => (qwrite q.1 (opReq s o a) w.pa { b with waiters := b.waiters - 1 }).1
        | .inl _ => q.1) o.id
    | _, _ => dropOp s o.id) s

/-- An access waits at its requester for the die link (spec/24 R401). -/
def waitsLink (s : State) (o : Op) (a : LaneAcc) : Bool :=
  !bit s.regs.dlstat 0 && homeDie s (a.pa.getD 0) (fld a.leaf 62 61) ≠ unitDie o.unit

/-- A request of the word moves on by itself once it has left its unit. -/
def goesAlone (i : Instr) : Bool := trafficOf i = .read || trafficOf i = .write || trafficOf i = .atomic || instrOp i = 0x0B

/-- An operation that a killed team leaves under way: an access on its way to its slice, and every tree word (spec/06 R126). What would be performed in its core, or wait at its
slice, is over with its unit. -/
def staysAfterKill (s : State) (o : Op) : Bool :=
  o.phase = 0 && ((goesAlone o.instr && o.accs.any (fun a => a.pa.isSome && !a.done && !waitsLink s o a)) || isStructural o.instr)

/-- A killed team: its warps stop where they are, its records go, its end begins. Its waits at slices leave them as it closes (spec/14 R287). -/
def killTeam (s : State) (t : Team) : State :=
  let s := dropTeamRecords s t.handle
  let drop := fun (s : State) => { s with ops := s.ops.filter (fun o => o.handle ≠ t.handle || staysAfterKill s o || s.mem.waiters.any (fun w => w.op = o.id)) }
  if t.saved then
    let s := drop s
    match findTeam s t.handle with
    | some u => setTeam s { u with st := .ending, closed := false, killed := true }
    | none => s
  else
    let s := if t.st = .ending then s else beginEnd (setTeam s { t with killed := true }) { t with killed := true }
    drop { s with cores := s.cores.map (fun c =>
      (c.1, { c.2 with warps := c.2.warps.filter (fun w => !(w.2.live && w.2.handle = t.handle && w.2.sheaf.isNone)) })) }

/-- A killed team's end goes on: once what it left under way is over, a team that is out has its copies and queues ended (spec/07 R147, spec/14 R290), a resident one
everything of R311. -/
def closeKilled (s : State) (t : Team) : State :=
  if t.closed then s
  else if !t.saved then closeTeam s t
  else
    let s := cancelWaiters s t.handle
    if s.ops.any (holdsEnd s t.handle) then s
    else
    let s := killQueues (endTeamCopies s t.handle) t t.start
    match findTeam s t.handle with
    | some u => setTeam s { u with closed := true }
    | none => s

/-- The records of a killed slice's stages, or of a killed task slice (R312). -/
def killedRecords (s : State) (x : Slice) : State :=
  match x.kind, x.pipe with
  | 3, _ =>
    let s := { s with ops := s.ops.filter (fun o => !(o.slice = x.num && (instrOp o.instr = 0x0A || instrOp o.instr = 0x0B))) }
    if x.next = 0 then s else freeWorkers (killedRecord s x ((workersOf s x.num).headD 0) 0 x.sum 1) x.num
  | _, some p =>
    let s := p.stages.zipIdx.foldl (fun s g => if g.1.ended || p.pool.isEmpty then s else killedRecord s x (poolCore p) g.2 g.1.sum 1) s
    if p.inited then p.furrows.foldl (fun s f => (finishRef s (sliceX s x (poolCore p)) f.queue none).1) (writePipe s x.num) else s
  | _, none => s

/-- The link report of a slice that a die-link loss has ended (spec/24 R402). -/
def linkReport (s : State) (x : Slice) : State := match x.loss with
  | none => s
  | some (retired, killed, unplaced, time) =>
    writeLater s x 0 (x.crec + BitVec.ofNat 64 (32 * x.teams)) 32
      (retired % 2 ^ 32 + 2 ^ 32 * (killed % 2 ^ 32) + 2 ^ 64 * (unplaced % 2 ^ 32) + 2 ^ 128 * (time % 2 ^ 64))

/-- One team of a killed slice is gone, with its record or its sums: CAUSE 1 if it was killed, 0 if all its lanes had exited before (spec/15 R312). -/
def endKilled (s : State) (t : Team) : State :=
  let s := match t.stage with
    | some k => setPipe s t.slice (fun p => setStage p k (fun g => { g with sum := addSum g.sum t.sum }))
    | none => s
  finishTeam s t t.killed.toNat true

/-- A team's closing would cross the die link while it is down. -/
def linkBlocked (s : State) (t : Team) : Bool := !t.closed && (closeKilled s t).holds.contains .link

/-- The slice becomes DONE while the ends of the teams it has left wait for the die link: they belong to its entry in `lost`, under a number that no slice has. What they
gathered for a record of the slice enters it now. -/
def leaveLost (s : State) (x : Slice) : State :=
  let ts := s.launch.teams.filter (fun t => t.slice = x.num)
  if ts.isEmpty then s
  else
    let n := 256 + x.seq
    let x' := { x with sum := (ts.filter (fun t => t.isTask)).foldl (fun m t => addSum m t.sum) x.sum }
    setSlice { s with launch := { s.launch with
      teams := s.launch.teams.map (fun t => if t.slice = x.num then { t with slice := n } else t), lost := s.launch.lost ++ [{ x' with num := n }] } } x'

/-- The teams of a killed slice close, each for itself, and those that are closed end once module time has passed their WCTMAX. -/
def killStep (s : State) (n : Nat) : State :=
  let mine := fun (s : State) => s.launch.teams.filter (fun t => t.slice = n)
  let s := (mine s).foldl (fun s t => whenLinked s (fun s => closeKilled s t) id) s
  ((mine s).filter (fun t => t.closed && passed s t.wctmax)).foldl endKilled s

/-- KILL: the teams' ends begin; once they are over the slice is DONE. After a die-link loss, what would cross the link waits for itself alone (spec/24 R402). False: not yet. -/
def killSlice (s : State) (x : Slice) : State × Bool :=
  let mine := fun (s : State) => s.launch.teams.filter (fun t => t.slice = x.num)
  let s := if x.killed then s else
    dropEndWaits ((mine s).foldl killTeam (setSlice s { x with killed := true, st := .stopped })) x.num
  let s := killStep s x.num
  if (mine s).all (fun t => x.loss.isSome && linkBlocked s t) then
    match findSlice s x.num with
    | some y =>
      let s := leaveLost s y
      match findSlice s x.num with
      | some y =>
        let s := linkReport (killedRecords s y) y
        match findSlice s x.num with
        | some z => (doneSlice s z, true)
        | none => (s, true)
      | none => (s, true)
    | none => (s, true)
  else (s, false)

/-- The teams of a lost slice go on, until none is left. -/
def lostStep (s : State) (x : Slice) : State :=
  let s := killStep s x.num
  if s.launch.teams.any (fun t => t.slice = x.num) then s
  else { s with launch := { s.launch with lost := s.launch.lost.filter (fun y => y.num ≠ x.num) } }

/-- SLICE_KILL (R335): BUSY stands until the kill is over. -/
def execSliceKill (src : WSrc) (s : State) : Host.Outcome State Fault Refusal :=
  sliceEvent s src 3 (fun s q v => match findSlice s (fld v 63 56) with
    | none => sliceOver s q true
    | some x =>
      let r := killSlice s x
      if r.2 then sliceOver r.1 q false else r.1)

/-! ### The end of a context (R327) -/

/-- Some access, copy, overlay load or sheaf of a context is still out. -/
def ctxBusy (s : State) (ctx : Nat) : Bool :=
  s.ops.any (fun o => match o.unit with
    | .thread _ => false
    | _ => o.ctx = ctx) ||
  s.copies.any (fun c => match c.unit with
    | .thread _ => false
    | _ => c.ctx = ctx) ||
  s.cores.any (fun c => c.2.warps.any (fun w => w.2.live && w.2.ctx = ctx)) || s.mem.late.any (fun w => w.ctx = ctx) ||
  s.cores.any (fun c => c.2.slots.any (fun x => x.2.loading.any (fun l => l.ctx = ctx))) || s.launch.lost.any (fun x => x.ctx = ctx)

/-- Remove cached translations from every TLB, and cached table entries from every walk cache (spec/04 R87). -/
def dropTlbs (s : State) (p : TlbEnt → Bool) (w : WalkEnt → Bool) : State :=
  { s with
    cores := s.cores.map (fun c => (c.1, { c.2 with tlb := c.2.tlb.filter (fun t => !p t) }))
    mem := { s.mem with
      tlbs := (s.mem.tlbs.map (fun d => (d.1, d.2.filter (fun t => !p t)))).filter (fun d => !d.2.isEmpty)
      walkc := (s.mem.walkc.map (fun d => (d.1, d.2.filter (fun e => !w e)))).filter (fun d => !d.2.isEmpty) } }

/-- The steps of an accepted DESTROY. The save counter stays, belonging to no live context. -/
def destroyCtx (s : State) (ctx : Nat) : State :=
  let s := dropRecords (freeTree s ctx) (fun r => r.ctx = ctx && r.kind ≠ .thread)
  let s := dropTlbs s (fun t => t.space = ctx) (fun e => e.space = ctx)
  { s with launch := { s.launch with ctxs := s.launch.ctxs.filter (fun c => c.id ≠ ctx), resOwners := s.launch.resOwners.filter (fun p => p.1 ≠ ctx) } }

/-- A GO of CTXCMD: a refusal sets ERR and changes nothing else; an accepted one sets BUSY (R327). -/
def ctxCommand (s : State) (v : W64) : State :=
  let ctx := fld v 31 16
  let err := fun (r : Regs) (e : Bool) => { r with ctxcmd := setFld r.ctxcmd 2 2 e.toNat }
  if s.regs.ctxGo.isSome || (findCtx s ctx).isNone || s.launch.slices.any (fun x => x.ctx = ctx) ||
      s.launch.teams.any (fun t => t.ctx = ctx && t.pool.isSome) then { s with regs := err s.regs true }
  else { s with regs := { err (plainWrite s.regs 0x2D v) false with ctxGo := some ctx } }

/-- CONTEXT_DESTROY (R327): a GO; then, at a turn without one, the steps of the destroy in progress, once no access of the context is out and no slice has been formed
for it meanwhile (log 14). -/
def execContextDestroy (src : WSrc) (s : State) : Host.Outcome State Fault Refusal :=
  match takeWrite s src, s.regs.ctxGo with
  | some (0x2D, v, s'), _ => .next (ctxCommand s' v)
  | _, none => .next s
  | _, some ctx =>
    if ctxBusy s ctx || s.launch.slices.any (fun x => x.ctx = ctx) then .next s
    else
      let t := destroyCtx s ctx
      .next { t with regs := { t.regs with ctxGo := none } }

/-! ### SPAWN and JOIN (R342) -/

/-- SPAWN (R342). -/
def execSpawn (f : Full) (s : State) : Host.Outcome State Fault Refusal :=
  issueFull 0x0A f s (fun s x => newOp s x (.spawn f) 1 [] 0)

/-- JOIN (R342). -/
def execJoin (f : Full) (s : State) : Host.Outcome State Fault Refusal :=
  issueFull 0x0B f s (fun s x => markIssued s (issueOne s x (.join f) (oneAddr x)))

/-- The task slice of an operation's team, which may be gone. -/
def taskSlice (s : State) (o : Op) : Option Slice := (findSlice s o.slice).filter (fun x => x.kind = 3)

/-- Records a deque holds (R339). -/
def dequeCap (x : Slice) : Nat := 64 + 2 ^ x.splog

def dequeFull (s : State) (x : Slice) (c : Nat) : Bool := dequeCap x ≤ (getCore s c).deque.length

/-- Address of a slot of a core's spill area. -/
def spillVa (x : Slice) (c slot : Nat) : W64 := x.spill + BitVec.ofNat 64 (32 * 2 ^ x.splog * c + 32 * slot)

def usedSlots (d : List DqRec) : List Nat := d.filterMap (fun r => match r with
  | .spilled i => some i
  | .held _ => none)

def heldRecs (d : List DqRec) : List Nat := (d.zipIdx.filter (fun p => match p.1 with
  | .held _ => true
  | .spilled _ => false)).map (fun p => p.2)

/-- Overflow of a deque (R339): while its core would hold more than 64 records, one is written to a slot of the core's spill area that stands free. Which record and
which slot are left open (log 20). -/
def spillDeque (s : State) (x : Slice) (c : Nat) : Nat → List DqRec → State × List DqRec
  | 0, d => (s, d)
  | n + 1, d =>
    let hs := heldRecs d
    if hs.length ≤ 64 then (s, d)
    else
      let i := hs.getD (Config.pick s.freeNo % hs.length) 0
      let free := (List.range (2 ^ x.splog)).filter (fun k => !(usedSlots d).contains k)
      let slot := free.getD (Config.pick (s.freeNo + 1) % Nat.max 1 free.length) 0
      match d[i]? with
      | some (.held r) =>
        let w := structWrite (bumpFree (bumpFree s)) (sliceX s x c) (spillVa x c slot) 32 (wordsNat r) 3 deviceOrigin false
        spillDeque w.1 x c n (setNth d i (.spilled slot))
      | _ => (s, d)

/-- A core's deque as it stands after a change, no more than 64 of its records in the core. -/
def setDeque (s : State) (x : Slice) (c : Nat) (d : List DqRec) : State :=
  let p := spillDeque s x c d.length d
  setCore p.1 c { getCore p.1 c with deque := p.2 }

/-- Push at the young end. -/
def pushRec (s : State) (x : Slice) (c : Nat) (r : List W64) : State := setDeque s x c ((getCore s c).deque ++ [.held r])

/-- A record of core `c`'s deque, read back from the spill area where it was spilled; none: the read faults, or the memory there no longer holds a record that the
slice takes. The record then stays where it is (log 20). -/
def readRec (s : State) (x : Slice) (c : Nat) (r : DqRec) : State × Option (List W64) :=
  match r with
  | .held ws => (s, some ws)
  | .spilled slot =>
    let cx := sliceX s x c
    let d := devWords s cx (spillVa x c slot) 4
    match d.2 with
    | .inl e => (devFault d.1 cx e.2 e.1 0 3 deviceOrigin 1 0, none)
    | .inr ws => (d.1, if recBad x.shape ws then none else some ws)

/-- After an operation of a task slice whose team may be gone, the slice may be over (R338). -/
def afterPush (s : State) (o : Op) : State := match taskSlice s o with
  | some x => checkSlice s x.num
  | none => s

/-- SPAWN performed, once its release is over. -/
def performSpawn (s : State) (o : Op) : State :=
  let r := readyToSend s o
  match r.2, findOp r.1 o.id with
  | true, some o =>
    let s := r.1
    let rec4 := o.a.map (fun v => v.setWidth 64)
    let c := unitCore o.unit
    match taskSlice s o with
    | none => performed s o.id (everyLane (3 * 2 ^ 60))
    | some x =>
      afterPush (
        if recBad x.shape rec4 then performed s o.id (everyLane (2 * 2 ^ 60))
        else if dequeFull s x c then performed s o.id (everyLane (2 ^ 60))
        else performed (pushRec s x c rec4) o.id (everyLane 0)) o
  | _, _ => r.1

/-- A JOIN's answer: its value, and the time of what it acquired. -/
def joinAnswer (s : State) (o : Op) (v wct : Nat) : State :=
  let o := { o with phase := 1, res := everyLane v, wct := Nat.max o.wct wct, accs := o.accs.map (fun a => { a with done := true }) }
  afterPush (raiseOpWct (setOp s o) o o.wct) o

/-- A count that reached 0: the continuation, whose push waits until module time has passed the count's write, so that its task sees it (R341), and while the deque is
full. -/
def joinZero (s : State) (o : Op) (cont : List W64) (wct : Nat) : State :=
  match taskSlice s o with
  | none => joinAnswer s o (3 * 2 ^ 60) wct
  | some x =>
    if recBad x.shape cont then joinAnswer s o (2 * 2 ^ 60) wct
    else if !passed s wct || dequeFull s x (unitCore o.unit) then
      setOp s { o with arg := 1, b := cont.map (fun v => v.setWidth 128), wct := Nat.max o.wct wct, accs := o.accs.map (fun a => { a with done := true }) }
    else joinAnswer (pushRec s x (unitCore o.unit) cont) o 0 wct

/-- The counter's read-modify-write at its home slice; it costs what an atomic costs (spec/05 R100). A join block with a non-zero byte 8-31 is malformed (R3): nothing is
written, and JOIN reports BADREC with no count, for no rule names its report (DESIGN CHOICE, log 20). -/
def joinAt (s : State) (o : Op) (a : LaneAcc) : State :=
  let pa := a.pa.getD 0
  let r := opReq s o a
  let p := readLine (payFor s (sliceOf r.die (128 * r.la)) r.sid 2) r (BitVec.ofNat 4 (3 * 2 ^ (pa % 128 / 32))) false
  let bad := fun (s : State) (f : AFault) => faultAll s r.die { f with pte := if f.cause = 9 then a.leaf else f.pte } 1 [(o.id, a)]
  match p.2 with
  | .bad f => bad p.1 f
  | .ok data _ _ _ vm =>
    let c := fieldOfLine data (pa % 128) 8
    if fieldOfLine data (pa % 128 + 8) 24 ≠ 0 then joinAnswer p.1 o (2 * 2 ^ 60) vm
    else if c = 0 then joinAnswer p.1 o (2 ^ 60) vm
    else
      let w := writeLine p.1 (LReq.again p.1 r) ((2 ^ 8 - 1) * 2 ^ (pa % 128)) (BitVec.ofNat 1024 ((c - 1) * 2 ^ (8 * (pa % 128)))) (fun m => m) true
      match w.2 with
      | .bad f => bad w.1 f
      | .ok wct =>
        let cont := (List.range 4).map (fun i => BitVec.ofNat 64 (fieldOfLine data (pa % 128 + 32 + 8 * i) 8))
        if c = 1 then joinZero w.1 o cont (Nat.max vm wct) else joinAnswer w.1 o ((c - 1) % 2 ^ 60) (Nat.max vm wct)

/-- JOIN performed: the count once its release is over, then a push that waited. -/
def performJoin (s : State) (o : Op) : State :=
  if o.arg = 1 then joinZero s o (o.b.map (fun v => v.setWidth 64)) o.wct
  else if o.accs.any (fun a => a.pa.isNone || heldBySame s o a) then s
  else
    let r := readyToSend s o
    match r.2, findOp r.1 o.id with
    | true, some o => match o.accs with
      | [] => r.1
      | a :: _ => if sliceHolds r.1 (opReq r.1 o a) true then askGrant r.1 (opReq r.1 o a) true else joinAt r.1 o a
    | _, _ => r.1

/-! ### Workers (R337, R339, R340) -/

/-- The shape of a record's task team, inside its worker's reservation. -/
def taskShape (x : Slice) (r : List W64) : Shape :=
  { x.shape with
    roles := if recWarps r = 0 then [] else [{ entry := recEntry r, warps := recWarps r, budget := recBudget r }]
    fentry := BitVec.ofNat 64 (fld (r.getD 0 0) 51 0), cores := 1 }

/-- TASK_START (R337): a worker with no task pops from the young end. -/
def execTaskStart (core : Nat) (s : State) : Host.Outcome State Fault Refusal :=
  let k := getCore s core
  match k.worker.bind (findSlice s), k.deque.getLast? with
  | some x, some r =>
    if k.task ≠ 0 || x.st = .stopped then .next s
    else
      let d := readRec s x core r
      match d.2 with
      | none => .next d.1
      | some r =>
        let h := takeHandle d.1
        let t := { mkTeam x h.2 (fld (r.getD 3 0) 31 0) core (k.workBase / 256) k.workTile (taskShape x r) with
          param := r.getD 1 0, taskj := r.getD 2 0, isTask := true }
        .next (startTeam (setCore h.1 core { getCore h.1 core with task := h.2, deque := k.deque.dropLast }) t)
  | _, _ => .next s

/-- The next state of a steal unit's LFSR (R340). -/
def lfsrNext (l : W16) : W16 :=
  BitVec.ofNat 16 (l.toNat * 2 + ((bit l 15 ^^ bit l 13) ^^ (bit l 12 ^^ bit l 10)).toNat)

/-- The stolen records of a victim, read where they are spilled. None: one cannot be read. -/
def readRecs (x : Slice) (victim : Nat) : List DqRec → State → State × Option (List (List W64))
  | [], s => (s, some [])
  | r :: t, s =>
    let a := readRec s x victim r
    match a.2 with
    | none => (a.1, none)
    | some ws =>
      let b := readRecs x victim t a.1
      (b.1, b.2.map (fun l => ws :: l))

/-- STEAL_PROBE (R340): at most one probe in 64 core clocks. A steal one of whose records cannot be read takes none (log 20). -/
def execStealProbe (core : Nat) (s : State) : Host.Outcome State Fault Refusal :=
  let k := getCore s core
  match k.worker.bind (findSlice s) with
  | none => .next s
  | some x =>
    if k.task ≠ 0 || !k.deque.isEmpty || s.cyc < k.probeAt + 64 then .next s
    else
      let l := lfsrNext k.lfsr
      let victim := 160 * dieOf core + l.toNat % 160
      let v := getCore s victim
      let s := setCore s core { k with lfsr := l, probeAt := s.cyc }
      if victim = core || v.worker ≠ k.worker then .next s
      else
        let n := (v.deque.length + 1) / 2
        let r := readRecs x victim (v.deque.take n) s
        match r.2 with
        | none => .next r.1
        | some recs =>
          let s := setCore r.1 victim { getCore r.1 victim with deque := v.deque.drop n }
          .next (setDeque s x core (recs.map DqRec.held))

end Sys2Proof.Machine
end

