-- ==== Sys2Proof/Machine/Tiller.lean ====
section
/-!
DEFINITION. Pipelines as they run (spec/20 R353-R359): the engine ends of furrows, the Tiller's samples, closes and moves.
-/
namespace Sys2Proof.Machine

/-! ### Queue operations of an engine end (R354) -/

/-- What an engine end's operation comes to: a result word, a wait, or a fault (already recorded). -/
inductive EndRes where
  | word (v : Nat)
  | waits
  | failed

/-- The word an engine end performs: at MODULE scope, ordered when it hands a slot on. -/
def endWord (ordered : Bool) : Full :=
  { pneg := false, pred := 7, dst := 0, sa := 0, sb := 0, sc := 0, ha := false, hb := false, hc := false, ty := 7
    md := BitVec.ofNat 8 (16 + ordered.toNat), fsel := false }

/-- The operation that waits at its queue for an engine end. -/
def endOp (s : State) (x : Slice) (k : Nat) (f : Furrow) (i : Instr) (b c : Nat) (pa : Nat) (leaf : W64) (size : Nat) : Op :=
  { id := s.nextOp, unit := endUnit x.num k, handle := 0, num := 0, ctx := x.ctx, world := x.world, sid := x.sid, slice := x.num, instr := i, word := 0
    pc := 0, hdr := 0, widx := 0, lanes := 1, a := [f.queue.setWidth 128], b := [BitVec.ofNat 128 b], c := [BitVec.ofNat 128 c], flag := 0
    accs := [{ rawAcc 0 f.queue with pa := some pa, leaf := leaf, xlatAt := s.turnNo, size := size }], granted := [], bufs := [], phase := 0, held := true, res := []
    wrote := 0, writesReg := false, issued := s.time, wct := 0, arg := 0 }

/-- Perform a queue operation of an engine end, or let it wait. -/
def endQueue (s : State) (x : Slice) (core k : Nat) (f : Furrow) (i : Instr) (b c : Nat) : State × EndRes :=
  let cx := sliceX s x core
  let origin := engineOrigin core (if f.src = 15 then 0 else 1)
  let t := qreach s cx f.queue
  match t.2 with
  | .inl e => (devFault t.1 cx f.queue e 2 1 origin 1 0, .failed)
  | .inr (r, pa) =>
    let q := qread t.1 r pa
    match q.2, qreqOf i (BitVec.ofNat 128 b) (BitVec.ofNat 128 c) 0 with
    | .inl e, _ => (devFault q.1 cx f.queue e 2 1 origin 1 0, .failed)
    | .inr _, none => (q.1, .failed)
    | .inr (o, _), some req => match qapply o req false (olderOf q.1 pa req.kind) with
      | .word v none => (q.1, .word v)
      | .word v (some o') =>
        let w := qwrite q.1 r pa o'
        (match req.kind with
          | .kill => qkilled w.1 o pa w.2
          | _ => serveQueue w.1 r pa, .word v)
      | .wait =>
        let w := qwrite q.1 r pa { o with waiters := sat 0xFFFF (o.waiters + 1) }
        let op := endOp w.1 x k f i b c pa 0 (tlbSize t.1 cx f.queue)
        (addWaiter { w.1 with ops := w.1.ops ++ [op], nextOp := w.1.nextOp + 1 } op pa true, .waits)

/-- The answer of an engine end's waiting operation, once it has one; the operation is then gone. -/
def endAnswer (s : State) (n k : Nat) : Option (State × Nat) :=
  match s.ops.find? (fun o => o.unit = endUnit n k) with
  | none => none
  | some o => if o.phase = 0 then none else some (dropOp s o.id, (nth o.res 0).toNat)

/-! ### One slot's copy (R354, R144) -/

/-- The copy of an engine end's unit into or out of its slot. -/
def slotCopy (s : State) (x : Slice) (core : Nat) (f : Furrow) (slot : Nat) (sectors : List Nat) : Copy :=
  let eng := if f.src = 15 then 0 else 1
  let c := endCopyOf (sliceX s x core) core eng f.ccb (f.words.take 8) ((f.words.drop 8).take 8) (f.words.drop 16)
  let g := copyGeo c
  let dense := f.ring + BitVec.ofNat 64 (slot * 64 * f.size) - BitVec.ofNat 64 (f.unit * g.ub)
  { c with id := s.nextOp, words := setNth c.words 2 dense, residue := g.ccb.residue, started := true, todo := sectors }

def endUnits (f : Furrow) : Nat :=
  (copyGeo (endCopyOf { thread := none, core := 0, ctx := 0, world := 0, sid := 0, root := 0, phys := false } 0 0 f.ccb (f.words.take 8)
    ((f.words.drop 8).take 8) (f.words.drop 16))).units

/-- The sectors of the unit an engine end moves. -/
def unitSectors (f : Furrow) : List Nat := (List.range (2 * f.size)).map (fun j => f.unit * (2 * f.size) + j)

/-- Move sectors of a slot: the sectors left missing and the greatest WCT. -/
def moveSlot (s : State) (x : Slice) (core : Nat) (f : Furrow) (slot : Nat) (sectors : List Nat) : State × List Nat × Nat :=
  let c := slotCopy s x core f slot sectors
  let s := { s with copies := s.copies ++ [c], nextOp := s.nextOp + 1 }
  let s := sectors.foldl (fun s sec => match findCopy s c.id with
    | some c => if c.todo.contains sec then moveLine s c sec else s
    | none => s) s
  match findCopy s c.id with
  | some c => (dropCopy s c.id, c.missing, c.wct)
  | none => (s, [], 0)

/-- Furrow `k` of slice `n` after a change. -/
def setEnd (s : State) (n k : Nat) (g : Furrow → Furrow) : State := setPipe s n (fun p => setFurrow p k g)

/-- Move a slot's sectors; missing ones are counted once an attempt and kept for the next sample. -/
def attemptSlot (s : State) (x : Slice) (core k : Nat) (f : Furrow) (slot : Nat) (sectors : List Nat) : State :=
  let m := moveSlot s x core f slot sectors
  setEnd m.1 x.num k (fun f =>
    if m.2.1.isEmpty then { f with slot := some slot, lack := [], stage := 3, wct := Nat.max f.wct m.2.2 }
    else { f with slot := some slot, lack := m.2.1, stage := 2, faults := f.faults + 1, wct := Nat.max f.wct m.2.2 })

/-! ### The ends (R354) -/

/-- An engine end stops: a source's furrow has PRODEND, a sink counts as having returned its last slot. -/
def stopEnd (s : State) (n k : Nat) : State :=
  pipeDone (setEnd s n k (fun f => { f with stopped := true, prodend := f.prodend || f.src = 15 })) n

/-- A slot has been obtained: result bits [7:0]. -/
def gotSlot (s : State) (x : Slice) (core k : Nat) (f : Furrow) (v : Nat) : State :=
  if v / 2 ^ 28 ≠ 0 then stopEnd s x.num k
  else if f.unit < endUnits f then attemptSlot s x core k { f with wct := 0 } (v % 256) (unitSectors f)
  else setEnd s x.num k (fun f => { f with slot := some (v % 256), stage := 3, overrun := f.overrun + 1, wct := 0 })

/-- A slot has been handed on. -/
def handedOn (s : State) (x : Slice) (k : Nat) (f : Furrow) (v : Nat) : State :=
  if v / 2 ^ 28 ≠ 0 then stopEnd s x.num k
  else
    let last := f.src = 15 && endUnits f ≤ f.unit + 1
    setEnd s x.num k (fun f => { f with
      moved := f.moved + 1, unit := f.unit + 1, slot := none, stage := 0, wct := 0, prodend := f.prodend || last, stopped := f.stopped || last })

/-- Ask for a slot, or hand one on, with what the operation came to. -/
def endAsk (s : State) (x : Slice) (core k : Nat) (f : Furrow) (i : Instr) (b c : Nat) (wait : Nat) (done : State → Furrow → Nat → State) : State :=
  let r := endQueue s x core k f i b c
  match r.2 with
  | .word v => done r.1 f v
  | .waits => setEnd r.1 x.num k (fun f => { f with stage := wait })
  | .failed => stopEnd r.1 x.num k

/-- The next step of an engine end: `ask` obtains a slot, `hand` hands one on. -/
def endStep (s : State) (x : Slice) (core k : Nat) (f : Furrow) (ask : Instr) (hand : Instr) (handB handC : Nat) : State :=
  match f.stage with
  | 0 => endAsk s x core k f ask 1 0 1 (fun s f v => gotSlot s x core k f v)
  | 1 => match endAnswer s x.num k with
    | some (s, v) => gotSlot s x core k f v
    | none => s
  | 3 => if passed s f.wct then endAsk s x core k f hand handB handC 4 (fun s f v => handedOn s x k f v) else s
  | 4 => match endAnswer s x.num k with
    | some (s, v) => handedOn s x k f v
    | none => s
  | _ => s

/-- A live engine end of a pipeline whose pool is placed. -/
def findEnd (s : State) (slice furrow : Nat) : Option (Slice × Nat × Furrow) :=
  match findSlice s slice with
  | none => none
  | some x => match x.pipe with
    | none => none
    | some p => match p.furrows[furrow]? with
      | none => none
      | some f => if p.t0.isSome && !f.stopped && !x.killed then some (x, poolCore p, f) else none

/-- SOURCE_END_SLOT (R354). -/
def execSourceEndSlot (slice furrow : Nat) (s : State) : Host.Outcome State Fault Refusal :=
  match findEnd s slice furrow with
  | some (x, core, f) =>
    if f.src ≠ 15 then .next s
    else if f.stage = 0 && endUnits f ≤ f.unit then .next (stopEnd s slice furrow)
    else
      let b := 1 + 2 ^ 24 * f.slot.getD 0
      .next (endStep s x core furrow f (.tqacq (endWord false)) (.tqput (endWord true)) b (64 * f.size))
  | none => .next s

/-- SINK_END_SLOT (R354). -/
def execSinkEndSlot (slice furrow : Nat) (s : State) : Host.Outcome State Fault Refusal :=
  match findEnd s slice furrow with
  | some (x, core, f) =>
    if f.dst ≠ 15 then .next s
    else .next (endStep s x core furrow f (.tqget (endWord false)) (.tqret (endWord true)) (1 + 2 ^ 24 * f.slot.getD 0) 0)
  | none => .next s

/-! ### Samples (R355, R356) -/

/-- What the Tiller reads of a queue: a queue that cannot be read, or is malformed (spec/00 R3), counts as empty (DESIGN CHOICE, log 28). -/
def sampleQueue (s : State) (x : Slice) (core : Nat) (f : Furrow) : State × QObj :=
  let cx := sliceX s x core
  let origin := engineOrigin core (if f.dst = 15 then 1 else 0)
  let t := qreach s cx f.queue
  match t.2 with
  | .inl e => (devFault t.1 cx f.queue e 2 1 origin 1 0, QObj.zero)
  | .inr (r, pa) =>
    let q := qread t.1 r pa
    match q.2 with
    | .inl e => (devFault q.1 cx f.queue e 2 1 origin 1 0, QObj.zero)
    | .inr (o, _) => (q.1, if o.bad then QObj.zero else o)

/-- Every queue read once. -/
def sampleQueues (s : State) (x : Slice) (core : Nat) (fs : List Furrow) : State × List QObj :=
  fs.foldl (fun (a : State × List QObj) f =>
    let b := sampleQueue a.1 x core f
    (b.1, a.2 ++ [b.2])) (s, [])

/-- Engine ends try their missing sectors again (R354). -/
def retryEnds (s : State) (x : Slice) (core : Nat) (fs : List Furrow) : State :=
  fs.zipIdx.foldl (fun s f => if f.1.stage = 2 && !f.1.stopped then attemptSlot s x core f.2 f.1 (f.1.slot.getD 0) f.1.lack else s) s

/-- Close the furrows whose producers have ended and whose tokens read 0 (R358). -/
def closeFurrows (s : State) (x : Slice) (core : Nat) (fs : List Furrow) (qs : List QObj) : State :=
  (fs.zip qs).zipIdx.foldl (fun s p =>
    if p.1.1.prodend && !p.1.1.closed && p.1.2.tokens = 0 then
      setEnd (endQueue s x core p.2 p.1.1 (.tqkill (endWord false)) 0 0).1 x.num p.2 (fun f => { f with closed := true })
    else s) s

/-- OCC of a stage (R355). -/
def stageOcc (p : Pipe) (qs : List QObj) (k : Nat) : Nat :=
  let fq := p.furrows.zip qs
  let ins := fq.filter (fun a => a.1.dst = k && !a.1.closed)
  let cap := sumL (ins.map (fun a => a.2.cap))
  if fq.any (fun a => a.1.src = k && a.2.permits = 0 && a.2.waiters ≠ 0) || cap = 0 then 0
  else 256 * sumL (ins.map (fun a => a.2.tokens)) / cap

/-- Insert by descending key; among equals the earlier stays first. -/
def insertKey (a : Int × Nat) : List (Int × Nat) → List (Int × Nat)
  | [] => [a]
  | b :: t => if b.1 < a.1 then a :: b :: t else b :: insertKey a t

/-- Stage numbers by descending key, ties to the lower number. -/
def byKey (l : List (Int × Nat)) : List Nat := (l.foldl (fun acc a => insertKey a acc) []).map (fun a => a.2)

/-- d of a stage. -/
def stageD (g : Stage) : Nat := g.occ * g.weight

/-- Short and surplus stages, each in its order (R356 step 1). -/
def candidates (p : Pipe) : List Nat × List Nat :=
  let live := p.stages.zipIdx.filter (fun g => !g.1.ended)
  let pp : Int := sumL (live.map (fun g => g.1.cur))
  let d : Int := sumL (live.map (fun g => stageD g.1))
  let free := live.filter (fun g => g.1.pend = 0)
  let diff := fun (g : Stage) => pp * (stageD g : Int) - (g.cur : Int) * d
  if d = 0 then ([], [])
  else
    (byKey ((free.filter (fun g => 8 * diff g.1 > pp * d && g.1.cur < g.1.max)).map (fun g => (diff g.1, g.2))),
     byKey ((free.filter (fun g => -(8 * diff g.1) > pp * d && g.1.min < g.1.cur)).map (fun g => (-(diff g.1), g.2))))

/-- A spare pair goes to a short stage at once (step 2); which one is not stated (log 7). -/
def giveSpare (s : State) (n k : Nat) : Option State := match findSlice s n with
  | none => none
  | some x => match x.pipe with
    | none => none
    | some p =>
      let spare := p.pool.filter (fun e => e.2.1.isNone)
      match spare[Config.pick s.freeNo % Nat.max 1 spare.length]? with
      | none => none
      | some e =>
        let s := setPipe (bumpFree s) n (fun p =>
          { setStage p k (fun g => { g with cur := g.cur + 1, movesIn := sat (2 ^ 32 - 1) (g.movesIn + 1) }) with
            pool := p.pool.map (fun q => if q.1 = e.1 then (q.1, some k, none) else q) })
        some (relaunchPair s n e.1)

/-- Spare pairs to the short stages in order: those that get none are left. -/
def giveSpares (n : Nat) : List Nat → State → State × List Nat
  | [], s => (s, [])
  | k :: t, s => match giveSpare s n k with
    | some s => giveSpares n t s
    | none => (s, k :: t)

/-- The stage's highest-numbered pair. -/
def topPair (p : Pipe) (k : Nat) : Option Nat :=
  (p.pool.filter (fun e => e.2.1 = some k && e.2.2.isNone)).foldl (fun (a : Option Nat) e => some (Nat.max (a.getD 0) e.1)) none

/-- One move: the giver's pair is marked, the books change at once (step 4). A pair that holds no team changes stage at once. -/
def markMove (s : State) (n taker giver : Nat) : State := match findSlice s n with
  | none => s
  | some x => match x.pipe with
    | none => s
    | some p => match topPair p giver with
      | none => s
      | some pair =>
        let idle := pairIdle s n (pair, some giver, none)
        let moved := idle.toNat
        let s := setPipe s n (fun p =>
          let p := setStage p giver (fun g => { g with
            cur := g.cur - 1, pend := if idle then 0 else 1, peer := taker, movesOut := sat (2 ^ 32 - 1) (g.movesOut + moved) })
          let p := setStage p taker (fun g => { g with
            cur := g.cur + 1, pend := if idle then 0 else 2, peer := giver, movesIn := sat (2 ^ 32 - 1) (g.movesIn + moved) })
          { p with pool := p.pool.map (fun e => if e.1 = pair then (if idle then (pair, some taker, none) else (pair, e.2.1, some taker)) else e) })
        if idle then relaunchPair s n pair
        else { s with launch := { s.launch with teams := s.launch.teams.map (fun t =>
          if t.slice = n && t.stage.isSome && t.start / 2 = pair then { t with handoff := true } else t) } }

/-- The moves of a sample (R356), unless frozen (R359). -/
def sampleMoves (s : State) (n : Nat) : State := match (findSlice s n).bind Slice.pipe with
  | none => s
  | some p =>
    let c := candidates p
    let g := giveSpares n c.1 s
    (g.2.zip c.2).foldl (fun s m => markMove s n m.1 m.2) g.1

/-- One sample of a pipeline (R355). -/
def samplePipe (s : State) (x : Slice) (p : Pipe) : State :=
  let n := x.num
  let core := poolCore p
  let s := retryEnds s x core p.furrows
  let fs := match (findSlice s n).bind Slice.pipe with
    | some p => p.furrows
    | none => []
  let q := sampleQueues s x core fs
  let s := setPipe q.1 n (fun p => { p with stages := p.stages.map (fun g => if g.pend ≠ 0 then { g with stalls := g.stalls + 1 } else g) })
  let s := closeFurrows s x core fs q.2
  let s := (List.range p.stages.length).foldl (fun s k => endStage s n k) s
  let s := setPipe s n (fun p => { p with stages := p.stages.zipIdx.map (fun g => { g.1 with occ := stageOcc p q.2 g.2 }) })
  let s := if bit s.regs.tilctl 1 then s else sampleMoves s n
  pipeDone (writePipe s n) n

/-- TILLER_SAMPLE (R355): the sample whose time has come; an instant at which TILCTL.EN is 0 or the slice is STOPPED passes without one. -/
def execTillerSample (slice : Nat) (s : State) : Host.Outcome State Fault Refusal :=
  match findSlice s slice with
  | none => .next s
  | some x => match x.pipe with
    | none => .next s
    | some p => match p.t0 with
      | none => .next s
      | some t0 =>
        let k := (s.time - t0) / (1000 * p.interval)
        if k ≤ p.samples then .next s
        else
          let s := setPipe s slice (fun p => { p with samples := k })
          match x.st with
          | .stopped => .next s
          | _ => if bit s.regs.tilctl 0 then .next (samplePipe s x p) else .next s

end Sys2Proof.Machine
end

