-- ==== Sys2Proof/Machine/Image.lean ====
section
/-!
DEFINITION. The context image (spec/26 R407-R410, R440): its bytes as one little-endian number, built from a HELD team and read back; sealing under a
context key. The inner layout of a COPY section and the place of a tag's mapped bit are the model's (log 16).
-/
namespace Sys2Proof.Machine

/-! ### Packing -/

/-- Fields (offset, bytes, value) as one number. -/
def packFields (l : List (Nat × Nat × Nat)) : Nat := l.foldl (fun a f => a + f.2.2 % 2 ^ (8 * f.2.1) * 2 ^ (8 * f.1)) 0

/-- The `n` bytes at an offset. -/
def getB (v off n : Nat) : Nat := v / 2 ^ (8 * off) % 2 ^ (8 * n)

def zeroB (v off n : Nat) : Bool := getB v off n = 0

def flagBits (m : SMap Nat) : Nat := sumL ((List.range 12).map (fun i => look 0 m i % 64 * 2 ^ (6 * i)))
def flagsOf (v : Nat) : SMap Nat := (List.range 12).foldl (fun m i => putC 0 m i (v / 2 ^ (6 * i) % 64)) []

def pad64 (n : Nat) : Nat := (n + 63) / 64 * 64

/-- A section: kind, SIZE, contents. -/
structure Sec where
  kind : Nat
  size : Nat
  body : Nat

/-! ### Parts of a team -/

/-- Where a team's warp of a number now is. -/
def findTeamWarp (s : State) (handle num : Nat) : Option (Nat × Nat) :=
  s.cores.findSome? (fun c => (c.2.warps.find? (fun w => w.2.live && w.2.handle = handle && w.2.num = num && w.2.sheaf.isNone)).map (fun w => (c.1, w.1)))

def teamCoreList (t : Team) : List Nat := (List.range t.shape.cores).map (fun j => t.start + j)

/-- The pairs on which a run of cores lies. -/
def runPairs (start cores : Nat) : List Nat := dedup ((List.range cores).map (fun j => (start + j) / 2))

/-- Copies saved in an image: those with the dense side in the stash, and open instances (R147). One that has all its arrivals
and has not started has read nothing: it is saved as an open instance is (log 16). -/
def savedCopies (s : State) (handle : Nat) : List Copy := s.copies.filter (fun c => c.handle = handle && (c.dsp || !c.ready))

/-! ### Sections (R408, R409, R440) -/

def teamSection (t : Team) : Sec :=
  { kind := 1, size := 1024
    body := packFields ([(0, 4, t.handle), (4, 4, t.tid), (8, 1, t.slice), (9, 1, t.shape.cores), (10, 1, t.tileBase), (11, 1, t.tileLen),
        (12, 1, t.queues.length), (13, 1, t.handoff.toNat), (16, 4, t.stashBase), (20, 4, t.stashLen),
        (24, 8, if t.isTask then t.taskj.toNat else 0), (32, 8, t.param.toNat)] ++
      (List.range 16).flatMap (fun b =>
        let br := look Barrier.reset t.barriers b
        [(64 + 32 * b, 4, br.expect.getD 0 % 256), (68 + 32 * b, 4, br.gen), (72 + 32 * b, 24, br.arrived.foldl (fun m a => m ||| 2 ^ a.1) 0)]) ++
      t.queues.zipIdx.map (fun q => (576 + 8 * q.2, 8, q.1.toNat))) }

/-- An overlay slot as a FRONT section records it. -/
def slotField (o : OvlSlot) : Nat := if o.valid then 2 ^ 16 * o.image.toNat + o.len / 64 * 2 ^ 4 + 1 else 0

def dqFields (q : List DqEntry) : List (Nat × Nat × Nat) :=
  q.zipIdx.flatMap (fun e =>
    let o := 1024 + 64 * e.2
    [(o, 8, e.1.mask.toNat), (o + 8, 8, match e.1.target with
      | some a => 2 ^ 63 + a.toNat
      | none => 0), (o + 16, 1, e.1.vbase), (o + 17, 1, e.1.vals.length)] ++
    e.1.vals.zipIdx.map (fun v => (o + 32 + 4 * v.2, 4, v.1.toNat)))

def frontSection (s : State) (t : Team) (core : Nat) : Sec :=
  let f := match frontOf s core t.handle with
    | some k => getFront s core k
    | none => Front.reset
  { kind := 2, size := 4096
    body := packFields ([(0, 8, f.pc.toNat), (8, 16, flagBits f.flags), (24, 4, f.stack.length + f.halted.toNat * 2 ^ 5 + f.dq.length * 2 ^ 6),
        (672, 8, f.ovlstub.toNat), (680, 8, f.ovlpc.toNat), (688, 8, slotField (getSlot s core 0)), (696, 8, slotField (getSlot s core 1)),
        (704, 8, f.wctmax)] ++
      f.stack.zipIdx.map (fun a => (32 + 8 * a.2, 8, a.1.toNat)) ++ (List.range 64).map (fun i => (160 + 8 * i, 8, (look 0 f.s i).toNat)) ++ dqFields f.dq) }

/-- A warp that has ended is saved with every lane exited and no entry. -/
def warpSection (s : State) (t : Team) (num budget : Nat) : Sec :=
  let p := findTeamWarp s t.handle num
  let w := match p with
    | some (c, k) => getWarp s c k
    | none => { Warp.reset with exited := 0xFFFFFFFF#32 }
  let fr := match p with
    | some (c, _) => freshFrontier s c w.frontier
    | none => []
  { kind := 3, size := 768 + 128 * budget
    body := packFields ([(0, 4, num + budget / 8 * 2 ^ 8 + 2 ^ 16 * w.rdy.toNat), (4, 4, w.bcnt), (8, 4, w.absent.toNat), (12, 4, w.exited.toNat),
        (16, 8, w.wctmax), (24, 8, w.fpstat.toNat), (32, 8, w.dqt.toNat), (40, 16, flagBits w.flags), (56, 4, fr.length)] ++
      (List.range 7).map (fun i => (60 + 4 * i, 4, (look 0 w.p i).toNat)) ++ (List.range 16).map (fun i => (96 + 4 * i, 4, (look 0 w.w i).toNat)) ++
      fr.zipIdx.flatMap (fun e => [(160 + 16 * e.2, 8, e.1.pc.toNat + 2 ^ 52 * e.1.word), (168 + 16 * e.2, 8, e.1.mask.toNat + 2 ^ 32 * e.1.key)]) ++
      (w.v.filter (fun r => r.1 < budget)).map (fun r => (768 + 128 * r.1, 128, r.2.toNat))) }

/-- Tags: mapped address [51:8], mapped bit in bit 0. -/
def stashSection (s : State) (t : Team) (core : Nat) : Sec :=
  let n := t.stashLen / 256
  let tags := (List.range n).map (fun i => match stashTag s core (t.stashBase / 256 + i) with
    | some g => (16 + 8 * i, 8, fld g.va 51 8 * 2 ^ 8 + 1)
    | none => (16 + 8 * i, 8, 0))
  { kind := 4, size := 16 + 8 * n + t.stashLen
    body := packFields ((0, 8, t.stashLen) :: tags ++ [(16 + 8 * n, t.stashLen, stashRead s core t.stashBase t.stashLen)]) }

def tileSection (s : State) (t : Team) (pair tile : Nat) : Sec :=
  let x := getTile s pair tile
  let parts := ((getPair s pair).unmatched.filter (fun p => p.handle = t.handle && (instrFull p.instr).dst.toNat = tile)).take 3
  { kind := 5, size := 16448
    body := packFields ([(16384, 1, pair), (16385, 1, tile), (16386, 1, x.im.toNat), (16387, 1, x.tflags.toNat)] ++
      x.words.map (fun w => (4 * w.1, 4, w.2.toNat)) ++
      parts.zipIdx.flatMap (fun p => [(16388 + 20 * p.2, 8, match findOp s p.1.op with
        | some o => o.word.toNat
        | none => 0), (16396 + 20 * p.2, 4, p.1.num), (16400 + 20 * p.2, 8, if isGrouped p.1.instr then p.1.z.toNat else 0)])) }

/-- Bytes of a bitmap, rounded up to 8. -/
def bitmapLen (total : Nat) : Nat := (total + 63) / 64 * 8

def copySection (c : Copy) : Sec :=
  if c.started then
    { kind := 6, size := 256 + bitmapLen c.total
      body := packFields ([(0, 64, wordsNat c.words), (64, 64, wordsNat c.data), (128, 64, wordsNat c.index), (192, 8, c.residue.toNat), (200, 8, c.ccb.toNat),
        (208, 8, c.total), (256, bitmapLen c.total, bitmapNat c.todo)]) }
  else
    { kind := 6, size := 256 + 8 * c.arrivals.length
      body := packFields ([(200, 8, c.ccb.toNat), (216, 4, c.arrivals.length), (220, 4, 1)] ++
        c.arrivals.zipIdx.flatMap (fun a => [(256 + 8 * a.2, 4, a.1.2.1), (260 + 8 * a.2, 4, a.1.2.2)])) }

def imageSections (s : State) (t : Team) : List Sec :=
  teamSection t :: (teamCoreList t).map (frontSection s t) ++ (shapeBudgets t.shape).zipIdx.map (fun b => warpSection s t b.2 b.1) ++
  (teamCoreList t).map (stashSection s t) ++
  (runPairs t.start t.shape.cores).flatMap (fun p => (List.range t.tileLen).map (fun i => tileSection s t p (t.tileBase + i))) ++
  (savedCopies s t.handle).map copySection

/-! ### The whole image (R407) -/

def imageMagic : Nat := 0x314D4749

/-- Offset of the first section. -/
def bodyStart (n : Nat) : Nat := pad64 (256 + 16 * n)

/-- Table entries and bodies at their offsets. -/
def placeSecs : Nat → Nat → List Sec → List (Nat × Nat × Nat) × Nat
  | _, off, [] => ([], off)
  | i, off, x :: t =>
    let r := placeSecs (i + 1) (off + pad64 x.size) t
    ((256 + 16 * i, 4, x.kind) :: (260 + 16 * i, 4, x.size) :: (264 + 16 * i, 8, off) :: (off, x.size, x.body) :: r.1, r.2)

/-- LENGTH of an image of given sections. -/
def imageLength (xs : List Sec) : Nat := (placeSecs 0 (bodyStart xs.length) xs).2 + 16

/-- The header, and the plaintext from offset 256 to the trailer, as a number that starts at offset 0. -/
def headerNat (s : State) (t : Team) (ctr n len : Nat) : Nat :=
  packFields [(0, 4, imageMagic), (4, 2, 1), (6, 2, n), (8, 8, len), (16, 8, ctr), (24, 4, 2 ^ 16 * t.world + t.ctx), (28, 4, t.handle), (32, 4, t.tid),
    (36, 4, t.slice), (40, 8, s.time), (48, 8, t.shape.addr.toNat), (56, 8, 256)]

def bodyNat (xs : List Sec) : Nat := packFields (placeSecs 0 (bodyStart xs.length) xs).1

/-- Encrypt or decrypt the bytes of an image from offset 256 to its trailer (R410). -/
def cryptBody (dec : Bool) (km : BitVec 768) (ctr len body : Nat) : Nat :=
  packFields ((List.range ((len - 16 - 256) / 32)).map (fun i =>
    (256 + 32 * i, 32, bytesNat (xtsUnit dec km (2 ^ 64 * ctr + (256 + 32 * i) / 32) (natBytes 32 (getB body (256 + 32 * i) 32))))))

def imageTag (km : BitVec 768) (ctr ctx len header cipher : Nat) : Nat :=
  (gmac64 km (2 ^ 16 * ctr + ctx) (natBytes 256 header) (natBytes (len - 272) (cipher / 2 ^ (8 * 256)))).toNat

/-- The bytes of a team's image: plaintext in world 0, else sealed under the key (R410). -/
def imageNat (s : State) (t : Team) (key : Option (BitVec 768)) (ctr : Nat) : Nat × Nat :=
  let xs := imageSections s t
  let len := imageLength xs
  let h := headerNat s t ctr xs.length len
  let b := bodyNat xs
  match key with
  | none => (h + b, len)
  | some km =>
    let c := cryptBody false km ctr len b
    (h + c + imageTag km ctr t.ctx len h c * 2 ^ (8 * (len - 16)), len)

/-! ### Reading an image -/

/-- An image's header. -/
structure ImgHdr where
  nsec : Nat
  len : Nat
  ctr : Nat
  world : Nat
  ctx : Nat
  handle : Nat
  teamno : Nat
  slice : Nat
  shape : Nat

def parseHdr (h : Nat) : ImgHdr :=
  { nsec := getB h 6 2, len := getB h 8 8, ctr := getB h 16 8, world := getB h 26 2 % 16, ctx := getB h 24 2, handle := getB h 28 4, teamno := getB h 32 4
    slice := getB h 36 1, shape := getB h 48 8 }

/-- Malformed: a wrong MAGIC, VERSION or SECTAB, a field that must be zero, or a LENGTH that no image has. -/
def hdrBad (h : Nat) : Bool :=
  let p := parseHdr h
  getB h 0 4 ≠ imageMagic || getB h 4 2 ≠ 1 || p.nsec < 4 || getB h 26 2 / 16 ≠ 0 || !zeroB h 37 3 || getB h 56 8 ≠ 256 || !zeroB h 64 192 ||
  p.len < bodyStart p.nsec + 16 || 2 ^ 26 < p.len || p.len % 64 ≠ 16

/-- The kinds and sizes that a team's image must have, its COPY sections apart. -/
def wantSecs (cores : Nat) (budgets : List Nat) (stash tiles : Nat) : List (Nat × Nat) :=
  (1, 1024) :: List.replicate cores (2, 4096) ++ budgets.map (fun b => (3, 768 + 128 * b)) ++ List.replicate cores (4, 16 + 8 * stash + 256 * stash) ++
  List.replicate ((cores + 1) / 2 * tiles) (5, 16448)

/-- Entry `i` of the section table. -/
def secAt (img i : Nat) : Nat × Nat × Nat := (getB img (256 + 16 * i) 4, getB img (260 + 16 * i) 4, getB img (264 + 16 * i) 8)

def secBody (img i : Nat) : Nat := getB img (secAt img i).2.2 (secAt img i).2.1

/-- The table is as the team's shape asks, each section inside the image. -/
def tableBad (img nsec len : Nat) (want : List (Nat × Nat)) : Bool :=
  nsec < want.length || (List.range nsec).any (fun i =>
    let e := secAt img i
    e.2.2 % 64 ≠ 0 || e.2.2 < bodyStart nsec || len < e.2.2 + e.2.1 + 16 ||
    (match want[i]? with
      | some w => w ≠ (e.1, e.2.1)
      | none => e.1 ≠ 6 || e.2.1 < 256)) ||
  !zeroB img (256 + 16 * nsec) (bodyStart nsec - 256 - 16 * nsec)

def teamSecBad (b cores stash tiles : Nat) : Bool :=
  getB b 9 1 ≠ cores || getB b 10 1 / 16 ≠ 0 || getB b 11 1 ≠ tiles || 32 < getB b 12 1 || getB b 13 1 / 2 ≠ 0 || !zeroB b 14 2 ||
  getB b 16 4 / 2 ^ 19 ≠ 0 || getB b 16 4 % 256 ≠ 0 || getB b 20 4 ≠ 256 * stash || !zeroB b 40 24 || (List.range 16).any (fun i => getB b (64 + 32 * i) 4 / 256 ≠ 0) ||
  !zeroB b (576 + 8 * getB b 12 1) (256 - 8 * getB b 12 1) || !zeroB b 832 192

def frontSecBad (b : Nat) : Bool :=
  let w := getB b 24 4
  let depth := w % 32
  let n := w / 64 % 64
  getB b 0 8 / 2 ^ 52 ≠ 0 || getB b 8 16 / 2 ^ 72 ≠ 0 || 16 < depth || 32 < n || w / 2 ^ 12 ≠ 0 || !zeroB b 28 4 || !zeroB b (32 + 8 * depth) (8 * (16 - depth)) ||
  [688, 696].any (fun o => getB b o 8 / 2 ^ 52 ≠ 0 || getB b o 8 / 2 ^ 15 % 2 ≠ 0 || getB b o 8 / 2 % 8 ≠ 0) || !zeroB b 712 312 ||
  (List.range n).any (fun i =>
    let o := 1024 + 64 * i
    getB b o 8 / 2 ^ 48 ≠ 0 || getB b (o + 8) 8 / 2 ^ 52 % 2 ^ 11 ≠ 0 || 16 ≤ getB b (o + 16) 1 || 8 < getB b (o + 17) 1 || !zeroB b (o + 18) 14 ||
    !zeroB b (o + 32 + 4 * getB b (o + 17) 1) (32 - 4 * getB b (o + 17) 1)) ||
  !zeroB b (1024 + 64 * n) (2048 - 64 * n) || !zeroB b 3072 1024

def warpSecBad (b num budget : Nat) : Bool :=
  let n := getB b 56 4
  getB b 0 4 % 2 ^ 16 ≠ num + budget / 8 * 2 ^ 8 || 2 ≤ getB b 0 4 / 2 ^ 16 || getB b 4 4 / 2 ^ 16 ≠ 0 || getB b 40 16 / 2 ^ 72 ≠ 0 || 32 < n || !zeroB b 88 8 ||
  (List.range n).any (fun i => getB b (160 + 16 * i) 8 / 2 ^ 56 ≠ 0 || getB b (168 + 16 * i) 8 / 2 ^ 41 ≠ 0) ||
  !zeroB b (160 + 16 * n) (512 - 16 * n) || !zeroB b 672 96

/-- What an image must agree with. -/
structure ImgShape where
  cores : Nat
  budgets : List Nat
  stash : Nat
  tiles : Nat

def secsBad (img nsec len : Nat) (w : ImgShape) : Bool :=
  tableBad img nsec len (wantSecs w.cores w.budgets w.stash w.tiles) || teamSecBad (secBody img 0) w.cores w.stash w.tiles ||
  (List.range w.cores).any (fun j => frontSecBad (secBody img (1 + j))) ||
  w.budgets.zipIdx.any (fun p => warpSecBad (secBody img (1 + w.cores + p.2)) p.2 p.1)

/-- Frontier entries of a WARP section. -/
def frontierOf (b : Nat) : List FEntry :=
  (List.range (getB b 56 4)).map (fun i =>
    let x := getB b (160 + 16 * i) 8
    let y := getB b (168 + 16 * i) 8
    { key := y / 2 ^ 32 % 512, pc := BitVec.ofNat 52 x, word := x / 2 ^ 52 % 16, mask := BitVec.ofNat 32 y })

/-- A warp as its section gives it, over a fresh one of its team. -/
def warpOf (w : Warp) (b : Nat) (seq : Nat) : Warp :=
  { w with
    rdy := getB b 0 4 / 2 ^ 16 % 2 = 1, rdySeq := seq, bcnt := getB b 4 2, absent := BitVec.ofNat 32 (getB b 8 4), exited := BitVec.ofNat 32 (getB b 12 4)
    wctmax := getB b 16 8, fpstat := BitVec.ofNat 5 (getB b 24 8), dqt := BitVec.ofNat 52 (getB b 32 8), flags := flagsOf (getB b 40 16)
    p := (List.range 7).foldl (fun m i => putC 0 m i (BitVec.ofNat 32 (getB b (60 + 4 * i) 4))) []
    w := (List.range 16).foldl (fun m i => putC 0 m i (BitVec.ofNat 32 (getB b (96 + 4 * i) 4))) []
    frontier := frontierOf b, started := true
    v := (List.range w.budget).foldl (fun m i => putC 0 m i (BitVec.ofNat 1024 (getB b (768 + 128 * i) 128))) [] }

/-- A warp whose lanes have all exited with no flag busy had ended. -/
def warpEnded (b : Nat) : Bool := getB b 12 4 = 2 ^ 32 - 1 && getB b 40 16 = 0

def dqOf (b n : Nat) : List DqEntry :=
  (List.range n).map (fun i =>
    let o := 1024 + 64 * i
    { mask := BitVec.ofNat 48 (getB b o 8), target := if getB b (o + 8) 8 / 2 ^ 63 = 1 then some (BitVec.ofNat 52 (getB b (o + 8) 8)) else none
      vbase := getB b (o + 16) 1, vals := (List.range (getB b (o + 17) 1)).map (fun k => BitVec.ofNat 32 (getB b (o + 32 + 4 * k) 4)) })

/-- A front-end context as its section gives it. -/
def frontOfSec (f : Front) (b : Nat) : Front :=
  let w := getB b 24 4
  { f with
    pc := BitVec.ofNat 52 (getB b 0 8), word := 0, flags := flagsOf (getB b 8 16), halted := w / 32 % 2 = 1
    stack := (List.range (w % 32)).map (fun i => BitVec.ofNat 52 (getB b (32 + 8 * i) 8))
    s := (List.range 64).foldl (fun m i => putC 0 m i (BitVec.ofNat 64 (getB b (160 + 8 * i) 8))) []
    ovlstub := BitVec.ofNat 64 (getB b 672 8) &&& ones 51 3, ovlpc := BitVec.ofNat 64 (getB b 680 8) &&& (ones 51 3 ||| ones 1 0), wctmax := getB b 704 8, dq := dqOf b (w / 64 % 64) }

end Sys2Proof.Machine
end

