-- ==== Sys2Proof/Machine/Save.lean ====
section
/-!
DEFINITION. Stopping a team (spec/26 R404, R405, R420), saving it (R410, R421; the image pool, R412), swap-outs (spec/14 R295) and budget stops
(spec/19 R335). A save has two phases: the image is written; once module time has passed the writes the units leave and the cores are freed (log 16).
-/
namespace Sys2Proof.Machine

/-- A result of R419: CODE in [63:60], the other bits as given. -/
def worldCode (code v : Nat) : List W128 := everyLane (2 ^ 60 * code + v)

/-- The thread an operation of the service processor belongs to. -/
def opThread (o : Op) : Nat := match o.unit with
  | .thread q => q
  | _ => 0

/-- The handle in sA[31:0]. -/
def opHandle (o : Op) : Nat := (nth o.a 0).toNat % 2 ^ 32

def opWordA (o : Op) : W64 := (nth o.a 0).setWidth 64
def opWordB (o : Op) : W64 := (nth o.b 0).setWidth 64

/-! ### PREEMPT (R420) -/

/-- PREEMPT. -/
def execPreempt (f : Full) (s : State) : Host.Outcome State Fault Refusal :=
  issueFull 0x10 f s (fun s x => newOp s x (.preempt f) 1 [] 0)

/-- PREEMPT.rel. -/
def execPreemptRel (f : Full) (s : State) : Host.Outcome State Fault Refusal :=
  issueFull 0x10 f s (fun s x => newOp s x (.preemptRel f) 1 [] 0)

/-- One step of a PREEMPT, which crosses to the team's die (spec/24 R401): stop the team, then wait until TEAM_HELD answers or the team ends. -/
def performPreempt (s : State) (o : Op) : State :=
  match findTeam s (opHandle o) with
  | none => performed s o.id (worldCode (if o.arg = 0 then 2 else 3) 0)
  | some t =>
    let s := atLink s 0 (dieOf t.start)
    if o.arg = 0 then
      if t.saved || t.st = .ending then performed s o.id (worldCode 2 0)
      else if t.st ≠ .running then performed s o.id (worldCode 3 0)
      else setOp (setTeam s { t with st := .stopping, why := some (.preempt o.id) }) { o with arg := 1 }
    else if t.saved || t.st = .ending then performed s o.id (worldCode 3 0)
    else s

/-- A HELD team issues again: its stopped copies move, its warps' waits begin afresh. -/
def runAgain (s : State) (t : Team) : State :=
  let s := waitAfresh (setTeam s { t with st := .running, why := none }) t.handle
  { s with copies := s.copies.map (fun c => if c.handle = t.handle then { c with stopped := false } else c) }

/-- A HELD team issues again on its own cores; of one that is out, or not HELD, the answer is STATE. -/
def performPreemptRel (s : State) (o : Op) : State :=
  match findTeam s (opHandle o) with
  | none => performed s o.id (worldCode 2 0)
  | some t =>
    if t.saved || t.st ≠ .held || t.imgLen ≠ 0 then performed s o.id (worldCode 3 0)
    else performed (runAgain (atLink s 0 (dieOf t.start)) t) o.id (worldCode 0 0)

/-! ### HELD (R405, R406) -/

/-- WAITC, queue words and copies: what may stay unanswered, or answered and undelivered, while the team is out. -/
def keepsAnswer (i : Instr) : Bool := [0x6A, 0x6B].contains (instrOp i) || (match i with
  | .waitc _ => true
  | .tqacq _ => true
  | .tqget _ => true
  | .tqput _ => true
  | .tqret _ => true
  | _ => false)

/-- An operation that a HELD team may have out. -/
def mayStay (s : State) (o : Op) : Bool :=
  s.mem.waiters.any (fun w => w.op = o.id) || (o.phase = 1 && keepsAnswer o.instr) || hasArrived s o ||
  (match o.instr with
    | .bar _ => o.phase = 0 && o.arg = 1
    | _ => false) ||
  s.pairs.any (fun p => p.2.unmatched.any (fun m => m.op = o.id))

/-- A GLR or GLW aimed at the team has not completed, its flag count settled. -/
def aimedAt (o : Op) (handle : Nat) : Bool := (match o.instr with
  | .glr _ => true
  | .glw _ => true
  | _ => false) && (opLanes o).any (fun l => fld (nth o.c l) 39 8 = handle && bit (nth o.c l) 0)

/-- Every unit of the team has stopped at a boundary, and no warp of it is about to end. -/
def unitsStopped (s : State) (t : Team) : Bool :=
  (teamWarps s t.handle).all (fun p => (getWarp s p.1 p.2).run.isNone && !warpOver (getWarp s p.1 p.2)) &&
  (teamFronts s t).all (fun p => (getFront s p.1 p.2).run.isNone && (getFront s p.1 p.2).posted.isNone &&
    [0, 1].all (fun i => match (getSlot s p.1 i).loading with
      | some l => l.front ≠ p.2 || l.handle ≠ t.handle
      | none => true))

/-- No matrix work of the team is under way: parts still unmatched may wait. -/
def matrixQuiet (s : State) (t : Team) : Bool :=
  (runPairs t.start t.shape.cores).all (fun p =>
    let pr := getPair s p
    (pr.reqs ++ pr.granted).all (fun r => r.parts.all (fun m => m.handle ≠ t.handle)) && pr.drains.all (fun d => d.part.handle ≠ t.handle))

def teamQuiet (s : State) (t : Team) : Bool :=
  unitsStopped s t && matrixQuiet s t && s.ops.all (fun o => (o.handle ≠ t.handle || mayStay s o) && !aimedAt o t.handle)

/-- TEAM_HELD: copies with DSP stop (R147), and a PREEMPT is answered. -/
def execTeamHeld (team : Nat) (s : State) : Host.Outcome State Fault Refusal :=
  match findTeam s team with
  | none => .next s
  | some t =>
    if t.st ≠ .stopping || !teamQuiet s t then .next s
    else
      let s := setTeam s { t with st := .held }
      let s := { s with copies := s.copies.map (fun c => if c.handle = team && c.dsp && c.started then { c with stopped := true } else c) }
      match t.why with
      | some (.preempt id) => .next (performed s id (worldCode 0 0))
      | _ => .next s

/-! ### The save -/

/-- Mapped entries are written back and become unfilled (R160): the greatest WCT and the faults. -/
def evictStash (s : State) (t : Team) : State × Nat × List (AFault × W64 × Nat) :=
  (teamCoreList t).foldl (fun (a : State × Nat × List (AFault × W64 × Nat)) c =>
    let es := teamEntries a.1 c t.handle
    let r := wbEntries (teamX a.1 c t) c es a.1
    let s := es.foldl (fun s e => setStashTag s c e ((stashTag s c e).map (fun g => { g with filled := false, dirty := 0 }))) r.1
    (s, Nat.max a.2.1 r.2.1, a.2.2 ++ r.2.2.map (fun f => (f.1, f.2, c)))) (s, 0, [])

/-- The units leave; what the image has no place for stays with the team. -/
def removeUnits (s : State) (t : Team) : State :=
  let ws := (teamWarps s t.handle).map (fun p => getWarp s p.1 p.2)
  let fs := (teamCoreList t).zipIdx.filterMap (fun c => (frontOf s c.1 t.handle).map (fun k => (c.2, getFront s c.1 k)))
  let t := { t with
    rejoins := t.rejoins ++ ws.flatMap (fun w => w.rejoins.map (fun r => (w.num, false, r.1, r.2)))
    frontRes := t.frontRes ++ (fs.filter (fun f => f.2.word ≠ 0)).map (fun f => (f.1, f.2.pc, f.2.word))
    pops := (ws.filter (fun w => !w.popFor.isEmpty)).map (fun w => (w.num, w.popFor))
    marks := ws.map (fun w => { num := w.num, rdySeq := w.rdySeq, rdyLost := w.rdyLost, wrSeq := w.wrSeq, wrAtRdy := w.wrAtRdy, wrLog := w.wrLog })
    divs := (fs.filter (fun f => !f.2.divRet.isEmpty)).map (fun f => (f.1, f.2.divRet))
    wctmax := Nat.max t.wctmax (Nat.max (maxL (ws.map (fun w => w.wctmax))) (maxL (fs.map (fun f => f.2.wctmax)))) }
  let s := (teamCoreList t).foldl (fun s c =>
    let k := getCore s c
    setCore s c { k with
      warps := k.warps.filter (fun w => !(w.2.live && w.2.handle = t.handle && w.2.sheaf.isNone))
      fronts := k.fronts.filter (fun f => !(f.2.live && f.2.handle = t.handle)) }) s
  setTeam s t

/-- The key that seals images of a world: KEYIX 0 (R410). -/
def worldKey (s : State) (world : Nat) : Option (BitVec 768) := if world = 0 then none else keyOf s (16 * world)

/-- The greatest WCTMAX of a team and its units. -/
def unitsWct (s : State) (t : Team) : Nat :=
  Nat.max t.wctmax (Nat.max (maxL ((teamWarps s t.handle).map (fun p => (getWarp s p.1 p.2).wctmax))) (maxL ((teamFronts s t).map (fun p => (getFront s p.1 p.2).wctmax))))

/-- The first phase: write-backs, and the image at `va`. `strict`: a write-back that fails stops the save; else it is recorded
as at a team's end. None: a write faulted, nothing has changed, unless a request has to wait. The save's length and greatest WCT come with it. -/
def beginSave (s : State) (t : Team) (x : XCtx) (va : W64) (strict : Bool) : State × Option (Nat × Nat) :=
  let failed := fun (u : State) => ({ s with holds := u.holds }, none)
  let e := evictStash s t
  if strict && !e.2.2.isEmpty then failed e.1
  else
    let s := e.2.2.foldl (fun s f => devFault s (teamX s f.2.2 t) f.2.1 f.1 1 2 (originOf (.front f.2.2 0) 0) 1 0) e.1
    let u := s
    let ctr := if t.world = 0 then 0 else look 0 s.host.savectr t.ctx + BitVec.ofNat 64 1
    let img := imageNat s t (worldKey s t.world) ctr.toNat
    let w := devWrite x 2 false (img.2 / 128 + 2) s va img.2 (2 ^ img.2 - 1) img.1
    match w.2 with
    | .inl _ => failed w.1
    | .inr wct =>
      let s := if t.world = 0 then w.1 else { w.1 with host := { w.1.host with savectr := putC 0 w.1.host.savectr t.ctx ctr } }
      let top := Nat.max wct e.2.1
      let nums := (savedCopies s t.handle).zipIdx.map (fun c => (c.1.id, c.2))
      let s := { s with copies := s.copies.map (fun c => { c with sec := look c.sec nums c.id }) }
      (setTeam s { t with imgLen := img.2, imgTime := u.time, wctmax := Nat.max (unitsWct s t) top }, some (img.2, top))

/-- The second phase (R421 step 4): the units leave, and cores, slots, stash, tiles and warp stash areas are free; stopped copies wait without a core. -/
def endSave (s : State) (t : Team) : State :=
  let s := removeUnits s t
  let t := (findTeam s t.handle).getD t
  let parts := (runPairs t.start t.shape.cores).flatMap (fun p => (getPair s p).unmatched.filter (fun m => m.handle = t.handle))
  let s := (teamCoreList t).foldl (fun s c =>
    let s := dropSpills s c t.handle
    let s := (teamEntries s c t.handle).foldl (fun s e => setStashTag s c e none) s
    let k := getCore s c
    setCore s c { k with task := if k.task = t.handle then 0 else k.task }) s
  let s := (runPairs t.start t.shape.cores).foldl (fun s p =>
    let pr := getPair s p
    setPair s p { pr with unmatched := pr.unmatched.filter (fun m => m.handle ≠ t.handle) }) s
  let s := { freeTiles s t with copies := (freeTiles s t).copies.map (fun c => if c.handle = t.handle && (c.dsp || !c.ready) then { c with core := 512 } else c) }
  setTeam s { t with saved := true, parts := parts }

/-- After a save the slice's state follows (spec/19 R330), and a stage that has stopped relaunching may have lost its last resident team (spec/20 R358). -/
def afterSave (s : State) (t : Team) : State :=
  settleSlice (match t.stage with
    | some k => endStage s t.slice k
    | none => s) t.slice

/-! ### CTXSAVE (R421) -/

/-- CTXSAVE. -/
def execCtxsave (f : Full) (s : State) : Host.Outcome State Fault Refusal :=
  issueFull 0x11 f s (fun s x => newOp s x (.ctxsave f) 1 [] 0)

/-- An image address: 256-byte aligned, bits [63:52] clear. -/
def imageVaBad (va : W64) : Bool := fld va 63 52 ≠ 0 || fld va 7 0 ≠ 0

/-- The checks and the image's writes. -/
def saveTeam (s : State) (o : Op) (t : Team) : State :=
  let va := opWordB o
  if t.st ≠ .held || t.imgLen ≠ 0 then performed s o.id (worldCode 3 0)
  else if imageVaBad va then performed s o.id (worldCode 1 0)
  else if va = 0 then performed s o.id (worldCode 0 (imageLength (imageSections s t)))
  else if t.world ≠ 0 && (worldKey s t.world).isNone then performed s o.id (worldCode 9 0)
  else match beginSave s t (threadX s (opThread o)) va true with
    | (s, none) => performed s o.id (worldCode 4 0)
    | (s, some (_, wct)) => setOp s { o with arg := 1, wct := wct }

/-- One step of a CTXSAVE: a release at SYSTEM scope. -/
def performCtxsave (s : State) (o : Op) : State :=
  match findTeam s (opHandle o) with
  | none => performed s o.id (worldCode (if o.arg = 0 then 2 else 3) 0)
  | some t =>
    let s := atLink s 0 (dieOf t.start)
    if o.arg = 0 then
      if !earlierDone s o || heldByAcquire s o then s
      else if t.saved || t.st = .ending then performed s o.id (worldCode 3 0)
      else saveTeam s o t
    else if t.st ≠ .held || t.saved then performed s o.id (worldCode 3 0)
    else if passed s (Nat.max o.wct (Nat.max (unitWct s o.unit) t.wctmax)) then performed (afterSave (endSave s t) t) o.id (worldCode 0 t.imgLen)
    else s

/-! ### The image pool (R412) -/

/-- The pool's base and size; size 0: no pool. -/
def poolBounds (s : State) : Nat × Nat :=
  let n := fld s.regs.imgpool 4 0
  (2 ^ 16 * fld s.regs.imgpool 51 16, if 20 ≤ n then 2 ^ n else 0)

/-- The device's own accesses to the pool, on physical addresses. -/
def poolX : XCtx := { thread := some 0, core := 0x1FF, ctx := 0, world := 0, sid := 0, root := 0, phys := true }

def up256 (n : Nat) : Nat := (n + 255) / 256 * 256

/-- The lowest place in the pool for `len` bytes (log 16). -/
def poolPlace (s : State) (len : Nat) : Option W64 :=
  let b := poolBounds s
  let used := s.launch.teams.filterMap (fun t => t.pool.map (fun a => (a, t.imgLen)))
  let free := fun (a : Nat) => b.1 ≤ a && a + len ≤ b.1 + b.2 && used.all (fun u => a + len ≤ u.1 || u.1 + u.2 ≤ a)
  let c := ((b.1 :: used.map (fun u => up256 (u.1 + u.2))).filter free).foldl (fun (m : Option Nat) a => some (Nat.min (m.getD a) a)) none
  if b.2 = 0 then none else c.map (BitVec.ofNat 64)

/-- Can the team's image be sealed and find room? -/
def poolFor (s : State) (t : Team) : Option W64 :=
  if t.world ≠ 0 && (worldKey s t.world).isNone then none else poolPlace s (imageLength (imageSections s t))

/-- An answer waits for the team. -/
def hasAnswer (s : State) (handle : Nat) : Bool := s.ops.any (fun o => o.handle = handle && o.phase = 1)

/-- One phase of a save into the pool; none: no room. `ready`: the team waits for placement at once. -/
def poolSave (s : State) (t : Team) (ready : Bool) : Option State :=
  if t.imgLen = 0 then
    match poolFor s t with
    | none => none
    | some a => match beginSave s t poolX a false with
      | (u, none) => if u.holds = [] then none else some u
      | (s, some _) => match findTeam s t.handle with
        | some u => some (setTeam s { u with pool := some a.toNat })
        | none => none
  else if passed s t.wctmax then
    let s := endSave s t
    match findTeam s t.handle with
    | some u => some (afterSave (setTeam s { u with readyAgain := ready || hasAnswer s t.handle }) t)
    | none => some s
  else some s

/-! ### Swap-out (R295) -/

/-- Every warp bound notes since when. -/
def noteBound (s : State) (p : Nat × Nat) : State :=
  let w := getWarp s p.1 p.2
  setWarp s p.1 p.2 { w with boundSince := some (w.boundSince.getD s.time) }

/-- A running team, whose warps have all been bound for THRESH counts, and whose image finds room, begins to stop. -/
def swapBegin (s : State) (t : Team) : State :=
  let ws := teamWarps s t.handle
  let thresh := fld s.regs.swapcfg 31 0
  let s := (teamCoreList t).foldl endBreaks s
  if thresh = 0 || ws.isEmpty || !ws.all (fun p => monitorBound s p.1 p.2) then s
  else
    let s := ws.foldl noteBound s
    if ws.all (fun p => thresh ≤ s.time - (getWarp s p.1 p.2).boundSince.getD s.time) && (poolFor s t).isSome then
      setTeam s { t with st := .stopping, why := some .swap }
    else s

/-- SWAP_OUT (R295): a team that has become HELD is saved; without room it stays. -/
def execSwapOut (team : Nat) (s : State) : Host.Outcome State Fault Refusal :=
  match findTeam s team with
  | none => .next s
  | some t =>
    if t.saved then .next s
    else if t.st = .running then .next (swapBegin s t)
    else if t.st = .held && t.why = some .swap then
      .next ((poolSave s t false).getD (runAgain s t))
    else .next s

/-! ### Budgets (R335) -/

/-- The first HELD team of a slice, stopped by its budget, that a save moves on. -/
def budgetSave (s : State) (slice : Nat) : Option State :=
  (s.launch.teams.filter (fun t => t.slice = slice && t.st = .held && t.why = some .budget && !t.saved)).findSome? (fun t => poolSave s t true)

/-- BUDGET_EXHAUSTED (R335): the slice stops; its teams, once HELD, go to the image pool. -/
def execBudgetExhausted (slice : Nat) (s : State) : Host.Outcome State Fault Refusal :=
  match findSlice s slice with
  | none => .next s
  | some x =>
    if x.budget = some 0 && x.st ≠ .stopped then .next (exhaust s x)
    else .next ((budgetSave s slice).getD s)

end Sys2Proof.Machine
end

