-- ==== Sys2Proof/Machine/Restore.lean ====
section
/-!
DEFINITION. Restoring a team (spec/26 R411, R422; the image pool, R412): checks in R422's order, placing, reloading, writing back, delivering what waited.
-/
namespace Sys2Proof.Machine

/-! ### Checks -/

/-- What an image names, once its header stands: its header, its slice, the team's record where one waits, its shape. -/
structure Known where
  hdr : ImgHdr
  slice : Slice
  old : Option Team
  shape : Shape
  stage : Option Nat

/-- A task's warps and budget lie in its slice's reservation (spec/19 R336, R337), with which R183 holds on the worker's core. -/
def taskFits (sh : Shape) (warps budget : Nat) : Bool := match sh.roles with
  | [] => warps = 0
  | r :: _ => warps ≤ r.warps && budget ≤ r.budget && (warps = 0 || (budget % 8 = 0 && 32 ≤ budget))

/-- The shape an image's team has: its record's, its slice's, its stage's, or a task's as its sections count. -/
def knownShape (x : Slice) (old : Option Team) (h : ImgHdr) (img : Nat) : Option (Shape × Option Nat) :=
  match old, x.pipe with
  | some t, _ => some (t.shape, t.stage)
  | none, some p => (p.stages[h.teamno / 2 ^ 24]?).map (fun g => (g.shape, some (h.teamno / 2 ^ 24)))
  | none, none =>
    if x.kind = 3 then
      let ws := (List.range h.nsec).filter (fun i => (secAt img i).1 = 3)
      let budget := match ws with
        | [] => 0
        | i :: _ => ((secAt img i).2.1 - 768) / 128
      if taskFits x.shape ws.length budget then
        some ({ x.shape with roles := if ws.isEmpty then [] else [{ entry := 0, warps := ws.length, budget := budget }], cores := 1 }, none)
      else none
    else some (x.shape, none)

/-- The saved record of an image's team. -/
def oldTeam (s : State) (h : ImgHdr) : Option Team := match findTeam s h.handle with
  | some t => if t.saved && t.slice = h.slice && t.ctx = h.ctx then some t else none
  | none => none

/-- Checks made on the header alone: a code, or 0. -/
def headerCode (s : State) (n : Nat) : Nat :=
  let h := parseHdr n
  if hdrBad n then 5
  else match findCtx s h.ctx, findSlice s h.slice with
    | some c, some x =>
      if x.ctx ≠ h.ctx || fld (c.desc.getD 2 0) 19 16 ≠ h.world || x.killed then 2
      else if h.world = 0 then 0
      else if (worldKey s h.world).isNone then 9
      else if (look 0 s.host.savectr h.ctx).toNat ≠ h.ctr then 6
      else 0
    | _, _ => 2

/-- The whole image as plaintext: it verifies, or not. -/
def openImage (s : State) (h : ImgHdr) (img : Nat) : Option Nat :=
  match worldKey s h.world with
  | none => some img
  | some km =>
    let cipher := 2 ^ 2048 * (img % 2 ^ (8 * (h.len - 16)) / 2 ^ 2048)
    if imageTag km h.ctr h.ctx h.len (img % 2 ^ 2048) cipher = getB img (h.len - 16) 8 then
      some (img % 2 ^ 2048 + cryptBody true km h.ctr h.len cipher)
    else none

/-- The sections agree with the team's shape and header. -/
def imageBad (h : ImgHdr) (k : Shape) (img : Nat) : Bool :=
  let b := secBody img 0
  h.shape ≠ k.addr.toNat || secsBad img h.nsec h.len { cores := k.cores, budgets := shapeBudgets k, stash := k.stash, tiles := k.tiles } ||
  getB b 0 4 ≠ h.handle || getB b 4 4 ≠ h.teamno || getB b 8 1 ≠ h.slice

/-- Header and image read and checked, up to BADIMG: a code with the state, or what is known and the plaintext. -/
def readImage (s : State) (x : XCtx) (va : W64) : State × (Nat ⊕ Known × Nat) :=
  let a := devGet s x va 256
  match a.2 with
  | .inl _ => (a.1, .inl 4)
  | .inr n =>
    let h := parseHdr n
    if headerCode a.1 n ≠ 0 then (a.1, .inl (headerCode a.1 n))
    else
      let b := devGet a.1 x va h.len
      match b.2, findSlice s h.slice with
      | .inl _, _ => (b.1, .inl 4)
      | .inr _, none => (b.1, .inl 2)
      | .inr raw, some y => match openImage s h raw with
        | none => (b.1, .inl 7)
        | some img => match knownShape y (oldTeam s h) h img with
          | none => (b.1, .inl 5)
          | some (k, stage) =>
            if !zeroB raw (h.len - 8) 8 || imageBad h k img then (b.1, .inl 5) else (b.1, .inr ({ hdr := h, slice := y, old := oldTeam s h, shape := k, stage := stage }, img))

/-! ### Placing (R332 with the image's grants) -/

/-- What the run of a restored team must hold: its grants begin where they began. -/
def restoreWant (k : Known) (img : Nat) : Want :=
  let b := secBody img 0
  { slice := k.slice.num, world := k.slice.world, diepol := k.slice.diepol, cores := k.shape.cores, budgets := shapeBudgets k.shape, stash := k.shape.stash
    tiles := k.shape.tiles, base := some (getB b 16 4 / 256), tile := some (getB b 10 1 % 16) }

/-- What becomes of a restored team's placing: its room claimed and its first core; a run fits that is drained and relatched first (R332); or none fits. -/
inductive PlaceRes where
  | placed (s : State) (start : Nat)
  | waits
  | none

/-- The room of a run that fits is claimed for a team, once every core of it stands ready. -/
def claimSpot (s : State) (w : Want) (handle : Nat) : Option Spot → PlaceRes
  | some p => if runReady s w p then .placed (claimRun s w p handle) (p.run.headD 0) else .waits
  | none => .none

/-- A pool pair of the stage that holds no other team, the one it left first: a marked pair is its own still (spec/20 R357). -/
def stagePairs (s : State) (k : Known) (stage : Nat) : List Nat :=
  let free := fun (pair : Nat) => (pairTeams s k.slice.num pair).all (fun t => t.handle = k.hdr.handle)
  let own := (k.slice.pipe.map (fun p => (p.pool.filter (fun e => e.2.1 = some stage && free e.1)).map (fun e => e.1))).getD []
  match k.old with
  | some t => own.filter (· = t.start / 2) ++ own
  | none => own

/-- Where a restored team goes: the lowest run that fits (R332), a pair of its stage, or a worker of its slice. -/
def restorePlace (s : State) (k : Known) (img : Nat) : PlaceRes :=
  let w := restoreWant k img
  match k.stage with
  | some g => claimSpot s w k.hdr.handle ((stagePairs s k g).findSome? (fun q => runFits s w (2 * q)))
  | none =>
    if k.slice.kind = 3 then
      match (workersOf s k.slice.num).find? (fun c => (getCore s c).task = 0 && some ((getCore s c).workBase / 256) = w.base && some (getCore s c).workTile = w.tile) with
      | some c => .placed (setCore s c { getCore s c with task := k.hdr.handle }) c
      | none => .none
    else claimSpot s w k.hdr.handle ((List.range 320).findSome? (runFits s w))

/-! ### Writing back -/

/-- The BAR operation of a warp's arrival; none: 0. -/
def barOp (s : State) (handle num b : Nat) : Nat :=
  ((s.ops.find? (fun o => o.handle = handle && o.num = num && o.phase = 0 && o.arg = 1 && (match o.instr with
    | .bar f => modF f 8 5 = b
    | _ => false))).map (fun o => o.id)).getD 0

def barrierOf (s : State) (handle b : Nat) (sec : Nat) : Barrier :=
  let arrived := (List.range 192).filter (fun w => (getB sec (72 + 32 * b) 24).testBit w)
  { expect := if arrived.isEmpty then none else some (getB sec (64 + 32 * b) 4), arrived := arrived.map (fun w => (w, barOp s handle w b))
    gen := getB sec (68 + 32 * b) 4 }

/-- The team as its record and its TEAM section give it. -/
def restoredTeam (s : State) (k : Known) (start sec : Nat) : Team :=
  let t := match k.old with
    | some t => t
    | none => { mkTeam k.slice k.hdr.handle k.hdr.teamno start 0 0 k.shape with stage := k.stage, isTask := k.slice.kind = 3 }
  { t with
    start := start, stashBase := getB sec 16 4, stashLen := getB sec 20 4, tileBase := getB sec 10 1 % 16, tileLen := getB sec 11 1
    handoff := getB sec 13 1 % 2 = 1, taskj := BitVec.ofNat 64 (getB sec 24 8), param := BitVec.ofNat 64 (getB sec 32 8)
    queues := (List.range (getB sec 12 1)).map (fun i => BitVec.ofNat 64 (getB sec (576 + 8 * i) 8))
    barriers := (List.range 16).foldl (fun m b => putC Barrier.reset m b (barrierOf s k.hdr.handle b sec)) []
    st := .running, why := none, saved := false, pool := none, imgLen := 0, imgTime := 0, readyAgain := false, rejoins := [], frontRes := [], pops := [], marks := [], parts := [], divs := [] }

def putTeam (s : State) (t : Team) : State :=
  if (findTeam s t.handle).isSome then setTeam s t else { s with launch := { s.launch with teams := s.launch.teams ++ [t] } }

/-- A record of a warp or context of the team has not been resolved. -/
def stillStopped (s : State) (handle num : Nat) (kind : RecKind) : Bool :=
  (liveRecords s).any (fun r => r.kind = kind && r.handle = handle && r.num = num)

/-- Reload an overlay slot that was recorded valid, in the team's context (R150). False: a read faults. -/
def reloadSlot (s : State) (t : Team) (core i sec : Nat) : State × Bool :=
  let v := getB sec (688 + 8 * i) 8
  if v % 2 = 0 then (s, true)
  else
    let x := teamX s core t
    let n := 64 * (v / 2 ^ 4 % 2 ^ 11)
    let va : W64 := BitVec.ofNat 64 (2 ^ 16 * (v / 2 ^ 16))
    let r := devRead x 0 (n / 128 + 2) s va n
    match r.2 with
    | .inl _ => (r.1, false)
    | .inr d => (setSlot r.1 core i { valid := true, image := BitVec.ofNat 36 (v / 2 ^ 16), len := n, loading := none
                                      code := memPut (getSlot r.1 core i).code 0 (2 ^ n - 1) d n }, true)

/-- Context `j` of the team, on its new core. False: an overlay cannot be reloaded. -/
def restoreFront (s : State) (t : Team) (old : Option Team) (j sec : Nat) : State × Bool :=
  let c := t.start + j
  let s := newFront s c t
  match frontOf s c t.handle with
  | none => (s, true)
  | some i =>
    let f := frontOfSec (getFront s c i) sec
    let f := match old.bind (fun o => o.frontRes.find? (fun r => r.1 = j)) with
      | some (_, pc, word) => { f with pc := pc, word := word }
      | none => f
    let div := ((old.bind (fun o => o.divs.find? (fun d => d.1 = j))).map (fun d => d.2)).getD []
    (List.range 2).foldl (fun (a : State × Bool) n =>
      let b := reloadSlot a.1 t c n sec
      (b.1, a.2 && b.2)) (setFront s c i { f with divRet := div, stopped := stillStopped s t.handle j .front }, true)

/-- Warp `num` of the team, unless it had ended. -/
def restoreWarp (s : State) (t : Team) (old : Option Team) (num budget sec : Nat) : State :=
  if warpEnded sec then s
  else
    let c := t.start + num % t.shape.cores
    let w := warpOf (newWarp s c t num budget 0) sec s.nextOp
    let pops := ((old.bind (fun o => o.pops.find? (fun p => p.1 = num))).map (fun p => p.2)).getD []
    let w := match old.bind (fun o => o.marks.find? (fun m => m.num = num)) with
      | some m => { w with rdySeq := m.rdySeq, rdyLost := m.rdyLost, wrSeq := m.wrSeq, wrAtRdy := m.wrAtRdy, wrLog := m.wrLog }
      | none => { w with rdyLost := w.rdy }
    admitWarp s c { w with popFor := pops, stopped := stillStopped s t.handle num .warp }

/-- A core's stash grant: its bytes, and its mappings, unfilled. -/
def restoreStash (s : State) (t : Team) (core sec : Nat) : State :=
  let n := t.stashLen / 256
  let s := stashPut s core t.stashBase (2 ^ t.stashLen - 1) (getB sec (16 + 8 * n) t.stashLen) t.stashLen
  (List.range n).foldl (fun s i =>
    let g := getB sec (16 + 8 * i) 8
    setStashTag s core (t.stashBase / 256 + i) (if g % 2 = 1 then
      some { va := BitVec.ofNat 64 (g / 256 % 2 ^ 44 * 256), filled := false, dirty := 0, lease := 0, vmax := 0, handle := t.handle } else none)) s

/-- An operation made anew for a warp that a restored image shows waiting, of which the device keeps none. Which of its busy flags it counts on, the image does not say: it is
left open (log 16). -/
def againOp (s : State) (handle num c k : Nat) (word : W64) (i : Instr) (arg : Nat) : State :=
  let w := getWarp s c k
  let busy := (List.range 12).filter (fun f => look 0 w.flags f ≠ 0)
  let x : Issued := { u := .warp c k, kind := .vector, word := word, pc := 0, hdr := 0, widx := 0, didx := 0x1FF, flag := busy.getD (Config.pick s.freeNo % Nat.max 1 busy.length) 0
                      t := 0, act := 0xFFFFFFFF#32, a := [], b := [], c := [] }
  bumpFree { s with ops := s.ops ++ [{ mkOp s x i x.act [] arg with handle := handle, num := num }], nextOp := s.nextOp + 1 }

/-- A part waiting in a TILES section: the team's record says where its warp's MRDY stood; without one, what was written since is not known (log 11). -/
def restorePart (s : State) (t : Team) (old : Option Team) (pair sec i : Nat) : State :=
  let word : W64 := BitVec.ofNat 64 (getB sec (16388 + 20 * i) 8)
  let num := getB sec (16396 + 20 * i) 4
  if word = 0 then s
  else match findTeamWarp s t.handle num with
    | none => s
    | some (c, k) =>
      let un := (getPair s pair).unmatched
      let had := s.ops.find? (fun o => o.handle = t.handle && o.num = num && o.word = word && o.phase = 0 && un.all (fun m => m.op ≠ o.id))
      let op := (had.map (fun o => o.id)).getD s.nextOp
      let was := old.bind (fun o => o.parts.find? (fun m => m.op = op && m.num = num))
      let s := if had.isSome then s else againOp s t.handle num c k word (decodeWord word) 0
      let pr := getPair s pair
      setPair s pair { pr with unmatched := pr.unmatched ++ [{
        op := op, core := c, slot := k, handle := t.handle, num := num, instr := decodeWord word, z := BitVec.ofNat 64 (getB sec (16400 + 20 * i) 8)
        rdySeq := (was.map MPart.rdySeq).getD s.nextOp, wrAt := (was.map MPart.wrAt).getD (getWarp s c k).wrSeq, lost := (was.map MPart.lost).getD true
        issueAt := s.cyc, world := t.world }] }

/-- A tile of one of the team's pairs. -/
def restoreTile (s : State) (t : Team) (old : Option Team) (pair tile sec : Nat) : State :=
  let ws := (List.range 4096).map (fun i => BitVec.ofNat 32 (getB sec (4 * i) 4))
  let s := setTile s pair tile { words := tileWords ws, im := getB sec 16386 1 % 2 = 1, tflags := BitVec.ofNat 5 (getB sec 16387 1) }
  (List.range 3).foldl (fun s i => restorePart s t old pair sec i) s

/-! ### What was out goes on -/

/-- Where an operation's unit is now. -/
def unitAfter (s : State) (t : Team) (oldStart num : Nat) (u : UnitId) : UnitId := match u with
  | .warp _ _ => match findTeamWarp s t.handle num with
    | some (c, k) => .warp c k
    | none => u
  | .front c _ => match frontOf s (t.start + (c - oldStart)) t.handle with
    | some k => .front (t.start + (c - oldStart)) k
    | none => u
  | .thread _ => u

/-- A started copy as a COPY section records it: its sectors still to move (R147). -/
def copyOfSec (c : Copy) (b : Nat) : Copy :=
  let at8 := fun (o : Nat) => (List.range 8).map (fun n => BitVec.ofNat 64 (getB b (o + 8 * n) 8))
  { c with
    words := at8 0, data := at8 64, index := at8 128, residue := BitVec.ofNat 64 (getB b 192 8), total := getB b 208 8, stopped := false
    todo := bitsOf (getB b 256 (bitmapLen (getB b 208 8))) (getB b 208 8) }

/-- Whether a COPY section is an open instance's. -/
def openSec (b : Nat) : Bool := getB b 220 4 = 1

/-- A copy that waited: its sectors, or its arrivals, as its section records them. -/
def restoreCopy (s : State) (c : Copy) (b : Nat) : Copy :=
  if c.started then copyOfSec c b
  else { c with stopped := false, arrivals := c.arrivals.filter (fun a => s.ops.any (fun o => o.id = a.1 && o.handle = c.handle)) }

/-- A copy that an image of world 0 shows and the device no longer keeps (the image is restored again, or after a later save): its engine is the one its command block names, and no operation is
behind its arrivals, so no status word is delivered (log 16). -/
def copyAgain (s : State) (t : Team) (b : Nat) : State :=
  let w52 := getB b 52 4
  let u := UnitId.front t.start 0
  let x := teamX s t.start t
  let base := endCopyOf x t.start 0 (BitVec.ofNat 64 (getB b 200 8)) [] [] []
  let c := { base with id := s.nextOp, handle := t.handle, unit := u, noStat := true }
  let c := if openSec b then
      let w := devGet s x (c.ccb + 52) 4
      let w52 := match w.2 with
        | .inl _ => 0
        | .inr v => v
      let arrived := (List.range (getB b 216 4)).map (fun i => (2 ^ 64, getB b (256 + 8 * i) 4, getB b (260 + 8 * i) 4))
      { c with
        arrivals := arrived, parts := ccbParts w52, dsp := ccbDsp w52, coresel := ccbCore w52, eng := ccbEng w52, ready := ccbParts w52 ≤ arrived.length
        readyAt := s.turnNo, core := engineCore s t.handle u (ccbDsp w52) (ccbCore w52) }
    else
      { copyOfSec c b with
        parts := ccbParts w52, dsp := true, coresel := ccbCore w52, eng := ccbEng w52, ready := true, readyAt := s.turnNo, started := true
        core := engineCore s t.handle u true (ccbCore w52) }
  { s with copies := s.copies ++ [c], nextOp := s.nextOp + 1 }

/-- An operation that an image of world 0 counts: one issued before it was formed that is out still, where the team's record stands (log 16). -/
def ofImage (k : Known) (time : Nat) (o : Op) : Bool := k.old.isSome && o.issued ≤ time

/-- What a handle has left under way that its image does not count is none of the restored team's (log 16): operations keep no team; a waiting copy on a stash is cancelled, an
open instance discarded. -/
def orphanOps (s : State) (k : Known) (time : Nat) : State :=
  let h := k.hdr.handle
  let s := { s with ops := s.ops.map (fun o => if o.handle = h && !ofImage k time o then { o with handle := 0, num := 2 ^ 64 } else o) }
  if k.old.isNone then { s with copies := s.copies.map (fun c => if c.handle = h then { c with handle := 0 } else c) } else s

/-- The word of a BAR of barrier `b` by a count of `e` warps, as an operation of a second restore holds it. -/
def barWord (b : Nat) : Full :=
  { pneg := false, pred := 7, dst := 0x1FF, sa := 0, sb := 0, sc := 0, ha := false, hb := false, hc := false, ty := 7, md := BitVec.ofNat 8 (16 * b), fsel := false }

/-- A warp that the image shows arrived at a barrier, with no operation for it, has one again. -/
def arriveAgain (s : State) (t : Team) (b num : Nat) : State :=
  match findTeamWarp s t.handle num, findTeam s t.handle with
  | some (c, k), some u =>
    let br := look Barrier.reset u.barriers b
    setTeam (againOp s t.handle num c k 0 (.bar (barWord b)) 1) { u with
      barriers := putC Barrier.reset u.barriers b { br with arrived := br.arrived.map (fun p => if p.1 = num then (num, s.nextOp) else p) } }
  | _, _ => s

/-- The arrivals at barriers of which no operation is left are made anew. -/
def barsAgain (s : State) (t : Team) : State :=
  t.barriers.foldl (fun s b => b.2.arrived.foldl (fun s p => if p.2 = 0 then arriveAgain s t b.1 p.1 else s) s) s

/-- The waiting copy that COPY section `i` describes: the device's own record of the image says which; for another image, one of the same command block that is, or is not, an
open instance (log 16). -/
def copyFor (cs : List Copy) (same : Bool) (i b : Nat) : Option Copy :=
  cs.find? (fun c => (!same || c.sec = i) && getB b 200 8 = c.ccb.toNat && openSec b = !c.started)

/-- Copies waiting for a team that is out. -/
def waitingCopies (s : State) (handle : Nat) : List Copy := s.copies.filter (fun c => c.handle = handle && c.core = 512)

/-- Each COPY section's copy waits no longer, or is made anew; what waits for the team besides is none of the image's. -/
def restoreCopies (s : State) (t : Team) (oldStart : Nat) (same : Bool) (bodies : List Nat) : State :=
  let home := fun (s : State) (c : Copy) =>
    let num := match c.arrivals with
      | a :: _ => ((s.ops.find? (fun o => o.id = a.1)).map (fun o => o.num)).getD 0
      | [] => 0
    let u := unitAfter s t oldStart num c.unit
    { c with unit := u, core := engineCore s t.handle u c.dsp c.coresel }
  let s := bodies.zipIdx.foldl (fun s p => match copyFor (waitingCopies s t.handle) same p.2 p.1 with
    | some c => setCopy s (home s (restoreCopy s c p.1))
    | none => if same then s else copyAgain s t p.1) s
  let rest := waitingCopies s t.handle
  if same then rest.foldl (fun s c => setCopy s (home s { c with stopped := false })) s
  else rest.foldl (fun s c => if c.started then setCopy s { c with handle := 0, core := t.start, cancelled := true, noStat := true, stopped := false } else dropCopy s c.id) s

/-- Operations find the team's units again. -/
def rehome (s : State) (t : Team) (oldStart : Nat) : State :=
  { s with ops := s.ops.map (fun o => if o.handle = t.handle then { o with unit := unitAfter s t oldStart o.num o.unit } else o) }

/-- Held answers are written and their flags fall (R296). -/
def deliver (s : State) (handle : Nat) : State :=
  (s.ops.filter (fun o => o.handle = handle && o.phase = 1)).foldl (fun s o => writeLanes (raiseOpWct s o o.wct) o.id 0xFFFFFFFF#32) s

/-- Held rejoins enter their frontiers (R374). -/
def applyRejoins (s : State) (t : Team) (rs : List (Nat × Bool × FEntry × Mask)) : State :=
  rs.foldl (fun s r => match findTeamWarp s t.handle r.1 with
    | none => s
    | some (c, k) => if r.2.1 then resumeEntry s c k r.2.2.1 r.2.2.2 else takeRejoin s c k r.2.2.1 r.2.2.2) s

/-- Steps 4 to 8 of R411, with the room claimed: `time` is the image's TIME. What the team's record keeps beside an image serves the image it was made with. False: an
overlay cannot be reloaded. -/
def rebuild (s : State) (k : Known) (start img : Nat) : State × Bool :=
  let time := getB img 40 8
  let s := orphanOps s k time
  let same := k.old.any (fun t => t.imgTime = time)
  let old := if same then k.old else none
  let n := k.shape.cores
  let bs := shapeBudgets k.shape
  let m := bs.length
  let t := restoredTeam s k start (secBody img 0)
  let sec := secBody img
  let t := { t with ended := ((List.range m).filter (fun i => warpEnded (sec (1 + n + i)))).length }
  let s := putTeam s t
  let fronts := (List.range n).foldl (fun (a : State × Bool) j =>
    let b := restoreFront a.1 t old j (sec (1 + j))
    (b.1, a.2 && b.2)) (s, true)
  let s := fronts.1
  let s := bs.zipIdx.foldl (fun s b => restoreWarp s t old b.2 b.1 (sec (1 + n + b.2))) s
  let s := (List.range n).foldl (fun s j => restoreStash s t (start + j) (sec (1 + n + m + j))) s
  let tiles := (runPairs start n).flatMap (fun p => (List.range t.tileLen).map (fun i => (p, t.tileBase + i)))
  let s := tiles.zipIdx.foldl (fun s e => restoreTile s t old e.1.1 e.1.2 (sec (1 + n + m + n + e.2))) s
  let first := 1 + n + m + n + tiles.length
  let was := (k.old.map (fun o => o.start)).getD start
  let s := barsAgain (rehome s t was) t
  let s := restoreCopies s t was same ((List.range (k.hdr.nsec - first)).map (fun i => sec (first + i)))
  (applyRejoins (deliver s t.handle) t ((k.old.map (fun o => o.rejoins)).getD []), fronts.2)

/-- A restore from `va`: its code; none: it waits for a run that fits to be drained (R332). A failure changes nothing, but that a request may have to wait; a service
thread's restore crosses to the team's die (spec/24 R401). An overlay whose
reload faults is a read that faults: FAULT (log 16). -/
def restore (s : State) (x : XCtx) (va : W64) (thread : Bool) : State × Option Nat :=
  let r := readImage s x va
  let back := fun (z : State) (c : Option Nat) => (({ s with holds := z.holds } : State), c)
  match r.2 with
  | .inl c => back r.1 (some c)
  | .inr (k, img) =>
    let live : Bool := match findTeam s k.hdr.handle with
      | some _ => k.old.isNone
      | none => false
    match restorePlace r.1 k img with
    | .none => back r.1 (some 8)
    | .waits => back r.1 (if live then some 11 else none)
    | .placed p start =>
      if live then back p (some 11)
      else
        let p := if k.hdr.world = 0 then p else
          { p with host := { p.host with savectr := putC 0 p.host.savectr k.hdr.ctx (look 0 p.host.savectr k.hdr.ctx + 1) } }
        let b := rebuild (if thread then atLink p 0 (dieOf start) else p) k start img
        if b.2 then (b.1, some 0) else back b.1 (some 4)

/-! ### The two restores -/

/-- CTXRESTORE. -/
def execCtxrestore (f : Full) (s : State) : Host.Outcome State Fault Refusal :=
  issueFull 0x12 f s (fun s x => newOp s x (.ctxrestore f) 1 [] 0)

/-- The greatest VMAX among the lines of a range, as the requester translates them. -/
def spanVmax (s : State) (x : XCtx) (va : W64) (n : Nat) : Nat :=
  maxL ((List.range (n / 128 + 1)).map (fun i => match (translate s x (va + BitVec.ofNat 64 (128 * i)) false).2 with
    | .ok pa leaf => vmaxOf s (homeDie s pa (fld leaf 62 61)) (pa / 128)
    | .bad _ => 0))

/-- CTXRESTORE (R422): an acquire at SYSTEM scope. -/
def performCtxrestore (s : State) (o : Op) : State :=
  if heldByAcquire s o then s
  else
    let va := opWordA o
    let x := threadX s (opThread o)
    if imageVaBad va then performed s o.id (worldCode 1 0)
    else
      let r := restore s x va true
      match r.2 with
      | none => r.1
      | some code =>
        let seen := match (devGet s x va 16).2 with
          | .inr h => spanVmax s x va (Nat.min (getB h 8 8) (2 ^ 26))
          | .inl _ => 0
        performed (if code = 0 then raiseWct r.1 o.unit seen else r.1) o.id (worldCode code 0)

/-- POOL_RESTORE (R412): the head item is a ready saved team. -/
def execPoolRestore (s : State) : Host.Outcome State Fault Refusal :=
  if sheavesFirst s then .next s
  else match headSlice s with
    | some (x, .saved h) => match (findTeam s h).bind (fun t => t.pool) with
      | some a => .next (settleSlice (restore s poolX (BitVec.ofNat 64 a) false).1 x.num)
      | none => .next s
    | _ => .next s

end Sys2Proof.Machine
end

