-- ==== Sys2Proof/Machine/Worlds.lean ====
section
/-!
DEFINITION. Keys of worlds (spec/26 R416, R417, R423), NOTIFY (R424), and a service thread's SLEEP (spec/24 R387, R388).
-/
namespace Sys2Proof.Machine

/-! ### Keys (R416, R417) -/

/-- The dirty mapped stash entries, as (core, entry). -/
def dirtyEntries (s : State) : List (Nat × Nat) :=
  s.cores.flatMap (fun c => c.2.tags.filterMap (fun g => match g.2 with
    | some t => if t.dirty = 0 then none else some (c.1, g.1)
    | none => none))

/-- The dirty mapped entries whose page stands under a key-handle entry that `p` picks are written back; one whose write-back fails stays dirty (log 14). -/
def writeBackUnder (s : State) (p : Nat → Bool) : State :=
  (dirtyEntries s).foldl (fun s e => match stashTag s e.1 e.2 with
    | some t => match findTeam s t.handle with
      | some m =>
        let x := teamX s e.1 m
        let a := translate s x t.va false
        match a.2 with
        | .ok _ leaf => match leafEntry leaf with
          | some k => if p k then (wbEntry a.1 x e.1 e.2).1 else a.1
          | none => a.1
        | .bad _ => a.1
      | none => s
    | none => s) s

/-- Entries bound to a slot are unbound. -/
def unbindSlot (s : State) (slot : Nat) : State :=
  { s with host := { s.host with handles := s.host.handles.filter (fun h => h.2 ≠ some slot) } }

/-- Revoking a slot: write-backs, its L2 lines, its entries, its key; a private page's world puts the interface in ERROR, whatever its state (R417, R418). -/
def revokeSlot (s : State) (slot : Nat) : State :=
  match look none s.host.keys slot with
  | none => s
  | some (w, _) =>
    let s := writeBackUnder s (fun e => boundSlot s e = some slot)
    let s := ((s.mem.l2.filter (fun e => e.2.used && e.2.kslot = slot + 1)).map (fun e => e.1)).foldl evict s
    let s := unbindSlot s slot
    let s := { s with host := { s.host with keys := putC none s.host.keys slot none } }
    if s.host.attrs.any (fun a => a.2 = w) then { s with host := { s.host with tdisp := .error } } else s

/-- What bind and unbind ask of sA: only world and KEYIX, and a world from 1. -/
def keyArgBad (a : W64) : Bool := fld a 63 12 ≠ 0 || fld a 7 4 ≠ 0 || fld a 3 0 = 0

/-- The key-handle entry that sA names. -/
def keyEntry (a : W64) : Nat := 16 * fld a 3 0 + fld a 11 8

/-- Bind: the code. -/
def bindCode (s : State) (a b : W64) : Nat :=
  if keyArgBad a || fld b 63 8 ≠ 0 then 1
  else match look none s.host.keys (fld b 7 0) with
    | none => 9
    | some (w, _) =>
      if w ≠ fld a 3 0 then 10
      else if (boundSlot s (keyEntry a)).isSome then 11
      else 0

/-- What a KEYBIND word does, with its code (R423). -/
def bindAct (s : State) (a b : W64) : State × Nat :=
  let c := bindCode s a b
  (if c = 0 then { s with host := { s.host with handles := putC none s.host.handles (keyEntry a) (some (fld b 7 0)) } } else s, c)

def unbindAct (s : State) (a b : W64) : State × Nat :=
  if keyArgBad a || b ≠ 0 then (s, 1)
  else
    let e := keyEntry a
    let s := if (boundSlot s e).isSome then writeBackUnder s (fun k => k = e) else s
    ({ s with host := { s.host with handles := putC none s.host.handles e none } }, 0)

/-- Bits of sA or sB that must be zero give BADARG (R417; log 26). -/
def revokeAct (s : State) (a b : W64) : State × Nat := if a ≠ 0 || fld b 63 8 ≠ 0 then (s, 1) else (revokeSlot s (fld b 7 0), 0)

/-- The meaning of a KEYBIND word: it acts at issue, its result and flag come later (log 14). Where a write-back of it must wait, the word is not held (spec/09 R187): it acts at a
later turn. -/
def keybindIssue (s : State) (x : Issued) (i : Instr) (act : State → W64 → W64 → State × Nat) : State :=
  let id := s.nextOp
  let r := act s ((nth x.a 0).setWidth 64) ((nth x.b 0).setWidth 64)
  if r.1.holds ≠ s.holds then newOp s x i 1 [] 0 else performed (newOp r.1 x i 1 [] 0) id (worldCode r.2 0)

/-- A KEYBIND word that could not act at its issue. -/
def performKeybind (s : State) (o : Op) (act : State → W64 → W64 → State × Nat) : State :=
  let r := act s (opWordA o) (opWordB o)
  performed r.1 o.id (worldCode r.2 0)

/-- KEYBIND (R423). -/
def execKeybind (f : Full) (s : State) : Host.Outcome State Fault Refusal :=
  issueFull 0x13 f s (fun s x => keybindIssue s x (.keybind f) bindAct)

/-- KEYBIND.unbind (R423). -/
def execKeybindUnbind (f : Full) (s : State) : Host.Outcome State Fault Refusal :=
  issueFull 0x13 f s (fun s x => keybindIssue s x (.keybindUnbind f) unbindAct)

/-- KEYBIND.revoke (R423, R417). -/
def execKeybindRevoke (f : Full) (s : State) : Host.Outcome State Fault Refusal :=
  issueFull 0x13 f s (fun s x => keybindIssue s x (.keybindRevoke f) revokeAct)

/-! ### NOTIFY (R424) -/

/-- NOTIFY. -/
def execNotify (f : Full) (s : State) : Host.Outcome State Fault Refusal :=
  issueFull 0x0F f s (fun s x => newOp s x (.notify f) 1 [] 0)

/-- NOTIFY.host. -/
def execNotifyHost (f : Full) (s : State) : Host.Outcome State Fault Refusal :=
  issueFull 0x0F f s (fun s x => newOp s x (.notifyHost f) 1 [] 0)

/-- NOTIFY performed: the named thread's NOTE bit. -/
def performNotify (s : State) (o : Op) : State :=
  let a := opWordA o
  if fld a 63 6 ≠ 0 then performed s o.id (worldCode 1 0) else performed (wake s (fld a 5 0) 0) o.id (worldCode 0 0)

def msixEntry (s : State) (v : Nat) : W128 := look HostIf.msixReset s.host.msix v

/-- First dword of the MSI-X capability; its place in the capability region is the implementation's. -/
def msixCap : Nat := 16 + Config.msixCap % 46

/-- The host has enabled a vector: MSI-X Enable 1 and Function Mask 0 in the capability, and the vector's Mask bit 0 (R424; PRESUMED of PCIe, log 17). -/
def vectorOn (s : State) (v : Nat) : Bool := fld (look 0 s.host.confWords msixCap) 31 30 = 2 && !bit (msixEntry s v) 96

/-- NOTIFY.host: after its release the vector is posted, or refused. -/
def performNotifyHost (s : State) (o : Op) : State :=
  let r := readyToSend s o
  if !r.2 then r.1
  else
    let a := opWordA o
    let v := fld a 10 0
    let e := msixEntry r.1 v
    if fld a 63 11 ≠ 0 || !vectorOn r.1 v then performed r.1 o.id (worldCode 1 0)
    else performed (emit r.1 (.msix v (e.extractLsb' 0 64) (e.extractLsb' 64 32))) o.id (worldCode 0 0)

/-! ### SLEEP (R388) -/

/-- SLEEP's result is written and WAKEST cleared. -/
def wakeUp (s : State) (q : Nat) (dst : Nat) : State :=
  let t := getThread s q
  let v := if t.wakest = 0 then 64 else t.wakest.toNat
  writeScalar (setThread s q { t with wakest := 0, sleeping := none }) (.thread q) 2 dst (BitVec.ofNat 128 v)

/-- Whether a deadline has passed; 0: none. -/
def deadlineOver (s : State) (d : W64) : Bool := d ≠ 0 && d.toNat ≤ s.time

/-- SLEEP (R388). -/
def execSleep (f : Full) (s : State) : Host.Outcome State Fault Refusal :=
  issueFull 0x0E f s (fun s x => match x.u with
    | .thread q =>
      let d : W64 := (nth x.a 0).setWidth 64
      let t := getThread s q
      if t.wakest ≠ 0 || deadlineOver s d then wakeUp s q f.dst.toNat else setThread s q { t with sleeping := some d }
    | _ => s)

/-- The destination of the SLEEP at which a thread is held: its clause's last issued word. -/
def sleepDst (t : Thread) : Nat := match t.run with
  | some r => match r.words[r.idx - 1]? with
    | some w => fld w 51 43
    | none => 0
  | none => 0

/-- SLEEP_WAKE (R388). -/
def execSleepWake (thread : Nat) (s : State) : Host.Outcome State Fault Refusal :=
  let t := getThread s thread
  match t.sleeping with
  | none => .next s
  | some d => if t.wakest ≠ 0 || deadlineOver s d then .next (wakeUp s thread (sleepDst t)) else .next s

end Sys2Proof.Machine
end

