-- ==== Sys2Proof/Machine/Rows.lean ====
section
/-!
DEFINITION. Register writes with rows of their own: format windows (spec/04 R73-R75), retention ranges (spec/05 R101-R105) with RETAIN and UNPIN
(spec/08 R180), TLB invalidation (spec/04 R86, R87), threads' control and roots (spec/24 R385, R437), BOOTSTAT (spec/28 R428).
-/
namespace Sys2Proof.Machine

/-! ### Format windows (R75) -/

def fwctl (s : State) (i : Nat) : W64 := look 0 s.regs.fwctl i
def setFwctl (s : State) (i : Nat) (v : W64) : State := { s with regs := { s.regs with fwctl := putC 0 s.regs.fwctl i v } }

/-- A refused write of a window register. -/
def fwRefuse (s : State) (i : Nat) : State := setFwctl s i (setFld (fwctl s i) 4 4 1)

/-- Window and scale region of window `i`, as spans. -/
def fwSpans (s : State) (i : Nat) : List (Nat × Nat) :=
  (winBase s i, winEnd s i) ::
    (if winFmt s i = 1 || winFmt s i = 2 then [(winScale s i, winScale s i + scaleLen (winFmt s i) (winEnd s i - winBase s i))] else [])

def spansMeet (a b : Nat × Nat) : Bool := a.1 < b.2 && b.1 < a.2

/-- A span lies in one DRAM aperture. -/
def oneAperture (s : State) (p : Nat × Nat) : Bool := (rangeOf s p.1).isDram && rangeOf s p.1 = rangeOf s (p.2 - 1)

/-- The checks on enabling window `i`, whose registers hold the values to be: it is the window that must be clear of its own scale region and of every other enabled
window and its scale region. -/
def fwBad (s : State) (i : Nat) : Bool :=
  let mine := fwSpans s i
  let win := (winBase s i, winEnd s i)
  winFmt s i = 3 || winEnd s i ≤ winBase s i || !mine.all (oneAperture s) || (mine.drop 1).any (spansMeet win) ||
  (List.range 16).any (fun j => j ≠ i && winEn s j && (fwSpans s j).any (spansMeet win))

/-- An accepted change of EN: BUSY is set, and the turn noted from which fills use the new EN (R75). -/
def fwTurn (s : State) (i : Nat) (v : W64) : State :=
  let t := setFwctl s i (v ||| 2)
  { t with regs := { t.regs with fwAt := putC 0 t.regs.fwAt i s.turnNo } }

/-- A write of FWCTLi. Whether a write of EN 0 while EN is 0 and BUSY 1 'clears EN' is not stated: it does not, and is refused (DESIGN CHOICE, log 29). -/
def fwWrite (s : State) (i : Nat) (v : W64) : State :=
  let old := fwctl s i
  let new := v &&& (ones 51 12 ||| ones 3 2 ||| ones 0 0)
  if bit old 0 || bit old 1 then
    if bit old 0 && !bit v 0 && new &&& ~~~(1 : W64) = old &&& (ones 51 12 ||| ones 3 2) then fwTurn s i new else fwRefuse s i
  else
    let t := setFwctl s i new
    if bit v 0 then (if fwBad t i then fwRefuse s i else fwTurn s i new) else t

/-- FWCTL_WRITE (R75). -/
def execFwctlWrite (src : WSrc) (s : State) : Host.Outcome State Fault Refusal := copiedRow s src 0x40 0x4F fwWrite

/-- A write of a window's limit or scale base: `g` sets it. -/
def fwOther (s : State) (i : Nat) (g : Regs → Regs) : State :=
  if bit (fwctl s i) 0 || bit (fwctl s i) 1 then fwRefuse s i else setFwctl { s with regs := g s.regs } i (setFld (fwctl s i) 4 4 0)

/-- FWLIM_WRITE (R75). -/
def execFwlimWrite (src : WSrc) (s : State) : Host.Outcome State Fault Refusal :=
  copiedRow s src 0x50 0x5F (fun s i v => fwOther s i (fun r => { r with fwlim := putC 0 r.fwlim i (v &&& ones 51 12) }))

/-- FWSCALE_WRITE (R75). -/
def execFwscaleWrite (src : WSrc) (s : State) : Host.Outcome State Fault Refusal :=
  copiedRow s src 0x60 0x6F (fun s i v => fwOther s i (fun r => { r with fwscale := putC 0 r.fwscale i (v &&& ones 51 7) }))

/-- A line that a drain of window `i` writes back and invalidates: one of the range or of the scale region that took its way before the last change of EN. One filled since
then was filled under the setting now in force. -/
def drained (s : State) (i : Nat) (e : L2Line) : Bool :=
  e.used && !e.quarantined && e.filledAt ≤ look 0 s.regs.fwAt i && (inWindow s i (128 * e.line) || inScale s i (128 * e.line))

/-- Keys of the lines that satisfy a predicate. -/
def linesWhere (s : State) (p : Nat → L2Line → Bool) : List Nat := (s.mem.l2.filter (fun e => p e.1 e.2)).map (fun e => e.1)

/-- WINDOW_DRAIN_DONE (R75). In which order the lines go is not stated, and it decides what stands in DRAM where the side-band of a dirty window line and a dirty line of the
scale region give the same bytes (R77): the model takes the order of slice, set and way (DESIGN CHOICE, log 29). -/
def execWindowDrainDone (window : Nat) (s : State) : Host.Outcome State Fault Refusal :=
  if !bit (fwctl s window) 1 then .next s
  else
    let s := atLink s 0 1
    let s := (linesWhere s (fun _ e => drained s window e)).foldl evict s
    .next (setFwctl s window (setFld (fwctl s window) 1 1 0))

/-! ### Retention ranges (R101-R105) -/

def setRetctl (s : State) (i : Nat) (v : W64) : State := { s with regs := { s.regs with retctl := putC 0 s.regs.retctl i v } }
def retRefuse (s : State) (i : Nat) : State := setRetctl s i (setFld (retCtl s i) 2 2 1)

/-- A range's addresses. -/
def retSpan (s : State) (i : Nat) : Nat × Nat := (4096 * fld (look 0 s.regs.retbase i) 51 12, 4096 * fld (look 0 s.regs.retlim i) 51 12 + 4096)

/-- The checks on enabling range `i` with control word `v` (R102). -/
def retBad (s : State) (i : Nat) (v : W64) : Bool :=
  let others := (List.range 16).filter (fun j => j ≠ i && bit (retCtl s j) 0)
  let p := retSpan s i
  fld v 11 8 = 0 || 12 < fld v 11 8 || 16 < fld v 15 12 + fld v 11 8 || p.2 ≤ p.1 ||
  others.any (fun j => (retWays (retCtl s j)).any (fun w => (retWays v).contains w) || spansMeet p (retSpan s j)) ||
  12 < fld v 11 8 + sumL (others.map (fun j => fld (retCtl s j) 11 8))

/-- A write of RETCTLi. -/
def retWrite (s : State) (i : Nat) (v : W64) : State :=
  let old := retCtl s i
  let new := v &&& (ones 20 8 ||| ones 0 0)
  if bit old 0 || bit old 1 then
    if bit old 0 && !bit v 0 && new = old &&& ones 20 8 then setRetctl s i (new ||| 2) else retRefuse s i
  else if bit v 0 then (if retBad s i v then retRefuse s i else setRetctl s i (new ||| 2))
  else setRetctl s i new

/-- RETCTL_WRITE (R102). -/
def execRetctlWrite (src : WSrc) (s : State) : Host.Outcome State Fault Refusal := copiedRow s src 0xE0 0xEF retWrite

/-- A write of a range's base or limit: `g` sets it. -/
def retOther (s : State) (i : Nat) (g : Regs → Regs) : State :=
  if bit (retCtl s i) 0 || bit (retCtl s i) 1 then retRefuse s i else setRetctl { s with regs := g s.regs } i (setFld (retCtl s i) 2 2 0)

/-- RETBASE_WRITE (R102). -/
def execRetbaseWrite (src : WSrc) (s : State) : Host.Outcome State Fault Refusal :=
  copiedRow s src 0xC0 0xCF (fun s i v => retOther s i (fun r => { r with retbase := putC 0 r.retbase i (v &&& ones 51 12) }))

/-- RETLIM_WRITE (R102). -/
def execRetlimWrite (src : WSrc) (s : State) : Host.Outcome State Fault Refusal :=
  copiedRow s src 0xD0 0xDF (fun s i v => retOther s i (fun r => { r with retlim := putC 0 r.retlim i (v &&& ones 51 12) }))

/-- RETSTAT_WRITE (R101): OVF is set. -/
def execRetstatWrite (src : WSrc) (s : State) : Host.Outcome State Fault Refusal :=
  copiedRow s src 0xF0 0xFF (fun s i v => { s with regs := { s.regs with retstat := putC 0 s.regs.retstat i (v &&& ones 63 32) } })

/-- RETENTION_ENABLE_DONE (R103): the reserved ways of every slice are written back and invalidated. -/
def execRetentionEnableDone (range : Nat) (s : State) : Host.Outcome State Fault Refusal :=
  let c := retCtl s range
  if !bit c 0 || !bit c 1 then .next s
  else
    let s := atLink s 0 1
    let s := (linesWhere s (fun k e => e.used && !e.quarantined && (retWays c).contains (k % 16))).foldl evict s
    .next (setRetctl s range (setFld c 1 1 0))

/-- A retained line is an ordinary line again, the least recent of its set. -/
def unmark (s : State) (k : Nat) : State := enter (setL2 s k { getL2 s k with range := none }) k 1

/-- RETENTION_RELEASE_DONE (R105): in every set the higher-numbered ways enter first, so the lower is less recent. -/
def execRetentionReleaseDone (range : Nat) (s : State) : Host.Outcome State Fault Refusal :=
  let c := retCtl s range
  if bit c 0 || !bit c 1 then .next s
  else
    let s := atLink s 0 1
    let s := ((linesWhere s (fun _ e => e.used && e.range = some range)).reverse).foldl unmark s
    .next (setRetctl s range (setFld c 1 1 0))

/-- A status code of R177 in every lane. -/
def mapStatus (code : Nat) : List W128 := everyLane (2 ^ 28 * code)

/-- Index, and whether it is a range's; whether the issuer may use the range (R177, R180). -/
def rangeArg (s : State) (o : Op) : Nat ⊕ Nat :=
  let a := (nth o.a (lowLane o.lanes)).toNat % 2 ^ 32
  let core : Bool := match o.unit with
    | .thread _ => false
    | _ => true
  if 15 < a then .inl 1 else if core && fld (retCtl s a) 20 16 ≠ o.sid then .inl 4 else .inr a

/-- RETAIN (R180): EN and BUSY are set; the answer waits for BUSY to clear. Whether it counts as the accepted write that clears ERR (R101) is not stated: in this model a
RETAIN or UNPIN that sets or clears EN does, and a write of RETSTAT does not (DESIGN CHOICE, log 29). An earlier acquire holds it (R169). -/
def performRetain (s : State) (o : Op) : State :=
  if heldByAcquire s o then s else match rangeArg s o with
  | .inl c => performed s o.id (mapStatus c)
  | .inr i =>
    if o.arg = 0 then
      if fld (retCtl s i) 1 0 ≠ 0 || retBad s i (retCtl s i) then performed s o.id (mapStatus 3)
      else setOp (setRetctl s i (setFld (retCtl s i) 2 0 3)) { o with arg := 1 }
    else if bit (retCtl s i) 1 then s
    else performed s o.id (mapStatus 0)

/-- UNPIN (R180): EN is cleared; a range whose EN is 0 answers at once. -/
def performUnpin (s : State) (o : Op) : State :=
  if heldByAcquire s o then s else match rangeArg s o with
  | .inl c => performed s o.id (mapStatus c)
  | .inr i =>
    if o.arg = 0 then
      if !bit (retCtl s i) 0 then performed s o.id (mapStatus 0)
      else setOp (setRetctl s i (setFld (retCtl s i) 2 0 2)) { o with arg := 1 }
    else if bit (retCtl s i) 1 then s
    else performed s o.id (mapStatus 0)

/-! ### TLB invalidation (R86, R87) -/

/-- The space and the addresses that an invalidation removes: a page, a context, or all. -/
def tlbiPicks (scope ctx : Nat) (va : W64) (t : TlbEnt) : Bool := match scope with
  | 0 => tlbMatch ctx va t
  | 1 => t.space = ctx
  | _ => true

/-- The walk-cache entries on the paths of what it removes. -/
def tlbiPaths (scope ctx : Nat) (va : W64) (e : WalkEnt) : Bool := match scope with
  | 0 => walkHits va ctx e
  | 1 => e.space = ctx
  | _ => true

/-- The removal of an invalidation with the command and page of its GO; scope 2 (all) empties the threads' own TLBs. -/
def tlbiRemove (s : State) (cmd va : W64) : State :=
  let s := dropTlbs s (tlbiPicks (fld cmd 9 8) (fld cmd 31 16) va) (tlbiPaths (fld cmd 9 8) (fld cmd 31 16) va)
  if fld cmd 9 8 = 2 then { s with threads := s.threads.map (fun x => (x.1, { x.2 with tlb := [] })) } else s

/-- A GO: refused while BUSY, else BUSY. CTX, SCOPE and the page stand as the GO found them until BUSY clears (R87). Whether a refused GO still writes CTX and SCOPE is not
stated: it leaves them (DESIGN CHOICE, log 29). -/
def tlbiGo (s : State) (src : WSrc) (scope : Nat) : Host.Outcome State Fault Refusal :=
  opEvent s src 0x1B (fun v => bit v 0 && fld v 9 8 = scope) (fun s v => match src with
    | .unit (.thread q) =>
      let t := getThread s q
      if bit t.tlbicmd 1 then setThread s q { t with tlbicmd := t.tlbicmd ||| 4 }
      else
        let cmd := v &&& (ones 31 16 ||| ones 9 8) ||| 2
        setThread s q { t with tlbicmd := cmd, tlbiTime := none, tlbiGoCmd := cmd, tlbiGoVa := t.tlbiva }
    | _ => s)

/-- TLBI_PAGE (R87). -/
def execTlbiPage (src : WSrc) (s : State) : Host.Outcome State Fault Refusal := tlbiGo s src 0

/-- TLBI_CONTEXT (R87). -/
def execTlbiContext (src : WSrc) (s : State) : Host.Outcome State Fault Refusal := tlbiGo s src 1

/-- TLBI_ALL (R87). -/
def execTlbiAll (src : WSrc) (s : State) : Host.Outcome State Fault Refusal := tlbiGo s src 2

/-- An operation waits at a slice, or at its core for an entry there, after its first compare. -/
def stillAsks (s : State) (o : Op) : Bool := s.mem.waiters.any (fun w => w.op = o.id && w.hit.isNone)

/-- An access that used a translation in the scope of an invalidation, by the turn `turn` of its removal, and has not been performed: a wait is when it is answered. -/
def usesRemoved (s : State) (t : Thread) (turn : Nat) (o : Op) (a : LaneAcc) : Bool :=
  let thread : Bool := match o.unit with
    | .thread _ => true
    | _ => false
  a.pa.isSome && a.size ≠ 0 && (!a.done || stillAsks s o) && a.xlatAt ≤ turn && (match fld t.tlbiGoCmd 9 8 with
    | 0 => !thread && o.ctx = fld t.tlbiGoCmd 31 16 && a.va.toNat / 2 ^ a.size = t.tlbiGoVa.toNat / 2 ^ a.size
    | 1 => !thread && o.ctx = fld t.tlbiGoCmd 31 16
    | _ => true)

/-- TLBI_DONE (R87): first the removal, which until then an access that overlaps the invalidation need not see, and which must cross the die link; then, once every access that
used a removed translation has been performed, BUSY clears. -/
def execTlbiDone (thread : Nat) (s : State) : Host.Outcome State Fault Refusal :=
  let t := getThread s thread
  if !bit t.tlbicmd 1 then .next s
  else match t.tlbiTime with
    | none => .next (setThread (tlbiRemove (atLink s 0 1) t.tlbiGoCmd t.tlbiGoVa) thread
        { getThread (tlbiRemove s t.tlbiGoCmd t.tlbiGoVa) thread with tlbiTime := some s.turnNo })
    | some turn =>
      if s.ops.any (fun o => o.phase = 0 && o.accs.any (usesRemoved s t turn o)) then .next s
      else .next (setThread s thread { t with tlbicmd := setFld t.tlbicmd 1 1 0 })

/-! ### Threads (R385, R437) -/

/-- A write of SPCTLq. -/
def spctlWrite (s : State) (q : Nat) (v : W64) : State :=
  let t := getThread s q
  if t.halt then
    setThread s q { t with pc := BitVec.ofNat 52 (fld v 51 3 * 8), word := 0, halt := !bit v 0, trapped := t.trapped && !bit v 0, runBit := bit v 0, stopReq := false }
  else if bit v 0 then setThread s q { t with runBit := true, stopReq := false }
  else if t.run.isNone && t.posted.isNone then setThread s q { t with runBit := false, halt := true, stopReq := false }
  else setThread s q { t with runBit := false, stopReq := true }

/-- SPCTL_WRITE (R385): thread 0, halted by a trap, is restarted by no thread's write (R386). -/
def execSpctlWrite (src : WSrc) (s : State) : Host.Outcome State Fault Refusal :=
  rowEvent s src 0x1C0 0x1FF (fun s q v => match src with
    | .unit _ => spctlWrite s q (if q = 0 && (getThread s 0).trapped then v &&& ~~~(1 : W64) else v)
    | .host => spctlWrite s q v)

/-- SPROOT_WRITE (R437): the thread's own TLB is emptied. -/
def execSprootWrite (src : WSrc) (s : State) : Host.Outcome State Fault Refusal :=
  rowEvent s src 0x1E 0x1E (fun s _ v => match src with
    | .unit (.thread q) => setThread s q { getThread s q with sproot := v &&& (ones 51 13 ||| ones 0 0), tlb := [] }
    | _ => s)

/-- BOOTSTAT_WRITE (R428): STAGE is raised to 5 or 7. -/
def execBootstatWrite (src : WSrc) (s : State) : Host.Outcome State Fault Refusal :=
  rowEvent s src 0x0C 0x0C (fun s _ v =>
    let g := fld v 15 8
    if (g = 5 || g = 7) && bootStage s < g then { s with regs := { s.regs with bootstat := setFld s.regs.bootstat 15 8 g } } else s)

end Sys2Proof.Machine
end

