-- ==== Sys2Proof/Machine/Ports.lean ====
section
/-!
DEFINITION. The UALink-class ports (spec/28 R431, R432), link loss and the quarantine (spec/24 R398-R400), the directory's grants and snoops
(R394-R396), and the die link (R401, R402). Module time advances at 1 GHz (spec/01 R16).
-/
namespace Sys2Proof.Machine

def ms : Nat := 1000000

/-! ### Quarantine (R398-R400) -/

/-- Slots of the quarantine region; 0: none. -/
def quarSlots (s : State) : Nat :=
  let n := fld s.regs.qrcfg 4 0
  if 12 ≤ n && n ≤ 22 then 2 ^ n else 0

def quarVa (s : State) (slot : Nat) : W64 := BitVec.ofNat 64 (4096 * fld s.regs.qrcfg 51 12 + 256 * slot)

/-- The lowest free slot. -/
def freeQuar (s : State) : Option Nat := (List.range (quarSlots s)).find? (fun i => s.mem.quar.all (fun p => p.1 ≠ i))

/-- QRSTAT's counts move. -/
def quarCount (s : State) (count held : Nat → Nat) : State :=
  let v := s.regs.qrstat
  { s with regs := { s.regs with qrstat := BitVec.ofNat 64 (2 ^ 32 * (held (fld v 63 32) % 2 ^ 32) + count (fld v 31 0) % 2 ^ 32) } }

/-- A line leaves its slice without a word to the directory. -/
def loseLine (s : State) (k : Nat) : State := forget (setL2 s k L2Line.reset) k

/-- A dirty line goes into a slot, SEQ written last (R400); its slice no longer holds it. TIME is that of the loss, however long the line was held for want of a slot. -/
def toSlot (s : State) (k slot : Nat) : State :=
  let e := getL2 s k
  let la := e.line
  let data := lineNow s e.home la
  let seq := s.regs.qrSeq + 1
  let v := 128 * la + 2 ^ 64 * (e.dirty.toNat + portOf (128 * la) * 2 ^ 8) + 2 ^ 128 * ((if e.quarantined then e.lostAt else s.time) % 2 ^ 64) + 2 ^ 1024 * data.toNat
  let s := (devWrite poolX 2 false 4 s (quarVa s slot) 256 (2 ^ 256 - 1) v).1
  let s := (devWrite poolX 2 false 2 s (quarVa s slot + 24) 8 255 seq).1
  let s := { s with regs := { s.regs with qrSeq := seq }, mem := { s.mem with quar := put s.mem.quar slot la } }
  quarCount (loseLine s k) (· + 1) id

/-- QUARANTINE_LINE: a slot, or held in the slice for want of one. -/
def quarantineLine (s : State) (k : Nat) : State := match freeQuar s with
  | some i => toSlot s k i
  | none => quarCount (setL2 (forget s k) k { getL2 s k with quarantined := true, lostAt := s.time }) id (· + 1)

/-- A port leaves UP: its dirty lines are quarantined, its clean lines dropped, its snoops forgotten (R398). -/
def portLoss (s : State) (port : Nat) : State :=
  let mine := fun (la : Nat) => rangeOf s (128 * la) = .fabric && portOf (128 * la) = port
  let ks := linesWhere s (fun _ e => e.used && !e.quarantined && mine e.line)
  let s := ks.foldl (fun s k => if (getL2 s k).dirty ≠ 0 then quarantineLine s k else loseLine s k) s
  wake { s with mem := { s.mem with
    snoops := s.mem.snoops.filter (fun la => !mine la), passes := s.mem.passes.filter (fun p => !mine p.line) } } 0 5

/-- A freed slot takes the first line that is held for want of one. -/
def freeSlotLine (s : State) (slot : Nat) : State :=
  let s := quarCount { s with mem := { s.mem with quar := dropKey s.mem.quar slot } } (· - 1) id
  match linesWhere s (fun _ e => e.used && e.quarantined) with
  | k :: _ => match freeQuar s with
    | some i => quarCount (toSlot s k i) id (· - 1)
    | none => s
  | [] => s

/-- The saved data's dirty sectors are written to the host line. -/
def quarToHost (s : State) (slot la : Nat) : State :=
  let d := devGet s poolX (quarVa s slot) 256
  match d.2 with
  | .inr v => memWrite d.1 (128 * la) (sectorBytes (BitVec.ofNat 4 (v / 2 ^ 64))) (v / 2 ^ 1024) 128
  | .inl _ => d.1

/-- A GO of QRCMD on the slot it names. -/
def quarGo (s : State) (v : W64) (wb : Bool) : State :=
  let slot := fld v 31 8
  let set := fun (s : State) (err : Nat) => { s with regs := { s.regs with qrcmd := setFld (v &&& (ones 31 8 ||| ones 1 1)) 2 2 err } }
  match s.mem.quar.find? (fun p => p.1 = slot) with
  | none => set s 1
  | some (_, la) =>
    if wb && !portUp s (portOf (128 * la)) then set s 1
    else set (freeSlotLine (if wb then quarToHost s slot la else s) slot) 0

/-- QR_RELEASE (R399). -/
def execQrRelease (src : WSrc) (s : State) : Host.Outcome State Fault Refusal := opEvent s src 0x2B (fun v => bit v 0 && !bit v 1) (fun s v => quarGo s v false)

/-- QR_WRITEBACK (R399). -/
def execQrWriteback (src : WSrc) (s : State) : Host.Outcome State Fault Refusal := opEvent s src 0x2B (fun v => bit v 0 && bit v 1) (fun s v => quarGo s v true)

/-! ### Ports (R431, R432) -/

def portctl (s : State) (p : Nat) : W64 := look 0 s.regs.portctl p

/-- A port enters a state, with REASON. -/
def portEnter (s : State) (p state reason : Nat) : State :=
  { s with regs := { s.regs with
    portctl := putC 0 s.regs.portctl p (setFld (setFld (portctl s p) 4 1 state) 11 8 reason), portAt := putC 0 s.regs.portAt p s.time } }

/-- Counts since the port entered its state. -/
def portFor (s : State) (p : Nat) : Nat := s.time - look 0 s.regs.portAt p

/-- From one state, when a condition holds. -/
def portMove (s : State) (p old : Nat) (ok : Bool) (g : State → State) : Host.Outcome State Fault Refusal :=
  if p < 16 && portState s p = old && ok then .next (g s) else .next s

/-- A port enters UP, and thread 0 is told. -/
def portToUp (s : State) (p : Nat) : State := wake (portEnter s p 4 0) 0 5

/-- PORTCTL_WRITE (R432): EN is firmware's. -/
def execPortctlWrite (src : WSrc) (s : State) : Host.Outcome State Fault Refusal :=
  rowEvent s src 0x200 0x20F (fun s p v =>
    let old := portState s p
    let s := { s with regs := { s.regs with portctl := putC 0 s.regs.portctl p (setFld (portctl s p) 0 0 (bit v 0).toNat) } }
    if bit v 0 then (if old = 0 then portEnter s p 1 0 else s)
    else if old = 0 then s
    else if old = 4 then portLoss (portEnter s p 0 0) p
    else portEnter s p 0 0)

/-- PORT_DETECT_EXIT_IDLE (R432). -/
def execPortDetectExitIdle (port : Nat) (s : State) : Host.Outcome State Fault Refusal :=
  portMove s port 1 (portFor s port ≤ 12 * ms) (fun s => portEnter s port 2 0)

/-- PORT_DETECT_TIMEOUT (R432). -/
def execPortDetectTimeout (port : Nat) (s : State) : Host.Outcome State Fault Refusal :=
  portMove s port 1 (12 * ms ≤ portFor s port) (fun s => portEnter s port 1 0)

/-- PORT_NEGOTIATE (R432): REASON names the first missing item. -/
def execPortNegotiate (port : Nat) (speed : Bool) (lanes : Bool) (fec : Bool) (s : State) : Host.Outcome State Fault Refusal :=
  portMove s port 2 true (fun s =>
    if !speed then portEnter s port 6 1 else if !lanes then portEnter s port 6 2 else if !fec then portEnter s port 6 3 else portEnter s port 3 0)

/-- PORT_PARTNER_IDLE (R432). -/
def execPortPartnerIdle (port : Nat) (s : State) : Host.Outcome State Fault Refusal := portMove s port 2 true (fun s => portEnter s port 1 0)

/-- PORT_TRAIN_DONE (R432). -/
def execPortTrainDone (port : Nat) (s : State) : Host.Outcome State Fault Refusal :=
  portMove s port 3 (portFor s port ≤ 100 * ms) (fun s => portToUp s port)

/-- PORT_TRAIN_TIMEOUT (R432). -/
def execPortTrainTimeout (port : Nat) (s : State) : Host.Outcome State Fault Refusal :=
  portMove s port 3 (100 * ms ≤ portFor s port) (fun s => portEnter s port 1 0)

/-- PORT_LINK_LOSS (R432, R398). -/
def execPortLinkLoss (port : Nat) (s : State) : Host.Outcome State Fault Refusal :=
  portMove s port 4 true (fun s =>
    let s := portEnter s port 5 0
    let v := portctl s port
    portLoss { s with regs := { s.regs with portctl := putC 0 s.regs.portctl port (setFld v 63 32 (sat (2 ^ 32 - 1) (fld v 63 32 + 1))) } } port)

/-- PORT_RELOCK (R432). -/
def execPortRelock (port : Nat) (s : State) : Host.Outcome State Fault Refusal :=
  portMove s port 5 (portFor s port ≤ 100 * ms) (fun s => portToUp s port)

/-- PORT_RETRAIN_TIMEOUT (R432). -/
def execPortRetrainTimeout (port : Nat) (s : State) : Host.Outcome State Fault Refusal :=
  portMove s port 5 (100 * ms ≤ portFor s port) (fun s => portEnter s port 1 0)

/-! ### The directory (R394-R396) -/

/-- A request waiting for a line, as its home slice sees it. -/
def waitingReq (s : State) (la : Nat) : Option LReq :=
  s.ops.findSome? (fun o => if o.phase ≠ 0 then none else
    (o.accs.find? (fun a => !a.done && (match a.pa with
      | some pa => pa / 128 = la
      | none => false))).map (fun a => opReq s o a))

/-- The slice entry that holds a line, on either die. -/
def heldAt (s : State) (la : Nat) : Option Nat := (findL2 s 0 la).orElse (fun _ => findL2 s 1 la)

/-- The request of a device that waits for a line. -/
def wantedReq (s : State) (la : Nat) : Option LReq :=
  (s.mem.wants.find? (fun w => w.1 = la)).map (fun w =>
    { src := w.2.1, la := la, die := w.2.1, world := 0, sid := w.2.2.1, pol := w.2.2.2, prot := none, phys := false, paid := true })

/-- The line is filled for the request that waits, its slice's power gating ended; where no way may hold it, the grant stands for that request alone. Waits on the line compare
with what its host or peer has made of it (spec/13 R273). -/
def grantTo (s : State) (r : LReq) (excl : Bool) (data : Line) : State :=
  let a := allocate (memWrite (ungate s r.die r.la) (128 * r.la) (2 ^ 128 - 1) data.toNat 128) r
  let t := match a.2 with
    | some k => setL2 a.1 k { getL2 a.1 k with data := data, valid := 15, grant := if excl then 2 else 1 }
    | none => { a.1 with mem := { a.1.mem with passes := a.1.mem.passes.filter (fun p => p.line ≠ r.la) ++ [{ line := r.la, excl := excl, used := false }] } }
  scanMonitors t r.la (2 ^ 128 - 1) (vmaxOf t r.die r.la)

/-- DIRECTORY_GRANT (R394): a held line's grant rises, or the line is granted to the request that waits. -/
def execDirectoryGrant (line : Nat) (excl : Bool) (data : Line) (s : State) : Host.Outcome State Fault Refusal :=
  if rangeOf s (128 * line) ≠ .fabric || !portUp s (portOf (128 * line)) || quarantinedLine s line || s.mem.snoops.contains line then .next s
  else
    let r := (waitingReq s line).orElse (fun _ => wantedReq s line)
    let s := { s with mem := { s.mem with wants := s.mem.wants.filter (fun w => w.1 ≠ line) } }
    match heldAt s line, r with
    | some k, _ => .next (setL2 s k { getL2 s k with grant := Nat.max (if excl then 2 else 1) (getL2 s k).grant })
    | none, none => .next s
    | none, some r => .next (grantTo s r excl data)

/-- The line a snoop finds: one held, not quarantined, in a slice that is not gated. -/
def snooped (s : State) (la : Nat) : Option Nat := match heldAt s la with
  | some k => if (getL2 s k).quarantined || look false s.mem.gated (sliceOf (getL2 s k).home (128 * la)) then none else some k
  | none => none

/-- SNOOP_INVALIDATE (R395): new requests wait until its answer; a line not held is answered at once. -/
def execSnoopInvalidate (line : Nat) (s : State) : Host.Outcome State Fault Refusal :=
  if rangeOf s (128 * line) ≠ .fabric || s.mem.snoops.contains line then .next s
  else match snooped s line with
    | some _ => .next { s with mem := { s.mem with snoops := s.mem.snoops ++ [line] } }
    | none => .next (emit (dropPass s line) (.snoopAnswer line false 0 0))

/-- SNOOP_INVALIDATE_ANSWER (R395): module time has passed LMAX; dirty sectors go with the answer, and the line is dropped. -/
def execSnoopInvalidateAnswer (line : Nat) (s : State) : Host.Outcome State Fault Refusal :=
  if !s.mem.snoops.contains line then .next s
  else
    let t := { s with mem := { s.mem with snoops := s.mem.snoops.filter (· ≠ line) } }
    match heldAt s line with
    | none => .next (emit t (.snoopAnswer line false 0 0))
    | some k =>
      let e := getL2 s k
      if passed s (lmaxOf s e.home line) then .next (emit (loseLine (writeBack t k) k) (.snoopAnswer line true e.dirty e.data)) else .next s

/-- SNOOP_SHARE (R395): dirty sectors go with the answer at once, and the line stays as S. -/
def execSnoopShare (line : Nat) (s : State) : Host.Outcome State Fault Refusal :=
  if rangeOf s (128 * line) ≠ .fabric then .next s
  else match snooped s line with
    | none => .next (emit (dropPass s line) (.snoopAnswer line false 0 0))
    | some k =>
      let e := getL2 s k
      let s := writeBack s k
      .next (emit (setL2 s k { getL2 s k with grant := 1 }) (.snoopAnswer line true e.dirty e.data))

/-- SLICE_POWER_GATE (R396): every host-homed line is written back and its grant released first; the other lines stay. Lines held in quarantine or under a snoop keep a slice
on. -/
def execSlicePowerGate (slice : Nat) (s : State) : Host.Outcome State Fault Refusal :=
  let ks := linesWhere s (fun k e => e.used && k / 16 / 1024 = slice && rangeOf s (128 * e.line) = .fabric)
  if 192 ≤ slice || ks.any (fun k => (getL2 s k).quarantined || s.mem.snoops.contains (getL2 s k).line) then .next s
  else
    let s := ks.foldl evict s
    .next { s with mem := { s.mem with gated := putC false s.mem.gated slice true } }

/-! ### The die link (R401, R402) -/

/-- Dies on which a slice has teams or workers. -/
def sliceDies (s : State) (x : Slice) : List Nat :=
  dedup (((s.launch.teams.filter (fun t => t.slice = x.num && !t.saved)).map (fun t => dieOf t.start)) ++ (workersOf s x.num).map dieOf)

/-- The record of a slice that a link loss ends: its DETAIL is 0 (spec/22 R365). -/
def linkRec (s : State) (x : Slice) : TrapRec := { budgetRec s x with cause := 0x32, detail := 0 }

/-- A slice that spans both dies: its record, and its teams' end, those whose lanes had all exited counted as RETIRED; a record of theirs that would cross the link waits (log 14). -/
def lossSlice (s : State) (x : Slice) : State :=
  let live := s.launch.teams.filter (fun t => t.slice = x.num)
  let ended := (live.filter (fun t => t.st = .ending)).length
  let x := { x with loss := some (x.retired + ended, live.length - ended, x.teams - x.next, s.time), st := .stopped }
  (killSlice (fileSlice (setSlice s x) (linkRec s x)) x).1

/-- The end of the slices that a loss has stopped goes on, and that of the teams that one has left behind. -/
def lossStep (s : State) : State :=
  let s := s.launch.lost.foldl lostStep s
  (s.launch.slices.filter (fun x => x.loss.isSome)).foldl (fun s x => (killSlice s x).1) s

/-- The first record that has waited for the die link is written. -/
def writePutOff (s : State) : State := match s.mem.late with
  | [] => s
  | w :: t =>
    let s := { s with mem := { s.mem with late := t } }
    (structWrite s (ctxX s w.core w.ctx w.world w.sid) w.va w.len w.bits 3 deviceOrigin false).1

/-- DIE_LINK_LOSS (R402): the loss; while the link is down, the end of a slice that the loss has stopped. -/
def execDieLinkLoss (s : State) : Host.Outcome State Fault Refusal :=
  let v := s.regs.dlstat
  if !bit v 0 then .next (lossStep s)
  else
    let s := { s with regs := { s.regs with dlstat := BitVec.ofNat 64 (2 ^ 32 * sat (2 ^ 32 - 1) (fld v 63 32 + 1)) } }
    .next ((s.launch.slices.filter (fun x => x.diepol = 0 && x.loss.isNone && !x.killed && 2 ≤ (sliceDies s x).length)).foldl lossSlice (wake s 0 5))

/-- DIE_LINK_RETRAIN (R401): held requests proceed, and, at turns after it, what was to be written is written. -/
def execDieLinkRetrain (s : State) : Host.Outcome State Fault Refusal :=
  let v := s.regs.dlstat
  if bit v 0 then .next (lossStep (writePutOff s)) else .next (wake { s with regs := { s.regs with dlstat := setFld v 0 0 1 } } 0 5)

end Sys2Proof.Machine
end

