-- ==== Sys2Proof/Machine/Host.lean ====
section
/-!
DEFINITION. The host: BAR0 and BAR2 (spec/24 R390-R392), the interface states (spec/26 R418), posted writes (spec/13 R263, R278), peers over the
ports (R393), the security controller's report and key messages (spec/28 R434-R436), configuration requests (R430).
-/
namespace Sys2Proof.Machine

/-- The link is up, and BOOTSTAT.STAGE reads 7: requests are no longer dropped (R430). -/
def hostReady (s : State) : Bool := s.host.linkUp && bootStage s = 7

/-! ### Pages of the interface (R418) -/

/-- Number of a BAR's page in the interface report: BAR0's 64 pages, then BAR2's. -/
def barPage (bar2 : Bool) (addr : Nat) : Nat := if bar2 then 64 + addr / 4096 else addr / 4096

/-- The world of a private page; 0: shared. -/
def pageWorld (s : State) (page : Nat) : Nat := ((s.host.attrs.find? (fun a => a.1 = page)).map (fun a => a.2)).getD 0

/-- Unsupported Request: a private page without the T bit or outside RUN, a shared page with it. -/
def pageRefuses (s : State) (page : Nat) (tee : Bool) : Bool :=
  if pageWorld s page = 0 then tee else !tee || s.host.tdisp ≠ .run

/-- LOCK_INTERFACE_REQUEST: the report's attributes freeze. -/
def execLockInterfaceRequest (attrs : List (Nat × Nat)) (s : State) : Host.Outcome State Fault Refusal :=
  if s.host.tdisp = .unlocked then
    .next { s with host := { s.host with tdisp := .locked, attrs := attrs.filter (fun a => 1 ≤ a.2 && a.2 ≤ 15) } }
  else .next s

/-- START_INTERFACE_REQUEST. -/
def execStartInterfaceRequest (s : State) : Host.Outcome State Fault Refusal :=
  if s.host.tdisp = .locked then .next { s with host := { s.host with tdisp := .run } } else .next s

/-- STOP_INTERFACE_REQUEST. -/
def execStopInterfaceRequest (s : State) : Host.Outcome State Fault Refusal := .next { s with host := { s.host with tdisp := .unlocked } }

/-! ### Reads and writes of memory (R278, R392) -/

/-- A host's or peer's request of a line: physical, SID 0, as world `w` under its KEYIX 0, or as world 0 without keys. -/
def hostReq (s : State) (src w pa : Nat) : LReq :=
  { src := src, la := pa / 128, die := homeDie s pa 0, world := w, sid := 0, pol := 0, prot := if w = 0 then none else some (16 * w), phys := true, paid := false }

/-- Read bytes, line by line. -/
def hostRead (src w : Nat) : Nat → State → Nat → Nat → State × Option Nat
  | 0, s, _, _ => (s, some 0)
  | fuel + 1, s, pa, n =>
    if n = 0 then (s, some 0)
    else
      let c := Nat.min n (128 - pa % 128)
      let r := readLine s (hostReq s src w pa) (touched ((2 ^ c - 1) * 2 ^ (pa % 128))) false
      match r.2 with
      | .bad _ => (r.1, none)
      | .ok d _ _ _ _ =>
        let b := hostRead src w fuel r.1 (pa + c) (n - c)
        (b.1, b.2.map (fun v => fieldOfLine d (pa % 128) c + v * 2 ^ (8 * c)))

/-- Write bytes, line by line: the greatest WCT. A refused line writes nothing. -/
def hostWrite (src w : Nat) : Nat → State → Nat → Nat → Nat → State × Nat
  | 0, s, _, _, _ => (s, 0)
  | fuel + 1, s, pa, n, v =>
    if n = 0 then (s, 0)
    else
      let c := Nat.min n (128 - pa % 128)
      let r := writeLine s (hostReq s src w pa) ((2 ^ c - 1) * 2 ^ (pa % 128)) (BitVec.ofNat 1024 (v % 2 ^ (8 * c) * 2 ^ (8 * (pa % 128)))) (fun m => m) true
      let b := hostWrite src w fuel r.1 (pa + c) (n - c) (v / 2 ^ (8 * c))
      match r.2 with
      | .ok t => (b.1, Nat.max t b.2)
      | .bad _ => b

/-- The physical address of a BAR2 offset (R392). -/
def bar2Pa (s : State) (o : Nat) : Option Nat :=
  let l := gib * localGb s
  let tib := 2 ^ 40
  if o < tib then (if o < 2 * (288 * gib - l) then some o else none)
  else if o < tib + tib / 2 then (if o - tib < l then some (localBaseA + (o - tib)) else none)
  else if o < 2 * tib then (if o - tib - tib / 2 < l then some (localBaseB + (o - tib - tib / 2)) else none)
  else none

/-- A BAR2 request's first and last bytes, both in one aperture; none: Unsupported Request. -/
def bar2Span (s : State) (r : HostReq) (len : Nat) : Option Nat :=
  let last := r.addr + Nat.max 1 len - 1
  match bar2Pa s r.addr, bar2Pa s last with
  | some a, some b =>
    if b - a = last - r.addr && (List.range (last / 4096 + 1 - r.addr / 4096)).all (fun i =>
        !pageRefuses s (barPage true (r.addr + 4096 * i)) r.tee && pageWorld s (barPage true (r.addr + 4096 * i)) = pageWorld s (barPage true r.addr)) then some a
    else none
  | _, _ => none

/-- BAR2_READ (R392). -/
def execBar2Read (req : HostReq) (s : State) : Host.Outcome State Fault Refusal :=
  if !hostReady s then .next s
  else match bar2Span s req req.len with
    | none => .next (emit s (.unsupported req.requester))
    | some pa =>
      let r := hostRead 0 (pageWorld s (barPage true req.addr)) (req.len / 128 + 2) s pa req.len
      match r.2 with
      | some v => .next (emit r.1 (.readData req.requester (toBytes req.len v)))
      | none => .next (emit r.1 (.abort req.requester))

/-! ### The register window (R391) -/

/-- A register as the host reads it. -/
def hostReg (s : State) (n : Nat) : Nat :=
  if n = 0 then modIdOf (.thread 0)
  else if n = 0x0C || n = 0x2A || n = 0x2C || (0x100 ≤ n && n < 0x210) then moduleReg s n
  else 0

/-- Bytes of BAR0 outside the register window. -/
def bar0Byte (s : State) (o : Nat) : Byte :=
  if 0x10000 ≤ o && o < 0x18000 then BitVec.ofNat 8 (fld (msixEntry s ((o - 0x10000) / 16)) (8 * (o % 16) + 7) (8 * (o % 16))) else 0

/-- BAR0_READ (R391). -/
def execBar0Read (req : HostReq) (s : State) : Host.Outcome State Fault Refusal :=
  if !hostReady s then .next s
  else if pageRefuses s (barPage false req.addr) req.tee || 2 ^ 18 < req.addr + req.len then .next (emit s (.unsupported req.requester))
  else if req.addr < 0x8000 then
    if (req.len = 4 || req.len = 8) && req.addr % req.len = 0 then
      .next (emit s (.readData req.requester (toBytes req.len (hostReg s (req.addr / 8) / 2 ^ (8 * (req.addr % 8))))))
    else .next (emit s (.unsupported req.requester))
  else .next (emit s (.readData req.requester ((List.range req.len).map (fun i => bar0Byte s (req.addr + i)))))

/-- A write into the MSI-X table. -/
def msixByte (s : State) (o : Nat) (b : Byte) : State :=
  let v := (o - 0x10000) / 16
  let e := setFld (msixEntry s v) (8 * (o % 16) + 7) (8 * (o % 16)) b.toNat
  { s with host := { s.host with msix := putC HostIf.msixReset s.host.msix v e } }

/-- A register write waits for its row. -/
def postReg (s : State) (n v : Nat) : State := { s with host := { s.host with regq := s.host.regq ++ [(n, BitVec.ofNat 64 v)] } }

/-- A write of the register window: PROD and SPCTL0 only. None: an SPCTL0 write that must wait for those before it. -/
def windowWrite (s : State) (o len v : Nat) : Option State :=
  let n := o / 8
  if 0x180 ≤ n && n < 0x1C0 then some (if o % 8 = 0 then postReg s n (v % 2 ^ 32) else s)
  else if n ≠ 0x1C0 then some s
  else if len = 8 then some (postReg s n v)
  else if !s.host.regq.isEmpty then none
  else if o % 8 = 0 then some (postReg s n (2 ^ 32 * (spctlOf s 0 / 2 ^ 32) + v % 2 ^ 32))
  else
    let t := getThread s 0
    some (if t.halt then setThread s 0 { t with pc := setFld t.pc 51 32 v } else s)

/-! ### Posted writes (R263) -/

/-- Key of a requester's last write time, PCIe and ports apart. -/
def requesterKey (way requester : Nat) : Nat := 2 * requester + (if way = 2 then 1 else 0)

/-- A write takes effect: BAR0, BAR2 or a port; none: not yet. -/
def applyPosted (s : State) (p : Posted) : Option State :=
  let r := p.req
  let n := r.bytes.length
  let v := leBytes r.bytes
  let note := fun (w : State × Nat) => if r.relaxed then w.1 else
    let k := requesterKey p.way r.requester
    { w.1 with host := { w.1.host with lastWct := put w.1.host.lastWct k (Nat.max w.2 (look 0 w.1.host.lastWct k)) } }
  match p.way with
  | 0 =>
    if r.addr < 0x8000 then windowWrite s r.addr n v
    else some ((List.range n).foldl (fun s i =>
      let o := r.addr + i
      if 0x10000 ≤ o && o < 0x18000 then msixByte s o (r.bytes.getD i 0) else s) s)
  | 1 => match bar2Span s r n with
    | some pa => some (note (hostWrite 0 (pageWorld s (barPage true r.addr)) (n / 128 + 2) s pa n v))
    | none => some s
  | _ => some (note (hostWrite (r.port / 8) 0 (n / 128 + 2) s r.addr n v))

/-- A write of the register window: these take effect in the order of their arrival, whoever sent them (R391). -/
def windowPost (p : Posted) : Bool := p.way = 0 && p.req.addr < 0x8000

/-- Whether a write may go now, the ones held before it being `ahead`: its requester's earlier writes have gone and module time has passed their WCTs, unless it is marked
relaxed (R263); no write of the window stands before one of the window. -/
def postedMay (s : State) (ahead : List Posted) (p : Posted) : Bool :=
  let k := requesterKey p.way p.req.requester
  (p.req.relaxed || (ahead.all (fun q => q.req.relaxed || requesterKey q.way q.req.requester ≠ k) && s.host.lastWct.all (fun e => e.1 ≠ k || passed s e.2))) &&
  !(windowPost p && ahead.any windowPost)

/-- A write joins those that are held. -/
def holdPosted (s : State) (p : Posted) : State := { s with host := { s.host with posted := s.host.posted ++ [p] } }

/-- A requester's write goes at once, or is held: behind earlier ones, or until its request can be served. -/
def postedWrite (s : State) (p : Posted) : Host.Outcome State Fault Refusal :=
  if postedMay s s.host.posted p then
    match applyPosted s p with
    | some t => .next (if t.holds = [] then t else holdPosted s p)
    | none => .next (holdPosted s p)
  else .next (holdPosted s p)

/-- BAR0_WRITE (R391). -/
def execBar0Write (req : HostReq) (s : State) : Host.Outcome State Fault Refusal :=
  let n := req.bytes.length
  if !hostReady s then .next s
  else if pageRefuses s (barPage false req.addr) req.tee || 2 ^ 18 < req.addr + n then .next (emit s (.unsupported req.requester))
  else if req.addr < 0x8000 && !((n = 4 || n = 8) && req.addr % n = 0) then .next (emit s (.unsupported req.requester))
  else postedWrite s { req := req, way := 0 }

/-- BAR2_WRITE (R392). -/
def execBar2Write (req : HostReq) (s : State) : Host.Outcome State Fault Refusal :=
  if !hostReady s then .next s
  else match bar2Span s req req.bytes.length with
    | none => .next (emit s (.unsupported req.requester))
    | some _ => postedWrite s { req := req, way := 1 }

/-- POSTED_WRITE_RELEASE (R263): the oldest held write of a requester that may go proceeds. A requester of a port is numbered 2·n + 1, one of PCIe 2·n. -/
def execPostedWriteRelease (requester : Nat) (s : State) : Host.Outcome State Fault Refusal :=
  let l := s.host.posted
  match (l.zipIdx.find? (fun q => requesterKey q.1.way q.1.req.requester = requester && postedMay s (l.take q.2) q.1)) with
  | none => .next s
  | some (p, i) => .next ((applyPosted { s with host := { s.host with posted := l.eraseIdx i } } p).getD s)

/-! ### Peers (R393, R278) -/

/-- A peer's request fits: its port is UP; its bytes lie in device DRAM and are at most 128. -/
def peerOk (s : State) (r : HostReq) (n : Nat) : Bool :=
  n ≤ 128 && (rangeOf s r.addr).isDram && rangeOf s r.addr = rangeOf s (r.addr + Nat.max 1 n - 1)

/-- PEER_READ. -/
def execPeerRead (req : HostReq) (s : State) : Host.Outcome State Fault Refusal :=
  if !portUp s req.port then .next s
  else if !peerOk s req req.len then .next (emit s (.unsupported req.requester))
  else
    let r := hostRead (req.port / 8) 0 3 s req.addr req.len
    match r.2 with
    | some v => .next (emit r.1 (.readData req.requester (toBytes req.len v)))
    | none => .next (emit r.1 (.abort req.requester))

/-- PEER_WRITE. -/
def execPeerWrite (req : HostReq) (s : State) : Host.Outcome State Fault Refusal :=
  if !portUp s req.port then .next s
  else if !peerOk s req req.bytes.length then .next (emit s (.unsupported req.requester))
  else postedWrite s { req := req, way := 2 }

/-- An atomic a peer may ask: an AOP of ATOM on elements of its type, in one line (log 14). -/
def peerAtomOk (r : HostReq) (aop ty : Nat) : Bool :=
  let e := typeBytes ty
  let n := r.bytes.length
  aopTypes aop ty && 0 < n && n % e = 0 && r.addr % e = 0 && r.addr % 128 + n ≤ 128

/-- PEER_ATOMIC: each element at its home slice, the old bytes answered. -/
def execPeerAtomic (req : HostReq) (aop : Nat) (ty : BitVec 4) (s : State) : Host.Outcome State Fault Refusal :=
  let n := req.bytes.length
  if !portUp s req.port then .next s
  else if !peerOk s req n || !peerAtomOk req aop ty.toNat then .next (emit s (.unsupported req.requester))
  else
    let r := hostRead (req.port / 8) 0 3 s req.addr n
    match r.2 with
    | none => .next (emit r.1 (.abort req.requester))
    | some m =>
      let w := 8 * typeBytes ty.toNat
      let v := sumL ((List.range (8 * n / w)).map (fun i =>
        aopVal aop ty.toNat (m / 2 ^ (w * i) % 2 ^ w) (leBytes req.bytes / 2 ^ (w * i) % 2 ^ w) % 2 ^ w * 2 ^ (w * i)))
      .next (emit (hostWrite (req.port / 8) 0 3 r.1 req.addr n v).1 (.readData req.requester (toBytes n m)))

/-! ### The security controller (R434-R436) -/

/-- Bytes 0 to 119 of the attestation report, as one little-endian number. -/
def reportBits (s : State) (nonce : BitVec 256) : BitVec 960 :=
  BitVec.ofNat 960 (packFields [(0, 8, modIdOf (.thread 0)), (8, 32, Config.romDigest.toNat), (40, 32, s.host.fwDigest.toNat),
    (72, 4, fld s.regs.bootstat 63 32), (76, 4, Config.fusedMin.toNat), (80, 32, nonce.toNat), (112, 8, s.host.reports)])

/-- A request of the DOE mailbox, which stands in configuration space (PRESUMED of PCIe, log 17): none reaches it without the link, and until STAGE reads 7 it is answered Retry
(R430). -/
def doeRequest (s : State) (act : State → State) : Host.Outcome State Fault Refusal :=
  if !s.host.linkUp then .next s else if !hostReady s then .next (emit s .retry) else .next (act s)

/-- GET_MEASUREMENTS (R434). -/
def execGetMeasurements (nonce : BitVec 256) (s : State) : Host.Outcome State Fault Refusal :=
  let b := reportBits s nonce
  doeRequest s (fun s => emit { s with host := { s.host with reports := s.host.reports + 1 } } (.report b (Config.signature b)))

/-- A world's entry of the world table, as one number, read by the security controller on die A; 0, which allows nobody, where key loading is off, the world has no
entry, or its line cannot be read (DESIGN CHOICE, log 26). -/
def worldEntry (s : State) (w : Nat) : State × Nat :=
  if !bit s.regs.worldtab 0 || w = 0 || 15 < w then (s, 0)
  else
    let pa := fld s.regs.worldtab 51 10 * 1024 + 64 * w
    let r := readLine s { hostReq s 0 0 pa with paid := true } (BitVec.ofNat 4 (3 * 2 ^ (pa % 128 / 32))) false
    (r.1, match r.2 with
      | .ok d _ _ _ _ => fieldOfLine d (pa % 128) 64
      | .bad _ => 0)

/-- Whether a world's entry `e` lets a message's sender load its keys (R436). -/
def keyAllowed (m : KeyMsg) (e : Nat) : Bool :=
  zeroB e 34 30 && getB e 32 1 + getB e 33 1 ≤ 256 && m.digest ≠ 0 && getB e 0 32 = m.digest.toNat

/-- STATE of a key message's answer. -/
def slotState (s : State) (m : KeyMsg) : Nat := match look none s.host.keys m.slot.toNat with
  | none => 0
  | some (w, _) => if w = m.world.toNat then 1 else 2

/-- Answer a key message. -/
def keyAnswer (s : State) (m : KeyMsg) (status : Nat) : State :=
  emit s (.keyStatus m.kop m.slot (BitVec.ofNat 8 status) (BitVec.ofNat 8 (slotState s m)))

/-- A message of an unknown KOP, or with a byte that must be zero (R435): BADOP. -/
def badKop (m : KeyMsg) : Bool := m.kop = 0 || 3 < m.kop.toNat || m.zero ≠ 0

/-- A message is served with its world's entry, once it has been read: BADOP, NOTALLOWED, BADLEN, or `act`. -/
def serveKey (s : State) (m : KeyMsg) (act : State → Nat → State) : State :=
  if badKop m then keyAnswer s m 1
  else
    let r := worldEntry s m.world.toNat
    if !keyAllowed m r.2 then keyAnswer r.1 m 2
    else if m.len ≠ (if m.kop = 1 then 100 else 4) then keyAnswer r.1 m 5
    else act r.1 r.2

/-- KEY_LOAD (R435). -/
def execKeyLoad (msg : KeyMsg) (s : State) : Host.Outcome State Fault Refusal :=
  if msg.kop ≠ 1 then .next s
  else doeRequest s (fun s => serveKey s msg (fun s e =>
    if msg.slot.toNat < getB e 32 1 || getB e 32 1 + getB e 33 1 ≤ msg.slot.toNat then keyAnswer s msg 3
    else if (look none s.host.keys msg.slot.toNat).isSome then keyAnswer s msg 4
    else keyAnswer { s with host := { s.host with keys := putC none s.host.keys msg.slot.toNat (some (msg.world.toNat, msg.keys)) } } msg 0))

/-- KEY_ERASE (R435). -/
def execKeyErase (msg : KeyMsg) (s : State) : Host.Outcome State Fault Refusal :=
  if msg.kop ≠ 2 then .next s
  else doeRequest s (fun s => serveKey s msg (fun s _ => match look none s.host.keys msg.slot.toNat with
    | none => keyAnswer s msg 0
    | some (w, _) => if w = msg.world.toNat then keyAnswer (revokeSlot s msg.slot.toNat) msg 0 else keyAnswer s msg 2))

/-- SLOT_QUERY (R435); a message of an unknown KOP is answered here. -/
def execSlotQuery (msg : KeyMsg) (s : State) : Host.Outcome State Fault Refusal :=
  if msg.kop = 1 || msg.kop = 2 then .next s else doeRequest s (fun s => serveKey s msg (fun s _ => keyAnswer s msg 0))

/-! ### Configuration space (R390, R430) -/

/-- Bits of a configuration dword that the host may write: the BARs' address bits (R390; PRESUMED of PCIe, log 15). -/
def confMask (r : Nat) : Option W32 :=
  match r with
  | 4 => some (BitVec.ofNat 32 (2 ^ 32 - 2 ^ 18))
  | 5 => some (BitVec.ofNat 32 (2 ^ 32 - 1))
  | 6 => some 0
  | 7 => some (BitVec.ofNat 32 (2 ^ 32 - 2 ^ 9))
  | 8 => some 0
  | 9 => some 0
  | _ => none

/-- The MSI-X capability (R390) in PCIe's layout (PRESUMED, log 15): its id, a table of 2,048 entries, the host's Enable and Function Mask bits; the table at BAR0 + 0x1_0000
and the pending bits at BAR0 + 0x1_8000. None: another dword. -/
def msixDword (s : State) (r : Nat) : Option W32 :=
  if r = msixCap then
    some (setFld (setFld (setFld (Config.configDword r) 7 0 0x11) 29 16 2047) 31 30 (fld (look 0 s.host.confWords r) 31 30))
  else if r = msixCap + 1 then some 0x10000
  else if r = msixCap + 2 then some 0x18000
  else none

/-- A configuration dword as the host reads it: the BARs, the MSI-X capability, Device ID and Revision ID (spec/00 R8), the link's status, a dword that has been written, or one that the spec does not fix. -/
def confRead (s : State) (r : Nat) : W32 :=
  match confMask r, msixDword s r with
  | some m, _ => (look 0 s.host.confWords r &&& m) ||| (if r = 4 then 4 else if r = 6 then 12 else 0)
  | none, some v => v
  | none, none =>
    let v := ((s.host.confWords.find? (fun p => p.1 = r)).map (fun p => p.2)).getD (Config.configDword r)
    if r = 0 then setFld (Config.configDword 0) 31 16 0x9120
    else if r = 2 then setFld (Config.configDword 2) 7 0 0x21
    else if r = Config.linkReg then setFld (setFld v 19 16 s.host.linkSpeed) 25 20 s.host.linkWidth else v

/-- CONFIGURATION_REQUEST (R430). -/
def execConfigurationRequest (req : ConfigReq) (s : State) : Host.Outcome State Fault Refusal :=
  if !s.host.linkUp then .next s
  else if !hostReady s then .next (emit s .retry)
  else match req.write with
    | none => .next (emit s (.config (confRead s req.reg)))
    | some v => .next (emit { s with host := { s.host with confWords := put s.host.confWords req.reg v } } (.config (confRead s req.reg)))

end Sys2Proof.Machine
end

