-- ==== Sys2Proof/Machine/Boot.lean ====
section
/-!
DEFINITION. Reset, rails, boot and the PCIe link (spec/28 R426-R430), clocks (R433), and the fault rings (spec/04 R88, R89).
-/
namespace Sys2Proof.Machine

/-! ### Reset (R426, R427) -/

/-- A module reset: everything at its reset value; what lies outside the module stays. `off`: the rails are not in range, so the ROM does not run. -/
def moduleReset (s : State) (off : Bool) : State :=
  { State.reset with
    sched := s.sched, turnNo := s.turnNo, freeNo := s.freeNo
    mem := { Mem.reset with fabric := s.mem.fabric }
    host := { HostIf.reset with outs := s.host.outs, booted := off } }

/-- RESET_N_ASSERT (R427). -/
def execResetNAssert (s : State) : Host.Outcome State Fault Refusal := .next (moduleReset s false)

/-- RAIL_FAILURE (R426): one of the four rails. -/
def execRailFailure (rail : Nat) (s : State) : Host.Outcome State Fault Refusal := if rail < 4 then .next (moduleReset s true) else .next s

/-- THERMAL_SHUTDOWN (R433): VCORE is removed. -/
def execThermalShutdown (s : State) : Host.Outcome State Fault Refusal := .next (moduleReset s true)

/-- CLOCK_THROTTLE_STEP (R433): one sixteenth of 1.5 GHz less, down to 0.375 GHz. -/
def execClockThrottleStep (s : State) : Host.Outcome State Fault Refusal :=
  .next { s with host := { s.host with clockStep := Nat.max 4 (s.host.clockStep - 1) } }

/-- CLOCK_RECOVER_STEP (R433). -/
def execClockRecoverStep (s : State) : Host.Outcome State Fault Refusal :=
  .next { s with host := { s.host with clockStep := sat 16 (s.host.clockStep + 1) } }

/-! ### Boot (R428, R429) -/

/-- The ROM stops at a stage with an error. -/
def bootStop (s : State) (stage err detail : Nat) : State :=
  { s with
    regs := { s.regs with bootstat := BitVec.ofNat 64 (2 ^ 16 * detail + stage * 2 ^ 8 + err) }
    host := { s.host with booted := true } }

/-- Where the image goes. -/
def imageAt : Nat := 0x100000

/-- The image's bytes go to their physical addresses, frame by frame: consecutive frames of the interleaved aperture lie on different dies (spec/04 R71). -/
def copyFrames : Nat → State → Nat → List Byte → State
  | 0, s, _, _ => s
  | n + 1, s, pa, bs =>
    let c := bs.take 4096
    copyFrames n (memWrite s pa (2 ^ c.length - 1) (leBytes c) c.length) (pa + 4096) (bs.drop 4096)

/-- The image is in DRAM and thread 0 starts. -/
def bootStart (s : State) (i : BootInput) : State :=
  let s := copyFrames ((i.image.length + 4095) / 4096) s imageAt i.image
  let s := { s with
    regs := { s.regs with bootstat := BitVec.ofNat 64 (2 ^ 32 * i.version.toNat + 4 * 2 ^ 8), dlstat := setFld s.regs.dlstat 0 0 1 }
    host := { s.host with booted := true, fwDigest := sha256 (i.image.map BitVec.toNat) } }
  spctlWrite s 0 (i.entry.setWidth 64 &&& ones 51 3 ||| 1)

/-- BOOT_ROM (R428): once after each reset. -/
def execBootRom (input : BootInput) (s : State) : Host.Outcome State Fault Refusal :=
  if s.host.booted then .next s
  else if input.keyDigest ≠ Config.fusedKey || !input.sigOk || 63 * 2 ^ 20 < input.image.length then .next (bootStop s 1 1 0)
  else if input.version.toNat < Config.fusedMin.toNat then .next (bootStop s 1 2 0)
  else match input.badStack with
    | some n => .next (bootStop s 2 3 (n % 12))
    | none => if !input.linkOk then .next (bootStop s 3 4 0) else .next (bootStart s input)

/-! ### The PCIe function (R427, R430) -/

/-- PCIE_RESET: only the PCIe function; its held writes go. -/
def execPcieReset (s : State) : Host.Outcome State Fault Refusal :=
  .next { s with host := { s.host with
    tdisp := .unlocked, attrs := [], msix := [], linkUp := false, linkWidth := 0, linkSpeed := 0, confWords := []
    posted := s.host.posted.filter (fun p => p.way = 2), lastWct := s.host.lastWct.filter (fun e => e.1 % 2 = 1) } }

/-- PERST_DEASSERTION (R430): the link trains, to the width and speed it reports. -/
def execPerstDeassertion (width : Nat) (speed : Nat) (s : State) : Host.Outcome State Fault Refusal :=
  if s.host.linkUp || width = 0 || 16 < width || speed = 0 || 6 < speed then .next s
  else .next { s with host := { s.host with linkUp := true, linkWidth := width, linkSpeed := speed } }

/-! ### Fault rings (R89) -/

/-- What comes of trying a record. -/
inductive RingTry where
  | written (s : State)
  | full (s : State)
  | unusable (s : State)

/-- A ring descriptor is malformed. -/
def ringBad (ws : List W64) : Bool :=
  let n := fld (ws.getD 1 0) 31 0
  n < 6 || 16 < n || fld (ws.getD 1 0) 63 38 ≠ 0 || fld (ws.getD 0 0) 11 0 ≠ 0 || ws.getD 5 0 ≠ 0 || ws.getD 6 0 ≠ 0 || ws.getD 7 0 ≠ 0

/-- The accesses of a ring, by a die, for a context. -/
def ringX (s : State) (die : Nat) (c : Ctx) : XCtx :=
  let sid := ((s.launch.slices.find? (fun x => x.ctx = c.id)).map (fun x => x.sid)).getD 0
  ctxX s (160 * die) c.id (fld (c.desc.getD 2 0) 19 16) sid

/-- Claim a slot, write the record with SEQ last, wake the thread; or find the ring full, counting the record once. -/
def ringTry (s : State) (die : Nat) (c : Ctx) (r : FaultRec) : RingTry :=
  let x := ringX s die c
  let ring := c.desc.getD 1 0
  let d := devWords s x ring 8
  match d.2 with
  | .inl _ => .unusable d.1
  | .inr ws =>
    if ringBad ws then .unusable d.1
    else
      let size := 2 ^ fld (ws.getD 1 0) 31 0
      let prod := ws.getD 2 0
      if (prod - ws.getD 3 0).toNat < size then
        let slot := ws.getD 0 0 + BitVec.ofNat 64 (64 * (prod.toNat % size))
        let a := devWrite x 2 false 3 d.1 (slot + 8) 56 (2 ^ 56 - 1) (wordsNat (r.words.drop 1))
        let b := devWrite x 2 false 3 a.1 slot 8 255 (prod + 1).toNat
        let p := devWrite x 2 false 3 b.1 (ring + 16) 8 255 (prod + 1).toNat
        match a.2, b.2, p.2 with
        | .inr _, .inr _, .inr _ => .written (wake p.1 (fld (ws.getD 1 0) 37 32) 2)
        | _, _, _ => .unusable d.1
      else if r.counted then .full d.1
      else
        let h := devWrite x 2 false 3 d.1 (ring + 32) 8 255 (ws.getD 4 0 + 1).toNat
        match h.2 with
        | .inr _ => .full h.1
        | .inl _ => .unusable d.1

def dieFaults (s : State) (die : Nat) : List FaultRec := look [] s.mem.faults die
def setFaults (s : State) (die : Nat) (l : List FaultRec) : State := { s with mem := { s.mem with faults := putC [] s.mem.faults die l } }

/-- Try record `i` of a die; none: it cannot move. A record whose context has no ring, or is gone, is dropped. -/
def moveRecord (s : State) (die i : Nat) (r : FaultRec) : Option State :=
  let l := dieFaults s die
  match findCtx s r.ctx with
  | none => some (setFaults s die (l.eraseIdx i))
  | some c =>
    if c.desc.getD 1 0 = 0 then some (setFaults s die (l.eraseIdx i))
    else match ringTry s die c r with
      | .written s => some (setFaults s die (l.eraseIdx i))
      | .full s => if r.counted && s.holds = [] then none else some (setFaults s die (l.set i { r with counted := true, unusable := false }))
      | .unusable s => some (setFaults s die (l.set i { r with unusable := true, retryAt := s.time + 65536 }))

/-- Records that stand first for their context, with their places: one die's records enter a ring in order. -/
def firstRecords (l : List FaultRec) : List (FaultRec × Nat) := l.zipIdx.filter (fun r => (l.take r.2).all (fun q => q.ctx ≠ r.1.ctx))

/-- The first of the states in which a choice moves that need not wait for a request; else the first. -/
def firstClear (l : List State) : Option State := (l.find? (fun s => s.holds = [])).orElse (fun _ => l.head?)

/-- FAULT_RECORD_WRITE (R89): the first record that can move, of those whose ring is usable. -/
def execFaultRecordWrite (die : Nat) (s : State) : Host.Outcome State Fault Refusal :=
  .next ((firstClear ((firstRecords (dieFaults s die)).filterMap (fun r => if r.1.unusable then none else moveRecord s die r.2 r.1))).getD s)

/-- FAULT_RING_RETRY (R89): a record whose ring was unusable is tried again. -/
def execFaultRingRetry (die : Nat) (s : State) : Host.Outcome State Fault Refusal :=
  .next ((firstClear ((firstRecords (dieFaults s die)).filterMap (fun r =>
    if r.1.unusable && r.1.retryAt ≤ s.time then moveRecord s die r.2 { r.1 with unusable := false } else none))).getD s)

end Sys2Proof.Machine
end

