-- ==== Sys2Proof/Machine/Complete.lean ====
section
/-!
DEFINITION. SMAP and SUNMAP performed (spec/08 R177, R178), and LONG_LATENCY_COMPLETE (R165; spec/09 R190): an operation with no event of its own is
performed, or its result is written through the return port and its flag falls.
-/
namespace Sys2Proof.Machine

/-! ### SMAP and SUNMAP (R177, R178) -/

/-- A 32-bit operand of a word that is performed once. -/
def once32 (o : Op) (v : List W128) : Nat := (nth v (lowLane o.lanes)).toNat % 2 ^ 32

/-- A range of the grant in whole entries. -/
def spanBad (s : State) (o : Op) (off len : Nat) : Bool := off % 256 ≠ 0 || len % 256 ≠ 0 || len = 0 || !inGrant s o.handle off len

/-- An entry is the stash side of a copy in flight. -/
def copyUses (s : State) (core e : Nat) : Bool := s.copies.any (fun c => match copySpan c with
  | some (k, off, n) => k = core && off < 256 * e + 256 && 256 * e < off + n
  | none => false)

/-- SMAP: the entries are mapped, unfilled. An earlier acquire holds it, as it does SUNMAP (R169, R174). -/
def performSmap (s : State) (o : Op) : State :=
  if heldByAcquire s o then s else
  let off := once32 o o.a
  let len := once32 o o.c
  let va : W64 := (nth o.b (lowLane o.lanes)).setWidth 64
  let core := opCore o
  let es := (List.range (len / 256)).map (fun i => off / 256 + i)
  if spanBad s o off len || fld va 63 52 ≠ 0 || fld va 7 0 ≠ 0 then performed s o.id (mapStatus 1)
  else if es.any (fun e => (stashTag s core e).isSome || copyUses s core e) then performed s o.id (mapStatus 2)
  else
    let s := es.zipIdx.foldl (fun s e => setStashTag s core e.1
      (some { va := va + BitVec.ofNat 64 (256 * e.2), filled := false, dirty := 0, lease := 0, vmax := 0, handle := o.handle })) s
    performed s o.id (mapStatus 0)

/-- SUNMAP: dirty entries are written back, then unmapped; one whose write-back faults stays, its faults are recorded (R88), and the issuing lanes detach (R160).
The issuer's earlier accesses to its bytes are performed first (R154). -/
def performSunmap (s : State) (o : Op) : State :=
  if heldByAcquire s o || (earlier s o).any (fun p => p.accs.any (fun a => !a.done && sunmapMeets s o p a)) then s else
  let off := once32 o o.a
  let len := once32 o o.b
  let core := opCore o
  if spanBad s o off len then performed s o.id (mapStatus 1)
  else
    let es := (List.range (len / 256)).map (fun i => off / 256 + i)
    let r := wbEntries (opX s o) core es s
    let s := es.foldl (fun s e => match stashTag s core e with
      | some t => if t.dirty = 0 then setStashTag s core e none else s
      | none => s) r.1
    let s := raiseOpWct s o r.2.1
    match r.2.2 with
    | [] => performed s o.id (mapStatus 0)
    | fs => settleOp (wbFaults s o fs) o.id

/-! ### Operations with no event of their own -/

/-- Loads whose sectors stand in L1, line by line once the word is coalesced (R151). -/
def performLoad (s : State) (o : Op) : State :=
  if heldByAcquire s o then s
  else if o.accs.any (fun a => a.pa.isNone) then s
  else (dedup (o.accs.map (fun a => a.pa.getD 0 / 128))).foldl (fun s la => match findOp s o.id with
    | some p => l1Serve s p la
    | none => s) s

/-- Stash words, in their issuer's order. -/
def performStashWord (s : State) (o : Op) : State :=
  if o.accs.any (heldBySame s o) then s
  else
    let r := readyToSend s o
    match r.2, findOp r.1 o.id with
    | true, some o => performStash r.1 o
    | _, _ => r.1

/-- The drain that an operation's MDRAIN has started. -/
def drainOf (s : State) (id : Nat) : Option Drain := s.pairs.findSome? (fun p => p.2.drains.find? (fun d => d.part.op = id && d.started))

/-- Perform an operation, as far as it can go now. -/
def performOp (s : State) (o : Op) (lanes : Mask) : State :=
  match o.instr with
  | .ld _ => performLoad s o
  | .lds _ => performStashWord s o
  | .sts _ => performStashWord s o
  | .atoms _ => performStashWord s o
  | .smap _ => performSmap s o
  | .sunmap _ => performSunmap s o
  | .retain _ => performRetain s o
  | .unpin _ => performUnpin s o
  | .tqinit _ => performQueue s o
  | .tqkill _ => performQueue s o
  | .tqacq _ => performQueue s o
  | .tqput _ => performQueue s o
  | .tqget _ => performQueue s o
  | .tqret _ => performQueue s o
  | .bar _ => performBar s o
  | .tread _ => performCount s o
  | .tcmp _ => performCount s o
  | .xcopy _ => performArrival s o
  | .glr _ => performGlr s o
  | .glw _ => performGlw s o
  | .gres _ => performGres s o
  | .spawn _ => performSpawn s o
  | .join _ => performJoin s o
  | .keybindUnbind _ => performKeybind s o unbindAct
  | .keybindRevoke _ => performKeybind s o revokeAct
  | .notify _ => performNotify s o
  | .notifyHost _ => performNotifyHost s o
  | .preempt _ => performPreempt s o
  | .preemptRel _ => performPreemptRel s o
  | .ctxsave _ => performCtxsave s o
  | .ctxrestore _ => performCtxrestore s o
  | .mdrain _ => match drainOf s o.id with
    | some d => drainLanes s d lanes
    | none => s
  | _ => s

/-- An operation whose unit is gone: a push goes on (spec/19 R342), a GRES (spec/22 R375), and so does what is on its way to a slice or a place in the tree order (spec/06 R126); the rest is over. -/
def performLoose (s : State) (o : Op) (lanes : Mask) : State :=
  if o.phase ≠ 0 then retireOp s o
  else match o.instr with
    | .spawn _ => performOp s o lanes
    | .join _ => performOp s o lanes
    | .gres _ => performOp s o lanes
    | _ => if staysAfterKill s o then s else retireOp s o

/-- LONG_LATENCY_COMPLETE (R165): an answer that waits for its team's restore stays; a unit that is gone takes nothing. -/
def execLongLatencyComplete (op : Nat) (lanes : Mask) (s : State) : Host.Outcome State Fault Refusal :=
  match findOp s op with
  | none => .next s
  | some o =>
    if !isScalar o.unit && 320 ≤ opCore o then .next s
    else if !ownerHere s o then
      match findTeam s o.handle with
      | some t => if t.st = .ending then .next (performLoose s o lanes) else .next s
      | none => .next (performLoose s o lanes)
    else if o.phase = 0 then .next (performOp s o lanes)
    else if teamHolds s o.handle then .next s
    else .next (writeLanes s op lanes)

end Sys2Proof.Machine
end

