-- ==== Sys2Proof/Machine/Dispatch.lean ====
section
/-!
DEFINITION. One arm per constructor of `Instr`: one direct call of its meaning.
-/
namespace Sys2Proof.Machine

def exec (i : Instr) (s : State) : Host.Outcome State Fault Refusal :=
  match i with
  | .nop f => Sys2Proof.Machine.execNop f s
  | .bra f => Sys2Proof.Machine.execBra f s
  | .brc f => Sys2Proof.Machine.execBrc f s
  | .call f => Sys2Proof.Machine.execCall f s
  | .ret f => Sys2Proof.Machine.execRet f s
  | .dqpush f => Sys2Proof.Machine.execDqpush f s
  | .vbr f => Sys2Proof.Machine.execVbr f s
  | .exit f => Sys2Proof.Machine.execExit f s
  | .yield f => Sys2Proof.Machine.execYield f s
  | .trap f => Sys2Proof.Machine.execTrap f s
  | .spawn f => Sys2Proof.Machine.execSpawn f s
  | .join f => Sys2Proof.Machine.execJoin f s
  | .sread f => Sys2Proof.Machine.execSread f s
  | .swrite f => Sys2Proof.Machine.execSwrite f s
  | .sleep f => Sys2Proof.Machine.execSleep f s
  | .notify f => Sys2Proof.Machine.execNotify f s
  | .notifyHost f => Sys2Proof.Machine.execNotifyHost f s
  | .preempt f => Sys2Proof.Machine.execPreempt f s
  | .preemptRel f => Sys2Proof.Machine.execPreemptRel f s
  | .ctxsave f => Sys2Proof.Machine.execCtxsave f s
  | .ctxrestore f => Sys2Proof.Machine.execCtxrestore f s
  | .keybind f => Sys2Proof.Machine.execKeybind f s
  | .keybindUnbind f => Sys2Proof.Machine.execKeybindUnbind f s
  | .keybindRevoke f => Sys2Proof.Machine.execKeybindRevoke f s
  | .ginfo f => Sys2Proof.Machine.execGinfo f s
  | .glr f => Sys2Proof.Machine.execGlr f s
  | .glw f => Sys2Proof.Machine.execGlw f s
  | .gres f => Sys2Proof.Machine.execGres f s
  | .tnode f => Sys2Proof.Machine.execTnode f s
  | .tenrol f => Sys2Proof.Machine.execTenrol f s
  | .trep f => Sys2Proof.Machine.execTrep f s
  | .tsettle f => Sys2Proof.Machine.execTsettle f s
  | .tread f => Sys2Proof.Machine.execTread f s
  | .tcmp f => Sys2Proof.Machine.execTcmp f s
  | .tdrop f => Sys2Proof.Machine.execTdrop f s
  | .add f => Sys2Proof.Machine.execAdd f s
  | .sub f => Sys2Proof.Machine.execSub f s
  | .mul f => Sys2Proof.Machine.execMul f s
  | .mulhi f => Sys2Proof.Machine.execMulhi f s
  | .mad f => Sys2Proof.Machine.execMad f s
  | .min f => Sys2Proof.Machine.execMin f s
  | .max f => Sys2Proof.Machine.execMax f s
  | .abs f => Sys2Proof.Machine.execAbs f s
  | .neg f => Sys2Proof.Machine.execNeg f s
  | .div f => Sys2Proof.Machine.execDiv f s
  | .rem f => Sys2Proof.Machine.execRem f s
  | .lea f => Sys2Proof.Machine.execLea f s
  | .lea64 f => Sys2Proof.Machine.execLea64 f s
  | .setp f => Sys2Proof.Machine.execSetp f s
  | .popc f => Sys2Proof.Machine.execPopc f s
  | .clz f => Sys2Proof.Machine.execClz f s
  | .and f => Sys2Proof.Machine.execAnd f s
  | .or f => Sys2Proof.Machine.execOr f s
  | .xor f => Sys2Proof.Machine.execXor f s
  | .not f => Sys2Proof.Machine.execNot f s
  | .shl f => Sys2Proof.Machine.execShl f s
  | .shr f => Sys2Proof.Machine.execShr f s
  | .bfe f => Sys2Proof.Machine.execBfe f s
  | .bfi f => Sys2Proof.Machine.execBfi f s
  | .addImm f => Sys2Proof.Machine.execAddImm f s
  | .mulImm f => Sys2Proof.Machine.execMulImm f s
  | .andImm f => Sys2Proof.Machine.execAndImm f s
  | .orImm f => Sys2Proof.Machine.execOrImm f s
  | .xorImm f => Sys2Proof.Machine.execXorImm f s
  | .shlImm f => Sys2Proof.Machine.execShlImm f s
  | .shrImm f => Sys2Proof.Machine.execShrImm f s
  | .movImm f => Sys2Proof.Machine.execMovImm f s
  | .fma f => Sys2Proof.Machine.execFma f s
  | .rcp f => Sys2Proof.Machine.execRcp f s
  | .rsq f => Sys2Proof.Machine.execRsq f s
  | .sqrt f => Sys2Proof.Machine.execSqrt f s
  | .exp2 f => Sys2Proof.Machine.execExp2 f s
  | .log2 f => Sys2Proof.Machine.execLog2 f s
  | .sin f => Sys2Proof.Machine.execSin f s
  | .cos f => Sys2Proof.Machine.execCos f s
  | .frnd f => Sys2Proof.Machine.execFrnd f s
  | .fclass f => Sys2Proof.Machine.execFclass f s
  | .cvt f => Sys2Proof.Machine.execCvt f s
  | .cvtd f => Sys2Proof.Machine.execCvtd f s
  | .cvtx f => Sys2Proof.Machine.execCvtx f s
  | .addF32Imm f => Sys2Proof.Machine.execAddF32Imm f s
  | .mulF32Imm f => Sys2Proof.Machine.execMulF32Imm f s
  | .mov f => Sys2Proof.Machine.execMov f s
  | .sel f => Sys2Proof.Machine.execSel f s
  | .shfl f => Sys2Proof.Machine.execShfl f s
  | .vote f => Sys2Proof.Machine.execVote f s
  | .redux f => Sys2Proof.Machine.execRedux f s
  | .prmt f => Sys2Proof.Machine.execPrmt f s
  | .ld f => Sys2Proof.Machine.execLd f s
  | .st f => Sys2Proof.Machine.execSt f s
  | .lds f => Sys2Proof.Machine.execLds f s
  | .sts f => Sys2Proof.Machine.execSts f s
  | .ldd f => Sys2Proof.Machine.execLdd f s
  | .std f => Sys2Proof.Machine.execStd f s
  | .ldacq f => Sys2Proof.Machine.execLdacq f s
  | .strel f => Sys2Proof.Machine.execStrel f s
  | .atom f => Sys2Proof.Machine.execAtom f s
  | .atoms f => Sys2Proof.Machine.execAtoms f s
  | .cas f => Sys2Proof.Machine.execCas f s
  | .fence f => Sys2Proof.Machine.execFence f s
  | .waitc f => Sys2Proof.Machine.execWaitc f s
  | .smap f => Sys2Proof.Machine.execSmap f s
  | .sunmap f => Sys2Proof.Machine.execSunmap f s
  | .pref f => Sys2Proof.Machine.execPref f s
  | .retain f => Sys2Proof.Machine.execRetain f s
  | .unpin f => Sys2Proof.Machine.execUnpin f s
  | .xcopy f => Sys2Proof.Machine.execXcopy f s
  | .xreplay f => Sys2Proof.Machine.execXreplay f s
  | .xcancel f => Sys2Proof.Machine.execXcancel f s
  | .mma f => Sys2Proof.Machine.execMma f s
  | .mmaj f => Sys2Proof.Machine.execMmaj f s
  | .mrdy f => Sys2Proof.Machine.execMrdy f s
  | .mgrp f => Sys2Proof.Machine.execMgrp f s
  | .mzero f => Sys2Proof.Machine.execMzero f s
  | .mdrain f => Sys2Proof.Machine.execMdrain f s
  | .tqinit f => Sys2Proof.Machine.execTqinit f s
  | .tqkill f => Sys2Proof.Machine.execTqkill f s
  | .tqacq f => Sys2Proof.Machine.execTqacq f s
  | .tqput f => Sys2Proof.Machine.execTqput f s
  | .tqget f => Sys2Proof.Machine.execTqget f s
  | .tqret f => Sys2Proof.Machine.execTqret f s
  | .bar f => Sys2Proof.Machine.execBar f s
  | .pairNop f => Sys2Proof.Machine.execPairNop f s
  | .pairAdd f => Sys2Proof.Machine.execPairAdd f s
  | .pairSub f => Sys2Proof.Machine.execPairSub f s
  | .pairRsub f => Sys2Proof.Machine.execPairRsub f s
  | .pairMul f => Sys2Proof.Machine.execPairMul f s
  | .pairMin f => Sys2Proof.Machine.execPairMin f s
  | .pairMax f => Sys2Proof.Machine.execPairMax f s
  | .pairAnd f => Sys2Proof.Machine.execPairAnd f s
  | .pairOr f => Sys2Proof.Machine.execPairOr f s
  | .pairXor f => Sys2Proof.Machine.execPairXor f s
  | .pairShl f => Sys2Proof.Machine.execPairShl f s
  | .pairShr f => Sys2Proof.Machine.execPairShr f s
  | .pairMov f => Sys2Proof.Machine.execPairMov f s
  | .clauseBegin u => Sys2Proof.Machine.execClauseBegin u s
  | .warpUnpark core slot => Sys2Proof.Machine.execWarpUnpark core slot s
  | .clauseEnd u => Sys2Proof.Machine.execClauseEnd u s
  | .longLatencyComplete op lanes => Sys2Proof.Machine.execLongLatencyComplete op lanes s
  | .fenceComplete op => Sys2Proof.Machine.execFenceComplete op s
  | .tlbWalk op page => Sys2Proof.Machine.execTlbWalk op page s
  | .faultRecordWrite die => Sys2Proof.Machine.execFaultRecordWrite die s
  | .faultRingRetry die => Sys2Proof.Machine.execFaultRingRetry die s
  | .bandwidthGrant op line => Sys2Proof.Machine.execBandwidthGrant op line s
  | .lineFill op line => Sys2Proof.Machine.execLineFill op line s
  | .writePerform op key => Sys2Proof.Machine.execWritePerform op key s
  | .lineLockAcquire op line => Sys2Proof.Machine.execLineLockAcquire op line s
  | .monitorAnswer op => Sys2Proof.Machine.execMonitorAnswer op s
  | .monitorRepoll op => Sys2Proof.Machine.execMonitorRepoll op s
  | .queueWaiterServe queue => Sys2Proof.Machine.execQueueWaiterServe queue s
  | .treeOpPerform op => Sys2Proof.Machine.execTreeOpPerform op s
  | .treeRollup node => Sys2Proof.Machine.execTreeRollup node s
  | .tsettleComplete op => Sys2Proof.Machine.execTsettleComplete op s
  | .copyStart copy => Sys2Proof.Machine.execCopyStart copy s
  | .copyComplete copy => Sys2Proof.Machine.execCopyComplete copy s
  | .matrixGrant pair => Sys2Proof.Machine.execMatrixGrant pair s
  | .matrixRetire pair => Sys2Proof.Machine.execMatrixRetire pair s
  | .drainStart pair => Sys2Proof.Machine.execDrainStart pair s
  | .drainComplete pair => Sys2Proof.Machine.execDrainComplete pair s
  | .swapOut team => Sys2Proof.Machine.execSwapOut team s
  | .warpEnd core slot => Sys2Proof.Machine.execWarpEnd core slot s
  | .schedulerPlace => Sys2Proof.Machine.execSchedulerPlace s
  | .poolRestore => Sys2Proof.Machine.execPoolRestore s
  | .budgetExhausted slice => Sys2Proof.Machine.execBudgetExhausted slice s
  | .teamHeld team => Sys2Proof.Machine.execTeamHeld team s
  | .taskStart core => Sys2Proof.Machine.execTaskStart core s
  | .stealProbe core => Sys2Proof.Machine.execStealProbe core s
  | .tillerSample slice => Sys2Proof.Machine.execTillerSample slice s
  | .sourceEndSlot slice furrow => Sys2Proof.Machine.execSourceEndSlot slice furrow s
  | .sinkEndSlot slice furrow => Sys2Proof.Machine.execSinkEndSlot slice furrow s
  | .gleanerFile core => Sys2Proof.Machine.execGleanerFile core s
  | .cribWindowExpiry die crib => Sys2Proof.Machine.execCribWindowExpiry die crib s
  | .sheafPlace die => Sys2Proof.Machine.execSheafPlace die s
  | .laneRejoin core slot => Sys2Proof.Machine.execLaneRejoin core slot s
  | .absentTimeout core slot => Sys2Proof.Machine.execAbsentTimeout core slot s
  | .sleepWake thread => Sys2Proof.Machine.execSleepWake thread s
  | .tlbiPage src => Sys2Proof.Machine.execTlbiPage src s
  | .tlbiContext src => Sys2Proof.Machine.execTlbiContext src s
  | .tlbiAll src => Sys2Proof.Machine.execTlbiAll src s
  | .tlbiDone thread => Sys2Proof.Machine.execTlbiDone thread s
  | .sliceForm src => Sys2Proof.Machine.execSliceForm src s
  | .sliceResume src => Sys2Proof.Machine.execSliceResume src s
  | .sliceKill src => Sys2Proof.Machine.execSliceKill src s
  | .contextDestroy src => Sys2Proof.Machine.execContextDestroy src s
  | .overlayLoad src => Sys2Proof.Machine.execOverlayLoad src s
  | .overlayLoadDone core slot => Sys2Proof.Machine.execOverlayLoadDone core slot s
  | .fwctlWrite src => Sys2Proof.Machine.execFwctlWrite src s
  | .fwlimWrite src => Sys2Proof.Machine.execFwlimWrite src s
  | .fwscaleWrite src => Sys2Proof.Machine.execFwscaleWrite src s
  | .windowDrainDone window => Sys2Proof.Machine.execWindowDrainDone window s
  | .retctlWrite src => Sys2Proof.Machine.execRetctlWrite src s
  | .retbaseWrite src => Sys2Proof.Machine.execRetbaseWrite src s
  | .retlimWrite src => Sys2Proof.Machine.execRetlimWrite src s
  | .retstatWrite src => Sys2Proof.Machine.execRetstatWrite src s
  | .retentionEnableDone range => Sys2Proof.Machine.execRetentionEnableDone range s
  | .retentionReleaseDone range => Sys2Proof.Machine.execRetentionReleaseDone range s
  | .memsplitWrite src => Sys2Proof.Machine.execMemsplitWrite src s
  | .treebaseWrite src => Sys2Proof.Machine.execTreebaseWrite src s
  | .hqProdWrite src => Sys2Proof.Machine.execHqProdWrite src s
  | .spctlWrite src => Sys2Proof.Machine.execSpctlWrite src s
  | .wakestClear src => Sys2Proof.Machine.execWakestClear src s
  | .sprootWrite src => Sys2Proof.Machine.execSprootWrite src s
  | .bootstatWrite src => Sys2Proof.Machine.execBootstatWrite src s
  | .qrRelease src => Sys2Proof.Machine.execQrRelease src s
  | .qrWriteback src => Sys2Proof.Machine.execQrWriteback src s
  | .portctlWrite src => Sys2Proof.Machine.execPortctlWrite src s
  | .resetNAssert => Sys2Proof.Machine.execResetNAssert s
  | .railFailure rail => Sys2Proof.Machine.execRailFailure rail s
  | .bootRom input => Sys2Proof.Machine.execBootRom input s
  | .pcieReset => Sys2Proof.Machine.execPcieReset s
  | .clockThrottleStep => Sys2Proof.Machine.execClockThrottleStep s
  | .clockRecoverStep => Sys2Proof.Machine.execClockRecoverStep s
  | .thermalShutdown => Sys2Proof.Machine.execThermalShutdown s
  | .portDetectExitIdle port => Sys2Proof.Machine.execPortDetectExitIdle port s
  | .portDetectTimeout port => Sys2Proof.Machine.execPortDetectTimeout port s
  | .portNegotiate port speed lanes fec => Sys2Proof.Machine.execPortNegotiate port speed lanes fec s
  | .portPartnerIdle port => Sys2Proof.Machine.execPortPartnerIdle port s
  | .portTrainDone port => Sys2Proof.Machine.execPortTrainDone port s
  | .portTrainTimeout port => Sys2Proof.Machine.execPortTrainTimeout port s
  | .portLinkLoss port => Sys2Proof.Machine.execPortLinkLoss port s
  | .portRelock port => Sys2Proof.Machine.execPortRelock port s
  | .portRetrainTimeout port => Sys2Proof.Machine.execPortRetrainTimeout port s
  | .dieLinkLoss => Sys2Proof.Machine.execDieLinkLoss s
  | .dieLinkRetrain => Sys2Proof.Machine.execDieLinkRetrain s
  | .bar0Read req => Sys2Proof.Machine.execBar0Read req s
  | .bar0Write req => Sys2Proof.Machine.execBar0Write req s
  | .bar2Read req => Sys2Proof.Machine.execBar2Read req s
  | .bar2Write req => Sys2Proof.Machine.execBar2Write req s
  | .postedWriteRelease requester => Sys2Proof.Machine.execPostedWriteRelease requester s
  | .peerRead req => Sys2Proof.Machine.execPeerRead req s
  | .peerWrite req => Sys2Proof.Machine.execPeerWrite req s
  | .directoryGrant line excl data => Sys2Proof.Machine.execDirectoryGrant line excl data s
  | .snoopInvalidate line => Sys2Proof.Machine.execSnoopInvalidate line s
  | .snoopInvalidateAnswer line => Sys2Proof.Machine.execSnoopInvalidateAnswer line s
  | .snoopShare line => Sys2Proof.Machine.execSnoopShare line s
  | .getMeasurements nonce => Sys2Proof.Machine.execGetMeasurements nonce s
  | .keyLoad msg => Sys2Proof.Machine.execKeyLoad msg s
  | .keyErase msg => Sys2Proof.Machine.execKeyErase msg s
  | .slotQuery msg => Sys2Proof.Machine.execSlotQuery msg s
  | .lockInterfaceRequest attrs => Sys2Proof.Machine.execLockInterfaceRequest attrs s
  | .reservedOpcode word => Sys2Proof.Machine.execReservedOpcode word s
  | .configurationRequest req => Sys2Proof.Machine.execConfigurationRequest req s
  | .perstDeassertion width speed => Sys2Proof.Machine.execPerstDeassertion width speed s
  | .startInterfaceRequest => Sys2Proof.Machine.execStartInterfaceRequest s
  | .stopInterfaceRequest => Sys2Proof.Machine.execStopInterfaceRequest s
  | .slicePowerGate slice => Sys2Proof.Machine.execSlicePowerGate slice s
  | .peerAtomic req aop ty => Sys2Proof.Machine.execPeerAtomic req aop ty s

end Sys2Proof.Machine
end

