-- ==== Sys2Proof/Machine/Turns.lean ====
section
/-!
DEFINITION. What a turn of the schedule does: time passes, and a unit or an event moves (log 1). A unit's next step is the row of the
register write it has posted, or its clause's beginning, next word or end (spec/02 R21-R26, spec/95).
-/
namespace Sys2Proof.Machine

/-- Cores that use a slice's budget: those that hold a resident team, a worker or a sheaf of it (spec/19 R335, spec/22 R370). -/
def budgetCores (s : State) (x : Slice) : List Nat :=
  dedup ((s.launch.teams.filter (fun t => t.slice = x.num && !t.saved)).flatMap (fun t => (List.range t.shape.cores).map (fun j => t.start + j)) ++
    (s.cores.filter (fun c => c.2.worker = some x.num || c.2.warps.any (fun w => w.2.live && (match w.2.sheaf with
      | some h => h.slice = x.num
      | none => false)))).map (fun c => c.1))

/-- Core clocks that pass use up budgets. -/
def useBudgets (s : State) (dc : Nat) : State :=
  { s with launch := { s.launch with slices := s.launch.slices.map (fun x => match x.budget with
    | some b => { x with budget := some (b - dc * (budgetCores s x).length) }
    | none => x) } }

/-- Time passes: module time, core clocks and slice clocks (spec/01 R16), and budgets with the core clocks. -/
def advance (s : State) (t : Turn) : State :=
  let s := useBudgets s t.dc
  { s with time := s.time + t.dt, cyc := s.cyc + t.dc, sclk := s.sclk + t.ds, turnNo := s.turnNo + 1, cur := none, holds := [] }

/-- The register write a scalar unit has posted. -/
def postedOf (s : State) : UnitId → Option (Nat × W64)
  | .warp _ _ => none
  | .front c k => (getFront s c k).posted
  | .thread q => (getThread s q).posted

/-- A service thread that takes no turn: halted, asleep, or waiting for a flag (R384). -/
def takesNoTurn (s : State) : UnitId → Bool
  | .thread q => !threadReady s q
  | _ => false

/-- What a unit does next. -/
def unitInstr (s : State) (u : UnitId) : Instr :=
  if takesNoTurn s u then .clauseBegin u
  else match (postedOf s u).bind (fun p => rowOf p.1 p.2 (.unit u)) with
  | some i => i
  | none => match getRun s u with
    | none => .clauseBegin u
    | some r => match r.words[r.idx]? with
      | some w => decodeWord w
      | none => .clauseEnd u

/-- The unit that moves: a turn of the service processor goes to the thread whose turn it is (spec/24 R384). -/
def turnUnit (s : State) (t : Turn) : Option UnitId :=
  match t.act with
  | .unit (.thread q) => some (.thread (nextThread s q))
  | .unit u => some u
  | .event _ => none

/-- The instruction a turn runs. -/
def turnInstr (s : State) (t : Turn) : Instr :=
  match t.act, turnUnit s t with
  | .event i, _ => i
  | .unit _, some u => unitInstr s u
  | .unit u, none => unitInstr s u

/-- The thread that has issued a word in a step from `s` to `t` (R384): a word that was held, or a posted write, is none. -/
def noteThread (s t : State) : State :=
  match s.cur with
  | some (.thread q) => match (getThread s q).run with
    | some r =>
      if r.idx < r.words.length && (getThread s q).posted.isNone && (getThread t q).run ≠ some r then { t with launch := { t.launch with lastThread := q } }
      else t
    | none => t
  | _ => t

/-- The state in which a turn's instruction runs: time has passed, and the unit that moves and what it does are known. -/
def turnState (s : State) (t : Turn) : State := { s with cur := turnUnit s t, ev := some (turnInstr s t) }

/-- The turn at the head of the schedule, or a free one (log 1). -/
def nextTurn (s : State) : Turn := s.sched.headD (Config.nextTurn s.turnNo)

/-- A turn leaves the schedule. -/
def popTurn (s : State) : State := { s with sched := s.sched.tail }

/-- A device's request takes its place among those that wait for bandwidth at a slice, once (spec/05 R100). -/
def takePlace (s : State) (slice sid cost : Nat) : State :=
  if s.mem.waits.any (fun w => selfWait s w && w.slice = slice && w.sid = sid) then s
  else { s with mem := { s.mem with waits := s.mem.waits ++
    [{ slice := slice, sid := sid, cost := cost, op := 0, line := 0, since := s.turnNo, dev := s.ev }] } }

/-- What a held step asks for: the directory's grants, for whose answer the request waits (spec/24 R394), and places at slices. -/
def askHeld (s : State) : List Hold → State
  | .grant la x die sid pol :: r =>
    askHeld (emit { s with mem := { s.mem with
      wants := if s.mem.wants.contains (la, die, sid, pol) then s.mem.wants else s.mem.wants ++ [(la, die, sid, pol)] } } (.wantGrant la x)) r
  | .tokens slice sid cost :: r => askHeld (takePlace s slice sid cost) r
  | _ :: r => askHeld s r
  | [] => s

/-- A thread that could not move is passed over: the next running one has the turn after it (R384). -/
def passThread (s : State) : State := match s.cur with
  | some (.thread q) => { s with launch := { s.launch with lastThread := q } }
  | _ => s

/-- A step is made: its places at slices are left, and the grants that it used and no line keeps go back to the directory. -/
def leaveStep (s : State) : State :=
  let t := { s with mem := { s.mem with waits := s.mem.waits.filter (fun w => !selfWait s w), passes := s.mem.passes.filter (fun p => !p.used) } }
  (s.mem.passes.filter (fun p => p.used)).foldl (fun t p => emit t (.released p.line)) t

/-- A step of which a request must wait does not happen: time passes, grants are asked for, and a thread is passed over (spec/24 R401, R394, R395, R384; spec/05 R100; spec/04
R89). A step that happens notes the thread that issued a word in it. -/
def afterStep (s : State) (r : Host.Outcome State Fault Refusal) : Host.Outcome State Fault Refusal := match r with
  | .next t => if t.holds = [] then .next (noteThread s (leaveStep t)) else .next (passThread (askHeld s t.holds))
  | r => r

/-- The row of a register that the unit itself holds, once its SWRITE stands posted: it runs in the step of the SWRITE (spec/02 R45). -/
def ownRow (s : State) : Option Instr := s.cur.bind (fun u => (postedOf s u).bind (fun p => if 0x10 ≤ p.1 && p.1 < 0x20 then rowOf p.1 p.2 (.unit u) else none))

/-- Time has passed and the turn has left the schedule. -/
def turnStart (s : State) : State := advance (popTurn s) (nextTurn s)

/-! ### One word placed where the next step issues it (log 5) -/

/-- A one-word clause standing before its word: COUNT 1, set flag F0, every lane. -/
def wordRun (s : State) (scalar : Bool) (w : W64) : ClauseRun :=
  { hdr := BitVec.ofNat 64 (2 ^ 26 * scalar.toNat + 2 ^ 22 + 2 ^ 16), pc := 0, words := [w], idx := 0, skip := 0, mask := 0xFFFFFFFF#32,
    cyc := s.cyc, written := s.cyc, la := none, lb := none, lc := none, pend := [], branches := [], exits := 0, exitSt := [],
    target := none, push := none, pops := false, halts := false, yielded := false }

/-- The unit that may issue a word: service thread 0 where R42 allows it, else a warp, else a core's front end. -/
def wordUnit (w : W64) : UnitId :=
  let op := (w.extractLsb' 56 7).toNat
  if w.getLsbD 63 then .warp 0 0
  else if unitOk op .sp then .thread 0
  else if unitOk op .core && !unitOk op .vector then .front 0 0
  else .warp 0 0

/-- The word stands as the next word of a unit, whose turn is next. -/
def placeWord (s : State) (w : W64) : State :=
  let u := wordUnit w
  let s := match u with
    | .warp c k => setWarp s c k { getWarp s c k with live := true, budget := 320, run := some (wordRun s false w) }
    | .front c k => setFront s c k { getFront s c k with live := true, posted := none, run := some (wordRun s true w) }
    | .thread q => setThread s q { getThread s q with halt := false, runBit := true, posted := none, run := some (wordRun s true w) }
  { s with sched := { dt := 0, dc := 0, ds := 0, act := .unit u } :: s.sched }

end Sys2Proof.Machine
end

