-- ==== Sys2Proof/Machine/Step.lean ====
section
/-!
DEFINITION. One step of the machine: the next turn of the schedule, its time, and its one instruction or event, with the row of its unit's own
register that an SWRITE names (spec/95, spec/02 R45; logs 1, 15).
-/
namespace Sys2Proof.Machine

/-- An instruction, with the row of its unit's own register that its SWRITE names (spec/02 R45). -/
def execOwn (i : Instr) (s : State) : Host.Outcome State Fault Refusal :=
  match exec i s with
  | .next t => match ownRow t with
    | some j => exec j t
    | none => .next t
  | r => r

/-- One step. -/
def step (s : State) : Host.Outcome State Fault Refusal :=
  let p := turnState (turnStart s) (nextTurn s)
  afterStep p (execOwn (turnInstr (turnStart s) (nextTurn s)) p)

/-- The state with one word stored where the next step issues it (log 5). -/
def State.withFetchWord (s : State) (_nbits w : Nat) : State := placeWord s (BitVec.ofNat 64 w)

end Sys2Proof.Machine
end

