-- ==== Sys2Proof/Laws/Words.lean ====
section
/-!
SUPPORT. The fields of an encoded word are the fields that were encoded (spec/02 R26, R34, R35).
-/
namespace Sys2Proof

theorem extract_ofNat (n k m : Nat) (h : k + m ≤ 64) : ((BitVec.ofNat 64 n).extractLsb' k m).toNat = n / 2 ^ k % 2 ^ m := by
  have h1 : (2 : Nat) ^ 64 = 2 ^ k * 2 ^ (64 - k) := by rw [← Nat.pow_add]; congr 1; omega
  have h2 : (2 : Nat) ^ m ∣ 2 ^ (64 - k) := Nat.pow_dvd_pow 2 (by omega)
  simp only [BitVec.extractLsb'_toNat, BitVec.toNat_ofNat, Nat.shiftRight_eq_div_pow]
  rw [h1, Nat.mod_mul_right_div_self, Nat.mod_mod_of_dvd _ h2]

theorem bit_ofNat (n k : Nat) (h : k < 64) : (BitVec.ofNat 64 n).getLsbD k = decide (n / 2 ^ k % 2 = 1) := by
  simp only [BitVec.getLsbD_ofNat, h, decide_true, Bool.true_and, Nat.testBit_eq_decide_div_mod_eq]

theorem bool_lt (b : Bool) : b.toNat < 2 := by cases b <;> decide

theorem decide_toNat (b : Bool) (n : Nat) (h : n = b.toNat) : decide (n = 1) = b := by
  subst h; cases b <;> rfl

theorem bv_eq {m : Nat} (x y : BitVec m) (h : x.toNat = y.toNat) : x = y := BitVec.eq_of_toNat_eq h

/-- The opcode and every field of a full-form word. -/
theorem fullOf_encodeFull (op : Nat) (h : op < 128) (f : Full) :
    fullOf (encodeFull op f) = f ∧ (encodeFull op f).getLsbD 63 = false ∧ ((encodeFull op f).extractLsb' 56 7).toNat = op := by
  obtain ⟨pneg, pred, dst, sa, sb, sc, ha, hb, hc, ty, md, fsel⟩ := f
  have h1 := bool_lt pneg
  have h2 := bool_lt ha
  have h3 := bool_lt hb
  have h4 := bool_lt hc
  have h5 := bool_lt fsel
  have i1 := pred.isLt
  have i2 := dst.isLt
  have i3 := sa.isLt
  have i4 := sb.isLt
  have i5 := sc.isLt
  have i6 := ty.isLt
  have i7 := md.isLt
  simp only [Nat.reducePow] at i1 i2 i3 i4 i5 i6 i7
  refine ⟨?_, ?_, ?_⟩
  · simp only [fullOf, encodeFull, fieldAt, bitAt, Full.mk.injEq]
    refine ⟨?_, ?_, ?_, ?_, ?_, ?_, ?_, ?_, ?_, ?_, ?_, ?_⟩
    all_goals first
      | (apply bv_eq; rw [extract_ofNat _ _ _ (by omega)]; simp only [Nat.reducePow]; omega)
      | (rw [bit_ofNat _ _ (by omega)]; apply decide_toNat; simp only [Nat.reducePow]; omega)
  · simp only [encodeFull, fieldAt, bitAt]
    rw [bit_ofNat _ _ (by omega)]
    simp only [Nat.reducePow, decide_eq_false_iff_not]
    omega
  · simp only [encodeFull, fieldAt, bitAt]
    rw [extract_ofNat _ _ _ (by omega)]
    simp only [Nat.reducePow]
    omega

/-- The opcode and every field of an I-form word. -/
theorem immOf_encodeImm (op : Nat) (h : op < 128) (f : Imm) :
    immOf (encodeImm op f) = f ∧ (encodeImm op f).getLsbD 63 = false ∧ ((encodeImm op f).extractLsb' 56 7).toNat = op := by
  obtain ⟨pneg, pred, dst, sa, imm, mi⟩ := f
  have h1 := bool_lt pneg
  have i1 := pred.isLt
  have i2 := dst.isLt
  have i3 := sa.isLt
  have i4 := imm.isLt
  have i5 := mi.isLt
  simp only [Nat.reducePow] at i1 i2 i3 i4 i5
  refine ⟨?_, ?_, ?_⟩
  · simp only [immOf, encodeImm, fieldAt, bitAt, Imm.mk.injEq]
    refine ⟨?_, ?_, ?_, ?_, ?_, ?_⟩
    all_goals first
      | (apply bv_eq; rw [extract_ofNat _ _ _ (by omega)]; simp only [Nat.reducePow]; omega)
      | (rw [bit_ofNat _ _ (by omega)]; apply decide_toNat; simp only [Nat.reducePow]; omega)
  · simp only [encodeImm, fieldAt, bitAt]
    rw [bit_ofNat _ _ (by omega)]
    simp only [Nat.reducePow, decide_eq_false_iff_not]
    omega
  · simp only [encodeImm, fieldAt, bitAt]
    rw [extract_ofNat _ _ _ (by omega)]
    simp only [Nat.reducePow]
    omega

theorem extract_ofNat30 (n k m : Nat) (h : k + m ≤ 30) : ((BitVec.ofNat 30 n).extractLsb' k m).toNat = n / 2 ^ k % 2 ^ m := by
  have h1 : (2 : Nat) ^ 30 = 2 ^ k * 2 ^ (30 - k) := by rw [← Nat.pow_add]; congr 1; omega
  have h2 : (2 : Nat) ^ m ∣ 2 ^ (30 - k) := Nat.pow_dvd_pow 2 (by omega)
  simp only [BitVec.extractLsb'_toNat, BitVec.toNat_ofNat, Nat.shiftRight_eq_div_pow]
  rw [h1, Nat.mod_mul_right_div_self, Nat.mod_mod_of_dvd _ h2]

theorem bit_ofNat30 (n k : Nat) (h : k < 30) : (BitVec.ofNat 30 n).getLsbD k = decide (n / 2 ^ k % 2 = 1) := by
  simp only [BitVec.getLsbD_ofNat, h, decide_true, Bool.true_and, Nat.testBit_eq_decide_div_mod_eq]

theorem encodeHalf_lt (h : Half) : encodeHalf h < 2 ^ 30 := by
  obtain ⟨pop, d, src, pty, mbz, hh⟩ := h
  have h1 := bool_lt hh
  have i1 := pop.isLt
  have i2 := d.isLt
  have i3 := src.isLt
  have i4 := pty.isLt
  have i5 := mbz.isLt
  simp only [Nat.reducePow] at i1 i2 i3 i4 i5
  simp only [encodeHalf, fieldAt, bitAt, Nat.reducePow]
  omega

/-- Every field of an encoded half. -/
theorem halfOf_encodeHalf (h : Half) : halfOf (BitVec.ofNat 30 (encodeHalf h)) = h := by
  obtain ⟨pop, d, src, pty, mbz, hh⟩ := h
  have h1 := bool_lt hh
  have i1 := pop.isLt
  have i2 := d.isLt
  have i3 := src.isLt
  have i4 := pty.isLt
  have i5 := mbz.isLt
  simp only [Nat.reducePow] at i1 i2 i3 i4 i5
  simp only [halfOf, encodeHalf, fieldAt, bitAt, Half.mk.injEq]
  refine ⟨?_, ?_, ?_, ?_, ?_, ?_⟩
  all_goals first
    | (apply bv_eq; rw [extract_ofNat30 _ _ _ (by omega)]; simp only [Nat.reducePow]; omega)
    | (rw [bit_ofNat30 _ _ (by omega)]; apply decide_toNat; simp only [Nat.reducePow]; omega)

/-- The mark, the halves and the predicate of a paired word. -/
theorem pairOf_encodePair (pop : Nat) (f : Pair) (hp : pop < 64) :
    pairOf (encodePair pop f) = f ∧ (encodePair pop f).getLsbD 63 = true ∧
    ((encodePair pop f).extractLsb' 54 6).toNat = pop ∧ ((encodePair pop f).extractLsb' 24 6).toNat = f.h1.pop.toNat := by
  have e0 := encodeHalf_lt (f.h0 pop)
  have e1 := encodeHalf_lt f.h1
  have i1 := f.pred.isLt
  simp only [Nat.reducePow] at e0 e1 i1
  have x0 : (encodePair pop f).extractLsb' 30 30 = BitVec.ofNat 30 (encodeHalf (f.h0 pop)) := by
    apply bv_eq
    rw [encodePair, extract_ofNat _ _ _ (by omega)]
    simp only [fieldAt, Nat.reducePow, BitVec.toNat_ofNat]
    omega
  have x1 : (encodePair pop f).extractLsb' 0 30 = BitVec.ofNat 30 (encodeHalf f.h1) := by
    apply bv_eq
    rw [encodePair, extract_ofNat _ _ _ (by omega)]
    simp only [fieldAt, Nat.reducePow, BitVec.toNat_ofNat]
    omega
  have xp : (encodePair pop f).extractLsb' 60 3 = f.pred := by
    apply bv_eq
    rw [encodePair, extract_ofNat _ _ _ (by omega)]
    simp only [fieldAt, Nat.reducePow]
    omega
  refine ⟨?_, ?_, ?_, ?_⟩
  · simp only [pairOf, x0, x1, xp, halfOf_encodeHalf]
    rfl
  · rw [encodePair, bit_ofNat _ _ (by omega)]
    apply decide_eq_true
    simp only [fieldAt, Nat.reducePow]
    omega
  · rw [encodePair, extract_ofNat _ _ _ (by omega)]
    generalize encodeHalf f.h1 = y at e1 ⊢
    have hm : pop % 64 = pop := Nat.mod_eq_of_lt hp
    have q1 := f.d.isLt
    have q2 := f.src.isLt
    have q3 := f.pty.isLt
    have q4 := f.mbz.isLt
    have q5 := bool_lt f.h
    simp only [Nat.reducePow] at q1 q2 q3 q4 q5
    simp only [encodeHalf, Pair.h0, fieldAt, bitAt, Nat.reducePow, BitVec.toNat_ofNat, hm] at e0 ⊢
    omega
  · rw [encodePair, extract_ofNat _ _ _ (by omega)]
    have q0 := f.h1.pop.isLt
    have q1 := f.h1.d.isLt
    have q2 := f.h1.src.isLt
    have q3 := f.h1.pty.isLt
    have q4 := f.h1.mbz.isLt
    have q5 := bool_lt f.h1.h
    simp only [Nat.reducePow] at q0 q1 q2 q3 q4 q5
    generalize encodeHalf (f.h0 pop) = x at e0 ⊢
    simp only [encodeHalf, fieldAt, bitAt, Nat.reducePow] at e1 ⊢
    omega

end Sys2Proof
end

