-- ==== Sys2Proof/Laws/PerInstr.lean ====
section
/-!
SUPPORT. Decoding an encoded instruction gives it back, one lemma per constructor (spec/02 R26, R34, R35, R41, R44).
-/
namespace Sys2Proof.Laws

/-- Whatever word the encoder gives an instruction that its word can hold decodes to it. -/
def RoundTrip.Statement (i : Instr) : Prop := i.encodable = true → ∀ w, encode i = some w → decodeWord w = i

/-- A full-form or I-form word: what is left to show is its opcode's arm. -/
theorem roundTrip_full (i : Instr) (op : Nat) (own : Bool) (f : Full) (hop : op < 128) (hf : i.form = .full op own f)
    (hd : own = true → ∀ w : W64, fullOf w = f → (w.extractLsb' 56 7).toNat = op → decodeSingle w = i) :
    RoundTrip.Statement i := by
  intro he w hw
  simp only [Instr.encodable, hf] at he
  simp only [encode, hf, Option.some.injEq] at hw
  subst hw
  obtain ⟨h1, h2, h3⟩ := fullOf_encodeFull op hop f
  rw [decodeWord, h2, if_neg Bool.false_ne_true]
  exact hd he _ h1 h3

theorem roundTrip_imm (i : Instr) (op : Nat) (f : Imm) (hop : op < 128) (hf : i.form = .imm op f)
    (hd : ∀ w : W64, immOf w = f → (w.extractLsb' 56 7).toNat = op → decodeSingle w = i) :
    RoundTrip.Statement i := by
  intro _ w hw
  simp only [encode, hf, Option.some.injEq] at hw
  subst hw
  obtain ⟨h1, h2, h3⟩ := immOf_encodeImm op hop f
  rw [decodeWord, h2, if_neg Bool.false_ne_true]
  exact hd _ h1 h3

theorem roundTrip_pair (i : Instr) (pop : Nat) (f : Pair) (hop : pop < 64) (hf : i.form = .pair pop f)
    (hd : ∀ w : W64, pairOf w = f → decodePairPop pop w (pairOf w) = i) : RoundTrip.Statement i := by
  intro he w hw
  simp only [Instr.encodable, hf, Bool.not_eq_true'] at he
  simp only [encode, hf, Option.some.injEq] at hw
  subst hw
  obtain ⟨h1, h2, h3, h4⟩ := pairOf_encodePair pop f hop
  have := hd _ h1
  simp only [decodeWord, h2, h4, he, h3, this, if_true, if_false, Bool.false_eq_true]

theorem roundTrip_event (i : Instr) (hf : i.form = .event) : RoundTrip.Statement i := by
  intro _ w hw
  simp [encode, hf] at hw

theorem RoundTrip.nop (f : Full) : RoundTrip.Statement (.nop f) := roundTrip_full _ 0 _ f (by decide) rfl (fun _ w h1 h3 => by simp [decodeSingle, h1, h3, decodeOps0])
theorem RoundTrip.bra (f : Full) : RoundTrip.Statement (.bra f) := roundTrip_full _ 1 _ f (by decide) rfl (fun _ w h1 h3 => by simp [decodeSingle, h1, h3, decodeOps0])
theorem RoundTrip.brc (f : Full) : RoundTrip.Statement (.brc f) := roundTrip_full _ 2 _ f (by decide) rfl (fun _ w h1 h3 => by simp [decodeSingle, h1, h3, decodeOps0])
theorem RoundTrip.call (f : Full) : RoundTrip.Statement (.call f) := roundTrip_full _ 3 _ f (by decide) rfl (fun _ w h1 h3 => by simp [decodeSingle, h1, h3, decodeOps0])
theorem RoundTrip.ret (f : Full) : RoundTrip.Statement (.ret f) := roundTrip_full _ 4 _ f (by decide) rfl (fun _ w h1 h3 => by simp [decodeSingle, h1, h3, decodeOps0])
theorem RoundTrip.dqpush (f : Full) : RoundTrip.Statement (.dqpush f) := roundTrip_full _ 5 _ f (by decide) rfl (fun _ w h1 h3 => by simp [decodeSingle, h1, h3, decodeOps0])
theorem RoundTrip.vbr (f : Full) : RoundTrip.Statement (.vbr f) := roundTrip_full _ 6 _ f (by decide) rfl (fun _ w h1 h3 => by simp [decodeSingle, h1, h3, decodeOps0])
theorem RoundTrip.exit (f : Full) : RoundTrip.Statement (.exit f) := roundTrip_full _ 7 _ f (by decide) rfl (fun _ w h1 h3 => by simp [decodeSingle, h1, h3, decodeOps0])
theorem RoundTrip.yield (f : Full) : RoundTrip.Statement (.yield f) := roundTrip_full _ 8 _ f (by decide) rfl (fun _ w h1 h3 => by simp [decodeSingle, h1, h3, decodeOps0])
theorem RoundTrip.trap (f : Full) : RoundTrip.Statement (.trap f) := roundTrip_full _ 9 _ f (by decide) rfl (fun _ w h1 h3 => by simp [decodeSingle, h1, h3, decodeOps0])
theorem RoundTrip.spawn (f : Full) : RoundTrip.Statement (.spawn f) := roundTrip_full _ 10 _ f (by decide) rfl (fun _ w h1 h3 => by simp [decodeSingle, h1, h3, decodeOps0])
theorem RoundTrip.join (f : Full) : RoundTrip.Statement (.join f) := roundTrip_full _ 11 _ f (by decide) rfl (fun _ w h1 h3 => by simp [decodeSingle, h1, h3, decodeOps0])
theorem RoundTrip.sread (f : Full) : RoundTrip.Statement (.sread f) := roundTrip_full _ 12 _ f (by decide) rfl (fun _ w h1 h3 => by simp [decodeSingle, h1, h3, decodeOps0])
theorem RoundTrip.swrite (f : Full) : RoundTrip.Statement (.swrite f) := roundTrip_full _ 13 _ f (by decide) rfl (fun _ w h1 h3 => by simp [decodeSingle, h1, h3, decodeOps0])
theorem RoundTrip.sleep (f : Full) : RoundTrip.Statement (.sleep f) := roundTrip_full _ 14 _ f (by decide) rfl (fun _ w h1 h3 => by simp [decodeSingle, h1, h3, decodeOps0])
theorem RoundTrip.notify (f : Full) : RoundTrip.Statement (.notify f) := roundTrip_full _ 15 _ f (by decide) rfl (fun ho w h1 h3 => by
    simp at ho
    simp [decodeSingle, h1, h3, decodeOps0, ho])
theorem RoundTrip.notifyHost (f : Full) : RoundTrip.Statement (.notifyHost f) := roundTrip_full _ 15 _ f (by decide) rfl (fun ho w h1 h3 => by
    simp at ho
    simp [decodeSingle, h1, h3, decodeOps0, ho])
theorem RoundTrip.preempt (f : Full) : RoundTrip.Statement (.preempt f) := roundTrip_full _ 16 _ f (by decide) rfl (fun ho w h1 h3 => by
    simp at ho
    simp [decodeSingle, h1, h3, decodeOps1, ho])
theorem RoundTrip.preemptRel (f : Full) : RoundTrip.Statement (.preemptRel f) := roundTrip_full _ 16 _ f (by decide) rfl (fun ho w h1 h3 => by
    simp at ho
    simp [decodeSingle, h1, h3, decodeOps1, ho])
theorem RoundTrip.ctxsave (f : Full) : RoundTrip.Statement (.ctxsave f) := roundTrip_full _ 17 _ f (by decide) rfl (fun _ w h1 h3 => by simp [decodeSingle, h1, h3, decodeOps1])
theorem RoundTrip.ctxrestore (f : Full) : RoundTrip.Statement (.ctxrestore f) := roundTrip_full _ 18 _ f (by decide) rfl (fun _ w h1 h3 => by simp [decodeSingle, h1, h3, decodeOps1])
theorem RoundTrip.keybind (f : Full) : RoundTrip.Statement (.keybind f) := roundTrip_full _ 19 _ f (by decide) rfl (fun ho w h1 h3 => by
    simp at ho
    rcases ho with ho | ho <;> simp [decodeSingle, h1, h3, decodeOps1, ho])
theorem RoundTrip.keybindUnbind (f : Full) : RoundTrip.Statement (.keybindUnbind f) := roundTrip_full _ 19 _ f (by decide) rfl (fun ho w h1 h3 => by
    simp at ho
    simp [decodeSingle, h1, h3, decodeOps1, ho])
theorem RoundTrip.keybindRevoke (f : Full) : RoundTrip.Statement (.keybindRevoke f) := roundTrip_full _ 19 _ f (by decide) rfl (fun ho w h1 h3 => by
    simp at ho
    simp [decodeSingle, h1, h3, decodeOps1, ho])
theorem RoundTrip.ginfo (f : Full) : RoundTrip.Statement (.ginfo f) := roundTrip_full _ 20 _ f (by decide) rfl (fun _ w h1 h3 => by simp [decodeSingle, h1, h3, decodeOps1])
theorem RoundTrip.glr (f : Full) : RoundTrip.Statement (.glr f) := roundTrip_full _ 21 _ f (by decide) rfl (fun _ w h1 h3 => by simp [decodeSingle, h1, h3, decodeOps1])
theorem RoundTrip.glw (f : Full) : RoundTrip.Statement (.glw f) := roundTrip_full _ 22 _ f (by decide) rfl (fun _ w h1 h3 => by simp [decodeSingle, h1, h3, decodeOps1])
theorem RoundTrip.gres (f : Full) : RoundTrip.Statement (.gres f) := roundTrip_full _ 23 _ f (by decide) rfl (fun _ w h1 h3 => by simp [decodeSingle, h1, h3, decodeOps1])
theorem RoundTrip.tnode (f : Full) : RoundTrip.Statement (.tnode f) := roundTrip_full _ 24 _ f (by decide) rfl (fun _ w h1 h3 => by simp [decodeSingle, h1, h3, decodeOps1])
theorem RoundTrip.tenrol (f : Full) : RoundTrip.Statement (.tenrol f) := roundTrip_full _ 25 _ f (by decide) rfl (fun _ w h1 h3 => by simp [decodeSingle, h1, h3, decodeOps1])
theorem RoundTrip.trep (f : Full) : RoundTrip.Statement (.trep f) := roundTrip_full _ 26 _ f (by decide) rfl (fun _ w h1 h3 => by simp [decodeSingle, h1, h3, decodeOps1])
theorem RoundTrip.tsettle (f : Full) : RoundTrip.Statement (.tsettle f) := roundTrip_full _ 27 _ f (by decide) rfl (fun _ w h1 h3 => by simp [decodeSingle, h1, h3, decodeOps1])
theorem RoundTrip.tread (f : Full) : RoundTrip.Statement (.tread f) := roundTrip_full _ 28 _ f (by decide) rfl (fun _ w h1 h3 => by simp [decodeSingle, h1, h3, decodeOps1])
theorem RoundTrip.tcmp (f : Full) : RoundTrip.Statement (.tcmp f) := roundTrip_full _ 29 _ f (by decide) rfl (fun _ w h1 h3 => by simp [decodeSingle, h1, h3, decodeOps1])
theorem RoundTrip.tdrop (f : Full) : RoundTrip.Statement (.tdrop f) := roundTrip_full _ 30 _ f (by decide) rfl (fun _ w h1 h3 => by simp [decodeSingle, h1, h3, decodeOps1])
theorem RoundTrip.add (f : Full) : RoundTrip.Statement (.add f) := roundTrip_full _ 32 _ f (by decide) rfl (fun _ w h1 h3 => by simp [decodeSingle, h1, h3, decodeOps2])
theorem RoundTrip.sub (f : Full) : RoundTrip.Statement (.sub f) := roundTrip_full _ 33 _ f (by decide) rfl (fun _ w h1 h3 => by simp [decodeSingle, h1, h3, decodeOps2])
theorem RoundTrip.mul (f : Full) : RoundTrip.Statement (.mul f) := roundTrip_full _ 34 _ f (by decide) rfl (fun _ w h1 h3 => by simp [decodeSingle, h1, h3, decodeOps2])
theorem RoundTrip.mulhi (f : Full) : RoundTrip.Statement (.mulhi f) := roundTrip_full _ 35 _ f (by decide) rfl (fun _ w h1 h3 => by simp [decodeSingle, h1, h3, decodeOps2])
theorem RoundTrip.mad (f : Full) : RoundTrip.Statement (.mad f) := roundTrip_full _ 36 _ f (by decide) rfl (fun _ w h1 h3 => by simp [decodeSingle, h1, h3, decodeOps2])
theorem RoundTrip.min (f : Full) : RoundTrip.Statement (.min f) := roundTrip_full _ 37 _ f (by decide) rfl (fun _ w h1 h3 => by simp [decodeSingle, h1, h3, decodeOps2])
theorem RoundTrip.max (f : Full) : RoundTrip.Statement (.max f) := roundTrip_full _ 38 _ f (by decide) rfl (fun _ w h1 h3 => by simp [decodeSingle, h1, h3, decodeOps2])
theorem RoundTrip.abs (f : Full) : RoundTrip.Statement (.abs f) := roundTrip_full _ 39 _ f (by decide) rfl (fun _ w h1 h3 => by simp [decodeSingle, h1, h3, decodeOps2])
theorem RoundTrip.neg (f : Full) : RoundTrip.Statement (.neg f) := roundTrip_full _ 40 _ f (by decide) rfl (fun _ w h1 h3 => by simp [decodeSingle, h1, h3, decodeOps2])
theorem RoundTrip.div (f : Full) : RoundTrip.Statement (.div f) := roundTrip_full _ 41 _ f (by decide) rfl (fun _ w h1 h3 => by simp [decodeSingle, h1, h3, decodeOps2])
theorem RoundTrip.rem (f : Full) : RoundTrip.Statement (.rem f) := roundTrip_full _ 42 _ f (by decide) rfl (fun _ w h1 h3 => by simp [decodeSingle, h1, h3, decodeOps2])
theorem RoundTrip.lea (f : Full) : RoundTrip.Statement (.lea f) := roundTrip_full _ 43 _ f (by decide) rfl (fun _ w h1 h3 => by simp [decodeSingle, h1, h3, decodeOps2])
theorem RoundTrip.lea64 (f : Full) : RoundTrip.Statement (.lea64 f) := roundTrip_full _ 44 _ f (by decide) rfl (fun _ w h1 h3 => by simp [decodeSingle, h1, h3, decodeOps2])
theorem RoundTrip.setp (f : Full) : RoundTrip.Statement (.setp f) := roundTrip_full _ 45 _ f (by decide) rfl (fun _ w h1 h3 => by simp [decodeSingle, h1, h3, decodeOps2])
theorem RoundTrip.popc (f : Full) : RoundTrip.Statement (.popc f) := roundTrip_full _ 46 _ f (by decide) rfl (fun _ w h1 h3 => by simp [decodeSingle, h1, h3, decodeOps2])
theorem RoundTrip.clz (f : Full) : RoundTrip.Statement (.clz f) := roundTrip_full _ 47 _ f (by decide) rfl (fun _ w h1 h3 => by simp [decodeSingle, h1, h3, decodeOps2])
theorem RoundTrip.and (f : Full) : RoundTrip.Statement (.and f) := roundTrip_full _ 48 _ f (by decide) rfl (fun _ w h1 h3 => by simp [decodeSingle, h1, h3, decodeOps3])
theorem RoundTrip.or (f : Full) : RoundTrip.Statement (.or f) := roundTrip_full _ 49 _ f (by decide) rfl (fun _ w h1 h3 => by simp [decodeSingle, h1, h3, decodeOps3])
theorem RoundTrip.xor (f : Full) : RoundTrip.Statement (.xor f) := roundTrip_full _ 50 _ f (by decide) rfl (fun _ w h1 h3 => by simp [decodeSingle, h1, h3, decodeOps3])
theorem RoundTrip.not (f : Full) : RoundTrip.Statement (.not f) := roundTrip_full _ 51 _ f (by decide) rfl (fun _ w h1 h3 => by simp [decodeSingle, h1, h3, decodeOps3])
theorem RoundTrip.shl (f : Full) : RoundTrip.Statement (.shl f) := roundTrip_full _ 52 _ f (by decide) rfl (fun _ w h1 h3 => by simp [decodeSingle, h1, h3, decodeOps3])
theorem RoundTrip.shr (f : Full) : RoundTrip.Statement (.shr f) := roundTrip_full _ 53 _ f (by decide) rfl (fun _ w h1 h3 => by simp [decodeSingle, h1, h3, decodeOps3])
theorem RoundTrip.bfe (f : Full) : RoundTrip.Statement (.bfe f) := roundTrip_full _ 54 _ f (by decide) rfl (fun _ w h1 h3 => by simp [decodeSingle, h1, h3, decodeOps3])
theorem RoundTrip.bfi (f : Full) : RoundTrip.Statement (.bfi f) := roundTrip_full _ 55 _ f (by decide) rfl (fun _ w h1 h3 => by simp [decodeSingle, h1, h3, decodeOps3])
theorem RoundTrip.addImm (f : Imm) : RoundTrip.Statement (.addImm f) := roundTrip_imm _ 56 f (by decide) rfl (fun w h1 h3 => by simp [decodeSingle, h1, h3, decodeOps3])
theorem RoundTrip.mulImm (f : Imm) : RoundTrip.Statement (.mulImm f) := roundTrip_imm _ 57 f (by decide) rfl (fun w h1 h3 => by simp [decodeSingle, h1, h3, decodeOps3])
theorem RoundTrip.andImm (f : Imm) : RoundTrip.Statement (.andImm f) := roundTrip_imm _ 58 f (by decide) rfl (fun w h1 h3 => by simp [decodeSingle, h1, h3, decodeOps3])
theorem RoundTrip.orImm (f : Imm) : RoundTrip.Statement (.orImm f) := roundTrip_imm _ 59 f (by decide) rfl (fun w h1 h3 => by simp [decodeSingle, h1, h3, decodeOps3])
theorem RoundTrip.xorImm (f : Imm) : RoundTrip.Statement (.xorImm f) := roundTrip_imm _ 60 f (by decide) rfl (fun w h1 h3 => by simp [decodeSingle, h1, h3, decodeOps3])
theorem RoundTrip.shlImm (f : Imm) : RoundTrip.Statement (.shlImm f) := roundTrip_imm _ 61 f (by decide) rfl (fun w h1 h3 => by simp [decodeSingle, h1, h3, decodeOps3])
theorem RoundTrip.shrImm (f : Imm) : RoundTrip.Statement (.shrImm f) := roundTrip_imm _ 62 f (by decide) rfl (fun w h1 h3 => by simp [decodeSingle, h1, h3, decodeOps3])
theorem RoundTrip.movImm (f : Imm) : RoundTrip.Statement (.movImm f) := roundTrip_imm _ 63 f (by decide) rfl (fun w h1 h3 => by simp [decodeSingle, h1, h3, decodeOps3])
theorem RoundTrip.fma (f : Full) : RoundTrip.Statement (.fma f) := roundTrip_full _ 64 _ f (by decide) rfl (fun _ w h1 h3 => by simp [decodeSingle, h1, h3, decodeOps4])
theorem RoundTrip.rcp (f : Full) : RoundTrip.Statement (.rcp f) := roundTrip_full _ 65 _ f (by decide) rfl (fun _ w h1 h3 => by simp [decodeSingle, h1, h3, decodeOps4])
theorem RoundTrip.rsq (f : Full) : RoundTrip.Statement (.rsq f) := roundTrip_full _ 66 _ f (by decide) rfl (fun _ w h1 h3 => by simp [decodeSingle, h1, h3, decodeOps4])
theorem RoundTrip.sqrt (f : Full) : RoundTrip.Statement (.sqrt f) := roundTrip_full _ 67 _ f (by decide) rfl (fun _ w h1 h3 => by simp [decodeSingle, h1, h3, decodeOps4])
theorem RoundTrip.exp2 (f : Full) : RoundTrip.Statement (.exp2 f) := roundTrip_full _ 68 _ f (by decide) rfl (fun _ w h1 h3 => by simp [decodeSingle, h1, h3, decodeOps4])
theorem RoundTrip.log2 (f : Full) : RoundTrip.Statement (.log2 f) := roundTrip_full _ 69 _ f (by decide) rfl (fun _ w h1 h3 => by simp [decodeSingle, h1, h3, decodeOps4])
theorem RoundTrip.sin (f : Full) : RoundTrip.Statement (.sin f) := roundTrip_full _ 70 _ f (by decide) rfl (fun _ w h1 h3 => by simp [decodeSingle, h1, h3, decodeOps4])
theorem RoundTrip.cos (f : Full) : RoundTrip.Statement (.cos f) := roundTrip_full _ 71 _ f (by decide) rfl (fun _ w h1 h3 => by simp [decodeSingle, h1, h3, decodeOps4])
theorem RoundTrip.frnd (f : Full) : RoundTrip.Statement (.frnd f) := roundTrip_full _ 72 _ f (by decide) rfl (fun _ w h1 h3 => by simp [decodeSingle, h1, h3, decodeOps4])
theorem RoundTrip.fclass (f : Full) : RoundTrip.Statement (.fclass f) := roundTrip_full _ 73 _ f (by decide) rfl (fun _ w h1 h3 => by simp [decodeSingle, h1, h3, decodeOps4])
theorem RoundTrip.cvt (f : Full) : RoundTrip.Statement (.cvt f) := roundTrip_full _ 74 _ f (by decide) rfl (fun _ w h1 h3 => by simp [decodeSingle, h1, h3, decodeOps4])
theorem RoundTrip.cvtd (f : Full) : RoundTrip.Statement (.cvtd f) := roundTrip_full _ 75 _ f (by decide) rfl (fun _ w h1 h3 => by simp [decodeSingle, h1, h3, decodeOps4])
theorem RoundTrip.cvtx (f : Full) : RoundTrip.Statement (.cvtx f) := roundTrip_full _ 76 _ f (by decide) rfl (fun _ w h1 h3 => by simp [decodeSingle, h1, h3, decodeOps4])
theorem RoundTrip.addF32Imm (f : Imm) : RoundTrip.Statement (.addF32Imm f) := roundTrip_imm _ 77 f (by decide) rfl (fun w h1 h3 => by simp [decodeSingle, h1, h3, decodeOps4])
theorem RoundTrip.mulF32Imm (f : Imm) : RoundTrip.Statement (.mulF32Imm f) := roundTrip_imm _ 78 f (by decide) rfl (fun w h1 h3 => by simp [decodeSingle, h1, h3, decodeOps4])
theorem RoundTrip.mov (f : Full) : RoundTrip.Statement (.mov f) := roundTrip_full _ 80 _ f (by decide) rfl (fun _ w h1 h3 => by simp [decodeSingle, h1, h3, decodeOps5])
theorem RoundTrip.sel (f : Full) : RoundTrip.Statement (.sel f) := roundTrip_full _ 81 _ f (by decide) rfl (fun _ w h1 h3 => by simp [decodeSingle, h1, h3, decodeOps5])
theorem RoundTrip.shfl (f : Full) : RoundTrip.Statement (.shfl f) := roundTrip_full _ 82 _ f (by decide) rfl (fun _ w h1 h3 => by simp [decodeSingle, h1, h3, decodeOps5])
theorem RoundTrip.vote (f : Full) : RoundTrip.Statement (.vote f) := roundTrip_full _ 83 _ f (by decide) rfl (fun _ w h1 h3 => by simp [decodeSingle, h1, h3, decodeOps5])
theorem RoundTrip.redux (f : Full) : RoundTrip.Statement (.redux f) := roundTrip_full _ 84 _ f (by decide) rfl (fun _ w h1 h3 => by simp [decodeSingle, h1, h3, decodeOps5])
theorem RoundTrip.prmt (f : Full) : RoundTrip.Statement (.prmt f) := roundTrip_full _ 85 _ f (by decide) rfl (fun _ w h1 h3 => by simp [decodeSingle, h1, h3, decodeOps5])
theorem RoundTrip.ld (f : Full) : RoundTrip.Statement (.ld f) := roundTrip_full _ 88 _ f (by decide) rfl (fun _ w h1 h3 => by simp [decodeSingle, h1, h3, decodeOps5])
theorem RoundTrip.st (f : Full) : RoundTrip.Statement (.st f) := roundTrip_full _ 89 _ f (by decide) rfl (fun _ w h1 h3 => by simp [decodeSingle, h1, h3, decodeOps5])
theorem RoundTrip.lds (f : Full) : RoundTrip.Statement (.lds f) := roundTrip_full _ 90 _ f (by decide) rfl (fun _ w h1 h3 => by simp [decodeSingle, h1, h3, decodeOps5])
theorem RoundTrip.sts (f : Full) : RoundTrip.Statement (.sts f) := roundTrip_full _ 91 _ f (by decide) rfl (fun _ w h1 h3 => by simp [decodeSingle, h1, h3, decodeOps5])
theorem RoundTrip.ldd (f : Full) : RoundTrip.Statement (.ldd f) := roundTrip_full _ 92 _ f (by decide) rfl (fun _ w h1 h3 => by simp [decodeSingle, h1, h3, decodeOps5])
theorem RoundTrip.std (f : Full) : RoundTrip.Statement (.std f) := roundTrip_full _ 93 _ f (by decide) rfl (fun _ w h1 h3 => by simp [decodeSingle, h1, h3, decodeOps5])
theorem RoundTrip.ldacq (f : Full) : RoundTrip.Statement (.ldacq f) := roundTrip_full _ 94 _ f (by decide) rfl (fun _ w h1 h3 => by simp [decodeSingle, h1, h3, decodeOps5])
theorem RoundTrip.strel (f : Full) : RoundTrip.Statement (.strel f) := roundTrip_full _ 95 _ f (by decide) rfl (fun _ w h1 h3 => by simp [decodeSingle, h1, h3, decodeOps5])
theorem RoundTrip.atom (f : Full) : RoundTrip.Statement (.atom f) := roundTrip_full _ 96 _ f (by decide) rfl (fun _ w h1 h3 => by simp [decodeSingle, h1, h3, decodeOps6])
theorem RoundTrip.atoms (f : Full) : RoundTrip.Statement (.atoms f) := roundTrip_full _ 97 _ f (by decide) rfl (fun _ w h1 h3 => by simp [decodeSingle, h1, h3, decodeOps6])
theorem RoundTrip.cas (f : Full) : RoundTrip.Statement (.cas f) := roundTrip_full _ 98 _ f (by decide) rfl (fun _ w h1 h3 => by simp [decodeSingle, h1, h3, decodeOps6])
theorem RoundTrip.fence (f : Full) : RoundTrip.Statement (.fence f) := roundTrip_full _ 99 _ f (by decide) rfl (fun _ w h1 h3 => by simp [decodeSingle, h1, h3, decodeOps6])
theorem RoundTrip.waitc (f : Full) : RoundTrip.Statement (.waitc f) := roundTrip_full _ 100 _ f (by decide) rfl (fun _ w h1 h3 => by simp [decodeSingle, h1, h3, decodeOps6])
theorem RoundTrip.smap (f : Full) : RoundTrip.Statement (.smap f) := roundTrip_full _ 101 _ f (by decide) rfl (fun _ w h1 h3 => by simp [decodeSingle, h1, h3, decodeOps6])
theorem RoundTrip.sunmap (f : Full) : RoundTrip.Statement (.sunmap f) := roundTrip_full _ 102 _ f (by decide) rfl (fun _ w h1 h3 => by simp [decodeSingle, h1, h3, decodeOps6])
theorem RoundTrip.pref (f : Full) : RoundTrip.Statement (.pref f) := roundTrip_full _ 103 _ f (by decide) rfl (fun _ w h1 h3 => by simp [decodeSingle, h1, h3, decodeOps6])
theorem RoundTrip.retain (f : Full) : RoundTrip.Statement (.retain f) := roundTrip_full _ 104 _ f (by decide) rfl (fun _ w h1 h3 => by simp [decodeSingle, h1, h3, decodeOps6])
theorem RoundTrip.unpin (f : Full) : RoundTrip.Statement (.unpin f) := roundTrip_full _ 105 _ f (by decide) rfl (fun _ w h1 h3 => by simp [decodeSingle, h1, h3, decodeOps6])
theorem RoundTrip.xcopy (f : Full) : RoundTrip.Statement (.xcopy f) := roundTrip_full _ 106 _ f (by decide) rfl (fun _ w h1 h3 => by simp [decodeSingle, h1, h3, decodeOps6])
theorem RoundTrip.xreplay (f : Full) : RoundTrip.Statement (.xreplay f) := roundTrip_full _ 107 _ f (by decide) rfl (fun _ w h1 h3 => by simp [decodeSingle, h1, h3, decodeOps6])
theorem RoundTrip.xcancel (f : Full) : RoundTrip.Statement (.xcancel f) := roundTrip_full _ 108 _ f (by decide) rfl (fun _ w h1 h3 => by simp [decodeSingle, h1, h3, decodeOps6])
theorem RoundTrip.mma (f : Full) : RoundTrip.Statement (.mma f) := roundTrip_full _ 112 _ f (by decide) rfl (fun _ w h1 h3 => by simp [decodeSingle, h1, h3, decodeOps7])
theorem RoundTrip.mmaj (f : Full) : RoundTrip.Statement (.mmaj f) := roundTrip_full _ 113 _ f (by decide) rfl (fun _ w h1 h3 => by simp [decodeSingle, h1, h3, decodeOps7])
theorem RoundTrip.mrdy (f : Full) : RoundTrip.Statement (.mrdy f) := roundTrip_full _ 114 _ f (by decide) rfl (fun _ w h1 h3 => by simp [decodeSingle, h1, h3, decodeOps7])
theorem RoundTrip.mgrp (f : Full) : RoundTrip.Statement (.mgrp f) := roundTrip_full _ 115 _ f (by decide) rfl (fun _ w h1 h3 => by simp [decodeSingle, h1, h3, decodeOps7])
theorem RoundTrip.mzero (f : Full) : RoundTrip.Statement (.mzero f) := roundTrip_full _ 116 _ f (by decide) rfl (fun _ w h1 h3 => by simp [decodeSingle, h1, h3, decodeOps7])
theorem RoundTrip.mdrain (f : Full) : RoundTrip.Statement (.mdrain f) := roundTrip_full _ 117 _ f (by decide) rfl (fun _ w h1 h3 => by simp [decodeSingle, h1, h3, decodeOps7])
theorem RoundTrip.tqinit (f : Full) : RoundTrip.Statement (.tqinit f) := roundTrip_full _ 120 _ f (by decide) rfl (fun _ w h1 h3 => by simp [decodeSingle, h1, h3, decodeOps7])
theorem RoundTrip.tqkill (f : Full) : RoundTrip.Statement (.tqkill f) := roundTrip_full _ 121 _ f (by decide) rfl (fun _ w h1 h3 => by simp [decodeSingle, h1, h3, decodeOps7])
theorem RoundTrip.tqacq (f : Full) : RoundTrip.Statement (.tqacq f) := roundTrip_full _ 122 _ f (by decide) rfl (fun _ w h1 h3 => by simp [decodeSingle, h1, h3, decodeOps7])
theorem RoundTrip.tqput (f : Full) : RoundTrip.Statement (.tqput f) := roundTrip_full _ 123 _ f (by decide) rfl (fun _ w h1 h3 => by simp [decodeSingle, h1, h3, decodeOps7])
theorem RoundTrip.tqget (f : Full) : RoundTrip.Statement (.tqget f) := roundTrip_full _ 124 _ f (by decide) rfl (fun _ w h1 h3 => by simp [decodeSingle, h1, h3, decodeOps7])
theorem RoundTrip.tqret (f : Full) : RoundTrip.Statement (.tqret f) := roundTrip_full _ 125 _ f (by decide) rfl (fun _ w h1 h3 => by simp [decodeSingle, h1, h3, decodeOps7])
theorem RoundTrip.bar (f : Full) : RoundTrip.Statement (.bar f) := roundTrip_full _ 126 _ f (by decide) rfl (fun _ w h1 h3 => by simp [decodeSingle, h1, h3, decodeOps7])
theorem RoundTrip.pairNop (f : Pair) : RoundTrip.Statement (.pairNop f) := roundTrip_pair _ 0 f (by decide) rfl (fun w h1 => by simp [decodePairPop, h1])
theorem RoundTrip.pairAdd (f : Pair) : RoundTrip.Statement (.pairAdd f) := roundTrip_pair _ 1 f (by decide) rfl (fun w h1 => by simp [decodePairPop, h1])
theorem RoundTrip.pairSub (f : Pair) : RoundTrip.Statement (.pairSub f) := roundTrip_pair _ 2 f (by decide) rfl (fun w h1 => by simp [decodePairPop, h1])
theorem RoundTrip.pairRsub (f : Pair) : RoundTrip.Statement (.pairRsub f) := roundTrip_pair _ 3 f (by decide) rfl (fun w h1 => by simp [decodePairPop, h1])
theorem RoundTrip.pairMul (f : Pair) : RoundTrip.Statement (.pairMul f) := roundTrip_pair _ 4 f (by decide) rfl (fun w h1 => by simp [decodePairPop, h1])
theorem RoundTrip.pairMin (f : Pair) : RoundTrip.Statement (.pairMin f) := roundTrip_pair _ 5 f (by decide) rfl (fun w h1 => by simp [decodePairPop, h1])
theorem RoundTrip.pairMax (f : Pair) : RoundTrip.Statement (.pairMax f) := roundTrip_pair _ 6 f (by decide) rfl (fun w h1 => by simp [decodePairPop, h1])
theorem RoundTrip.pairAnd (f : Pair) : RoundTrip.Statement (.pairAnd f) := roundTrip_pair _ 7 f (by decide) rfl (fun w h1 => by simp [decodePairPop, h1])
theorem RoundTrip.pairOr (f : Pair) : RoundTrip.Statement (.pairOr f) := roundTrip_pair _ 8 f (by decide) rfl (fun w h1 => by simp [decodePairPop, h1])
theorem RoundTrip.pairXor (f : Pair) : RoundTrip.Statement (.pairXor f) := roundTrip_pair _ 9 f (by decide) rfl (fun w h1 => by simp [decodePairPop, h1])
theorem RoundTrip.pairShl (f : Pair) : RoundTrip.Statement (.pairShl f) := roundTrip_pair _ 10 f (by decide) rfl (fun w h1 => by simp [decodePairPop, h1])
theorem RoundTrip.pairShr (f : Pair) : RoundTrip.Statement (.pairShr f) := roundTrip_pair _ 11 f (by decide) rfl (fun w h1 => by simp [decodePairPop, h1])
theorem RoundTrip.pairMov (f : Pair) : RoundTrip.Statement (.pairMov f) := roundTrip_pair _ 12 f (by decide) rfl (fun w h1 => by simp [decodePairPop, h1])
theorem RoundTrip.clauseBegin (u : UnitId) : RoundTrip.Statement (.clauseBegin u) := roundTrip_event _ rfl
theorem RoundTrip.warpUnpark (core : Nat) (slot : Nat) : RoundTrip.Statement (.warpUnpark core slot) := roundTrip_event _ rfl
theorem RoundTrip.clauseEnd (u : UnitId) : RoundTrip.Statement (.clauseEnd u) := roundTrip_event _ rfl
theorem RoundTrip.longLatencyComplete (op : Nat) (lanes : Mask) : RoundTrip.Statement (.longLatencyComplete op lanes) := roundTrip_event _ rfl
theorem RoundTrip.fenceComplete (op : Nat) : RoundTrip.Statement (.fenceComplete op) := roundTrip_event _ rfl
theorem RoundTrip.tlbWalk (op : Nat) (page : Nat) : RoundTrip.Statement (.tlbWalk op page) := roundTrip_event _ rfl
theorem RoundTrip.faultRecordWrite (die : Nat) : RoundTrip.Statement (.faultRecordWrite die) := roundTrip_event _ rfl
theorem RoundTrip.faultRingRetry (die : Nat) : RoundTrip.Statement (.faultRingRetry die) := roundTrip_event _ rfl
theorem RoundTrip.bandwidthGrant (op : Nat) (line : Nat) : RoundTrip.Statement (.bandwidthGrant op line) := roundTrip_event _ rfl
theorem RoundTrip.lineFill (op : Nat) (line : Nat) : RoundTrip.Statement (.lineFill op line) := roundTrip_event _ rfl
theorem RoundTrip.writePerform (op : Nat) (key : Nat) : RoundTrip.Statement (.writePerform op key) := roundTrip_event _ rfl
theorem RoundTrip.lineLockAcquire (op : Nat) (line : Nat) : RoundTrip.Statement (.lineLockAcquire op line) := roundTrip_event _ rfl
theorem RoundTrip.monitorAnswer (op : Nat) : RoundTrip.Statement (.monitorAnswer op) := roundTrip_event _ rfl
theorem RoundTrip.monitorRepoll (op : Nat) : RoundTrip.Statement (.monitorRepoll op) := roundTrip_event _ rfl
theorem RoundTrip.queueWaiterServe (queue : Nat) : RoundTrip.Statement (.queueWaiterServe queue) := roundTrip_event _ rfl
theorem RoundTrip.treeOpPerform (op : Nat) : RoundTrip.Statement (.treeOpPerform op) := roundTrip_event _ rfl
theorem RoundTrip.treeRollup (node : Nat) : RoundTrip.Statement (.treeRollup node) := roundTrip_event _ rfl
theorem RoundTrip.tsettleComplete (op : Nat) : RoundTrip.Statement (.tsettleComplete op) := roundTrip_event _ rfl
theorem RoundTrip.copyStart (copy : Nat) : RoundTrip.Statement (.copyStart copy) := roundTrip_event _ rfl
theorem RoundTrip.copyComplete (copy : Nat) : RoundTrip.Statement (.copyComplete copy) := roundTrip_event _ rfl
theorem RoundTrip.matrixGrant (pair : Nat) : RoundTrip.Statement (.matrixGrant pair) := roundTrip_event _ rfl
theorem RoundTrip.matrixRetire (pair : Nat) : RoundTrip.Statement (.matrixRetire pair) := roundTrip_event _ rfl
theorem RoundTrip.drainStart (pair : Nat) : RoundTrip.Statement (.drainStart pair) := roundTrip_event _ rfl
theorem RoundTrip.drainComplete (pair : Nat) : RoundTrip.Statement (.drainComplete pair) := roundTrip_event _ rfl
theorem RoundTrip.swapOut (team : Nat) : RoundTrip.Statement (.swapOut team) := roundTrip_event _ rfl
theorem RoundTrip.warpEnd (core : Nat) (slot : Nat) : RoundTrip.Statement (.warpEnd core slot) := roundTrip_event _ rfl
theorem RoundTrip.schedulerPlace : RoundTrip.Statement (.schedulerPlace) := roundTrip_event _ rfl
theorem RoundTrip.poolRestore : RoundTrip.Statement (.poolRestore) := roundTrip_event _ rfl
theorem RoundTrip.budgetExhausted (slice : Nat) : RoundTrip.Statement (.budgetExhausted slice) := roundTrip_event _ rfl
theorem RoundTrip.teamHeld (team : Nat) : RoundTrip.Statement (.teamHeld team) := roundTrip_event _ rfl
theorem RoundTrip.taskStart (core : Nat) : RoundTrip.Statement (.taskStart core) := roundTrip_event _ rfl
theorem RoundTrip.stealProbe (core : Nat) : RoundTrip.Statement (.stealProbe core) := roundTrip_event _ rfl
theorem RoundTrip.tillerSample (slice : Nat) : RoundTrip.Statement (.tillerSample slice) := roundTrip_event _ rfl
theorem RoundTrip.sourceEndSlot (slice : Nat) (furrow : Nat) : RoundTrip.Statement (.sourceEndSlot slice furrow) := roundTrip_event _ rfl
theorem RoundTrip.sinkEndSlot (slice : Nat) (furrow : Nat) : RoundTrip.Statement (.sinkEndSlot slice furrow) := roundTrip_event _ rfl
theorem RoundTrip.gleanerFile (core : Nat) : RoundTrip.Statement (.gleanerFile core) := roundTrip_event _ rfl
theorem RoundTrip.cribWindowExpiry (die : Nat) (crib : Nat) : RoundTrip.Statement (.cribWindowExpiry die crib) := roundTrip_event _ rfl
theorem RoundTrip.sheafPlace (die : Nat) : RoundTrip.Statement (.sheafPlace die) := roundTrip_event _ rfl
theorem RoundTrip.laneRejoin (core : Nat) (slot : Nat) : RoundTrip.Statement (.laneRejoin core slot) := roundTrip_event _ rfl
theorem RoundTrip.absentTimeout (core : Nat) (slot : Nat) : RoundTrip.Statement (.absentTimeout core slot) := roundTrip_event _ rfl
theorem RoundTrip.sleepWake (thread : Nat) : RoundTrip.Statement (.sleepWake thread) := roundTrip_event _ rfl
theorem RoundTrip.tlbiPage (src : WSrc) : RoundTrip.Statement (.tlbiPage src) := roundTrip_event _ rfl
theorem RoundTrip.tlbiContext (src : WSrc) : RoundTrip.Statement (.tlbiContext src) := roundTrip_event _ rfl
theorem RoundTrip.tlbiAll (src : WSrc) : RoundTrip.Statement (.tlbiAll src) := roundTrip_event _ rfl
theorem RoundTrip.tlbiDone (thread : Nat) : RoundTrip.Statement (.tlbiDone thread) := roundTrip_event _ rfl
theorem RoundTrip.sliceForm (src : WSrc) : RoundTrip.Statement (.sliceForm src) := roundTrip_event _ rfl
theorem RoundTrip.sliceResume (src : WSrc) : RoundTrip.Statement (.sliceResume src) := roundTrip_event _ rfl
theorem RoundTrip.sliceKill (src : WSrc) : RoundTrip.Statement (.sliceKill src) := roundTrip_event _ rfl
theorem RoundTrip.contextDestroy (src : WSrc) : RoundTrip.Statement (.contextDestroy src) := roundTrip_event _ rfl
theorem RoundTrip.overlayLoad (src : WSrc) : RoundTrip.Statement (.overlayLoad src) := roundTrip_event _ rfl
theorem RoundTrip.overlayLoadDone (core : Nat) (slot : Nat) : RoundTrip.Statement (.overlayLoadDone core slot) := roundTrip_event _ rfl
theorem RoundTrip.fwctlWrite (src : WSrc) : RoundTrip.Statement (.fwctlWrite src) := roundTrip_event _ rfl
theorem RoundTrip.fwlimWrite (src : WSrc) : RoundTrip.Statement (.fwlimWrite src) := roundTrip_event _ rfl
theorem RoundTrip.fwscaleWrite (src : WSrc) : RoundTrip.Statement (.fwscaleWrite src) := roundTrip_event _ rfl
theorem RoundTrip.windowDrainDone (window : Nat) : RoundTrip.Statement (.windowDrainDone window) := roundTrip_event _ rfl
theorem RoundTrip.retctlWrite (src : WSrc) : RoundTrip.Statement (.retctlWrite src) := roundTrip_event _ rfl
theorem RoundTrip.retbaseWrite (src : WSrc) : RoundTrip.Statement (.retbaseWrite src) := roundTrip_event _ rfl
theorem RoundTrip.retlimWrite (src : WSrc) : RoundTrip.Statement (.retlimWrite src) := roundTrip_event _ rfl
theorem RoundTrip.retstatWrite (src : WSrc) : RoundTrip.Statement (.retstatWrite src) := roundTrip_event _ rfl
theorem RoundTrip.retentionEnableDone (range : Nat) : RoundTrip.Statement (.retentionEnableDone range) := roundTrip_event _ rfl
theorem RoundTrip.retentionReleaseDone (range : Nat) : RoundTrip.Statement (.retentionReleaseDone range) := roundTrip_event _ rfl
theorem RoundTrip.memsplitWrite (src : WSrc) : RoundTrip.Statement (.memsplitWrite src) := roundTrip_event _ rfl
theorem RoundTrip.treebaseWrite (src : WSrc) : RoundTrip.Statement (.treebaseWrite src) := roundTrip_event _ rfl
theorem RoundTrip.hqProdWrite (src : WSrc) : RoundTrip.Statement (.hqProdWrite src) := roundTrip_event _ rfl
theorem RoundTrip.spctlWrite (src : WSrc) : RoundTrip.Statement (.spctlWrite src) := roundTrip_event _ rfl
theorem RoundTrip.wakestClear (src : WSrc) : RoundTrip.Statement (.wakestClear src) := roundTrip_event _ rfl
theorem RoundTrip.sprootWrite (src : WSrc) : RoundTrip.Statement (.sprootWrite src) := roundTrip_event _ rfl
theorem RoundTrip.bootstatWrite (src : WSrc) : RoundTrip.Statement (.bootstatWrite src) := roundTrip_event _ rfl
theorem RoundTrip.qrRelease (src : WSrc) : RoundTrip.Statement (.qrRelease src) := roundTrip_event _ rfl
theorem RoundTrip.qrWriteback (src : WSrc) : RoundTrip.Statement (.qrWriteback src) := roundTrip_event _ rfl
theorem RoundTrip.portctlWrite (src : WSrc) : RoundTrip.Statement (.portctlWrite src) := roundTrip_event _ rfl
theorem RoundTrip.resetNAssert : RoundTrip.Statement (.resetNAssert) := roundTrip_event _ rfl
theorem RoundTrip.railFailure (rail : Nat) : RoundTrip.Statement (.railFailure rail) := roundTrip_event _ rfl
theorem RoundTrip.bootRom (input : BootInput) : RoundTrip.Statement (.bootRom input) := roundTrip_event _ rfl
theorem RoundTrip.pcieReset : RoundTrip.Statement (.pcieReset) := roundTrip_event _ rfl
theorem RoundTrip.clockThrottleStep : RoundTrip.Statement (.clockThrottleStep) := roundTrip_event _ rfl
theorem RoundTrip.clockRecoverStep : RoundTrip.Statement (.clockRecoverStep) := roundTrip_event _ rfl
theorem RoundTrip.thermalShutdown : RoundTrip.Statement (.thermalShutdown) := roundTrip_event _ rfl
theorem RoundTrip.portDetectExitIdle (port : Nat) : RoundTrip.Statement (.portDetectExitIdle port) := roundTrip_event _ rfl
theorem RoundTrip.portDetectTimeout (port : Nat) : RoundTrip.Statement (.portDetectTimeout port) := roundTrip_event _ rfl
theorem RoundTrip.portNegotiate (port : Nat) (speed : Bool) (lanes : Bool) (fec : Bool) : RoundTrip.Statement (.portNegotiate port speed lanes fec) := roundTrip_event _ rfl
theorem RoundTrip.portPartnerIdle (port : Nat) : RoundTrip.Statement (.portPartnerIdle port) := roundTrip_event _ rfl
theorem RoundTrip.portTrainDone (port : Nat) : RoundTrip.Statement (.portTrainDone port) := roundTrip_event _ rfl
theorem RoundTrip.portTrainTimeout (port : Nat) : RoundTrip.Statement (.portTrainTimeout port) := roundTrip_event _ rfl
theorem RoundTrip.portLinkLoss (port : Nat) : RoundTrip.Statement (.portLinkLoss port) := roundTrip_event _ rfl
theorem RoundTrip.portRelock (port : Nat) : RoundTrip.Statement (.portRelock port) := roundTrip_event _ rfl
theorem RoundTrip.portRetrainTimeout (port : Nat) : RoundTrip.Statement (.portRetrainTimeout port) := roundTrip_event _ rfl
theorem RoundTrip.dieLinkLoss : RoundTrip.Statement (.dieLinkLoss) := roundTrip_event _ rfl
theorem RoundTrip.dieLinkRetrain : RoundTrip.Statement (.dieLinkRetrain) := roundTrip_event _ rfl
theorem RoundTrip.bar0Read (req : HostReq) : RoundTrip.Statement (.bar0Read req) := roundTrip_event _ rfl
theorem RoundTrip.bar0Write (req : HostReq) : RoundTrip.Statement (.bar0Write req) := roundTrip_event _ rfl
theorem RoundTrip.bar2Read (req : HostReq) : RoundTrip.Statement (.bar2Read req) := roundTrip_event _ rfl
theorem RoundTrip.bar2Write (req : HostReq) : RoundTrip.Statement (.bar2Write req) := roundTrip_event _ rfl
theorem RoundTrip.postedWriteRelease (requester : Nat) : RoundTrip.Statement (.postedWriteRelease requester) := roundTrip_event _ rfl
theorem RoundTrip.peerRead (req : HostReq) : RoundTrip.Statement (.peerRead req) := roundTrip_event _ rfl
theorem RoundTrip.peerWrite (req : HostReq) : RoundTrip.Statement (.peerWrite req) := roundTrip_event _ rfl
theorem RoundTrip.directoryGrant (line : Nat) (excl : Bool) (data : Line) : RoundTrip.Statement (.directoryGrant line excl data) := roundTrip_event _ rfl
theorem RoundTrip.snoopInvalidate (line : Nat) : RoundTrip.Statement (.snoopInvalidate line) := roundTrip_event _ rfl
theorem RoundTrip.snoopInvalidateAnswer (line : Nat) : RoundTrip.Statement (.snoopInvalidateAnswer line) := roundTrip_event _ rfl
theorem RoundTrip.snoopShare (line : Nat) : RoundTrip.Statement (.snoopShare line) := roundTrip_event _ rfl
theorem RoundTrip.getMeasurements (nonce : (BitVec 256)) : RoundTrip.Statement (.getMeasurements nonce) := roundTrip_event _ rfl
theorem RoundTrip.keyLoad (msg : KeyMsg) : RoundTrip.Statement (.keyLoad msg) := roundTrip_event _ rfl
theorem RoundTrip.keyErase (msg : KeyMsg) : RoundTrip.Statement (.keyErase msg) := roundTrip_event _ rfl
theorem RoundTrip.slotQuery (msg : KeyMsg) : RoundTrip.Statement (.slotQuery msg) := roundTrip_event _ rfl
theorem RoundTrip.lockInterfaceRequest (attrs : (List (Nat × Nat))) : RoundTrip.Statement (.lockInterfaceRequest attrs) := roundTrip_event _ rfl
theorem ops_reserved (w : W64) (op : Nat) (f : Full) (i : Imm) (h : opReserved op = true) (ho : op < 128) :
    (if op < 16 then decodeOps0 op w f i
  else if op < 32 then decodeOps1 op w f i
  else if op < 48 then decodeOps2 op w f i
  else if op < 64 then decodeOps3 op w f i
  else if op < 80 then decodeOps4 op w f i
  else if op < 96 then decodeOps5 op w f i
  else if op < 112 then decodeOps6 op w f i
  else decodeOps7 op w f i) = .reservedOpcode w := by
  simp only [opReserved, Bool.or_eq_true, decide_eq_true_eq] at h
  rcases h with ((((((((h | h) | h) | h) | h) | h) | h) | h) | h) | h <;> subst h <;> rfl

theorem pair_reserved (pop : Nat) (w : W64) (f : Pair) (h : popReserved pop = true) : decodePairPop pop w f = .reservedOpcode w := by
  simp only [popReserved, decide_eq_true_eq] at h
  unfold decodePairPop
  split <;> first | omega | rfl

theorem decode_reserved (w : W64) (h : wordReserved w = true) : decodeWord w = .reservedOpcode w := by
  unfold wordReserved at h
  unfold decodeWord
  split at h
  · rename_i hm
    rw [if_pos hm]
    split
    · rfl
    · rename_i hn
      simp only [Bool.or_eq_true] at h
      rcases h with h | h
      · exact pair_reserved _ _ _ h
      · exact absurd h hn
  · rename_i hm
    rw [if_neg hm]
    exact ops_reserved w _ _ _ h (w.extractLsb' 56 7).isLt

theorem RoundTrip.reservedOpcode (word : W64) : RoundTrip.Statement (.reservedOpcode word) := by
  intro he w hw
  simp only [Instr.encodable, Instr.form] at he
  simp only [encode, Instr.form, Option.some.injEq] at hw
  subst hw
  exact decode_reserved _ he
theorem RoundTrip.configurationRequest (req : ConfigReq) : RoundTrip.Statement (.configurationRequest req) := roundTrip_event _ rfl
theorem RoundTrip.perstDeassertion (width : Nat) (speed : Nat) : RoundTrip.Statement (.perstDeassertion width speed) := roundTrip_event _ rfl
theorem RoundTrip.startInterfaceRequest : RoundTrip.Statement (.startInterfaceRequest) := roundTrip_event _ rfl
theorem RoundTrip.stopInterfaceRequest : RoundTrip.Statement (.stopInterfaceRequest) := roundTrip_event _ rfl
theorem RoundTrip.slicePowerGate (slice : Nat) : RoundTrip.Statement (.slicePowerGate slice) := roundTrip_event _ rfl
theorem RoundTrip.peerAtomic (req : HostReq) (aop : Nat) (ty : (BitVec 4)) : RoundTrip.Statement (.peerAtomic req aop ty) := roundTrip_event _ rfl

end Sys2Proof.Laws
end

