-- ==== Sys2Proof/Safety.lean ====
section
/-!
DEFINITION. What a safe run is: every step answers a next state, and memory keeps its canonical form.
-/
namespace Sys2Proof

/-- A run of `n` steps from `s` that neither faults nor is refused. -/
def SafeFor (n : Nat) (s : Machine.State) : Prop := ∃ t, core.run n s = .next t

/-- Both byte memories are in canonical form. -/
def MemoryOk (s : Machine.State) : Prop := Machine.Memory.wf s.mem.dram = true ∧ Machine.Memory.wf s.mem.fabric = true

end Sys2Proof
end

