-- ==== Sys2Proof/Certificates/Slice0/Obligations.lean ====
section
/-!
DEFINITION. The statements for the provers, and the words they are made of: when a unit's next word is ready, and what a word's result is. Values are
written here from the rules of spec/, apart from the model's own functions wherever a rule gives arithmetic.
-/
namespace Sys2Proof.Claims

open Sys2Proof.Machine

/-! ### A warp's next word -/

/-- The cycle at which a vector word issues (spec/09 R186). -/
def issueCycle (r : ClauseRun) (v : WView) : Nat := r.cyc + bankCycles v.reads - 1

/-- The warp and its clause once every result due by the issue cycle is written (spec/09 R188). -/
def due (w : Warp) (r : ClauseRun) (v : WView) : Warp × ClauseRun := drainTo (issueCycle r v) w r

/-- The lanes that are active for the word (spec/02 R33): the clause's lanes whose predicate bit is 1, or 0 where PNEG is set. -/
def active (w : Warp) (r : ClauseRun) (v : WView) : Mask :=
  if r.idx < r.skip then 0
  else if v.pneg then r.mask &&& ~~~readPred (due w r v).1 v.pred
  else r.mask &&& readPred (due w r v).1 v.pred

/-- What a source slot supplies, one value a lane: the latch of a held slot, else the register file (spec/02 R38). -/
def supplied (w : Warp) (r : ClauseRun) (v : WView) (l : Option Latch) (a : Src) : List W128 := srcVals (due w r v).1 l a

/-- Lane `l` of each source, as a number. -/
def opA (w : Warp) (r : ClauseRun) (v : WView) (l : Nat) : Nat := (nth (supplied w r v r.la v.a) l).toNat
def opB (w : Warp) (r : ClauseRun) (v : WView) (l : Nat) : Nat := (nth (supplied w r v r.lb v.b) l).toNat
def opC (w : Warp) (r : ClauseRun) (v : WView) (l : Nat) : Nat := (nth (supplied w r v r.lc v.c) l).toNat

/-- The next word of warp `k` of core `c` is legal (R39), has active lanes, names only registers of the budget (R182) and finds its flag below 63
(R25): the conditions under which it executes. -/
structure Ready (s : State) (c k : Nat) (w : Warp) (r : ClauseRun) (v : WView) : Prop where
  cur : s.cur = some (.warp c k)
  warp : getWarp s c k = w
  run : w.run = some r
  legal : v.legal = true
  lanes : active w r v ≠ 0
  budget : ∀ g ∈ v.named, g < w.budget
  flag : ∀ f, v.flag = some f → flagCount s (.warp c k) f < 63

/-- The clause after the word has issued: the next word, the next cycle, the latches the word loads (R38). -/
def stepped (w : Warp) (r : ClauseRun) (v : WView) : ClauseRun :=
  { (due w r v).2 with
    idx := r.idx + 1
    cyc := issueCycle r v + 1
    la := loadLatch v.a (supplied w r v r.la v.a)
    lb := loadLatch v.b (supplied w r v r.lb v.b)
    lc := loadLatch v.c (supplied w r v r.lc v.c) }

/-- The state in which the word has issued and done nothing else. -/
def issued (s : State) (c k : Nat) (w : Warp) (r : ClauseRun) (v : WView) : State :=
  setWarp s c k { (due w r v).1 with run := some (stepped w r v) }

/-- The state in which the word's one effect is a result outstanding (R188): due at its issue cycle plus `lat`, for the destination `d`, in the
lanes of `m`. Nothing else of the machine differs from `issued`. -/
def posted (s : State) (c k : Nat) (w : Warp) (r : ClauseRun) (v : WView) (lat : Nat) (d : PDst) (m : Mask) (vals : List W128)
    (flags : BitVec 5) : State :=
  setWarp s c k { (due w r v).1 with
    wrSeq := (due w r v).1.wrSeq + 1
    run := some { stepped w r v with
      pend := insertPend { due := issueCycle r v + lat, seq := (due w r v).1.wrSeq + 1, dst := d, lanes := m, vals := vals, flags := flags }
        (due w r v).2.pend } }

/-- The word executes, and its one effect is a result with the value `f l` in each active lane `l`, raising no flag. -/
def Results (i : Instr) (s : State) (c k : Nat) (w : Warp) (r : ClauseRun) (v : WView) (lat : Nat) (d : PDst) (f : Nat → Nat) : Prop :=
  ∃ vals, exec i s = .next (posted s c k w r v lat d (active w r v) vals 0) ∧
    ∀ l < 32, (active w r v).getLsbD l = true → nth vals l = BitVec.ofNat 128 (f l)

/-! ### Integer values (spec/10 R195, R206) -/

/-- The width of integer type `t`, and the value of a bit pattern as `t`. -/
def width (t : Nat) : Nat := if t = 3 ∨ t = 7 then 64 else 32
def value (t a : Nat) : Int :=
  if t = 2 then (BitVec.ofNat 32 a).toInt
  else if t = 3 then (BitVec.ofNat 64 a).toInt
  else if t = 7 then ((BitVec.ofNat 64 a).toNat : Int)
  else ((BitVec.ofNat 32 a).toNat : Int)

/-- An integer as the bits of type `t`, wrapped modulo 2^N, or clamped first. -/
def wrapped (t : Nat) (i : Int) : Nat := if t = 3 ∨ t = 7 then (BitVec.ofInt 64 i).toNat else (BitVec.ofInt 32 i).toNat
def least (t : Nat) : Int := if t = 2 then -2 ^ 31 else if t = 3 then -2 ^ 63 else 0
def greatest (t : Nat) : Int := if t = 2 then 2 ^ 31 - 1 else if t = 3 then 2 ^ 63 - 1 else if t = 7 then 2 ^ 64 - 1 else 2 ^ 32 - 1
def clamped (t : Nat) (i : Int) : Int := max (least t) (min (greatest t) i)

/-- R214's last step: SAT, or modulo 2^N. -/
def outcome (t : Nat) (sat : Bool) (i : Int) : Nat := wrapped t (if sat then clamped t i else i)

/-- An integer word of opcode `op` and latency `lat`: in every ready warp, for every integer type and every operand form, its result is `g` of the type,
the word and the three operands. -/
def IntWord (mk : Full → Instr) (op : Nat) (lat : Nat) (g : Nat → Full → Nat → Nat → Nat → Nat) : Prop :=
  ∀ s c k w r f, isIntT f.ty.toNat = true → Ready s c k w r (viewFull op f .vector r) →
    Results (mk f) s c k w r (viewFull op f .vector r) lat (vdst f.dst (typeRegs f.ty.toNat))
      (fun l => g f.ty.toNat f (opA w r (viewFull op f .vector r) l) (opB w r (viewFull op f .vector r) l) (opC w r (viewFull op f .vector r) l))

/-- A word of an integer or bit type, with the registers of its destination and its value given by the type and the operands. -/
def BitWord (mk : Full → Instr) (op lat : Nat) (n : Nat → Nat) (g : Nat → Full → Nat → Nat → Nat → Nat) : Prop :=
  ∀ s c k w r f, Ready s c k w r (viewFull op f .vector r) →
    Results (mk f) s c k w r (viewFull op f .vector r) lat (vdst f.dst (n f.ty.toNat))
      (fun l => g f.ty.toNat f (opA w r (viewFull op f .vector r) l) (opB w r (viewFull op f .vector r) l) (opC w r (viewFull op f .vector r) l))

/-- An integer I-form (R221): its value from operand A and the immediate. -/
def ImmWord (mk : Imm → Instr) (op lat : Nat) (g : Nat → Nat → Nat) : Prop :=
  ∀ s c k w r f, Ready s c k w r (viewImm op f .vector r) →
    Results (mk f) s c k w r (viewImm op f .vector r) lat (vdst f.dst 1) (fun l => g (opA w r (viewImm op f .vector r) l) f.imm.toNat)

/-- Bits of type `t`: 64 for a 64-bit type, else 32. -/
def bitWidth (t : Nat) : Nat := if t = 3 ∨ t = 7 then 64 else 32

/-- BFE of R217. -/
def extracted (t a b : Nat) : Nat :=
  let pos := b % 256
  let len := min (b / 256 % 256) (width t)
  let x := (value t a / 2 ^ pos) % 2 ^ len
  if len = 0 then 0
  else if (t = 2 ∨ t = 3) ∧ 2 ^ (len - 1) ≤ x then wrapped t (x - 2 ^ len) else wrapped t x

/-! ### Floating words -/

/-- The flags that the active lanes raise, together (spec/10 R203). -/
def RaisedBy (m : Mask) (fl : BitVec 5) (f : Nat → Nat) : Prop :=
  ∀ i < 5, fl.getLsbD i = true ↔ ∃ l < 32, m.getLsbD l = true ∧ (f l).testBit i = true

/-- The word executes with no lane trapping: a result with the bits of `f l` in each active lane, raising together the flags of the active lanes. -/
def FloatResults (i : Instr) (s : State) (c k : Nat) (w : Warp) (r : ClauseRun) (v : WView) (lat : Nat) (d : PDst) (f : Nat → FR) : Prop :=
  (∀ l < 32, (active w r v).getLsbD l = true → fpCause (fptrap s w.ctx) (f l).flags = none) →
  ∃ vals fl, exec i s = .next (posted s c k w r v lat d (active w r v) vals fl) ∧
    (∀ l < 32, (active w r v).getLsbD l = true → nth vals l = BitVec.ofNat 128 (f l).bits) ∧ RaisedBy (active w r v) fl (fun l => (f l).flags)

/-- A floating word: in every ready warp, for every floating type, rounding mode and operand form. -/
def FloatWord (mk : Full → Instr) (op : Nat) (lat : Nat → Nat) (g : Fmt → Nat → Bool → Full → Nat → Nat → Nat → FR) : Prop :=
  ∀ s c k w r f, isFltT f.ty.toNat = true → Ready s c k w r (viewFull op f .vector r) →
    FloatResults (mk f) s c k w r (viewFull op f .vector r) (lat f.ty.toNat) (vdst f.dst (typeRegs f.ty.toNat))
      (fun l => g (fmtOf f.ty.toNat) (modF f 2 1) (modB f 3) f (opA w r (viewFull op f .vector r) l) (opB w r (viewFull op f .vector r) l)
        (opC w r (viewFull op f .vector r) l))

/-! ### Rounding, on real numbers (spec/10 R194, R199-R202) -/

/-- The real number that a value is. -/
def RealOf (v : FV) (x : ℝ) : Prop := ∃ n m e, v = .fin n m e ∧ x = (if n then -1 else 1) * (m : ℝ) * (2 : ℝ) ^ (e : ℤ)

/-- The least normal magnitude of a format, and the greatest finite one. -/
noncomputable def leastNormal (g : Fmt) : ℝ := (2 : ℝ) ^ (1 - (g.bias : ℤ))
noncomputable def greatestOf (g : Fmt) : ℝ := (2 - (2 : ℝ) ^ (-(g.fb : ℤ))) * (2 : ℝ) ^ (g.bias : ℤ)

/-- What a floating operand is read as (R200): with FTZ a subnormal is a zero. -/
def Reads (g : Fmt) (ftz : Bool) (a : Nat) (x : ℝ) : Prop :=
  ∃ y, RealOf (fdec g a) y ∧ ((ftz = true ∧ |y| < leastNormal g → x = 0) ∧ (¬ (ftz = true ∧ |y| < leastNormal g) → x = y))

/-- The values of a format, each with whether its last fraction bit is even; the same with the exponent range unbounded. -/
def InFormat (g : Fmt) (even : Prop) (y : ℝ) : Prop := ∃ b < 2 ^ g.w, RealOf (fdec g b) y ∧ (even ↔ b % 2 = 0)
def InWide (g : Fmt) (even : Prop) (y : ℝ) : Prop := (y = 0 ∧ even) ∨
  ∃ m : ℕ, ∃ e : ℤ, 2 ^ g.fb ≤ m ∧ m < 2 ^ (g.fb + 1) ∧ |y| = (m : ℝ) * (2 : ℝ) ^ e ∧ (even ↔ m % 2 = 0)

/-- R199's table: `y` is the value among the candidates that mode `rm` rounds `x` to. -/
def RoundsTo (cand : Prop → ℝ → Prop) (rm : Nat) (x y : ℝ) : Prop :=
  (∃ even, cand even y) ∧
  (rm = 0 → (∀ e z, cand e z → |x - y| ≤ |x - z|) ∧ ((∃ e z, cand e z ∧ z ≠ y ∧ |x - z| = |x - y|) → cand True y)) ∧
  (rm = 1 → |y| ≤ |x| ∧ 0 ≤ x * y ∧ ∀ e z, cand e z → |z| ≤ |x| → |z| ≤ |y|) ∧
  (rm = 2 → x ≤ y ∧ ∀ e z, cand e z → x ≤ z → y ≤ z) ∧
  (rm = 3 → y ≤ x ∧ ∀ e z, cand e z → z ≤ x → z ≤ y)

/-- The exact result `x`, not zero, rounded once into format `g` (R199-R202): `u` is `x` rounded as if the exponent range were unbounded. Above the greatest finite
magnitude it overflows, by the mode; else the result is the format's value that the mode gives, with the sign of `x`, and with FTZ a subnormal one is a zero. NX where the
result is not exact, UF besides where it is tiny. -/
def RoundedOnce (g : Fmt) (rm : Nat) (ftz : Bool) (x : ℝ) (r : FR) : Prop :=
  ∃ u neg, RoundsTo (InWide g) rm x u ∧ (neg = true ↔ x < 0) ∧
    (greatestOf g < |u| → r.flags = 20 ∧
      r.bits = if rm = 0 ∨ (rm = 2 ∧ neg = false) ∨ (rm = 3 ∧ neg = true) then infBits g neg else maxBits g neg) ∧
    (|u| ≤ greatestOf g → ∃ y, RoundsTo (InFormat g) rm x y ∧
      (ftz = true ∧ y ≠ 0 ∧ |y| < leastNormal g → r = { bits := zeroBits g neg, flags := 24 }) ∧
      (¬ (ftz = true ∧ y ≠ 0 ∧ |y| < leastNormal g) →
        r.bits < 2 ^ g.w ∧ RealOf (fdec g r.bits) y ∧ (2 ^ (g.w - 1) ≤ r.bits ↔ neg = true) ∧
        (y = x → r.flags = 0) ∧ (y ≠ x → |u| < leastNormal g → r.flags = 24) ∧ (y ≠ x → leastNormal g ≤ |u| → r.flags = 16)))

/-! ### Comparison (R218) -/

/-- The integer test of CMP. -/
def holds (cmp : Nat) (x y : Int) : Bool :=
  match cmp with
  | 0 => x = y
  | 1 => x ≠ y
  | 2 => x < y
  | 3 => x ≤ y
  | 4 => y < x
  | _ => y ≤ x

/-- COMB. -/
def combined (comb : Nat) (c old : Bool) : Bool :=
  match comb with
  | 0 => c
  | 1 => c && old
  | 2 => c || old
  | _ => xor c old

/-! ### Warp-wide words (R227-R230) -/

/-- No lane of the warp lies in another frontier entry. -/
def Converged (w : Warp) : Prop := ∀ e ∈ w.frontier, e.mask = 0

/-- Lane `l`'s result of SHFL (R228): `sz` lanes a segment, `k` operand B, `a` the lanes' values, `fill` operand C. -/
def shuffled (mode sz l k : Nat) (a : Nat → Nat) (fill : Nat) : Nat :=
  let g := l - l % sz
  if mode = 0 then a (g + k % sz)
  else if mode = 1 then a (g + (((l : Int) - g - k) % sz).toNat)
  else if mode = 2 then
    let j : Int := l - (BitVec.ofNat 32 k).toInt
    if g ≤ j ∧ j < g + sz then a j.toNat else fill
  else a (l ^^^ (k % sz))

/-- What VOTE writes to lane `l` (R229), from `m`, the set active lanes, and the active lanes. -/
def voted (kind l : Nat) (m act : Mask) : Nat :=
  let n := popcount m
  let a := popcount act
  match kind with
  | 0 => m.toNat
  | 1 => n
  | 2 => ((List.range l).filter (fun j => m.getLsbD j)).length
  | 3 => if m = 0 then 32 else ((List.range 32).filter (fun j => m.getLsbD j)).headD 32
  | 4 => if n = a then 1 else 0
  | 5 => if n ≠ 0 then 1 else 0
  | 6 => if n = 0 ∨ n = a then 1 else 0
  | _ => if 0 < n ∧ n < a then 1 else 0

/-- One step of a reduction (R230): `rop` 0 add, 1 min, 2 max, 3 and, 4 or, 5 xor; type 10 is f32, 2 s32 and 6 n32. -/
def reduceStep (t rop rm : Nat) (ftz : Bool) (a b : Nat) : FR :=
  if t = 10 then if rop = 0 then fadd f32 rm ftz a b else fminmax f32 ftz (rop = 2) a b
  else { flags := 0
         bits := match rop with
          | 0 => (a + b) % 2 ^ 32
          | 1 => wrapped t (min (value t a) (value t b))
          | 2 => wrapped t (max (value t a) (value t b))
          | 3 => a &&& b
          | 4 => a ||| b
          | _ => a ^^^ b }

/-- A lane's value as it is read before any step: every f32 NaN canonical, a signalling one raising NV; with FTZ a subnormal a zero of its sign. -/
def contributed (t : Nat) (ftz : Bool) (a : Nat) : FR :=
  if t ≠ 10 then { bits := a % 2 ^ 32, flags := 0 }
  else match fdec f32 a with
    | .nan signalling => { bits := 0x7FC00000, flags := if signalling then 1 else 0 }
    | _ => { bits := if ftz = true ∧ a / 2 ^ 23 % 2 ^ 8 = 0 then a % 2 ^ 32 / 2 ^ 31 * 2 ^ 31 else a % 2 ^ 32, flags := 0 }

/-- Two slots of the reduction, either of which may be empty. -/
def mergedSlots (op : Nat → Nat → FR) : Option FR → Option FR → Option FR
  | some a, some b => some { bits := (op a.bits b.bits).bits, flags := a.flags ||| b.flags ||| (op a.bits b.bits).flags }
  | some a, none => some a
  | none, b => b

/-- The fixed tree: slot `l` after `n` rounds. -/
def treeSlot (op : Nat → Nat → FR) (x : Nat → Option FR) : Nat → Nat → Option FR
  | 0, l => x l
  | n + 1, l => mergedSlots op (treeSlot op x n l) (treeSlot op x n (l + 2 ^ n))

/-- The serial prefix: lanes below `n`, in ascending order. -/
def prefixSlot (op : Nat → Nat → FR) (x : Nat → Option FR) : Nat → Option FR
  | 0 => none
  | n + 1 => mergedSlots op (prefixSlot op x n) (x n)

/-- A slot's value and its flags; nothing where it is empty. -/
def slotOf (x : Option FR) : FR := x.getD { bits := 0, flags := 0 }

/-! ### Precise traps of a warp (R40, R377) -/

/-- The warp has stopped at the word: no clause in progress, an entry for it at the word holding the clause's lanes, every earlier fixed-latency result
written, and one record more at its core that names the word; nothing else of the machine has changed. -/
structure Stopped (s t : State) (c k : Nat) (w : Warp) (r : ClauseRun) (v : WView) (cause : Byte) (detail : W32) : Prop where
  run : (getWarp t c k).run = none
  stopped : (getWarp t c k).stopped = true
  entry : ∃ e ∈ (getWarp t c k).frontier, e.pc = r.pc ∧ e.word = r.idx ∧ r.mask &&& e.mask = r.mask
  regs : (getWarp t c k).v = (drainTo (drainBound (due w r v).2) (due w r v).1 (due w r v).2).1.v
  preds : (getWarp t c k).p = (drainTo (drainBound (due w r v).2) (due w r v).1 (due w r v).2).1.p
  flags : (getWarp t c k).flags = w.flags
  record : ∃ q, (getCore t c).trapBuf = (getCore s c).trapBuf ++ [q] ∧ q.kind = .warp ∧ q.cause = cause ∧ q.detail = detail ∧
    q.pc = r.pc.setWidth 64 ∧ q.wordv = v.word ∧ q.widx = r.idx ∧ q.srca = 0 ∧ q.srcb = 0 ∧ q.srcc = 0 ∧ q.world = w.world ∧ q.ctx = w.ctx
  others : ∀ j, j ≠ k → getWarp t c j = getWarp s c j
  cores : ∀ d, d ≠ c → getCore t d = getCore s d
  rest : t.mem = s.mem ∧ t.regs = s.regs ∧ t.threads = s.threads ∧ t.pairs = s.pairs ∧ t.ops = s.ops ∧ t.copies = s.copies ∧ t.launch = s.launch ∧
    t.host = s.host ∧ t.gleaners = s.gleaners ∧ t.time = s.time

/-! ### A scalar unit's next word (spec/02 R29, spec/11 R212) -/

/-- The next word of a front-end context or service thread is legal and finds its flag below 63. -/
structure ScalarReady (s : State) (u : UnitId) (r : ClauseRun) (v : WView) : Prop where
  cur : s.cur = some u
  scalar : ∀ c k, u ≠ .warp c k
  run : getRun s u = some r
  legal : v.legal = true
  flag : ∀ f, v.flag = some f → flagCount s u f < 63

/-- The state in which the word has issued and done nothing else. -/
def scalarStep (s : State) (u : UnitId) (r : ClauseRun) : State := setRun s u (some { r with idx := r.idx + 1, cyc := r.cyc + 1 })

/-- The scalar operands of a word. -/
def sopA (s : State) (u : UnitId) (v : WView) : Nat := (nth (scalarVals (scalarRegs s u) v.a) 0).toNat
def sopB (s : State) (u : UnitId) (v : WView) : Nat := (nth (scalarVals (scalarRegs s u) v.b) 0).toNat
def sopC (s : State) (u : UnitId) (v : WView) : Nat := (nth (scalarVals (scalarRegs s u) v.c) 0).toNat

/-- R212: a 32-bit result of type s32 is sign-extended to 64 bits, every other zero-extended. -/
def extended (t x : Nat) : Nat := if t = 2 then ((BitVec.ofNat 32 x).signExtend 64).toNat else x

/-- A scalar word of opcodes 0x20 to 0x37, 0x50 and 0x51: its one effect is its destination register. -/
def ScalarWord (mk : Full → Instr) (op : Nat) (n : Nat → Nat) (ok : State → UnitId → Full → WView → Prop) (g : Nat → Full → Nat → Nat → Nat → Nat) : Prop :=
  ∀ s u r f, ScalarReady s u r (viewFull op f u.kind r) → ok s u f (viewFull op f u.kind r) →
    exec (mk f) s = .next (writeScalar (scalarStep s u r) u (n f.ty.toNat) f.dst.toNat
      (BitVec.ofNat 128 (g f.ty.toNat f (sopA s u (viewFull op f u.kind r)) (sopB s u (viewFull op f u.kind r)) (sopC s u (viewFull op f u.kind r)))))

def ScalarImm (mk : Imm → Instr) (op : Nat) (g : Nat → Nat → Nat) : Prop :=
  ∀ s u r f, ScalarReady s u r (viewImm op f u.kind r) →
    exec (mk f) s = .next (writeScalar (scalarStep s u r) u 1 f.dst.toNat
      (BitVec.ofNat 128 (g (sopA s u (viewImm op f u.kind r)) (f.imm.signExtend 64).toNat % 2 ^ 64)))

/-! ### Every kind of word -/

/-- What the issuing unit sees of a word of any form. -/
def viewOf (i : Instr) (k : UKind) (r : ClauseRun) : Option WView := match i.form with
  | .full op _ f => some (viewFull op f k r)
  | .imm op f => some (viewImm op f k r)
  | .pair pop f => some (viewPair pop f k r)
  | .reserved w => some (viewReserved w k r)
  | .event => none

/-- The state in which a vector word has issued, and its clause has been changed by `g`. -/
def after (s : State) (c k : Nat) (w : Warp) (r : ClauseRun) (v : WView) (g : ClauseRun → ClauseRun) : State :=
  setWarp s c k { (due w r v).1 with run := some (g (stepped w r v)) }

/-- One more result outstanding in a warp. -/
def outstanding (w : Warp) (t : Nat) (d : PDst) (m : Mask) (vals : List W128) (flags : BitVec 5) : Warp :=
  { w with
    wrSeq := w.wrSeq + 1
    run := w.run.map (fun q => { q with
      pend := insertPend { due := t, seq := w.wrSeq + 1, dst := d, lanes := m, vals := vals, flags := flags } q.pend }) }

/-- A scalar unit has stopped at a word (spec/22 R362, R377; spec/24 R386): a front-end context stands at the clause with a record at its core; a
thread has halted there with a record at thread 0, which is woken. -/
def StoppedScalar (s t : State) (u : UnitId) (r : ClauseRun) (v : WView) (cause : Byte) (detail : W32) : Prop := match u with
  | .warp _ _ => False
  | .front c k =>
    getFront t c k = { getFront s c k with run := none, stopped := true, pc := r.pc } ∧
    (∃ q, (getCore t c).trapBuf = (getCore s c).trapBuf ++ [q] ∧ q.kind = .front ∧ q.unit = .front c k ∧ q.cause = cause ∧ q.detail = detail ∧
      q.pc = r.pc.setWidth 64 ∧ q.wordv = v.word ∧ q.widx = r.idx ∧ q.world = (getFront s c k).world ∧ q.ctx = (getFront s c k).ctx) ∧
    (getCore t c).warps = (getCore s c).warps ∧ (∀ d, d ≠ c → getCore t d = getCore s d) ∧ t.threads = s.threads ∧ t.mem = s.mem ∧ t.regs = s.regs
  | .thread q =>
    (getThread t q).run = none ∧ (getThread t q).halt = true ∧ (getThread t q).runBit = false ∧ (getThread t q).pc = r.pc ∧
    (getThread t q).s = (getThread s q).s ∧
    (∃ x, (getThread t 0).pending = (getThread s 0).pending ++ [x] ∧ x.kind = .thread ∧ x.unit = .thread q ∧ x.cause = cause ∧ x.detail = detail ∧
      x.pc = r.pc.setWidth 64 ∧ x.wordv = v.word ∧ x.widx = r.idx) ∧
    (getThread t 0).wakest = (getThread s 0).wakest ||| 8#6 ∧ t.cores = s.cores ∧ t.mem = s.mem ∧ t.regs = s.regs

/-- Lanes `m` of the warp have left their entry and their clause, each with a record at its core (spec/22 R363, R365); the other lanes go on. -/
structure Detached (s t : State) (c k : Nat) (w : Warp) (r : ClauseRun) (v : WView) (m : Mask) (cause : Nat → Byte) (detail : Nat → W32)
    (addr : Nat → W64) : Prop where
  absent : (getWarp t c k).absent = w.absent ||| m
  entries : (getWarp t c k).frontier = (w.frontier.map (fun e => { e with mask := e.mask &&& ~~~m })).filter (fun e => e.mask != 0)
  clause : ∃ q, (getWarp t c k).run = some q ∧ q.idx = r.idx + 1 ∧ q.mask = r.mask &&& ~~~m ∧ q.pc = r.pc ∧ q.hdr = r.hdr
  regs : (getWarp t c k).v = (due w r v).1.v ∧ (getWarp t c k).p = (due w r v).1.p ∧ (getWarp t c k).w = w.w ∧ (getWarp t c k).flags = w.flags
  records : ∃ qs, (getCore t c).trapBuf = (getCore s c).trapBuf ++ qs ∧ qs.map TrapRec.lane = (List.range 32).filter (fun l => m.getLsbD l) ∧
    ∀ q ∈ qs, q.kind = .lane ∧ q.unit = .warp c k ∧ q.cause = cause q.lane ∧ q.detail = detail q.lane ∧ q.addr = addr q.lane ∧ q.pc = r.pc.setWidth 64 ∧
      q.wordv = v.word ∧ q.widx = r.idx ∧ q.world = w.world ∧ q.ctx = w.ctx ∧ q.wait = w.wctmax
  others : ∀ j, j ≠ k → getWarp t c j = getWarp s c j
  cores : ∀ d, d ≠ c → getCore t d = getCore s d
  rest : t.mem = s.mem ∧ t.regs = s.regs ∧ t.threads = s.threads ∧ t.pairs = s.pairs ∧ t.ops = s.ops ∧ t.copies = s.copies ∧ t.launch = s.launch ∧
    t.host = s.host ∧ t.gleaners = s.gleaners ∧ t.time = s.time

/-- Among the warp's outstanding results is one due at `due` for `d`, in the lanes of `m`, with the value `f l` in each. -/
def LeftResult (t : State) (c k : Nat) (due : Nat) (d : PDst) (m : Mask) (f : Nat → Nat) : Prop :=
  ∃ q p, (getWarp t c k).run = some q ∧ p ∈ q.pend ∧ p.due = due ∧ p.dst = d ∧ p.lanes = m ∧
    ∀ l < 32, m.getLsbD l = true → nth p.vals l = BitVec.ofNat 128 (f l)

/-- A code target (R299): the clause's header plus a signed 32-bit displacement, modulo 2^52. -/
def targetOf (pc : Addr) (d : Nat) : Addr := BitVec.ofInt 52 ((pc.toNat : Int) + (BitVec.ofNat 32 d).toInt)

/-- The result of one lane of a half of a paired word (R44), from D and SRC. -/
def halfResult (pop pty d v : Nat) : FR :=
  if pty = 2 then
    match pop with
    | 1 => fadd f32 0 false d v
    | 2 => fsub f32 0 false d v
    | 3 => fsub f32 0 false v d
    | 4 => fmul f32 0 false d v
    | 5 => fminmax f32 false false d v
    | _ => fminmax f32 false true d v
  else
    let t := if pty = 0 then 2 else 6
    { flags := 0
      bits := match pop with
        | 1 => wrapped t (value t d + value t v)
        | 2 => wrapped t (value t d - value t v)
        | 3 => wrapped t (value t v - value t d)
        | 4 => wrapped t (value t d * value t v)
        | 5 => wrapped t (min (value t d) (value t v))
        | 6 => wrapped t (max (value t d) (value t v))
        | 7 => d &&& v
        | 8 => d ||| v
        | 9 => d ^^^ v
        | 10 => d * 2 ^ v % 2 ^ 32
        | 11 => wrapped t (value t d / 2 ^ v)
        | _ => v }

/-- One half's results: written to D at its own latency, unless the half is a NOP. -/
def HalfResults (x y : Warp) (w : Warp) (r : ClauseRun) (v : WView) (h : Half) (src : Nat → Nat) : Prop :=
  if h.pop = 0 then y = x
  else ∃ vals fl, y = outstanding x (issueCycle r v + (if h.pty = 2 ∨ h.pop = 4 then 4 else 2)) (.reg h.d.toNat 1) (active w r v) vals fl ∧
    (∀ l < 32, (active w r v).getLsbD l = true → nth vals l =
      BitVec.ofNat 128 (halfResult h.pop.toNat h.pty.toNat (lane (look 0 (due w r v).1.v h.d.toNat) l).toNat (src l)).bits) ∧
    RaisedBy (active w r v) fl (fun l => (halfResult h.pop.toNat h.pty.toNat (lane (look 0 (due w r v).1.v h.d.toNat) l).toNat (src l)).flags)

/-- A paired word, no lane of which traps: both halves read before either writes, and each half's result is outstanding. -/
def PairWord (mk : Pair → Instr) (pop : Nat) : Prop :=
  ∀ s c k w r f, Ready s c k w r (viewPair pop f .vector r) →
    (∀ l < 32, (active w r (viewPair pop f .vector r)).getLsbD l = true →
      fpCause (fptrap s w.ctx) (halfResult pop f.pty.toNat (lane (look 0 (due w r (viewPair pop f .vector r)).1.v f.d.toNat) l).toNat
        (opB w r (viewPair pop f .vector r) l)).flags = none ∧
      fpCause (fptrap s w.ctx) (halfResult f.h1.pop.toNat f.h1.pty.toNat (lane (look 0 (due w r (viewPair pop f .vector r)).1.v f.h1.d.toNat) l).toNat
        (opC w r (viewPair pop f .vector r) l)).flags = none) →
    ∃ y z, HalfResults { (due w r (viewPair pop f .vector r)).1 with run := some (stepped w r (viewPair pop f .vector r)) } y w r
        (viewPair pop f .vector r) (f.h0 pop) (opB w r (viewPair pop f .vector r)) ∧
      HalfResults y z w r (viewPair pop f .vector r) f.h1 (opC w r (viewPair pop f .vector r)) ∧
      exec (mk f) s = .next (setWarp s c k z)

/-- A paired word some of whose active lanes a half traps (R205, R232): those lanes leave with the record of the half, half 0 first; each half's result is outstanding for
every lane that the half itself does not trap. -/
def PairTraps (mk : Pair → Instr) (pop : Nat) : Prop :=
  ∀ s c k w r f m0 m1, Ready s c k w r (viewPair pop f .vector r) → w.sheaf = none →
    let v := viewPair pop f .vector r
    let at_ : Half → (Nat → Nat) → Nat → FR := fun h src l =>
      if h.pop = 0 then { bits := 0, flags := 0 } else halfResult h.pop.toNat h.pty.toNat (lane (look 0 (due w r v).1.v h.d.toNat) l).toNat (src l)
    let x0 := at_ (f.h0 pop) (opB w r v)
    let x1 := at_ f.h1 (opC w r v)
    let lat : Half → Nat := fun h => if h.pty = 2 ∨ h.pop = 4 then 4 else 2
    (∀ l < 32, m0.getLsbD l = true ↔ (active w r v).getLsbD l = true ∧ fpCause (fptrap s w.ctx) (x0 l).flags ≠ none) →
    (∀ l < 32, m1.getLsbD l = true ↔ (active w r v).getLsbD l = true ∧ fpCause (fptrap s w.ctx) (x1 l).flags ≠ none) →
    m0 ||| m1 ≠ 0 →
    ∃ t q, exec (mk f) s = .next t ∧
      (getWarp t c k).absent = w.absent ||| (m0 ||| m1) ∧ (getWarp t c k).v = (due w r v).1.v ∧
      (getWarp t c k).run = some q ∧ q.idx = r.idx + 1 ∧ q.mask = r.mask &&& ~~~(m0 ||| m1) ∧
      (∀ l, (m0 ||| m1).getLsbD l = true → ∃ p ∈ (getCore t c).trapBuf, p.kind = .lane ∧ p.unit = .warp c k ∧ p.lane = l ∧ p.pc = r.pc.setWidth 64 ∧ p.widx = r.idx ∧
        p.wordv = v.word ∧ p.half = !m0.getLsbD l ∧
        fpCause (fptrap s w.ctx) (if m0.getLsbD l then x0 l else x1 l).flags = some p.cause.toNat ∧
        p.detail = BitVec.ofNat 32 (if m0.getLsbD l then x0 l else x1 l).flags) ∧
      ((f.h0 pop).pop ≠ 0 → LeftResult t c k (issueCycle r v + lat (f.h0 pop)) (.reg (f.h0 pop).d.toNat 1) (active w r v &&& ~~~m0) (fun l => (x0 l).bits)) ∧
      (f.h1.pop ≠ 0 → LeftResult t c k (issueCycle r v + lat f.h1) (.reg f.h1.d.toNat 1) (active w r v &&& ~~~m1) (fun l => (x1 l).bits))

/-! ### Long-latency words (spec/02 R25, spec/08 R163, R164) -/

/-- From state `b`, in which the word has issued, one operation more is in flight: it names its issuer, its word and its operands, none of its accesses
(one for each lane of `accd`, at the address `va` gives) is performed, and its flag counts one more. Memory, registers and every other unit are as in `b`. -/
structure Launched (b t : State) (u : UnitId) (i : Instr) (r : ClauseRun) (v : WView) (lanes accd : Mask) (va : Nat → W64) (xa xb xc : List W128) :
    Prop where
  op : ∃ o, t.ops = b.ops ++ [o] ∧ o.id = b.nextOp ∧ o.unit = u ∧ o.instr = i ∧ o.word = v.word ∧ o.pc = r.pc ∧ o.widx = r.idx ∧ o.lanes = lanes ∧
    o.phase = 0 ∧ o.wrote = 0 ∧ o.flag = v.flag.getD 0 ∧ o.ctx = (whoIs b u).ctx ∧ o.world = (whoIs b u).world ∧ o.sid = (whoIs b u).sid ∧
    o.handle = (whoIs b u).handle ∧ o.a = xa ∧ o.b = xb ∧ o.c = xc ∧
    o.accs.map LaneAcc.lane = (List.range 32).filter (fun l => accd.getLsbD l) ∧ ∀ a ∈ o.accs, a.va = va a.lane ∧ a.done = false
  next : t.nextOp = b.nextOp + 1
  flags : unitFlags t u = putC 0 (unitFlags b u) (v.flag.getD 0) (look 0 (unitFlags b u) (v.flag.getD 0) + 1)
  clause : getRun t u = getRun b u
  scalars : scalarRegs t u = scalarRegs b u
  vectors : ∀ c k, (getWarp t c k).v = (getWarp b c k).v ∧ (getWarp t c k).p = (getWarp b c k).p ∧ (getWarp t c k).w = (getWarp b c k).w ∧
    (getWarp t c k).frontier = (getWarp b c k).frontier ∧ (getWarp t c k).absent = (getWarp b c k).absent
  memory : t.mem = b.mem
  rest : t.regs = b.regs ∧ t.pairs = b.pairs ∧ t.copies = b.copies ∧ t.host = b.host ∧ t.gleaners = b.gleaners ∧ t.time = b.time ∧
    t.launch.slices = b.launch.slices ∧ t.launch.ctxs = b.launch.ctxs

/-- A vector word of warp `k` launches its operation over its active lanes. -/
def Launches (i : Instr) (s : State) (c k : Nat) (w : Warp) (r : ClauseRun) (v : WView) (accd : Mask) (va : Nat → W64) : Prop :=
  ∃ t, exec i s = .next t ∧ Launched (issued s c k w r v) t (.warp c k) i r v (active w r v) accd va (supplied w r v r.la v.a)
    (supplied w r v r.lb v.b) (supplied w r v r.lc v.c)

/-- A scalar word launches its operation. `b` is the state in which it has issued and, for a memory access, been translated. -/
def ScalarLaunches (i : Instr) (s b : State) (u : UnitId) (r : ClauseRun) (v : WView) (accd : Mask) (va : W64) : Prop :=
  ∃ t, exec i s = .next t ∧ Launched b t u i r v 1 accd (fun _ => va) (scalarVals (scalarRegs s u) v.a) (scalarVals (scalarRegs s u) v.b)
    (scalarVals (scalarRegs s u) v.c)

/-- An address that R164's checks at issue pass: below 2^52, aligned to the access, and refused by no translation that a TLB of the unit holds for it. -/
def Reaches (i : Instr) (s : State) (u : UnitId) (va : W64) : Prop :=
  va.toNat < 2 ^ 52 ∧ va.toNat % accessBytes i = 0 ∧
  ∀ e ∈ tlbsFor s (unitX s u), tlbMatch (unitX s u).ctx va e = true → wordLeafCheck s (unitX s u) i e.leaf e.eaddr e.level = none

/-- A scalar unit's address that translates without a wait (for the die link, a grant or room for a record), with the page's checks passed and no refusal at its slice. -/
def ScalarReaches (i : Instr) (b : State) (u : UnitId) (va : W64) : Prop :=
  va.toNat < 2 ^ 52 ∧ va.toNat % accessBytes i = 0 ∧ (translate b (unitX b u) va (accessWrites i)).1.holds = [] ∧
  ∃ pa leaf, (translate b (unitX b u) va (accessWrites i)).2 = .ok pa leaf ∧
    scalarPrecheck (translate b (unitX b u) va (accessWrites i)).1 (unitX b u) i pa leaf = none ∧
    enrolLeaf (translate b (unitX b u) va (accessWrites i)).1 (unitX b u).phys i pa leaf
      (leafAt (translate b (unitX b u) va (accessWrites i)).1 (unitX b u) va).1
      (leafAt (translate b (unitX b u) va (accessWrites i)).1 (unitX b u) va).2 = none ∧
    queueLeaf i leaf (leafAt (translate b (unitX b u) va (accessWrites i)).1 (unitX b u) va).1
      (leafAt (translate b (unitX b u) va (accessWrites i)).1 (unitX b u) va).2 = none

/-- A word whose lanes each access the address in operand A. -/
def LaneWordIf (mk : Full → Instr) (op : Nat) (ok : State → Full → Prop) : Prop :=
  ∀ s c k w r f, Ready s c k w r (viewFull op f .vector r) → ok s f →
    (∀ l < 32, (active w r (viewFull op f .vector r)).getLsbD l = true → Reaches (mk f) s (.warp c k) (BitVec.ofNat 64 (opA w r (viewFull op f .vector r) l))) →
    Launches (mk f) s c k w r (viewFull op f .vector r) (active w r (viewFull op f .vector r))
      (fun l => BitVec.ofNat 64 (opA w r (viewFull op f .vector r) l))

def LaneWord (mk : Full → Instr) (op : Nat) : Prop := LaneWordIf mk op (fun _ _ => True)

/-- The same word of a scalar unit. -/
def ScalarLaneWordIf (mk : Full → Instr) (op : Nat) (ok : State → Full → Prop) : Prop :=
  ∀ s u r f, ScalarReady s u r (viewFull op f u.kind r) → ok s f →
    ScalarReaches (mk f) (scalarStep s u r) u (BitVec.ofNat 64 (sopA s u (viewFull op f u.kind r))) →
    ScalarLaunches (mk f) s (translate (scalarStep s u r) (unitX s u) (BitVec.ofNat 64 (sopA s u (viewFull op f u.kind r))) (accessWrites (mk f))).1 u r
      (viewFull op f u.kind r) 1 (BitVec.ofNat 64 (sopA s u (viewFull op f u.kind r)))

def ScalarLaneWord (mk : Full → Instr) (op : Nat) : Prop := ScalarLaneWordIf mk op (fun _ _ => True)

/-- A word that makes one access for all its active lanes, at the lowest active lane's operand A. -/
def OneWord (mk : Full → Instr) (op : Nat) : Prop :=
  ∀ s c k w r f, Ready s c k w r (viewFull op f .vector r) →
    ∀ l, (active w r (viewFull op f .vector r)).getLsbD l = true → (∀ j < l, (active w r (viewFull op f .vector r)).getLsbD j = false) →
    Reaches (mk f) s (.warp c k) (BitVec.ofNat 64 (opA w r (viewFull op f .vector r) l)) →
    Launches (mk f) s c k w r (viewFull op f .vector r) (BitVec.ofNat 32 (2 ^ l)) (fun _ => BitVec.ofNat 64 (opA w r (viewFull op f .vector r) l))

/-- A word whose operation makes no access of its own at issue. -/
def BareWord (mk : Full → Instr) (op : Nat) (ok : State → UnitId → Full → Prop) : Prop :=
  (∀ s c k w r f, Ready s c k w r (viewFull op f .vector r) → ok s (.warp c k) f →
    Launches (mk f) s c k w r (viewFull op f .vector r) 0 (fun _ => 0)) ∧
  (∀ s u r f, ScalarReady s u r (viewFull op f u.kind r) → ok s u f →
    ScalarLaunches (mk f) s (scalarStep s u r) u r (viewFull op f u.kind r) 0 0)

/-- Every operation in flight is numbered below the next. -/
def OpsNumbered (s : State) : Prop := ∀ o ∈ s.ops, o.id < s.nextOp

/-! ### System registers -/

/-- PART of SREAD (R45). -/
def partOf (part v : Nat) : Nat := if part = 1 then v % 2 ^ 32 else if part = 2 then v / 2 ^ 32 else v

/-- The value an SWRITE writes: operand A, or its low half (R45). -/
def written (f : Full) (a : Nat) : W64 := if modF f 5 4 = 1 then BitVec.ofNat 64 (a % 2 ^ 32) else BitVec.ofNat 64 a

/-! ### Matrix and gleaning words -/

/-- The part that a matrix word of warp `k` brings to its pair (spec/12 R241, R247): Z of an MGRP from its w pair, where the warp's writes stood at MRDY, and its issue cycle. -/
def partFor (s : State) (c k : Nat) (w : Warp) (i : Instr) (at_ : Nat) : MPart :=
  { op := s.nextOp, core := c, slot := k, handle := w.handle, num := w.num, instr := i, z := groupZ w i, rdySeq := w.rdySeq, wrAt := w.wrAtRdy,
    lost := w.rdyLost, issueAt := at_, world := w.world }

/-- The records that a GRES in progress is to resolve (spec/22 R375). -/
def resolved (s : State) (id : Nat) : List TrapRec := s.gleaners.flatMap (fun g => (g.2.resolving.filter (fun r => r.1 = id)).map Prod.snd)

/-- A sheaf's warp-level trap ends it (spec/22 R371): its slot is free, and its record, addressed to its slice's thread, stands at its core. -/
def SheafEnds (s t : State) (c k : Nat) (r : ClauseRun) (v : WView) (cause : Byte) : Prop :=
  getWarp t c k = Warp.reset ∧ (∀ j, j ≠ k → getWarp t c j = getWarp s c j) ∧ ∃ q ∈ (getCore t c).trapBuf, q.kind = .warp ∧ q.cause = cause ∧ q.direct = true ∧
    q.pc = r.pc.setWidth 64 ∧ q.wordv = v.word ∧ q.widx = r.idx

/-- The place a record's thread resumes at (spec/22 R373): at the word again, or after it. -/
def placeAfter (q : TrapRec) (replay : Bool) : Addr × Nat :=
  if replay then (q.pc.setWidth 52, if q.widx = 15 then 0 else q.widx)
  else if q.widx + 1 < q.count then (q.pc.setWidth 52, q.widx + 1)
  else (BitVec.ofNat 52 (q.pc.toNat + 8 * (q.count + 1)), 0)


/-! ### Register writes with rows of their own (spec/02 R45, spec/95) -/

/-- The write that a row event performs: what its scalar unit has posted, or the host's oldest; `t` is the state without it. -/
def Taken (s : State) (src : WSrc) (n : Nat) (v : W64) (t : State) : Prop := match src with
  | .unit (.front c k) => (getFront s c k).posted = some (n, v) ∧ t = setFront s c k { getFront s c k with posted := none }
  | .unit (.thread q) => (getThread s q).posted = some (n, v) ∧ t = setThread s q { getThread s q with posted := none }
  | .unit (.warp _ _) => False
  | .host => ∃ rest, s.host.regq = (n, v) :: rest ∧ t = { s with host := { s.host with regq := rest } }

/-- The row of the `n` registers from `lo`: where `ok` holds of the state without the write, the register's index and the value, the write's effect
is `g`. -/
def RowWrite (mk : WSrc → Instr) (lo n : Nat) (ok : State → Nat → W64 → Prop) (g : State → Nat → W64 → State) : Prop :=
  ∀ s src i v t, i < n → Taken s src (lo + i) v t → ok t i v → exec (mk src) s = .next (g t i v)

/-- A row of a thread's own register. -/
def ThreadRow (mk : WSrc → Instr) (n : Nat) (ok : Thread → W64 → Prop) (g : Thread → W64 → Thread) : Prop :=
  ∀ s q v, (getThread s q).posted = some (n, v) → ok (getThread s q) v →
    exec (mk (.unit (.thread q))) s = .next (setThread (setThread s q { getThread s q with posted := none }) q (g { getThread s q with posted := none } v))

/-- The registers changed by `g`, nothing else. -/
def withRegs (s : State) (g : Regs → Regs) : State := { s with regs := g s.regs }

/-- The words of a format window's and a retention range's registers (spec/04 R73, spec/05 R101). -/
def fwctlOf (s : State) (i : Nat) : W64 := look 0 s.regs.fwctl i
def retctlOf (s : State) (i : Nat) : W64 := look 0 s.regs.retctl i

/-- The removal of thread `q`'s TLB invalidation: the cached translations that `gone` picks, and the cached table entries that `path` picks, have left every core's and
every die's TLB and walk cache; nothing else of the machine has changed but the threads' own TLBs. -/
def Invalidated (s t : State) (q : Nat) (gone : TlbEnt → Bool) (path : WalkEnt → Bool) : Prop :=
  (getThread t q).tlbicmd = (getThread s q).tlbicmd ∧ (getThread t q).tlbiTime = some s.turnNo ∧
  (getThread t q).s = (getThread s q).s ∧ (getThread t q).pc = (getThread s q).pc ∧
  (∀ c, (getCore t c).tlb = (getCore s c).tlb.filter (fun e => !gone e) ∧ (getCore t c).warps = (getCore s c).warps ∧
    (getCore t c).fronts = (getCore s c).fronts ∧ (getCore t c).stash = (getCore s c).stash) ∧
  (∀ d e, d ∈ t.mem.tlbs → e ∈ d.2 → gone e = false) ∧ (∀ d e, d ∈ t.mem.walkc → e ∈ d.2 → path e = false) ∧
  t.mem.dram = s.mem.dram ∧ t.mem.fabric = s.mem.fabric ∧ t.mem.l2 = s.mem.l2 ∧ t.regs = s.regs ∧ t.launch = s.launch ∧ t.ops = s.ops ∧ t.pairs = s.pairs

/-- A unit's access of register `n` need not wait for the die link (spec/24 R401; where the module's registers stand is the model's choice, log 18). -/
def Near (s : State) (u : UnitId) (n : Nat) : Prop := s.regs.dlstat.getLsbD 0 = true ∨ regDie n = none ∨ regDie n = some (unitDie u)

/-- The bytes of window `i` and of its scale region (spec/04 R74), from a word of its control register: first byte, and the byte after the last. -/
def windowAt (s : State) (i : Nat) (v : W64) : Nat × Nat := (4096 * fld v 51 12, 4096 * fld (look 0 s.regs.fwlim i) 51 12 + 4096)
def scaleAt (s : State) (i : Nat) (v : W64) : Nat × Nat :=
  let lo := 128 * fld (look 0 s.regs.fwscale i) 51 7
  (lo, lo + 2 * (((windowAt s i v).2 - (windowAt s i v).1) / (if fld v 3 2 = 1 then 32 else 16)))

/-- Wholly inside one DRAM aperture; without a byte in common. -/
def InAperture (s : State) (p : Nat × Nat) : Prop := (rangeOf s p.1).isDram = true ∧ rangeOf s p.1 = rangeOf s (p.2 - 1)
def Apart (a b : Nat × Nat) : Prop := a.2 ≤ b.1 ∨ b.2 ≤ a.1

/-- R75: a write that sets EN passes every check. Only D8 and D4 have a scale region. -/
def Enables (s : State) (i : Nat) (v : W64) : Prop :=
  let scaled : W64 → Prop := fun x => fld x 3 2 = 1 ∨ fld x 3 2 = 2
  fld v 3 2 ≠ 3 ∧ (windowAt s i v).1 < (windowAt s i v).2 ∧ InAperture s (windowAt s i v) ∧
  (scaled v → InAperture s (scaleAt s i v) ∧ Apart (windowAt s i v) (scaleAt s i v)) ∧
  ∀ j < 16, j ≠ i → (fwctlOf s j).getLsbD 0 = true → Apart (windowAt s i v) (windowAt s j (fwctlOf s j)) ∧
    (scaled (fwctlOf s j) → Apart (windowAt s i v) (scaleAt s j (fwctlOf s j)))

/-- A port enters a state with a reason (spec/28 R431). -/
def portIn (s : State) (p st reason : Nat) : State := withRegs s (fun r => { r with
  portctl := putC 0 r.portctl p ((look 0 r.portctl p &&& ~~~0xF1E#64) ||| BitVec.ofNat 64 (2 * st + 256 * reason)), portAt := putC 0 r.portAt p s.time })

/-- Its EN bit. -/
def portEn (s : State) (p e : Nat) : State := withRegs s (fun r => { r with
  portctl := putC 0 r.portctl p ((look 0 r.portctl p &&& ~~~1#64) ||| BitVec.ofNat 64 e) })

/-- Thread 0 is told of a port or of the die link (spec/24 R387). -/
def linkNote (s : State) : State := setThread s 0 { getThread s 0 with wakest := (getThread s 0).wakest ||| 32 }

/-! ### Operations in flight -/

/-- Operation `o` is in flight (phase 0: not performed; 1: performed), the one operation of its number and of its unit, and its unit still stands. -/
structure InFlight (s : State) (o : Op) (phase : Nat) : Prop where
  mem : o ∈ s.ops
  only : ∀ p ∈ s.ops, p = o ∨ (p.id ≠ o.id ∧ p.unit ≠ o.unit)
  phase : o.phase = phase
  owner : ownerHere s o = true

/-- It makes one access, translated to `pa`, not performed, on an open-world page or on one of key-handle entry `e`. -/
structure OneAccess (s : State) (o : Op) (a : LaneAcc) (pa : Nat) (e : Option Nat) : Prop where
  flight : InFlight s o 0
  accs : o.accs = [a]
  addr : a.pa = some pa
  todo : a.done = false
  lanes : o.lanes = BitVec.ofNat 32 (2 ^ a.lane)
  lane : a.lane < 32
  wrote : o.wrote = 0
  buffers : o.bufs = []
  key : leafEntry a.leaf = e
  aligned : pa % accessBytes o.instr = 0
  granted : pa / 128 ∈ o.granted
  served : sliceRefuses s (opReq s o a) = none
  clean : poisoned s (pa / 128) = false

/-- The home slice holds the access's line in way `k`, with its sector valid, and a granule that no node counts. -/
structure Held (s : State) (o : Op) (a : LaneAcc) (pa k : Nat) : Prop where
  found : findL2 s (opReq s o a).die (pa / 128) = some k
  valid : (getL2 s k).valid.getLsbD (pa % 128 / 32) = true
  plain : (getGranule s (pa / 4096)).v = false

/-- From `s` to `t` the line `la` alone has changed, as its home slice and memory give it, outside `n` bytes from `off` not even that line; registers,
launch, the host and every other unit's state are as before. -/
structure LineOnly (s t : State) (die la off n : Nat) : Prop where
  bytes : ∀ j < 128, j < off ∨ off + n ≤ j → fieldOfLine (lineNow t die la) j 1 = fieldOfLine (lineNow s die la) j 1
  lines : ∀ d l, l ≠ la → lineNow t d l = lineNow s d l
  dram : t.mem.dram = s.mem.dram
  fabric : t.mem.fabric = s.mem.fabric
  rest : t.regs = s.regs ∧ t.launch = s.launch ∧ t.host = s.host ∧ t.pairs = s.pairs ∧ t.copies = s.copies ∧ t.gleaners = s.gleaners

/-- The operation has been performed with the value `v` in its lane. -/
def PerformedWith (t : State) (id lane v : Nat) : Prop := ∃ o, findOp t id = some o ∧ o.phase = 1 ∧ nth o.res lane = BitVec.ofNat 128 v

/-- aop(m, x) of spec/08 R172 for the integer types of `n` bits. -/
def atomOf (aop t m x : Nat) : Nat :=
  match aop with
  | 0 => (m + x) % 2 ^ width t
  | 1 => if value t m ≤ value t x then m else x
  | 2 => if value t m ≤ value t x then x else m
  | 3 => m &&& x
  | 4 => m ||| x
  | 5 => m ^^^ x
  | 6 => x
  | _ => if x ≤ m then 0 else (m + 1) % 2 ^ width t

/-- The operation is over: gone, its flag's count one less. -/
def Retired (s t : State) (o : Op) : Prop :=
  findOp t o.id = none ∧ unitFlags t o.unit = putC 0 (unitFlags s o.unit) o.flag (flagCount s o.unit o.flag - 1)

/-- The answer `res` has reached the operation's unit, in every lane, and the operation is over. -/
def Answered (s t : State) (o : Op) (res : List W128) : Prop :=
  Retired s t o ∧ ∀ c k, o.unit = .warp c k → (getWarp t c k).v = (match instrDst o.instr with
    | some (d, n) => if d.toNat < 320 then (writeLate (getWarp s c k) d.toNat n o.lanes res).v else (getWarp s c k).v
    | none => (getWarp s c k).v)

/-! ### Clause boundaries -/

/-- The order of R306: greater key first, then lower PC, then lower word. -/
def Before (s : State) (c : Nat) (a b : FEntry) : Prop :=
  entryKey s c b.pc < entryKey s c a.pc ∨
  (entryKey s c b.pc = entryKey s c a.pc ∧ (a.pc.toNat < b.pc.toNat ∨ (a.pc = b.pc ∧ a.word < b.word)))

/-- `e` is the entry that the warp issues next, and one overlay slot alone holds its clause. -/
structure First (s : State) (c : Nat) (w : Warp) (e : FEntry) (i : Nat) : Prop where
  mem : e ∈ w.frontier
  once : w.frontier.count e = 1
  first : ∀ x ∈ w.frontier, x ≠ e → Before s c e x
  code : codeSlots s c e.pc = [i]

/-- R24: a header that no unit of this kind may begin. -/
def BadHeader (hdr : W64) (pc : Addr) (scalar : Bool) : Prop :=
  fld hdr 63 37 ≠ 0 ∨ fld hdr 25 22 = 0 ∨ (hdr.getLsbD 16 = true ∧ 11 < fld hdr 15 12) ∨ (hdr.getLsbD 21 = true ∧ 11 < fld hdr 20 17) ∨
  (hdr.getLsbD 16 = false ∧ fld hdr 15 12 ≠ 0) ∨ (hdr.getLsbD 21 = false ∧ fld hdr 20 17 ≠ 0) ∨
  (hdr.getLsbD 16 = true ∧ hdr.getLsbD 21 = true ∧ fld hdr 15 12 = fld hdr 20 17) ∨ (hdr.getLsbD 26 = true ∧ hdr.getLsbD 27 = true) ∨
  hdr.getLsbD 26 ≠ scalar ∨ 2 ^ 16 ≤ pc.toNat % 2 ^ 16 + 8 * fld hdr 25 22

/-- Every flag of the WAIT field is clear (R23). -/
def WaitClear (m : SMap Nat) (hdr : W64) : Prop := ∀ f < 12, hdr.getLsbD f = true → look 0 m f = 0

/-- The clause's words as its slot holds them. -/
def clauseWords (s : State) (c i : Nat) (pc : Addr) (hdr : W64) : List W64 :=
  (List.range (fld hdr 25 22)).map (fun j => slotWord s c i (pc + BitVec.ofNat 52 (8 * (j + 1))))

/-- The warp is ready (R344): live, in no clause, neither parked nor stopped, with an entry, of a sheaf or of a team that runs (R404). -/
structure WarpReady (s : State) (w : Warp) : Prop where
  live : w.live = true
  free : w.run = none
  up : w.stopped = false ∧ w.parked = false
  entries : w.frontier ≠ []
  team : w.sheaf.isSome = true ∨ ∃ m, findTeam s w.handle = some m ∧ m.st = .running ∧ m.saved = false

/-- A ready warp of the issue slot goes before another (R344). -/
def Urgent (s : State) (p w : Warp) : Prop :=
  let aged : Warp → Prop := fun x => x.waiting + 256 ≤ s.cyc
  let key : Warp → List Nat := fun x => [x.yieldWord.toNat, x.bcnt, x.yieldHint.toNat, x.admitted]
  (aged p ∧ (¬ aged w ∨ p.waiting < w.waiting)) ∨ (¬ aged p ∧ ¬ aged w ∧ List.Lex (· < ·) (key p) (key w))

/-- The warp stands at a clause boundary with its issue slot to itself: no clause in progress there, no other ready warp, no rejoin to take and room for a
record at its core. -/
structure Boundary (s : State) (c k : Nat) (w : Warp) : Prop where
  warp : getWarp s c k = w
  ready : WarpReady s w
  rejoins : w.rejoins = []
  room : bufferFull s c = false
  alone : ∀ p ∈ (getCore s c).warps, p.1 % 4 = k % 4 → p.1 ≠ k → p.2.live = false ∨ (p.2.run = none ∧ (p.2.parked = true ∨ p.2.stopped = true))

/-- The clause of header `hdr` at `pc` has begun: its words, its first issuing word, its lanes; latches and outstanding results empty (R38, R192). -/
def Begun (q : ClauseRun) (hdr : W64) (pc : Addr) (words : List W64) (idx skip : Nat) (mask : Mask) : Prop :=
  q.hdr = hdr ∧ q.pc = pc ∧ q.words = words ∧ q.idx = idx ∧ q.skip = skip ∧ q.mask = mask ∧ q.la = none ∧ q.lb = none ∧ q.lc = none ∧ q.pend = [] ∧
  q.branches = [] ∧ q.exits = 0 ∧ q.target = none ∧ q.push = none ∧ q.pops = false ∧ q.halts = false ∧ q.yielded = false

/-- Where a scalar clause leaves its unit (R299-R301): the next clause, a branch's target, a call with the address after the clause pushed, or the
newest address of the stack. -/
def leftAt (stack : List Addr) (r : ClauseRun) : Addr × List Addr :=
  let next : Addr := r.pc + BitVec.ofNat 52 (8 * (fld r.hdr 25 22 + 1))
  if r.pops then (match stack.reverse with
    | a :: rest => (a, rest.reverse)
    | [] => (next, []))
  else (match r.target with
    | some a => a
    | none => next, match r.push with
    | some a => stack ++ [a]
    | none => stack)

/-- Bits of a completion record (R312). -/
def teamRecord (sum : ExitSum) (cause time : Nat) : Nat :=
  sum.maxst % 256 + 2 ^ 8 * cause + 2 ^ 32 * (sum.nz % 2 ^ 32) + 2 ^ 64 * (sum.low % 2 ^ 32) + 2 ^ 96 * (sum.threads % 2 ^ 32) + 2 ^ 128 * (time % 2 ^ 64)

/-! ### The machine's invariant -/

/-- The reserved bits of the module's registers, and of a thread's SLICESTAT, SLICECMD and TLBICMD, read 0 (R46, R69, R86, R113, R295, R327, R328, R355,
R399, R412, R414). -/
def ReservedZero (s : State) : Prop :=
  s.regs.memsplit &&& 0x7FFFFFFFFFFFFE00#64 = 0 ∧ s.regs.treebase &&& 0xFFF00000003FFFFC#64 = 0 ∧ s.regs.leasecfg &&& 0xFFFFFFFFFFFF0000#64 = 0 ∧
  s.regs.swapcfg &&& 0xFFFFFFFF00000000#64 = 0 ∧ s.regs.tilctl &&& 0xFFFFFFFFFFFFFFFC#64 = 0 ∧ s.regs.imgpool &&& 0xFFF000000000FFE0#64 = 0 ∧
  s.regs.qrcfg &&& 0xFFF0000000000FE0#64 = 0 ∧ s.regs.worldtab &&& 0xFFF00000000003FE#64 = 0 ∧ s.regs.ctxcmd &&& 0xFFFFFFFF0000FFF9#64 = 0 ∧
  ∀ q, (getThread s q).slicestat &&& 0xFFFFFFFFFFFF00F9#64 = 0 ∧ (getThread s q).slicecmd &&& 0x00F0000000000039#64 = 0 ∧
    (getThread s q).tlbicmd &&& 0xFFFFFFFF0000FCF9#64 = 0

/-- What every step keeps: byte memories, stashes and overlay code in canonical form; operations numbered below the next; each map of State in order of
its keys, so that reading after writing is the plain law; p7 never stored, so that it reads as R33 says; reserved bits 0. -/
structure MachineInv (s : State) : Prop where
  memory : MemoryOk s
  stash : ∀ c, Memory.wf (getCore s c).stash = true
  code : ∀ c i, Memory.wf (getSlot s c i).code = true
  numbered : OpsNumbered s
  maps : rising 0 s.cores = true ∧ rising 0 s.threads = true ∧ rising 0 s.pairs = true ∧ rising 0 s.mem.l2 = true ∧ rising 0 s.host.keys = true ∧
    rising 0 s.host.savectr = true
  units : ∀ c, rising 0 (getCore s c).warps = true ∧ rising 0 (getCore s c).fronts = true
  warps : ∀ c k, rising 0 (getWarp s c k).v = true ∧ rising 0 (getWarp s c k).p = true ∧ rising 0 (getWarp s c k).w = true ∧ look 0 (getWarp s c k).p 7 = 0
  scalars : ∀ u, rising 0 (scalarRegs s u) = true
  reserved : ReservedZero s

/-! ### Opcodes -/

/-- The dashes of R41. -/
def reservedOps : List Nat := [0x1F, 0x4F, 0x56, 0x57, 0x6D, 0x6E, 0x6F, 0x76, 0x77, 0x7F]

end Sys2Proof.Claims

open Sys2Proof Sys2Proof.Machine Sys2Proof.Claims

/-- spec/11 R214: the integer arithmetic words, exact until the last step, on all four integer types. No flag is raised, nothing traps, and nothing else
of the machine changes. -/
def Obligations.IntegerArithmetic : Prop :=
  IntWord .add 0x20 2 (fun t f a b _ => outcome t (modB f 4) (value t a + value t b)) ∧
  IntWord .sub 0x21 2 (fun t f a b _ => outcome t (modB f 4) (value t a - value t b)) ∧
  IntWord .mul 0x22 4 (fun t f a b _ => outcome t (modB f 4) (value t a * value t b)) ∧
  IntWord .mulhi 0x23 4 (fun t _ a b _ => wrapped t ((value t a * value t b) / 2 ^ width t)) ∧
  IntWord .mad 0x24 4 (fun t _ a b c => wrapped t (value t a * value t b + value t c)) ∧
  IntWord .min 0x25 2 (fun t _ a b _ => wrapped t (min (value t a) (value t b))) ∧
  IntWord .max 0x26 2 (fun t _ a b _ => wrapped t (max (value t a) (value t b))) ∧
  IntWord .abs 0x27 2 (fun t f a _ _ => outcome t (modB f 4) |value t a|) ∧
  IntWord .neg 0x28 2 (fun t f a _ _ => outcome t (modB f 4) (-value t a))

/-- spec/11 R215 where no active lane traps (no zero divisor, or IDZE of the context clear): quotient and remainder truncate toward zero; a zero divisor
gives 0 and the dividend. -/
def Obligations.IntegerDivision : Prop :=
  ∀ s c k w r f, isIntT f.ty.toNat = true →
    (Ready s c k w r (viewFull 0x29 f .vector r) →
      (∀ l < 32, (active w r (viewFull 0x29 f .vector r)).getLsbD l = true → value f.ty.toNat (opB w r (viewFull 0x29 f .vector r) l) = 0 →
        (fptrap s w.ctx).getLsbD 3 = false) →
      Results (.div f) s c k w r (viewFull 0x29 f .vector r) (if width f.ty.toNat = 64 then 40 else 20) (vdst f.dst (typeRegs f.ty.toNat))
        (fun l =>
          let a := value f.ty.toNat (opA w r (viewFull 0x29 f .vector r) l)
          let b := value f.ty.toNat (opB w r (viewFull 0x29 f .vector r) l)
          if b = 0 then 0 else wrapped f.ty.toNat (a.tdiv b))) ∧
    (Ready s c k w r (viewFull 0x2A f .vector r) →
      (∀ l < 32, (active w r (viewFull 0x2A f .vector r)).getLsbD l = true → value f.ty.toNat (opB w r (viewFull 0x2A f .vector r) l) = 0 →
        (fptrap s w.ctx).getLsbD 3 = false) →
      Results (.rem f) s c k w r (viewFull 0x2A f .vector r) (if width f.ty.toNat = 64 then 40 else 20) (vdst f.dst (typeRegs f.ty.toNat))
        (fun l =>
          let a := value f.ty.toNat (opA w r (viewFull 0x2A f .vector r) l)
          let b := value f.ty.toNat (opB w r (viewFull 0x2A f .vector r) l)
          if b = 0 then wrapped f.ty.toNat a else wrapped f.ty.toNat (a - b * a.tdiv b)))

/-- spec/11 R216, R217: the address, bit, shift and field words on every bit and integer type; SHL and SHR past the width give what the exact product or
quotient gives; a field word's bits. That POPC and CLZ of b64 write one 32-bit register is the model's choice (log 14). -/
def Obligations.AddressAndBitWords : Prop :=
  BitWord .lea 0x2B 2 (fun _ => 1) (fun _ f a b _ => (a + b * 2 ^ modF f 4 1) % 2 ^ 32) ∧
  BitWord .lea64 0x2C 2 (fun _ => 2) (fun t f a b _ => wrapped 7 (a + value t b * 2 ^ modF f 4 1)) ∧
  BitWord .popc 0x2E 2 (fun _ => 1) (fun t _ a _ _ => ((List.range (bitWidth t)).filter (fun i => a.testBit i)).length) ∧
  BitWord .clz 0x2F 2 (fun _ => 1) (fun t _ a _ _ => bitWidth t - (a % 2 ^ bitWidth t).size) ∧
  BitWord .and 0x30 2 typeRegs (fun t _ a b _ => (a &&& b) % 2 ^ bitWidth t) ∧
  BitWord .or 0x31 2 typeRegs (fun t _ a b _ => (a ||| b) % 2 ^ bitWidth t) ∧
  BitWord .xor 0x32 2 typeRegs (fun t _ a b _ => (a ^^^ b) % 2 ^ bitWidth t) ∧
  BitWord .not 0x33 2 typeRegs (fun t _ a _ _ => 2 ^ bitWidth t - 1 - a % 2 ^ bitWidth t) ∧
  BitWord .shl 0x34 2 typeRegs (fun t _ a b _ => a * 2 ^ b % 2 ^ bitWidth t) ∧
  BitWord .shr 0x35 2 typeRegs (fun t _ a b _ => wrapped t (value t a / 2 ^ b)) ∧
  BitWord .bfe 0x36 2 typeRegs (fun t _ a b _ => extracted t a b) ∧
  BitWord .bfi 0x37 2 typeRegs (fun t _ a b c => bfi (bitWidth t) a b c) ∧
  (∀ n a b c i, (n = 32 ∨ n = 64) → i < n → (bfi n a b c).testBit i =
    if b % 256 ≤ i ∧ i < b % 256 + b / 256 % 256 then a.testBit (i - b % 256) else c.testBit i)

/-- spec/11 R221: the integer I-forms of a vector clause, modulo 2^32. -/
def Obligations.ImmediateWords : Prop :=
  ImmWord .addImm 0x38 2 (fun a i => (a + i) % 2 ^ 32) ∧
  ImmWord .mulImm 0x39 4 (fun a i => a * i % 2 ^ 32) ∧
  ImmWord .andImm 0x3A 2 (fun a i => a % 2 ^ 32 &&& i) ∧
  ImmWord .orImm 0x3B 2 (fun a i => a % 2 ^ 32 ||| i) ∧
  ImmWord .xorImm 0x3C 2 (fun a i => a % 2 ^ 32 ^^^ i) ∧
  ImmWord .shlImm 0x3D 2 (fun a i => if 32 ≤ i then 0 else a * 2 ^ i % 2 ^ 32) ∧
  ImmWord .shrImm 0x3E 2 (fun a i => if 32 ≤ i then 0 else a % 2 ^ 32 / 2 ^ i)

/-- spec/11 R220: the moves, in both kinds of clause. SEL reads the predicate as of the issue cycle. -/
def Obligations.MoveWords : Prop :=
  BitWord .mov 0x50 2 typeRegs (fun t _ a _ _ => a % 2 ^ (32 * typeRegs t)) ∧
  (∀ s c k w r f, Ready s c k w r (viewFull 0x51 f .vector r) →
    Results (.sel f) s c k w r (viewFull 0x51 f .vector r) 2 (vdst f.dst (typeRegs f.ty.toNat))
      (fun l => (if f.sc = 7 ∨ (look 0 (due w r (viewFull 0x51 f .vector r)).1.p f.sc.toNat).getLsbD l = true
        then opA w r (viewFull 0x51 f .vector r) l else opB w r (viewFull 0x51 f .vector r) l) % 2 ^ (32 * typeRegs f.ty.toNat))) ∧
  ImmWord .movImm 0x3F 2 (fun _ i => i) ∧
  (∀ k f, legalImm 0x3F k f = true → f.sa = 0) ∧
  ScalarWord .mov 0x50 typeRegs (fun _ _ _ _ => True) (fun t _ a _ _ => a % 2 ^ (32 * typeRegs t)) ∧
  ScalarWord .sel 0x51 typeRegs (fun _ _ _ _ => True) (fun t _ a b c => (if c ≠ 0 then a else b) % 2 ^ (32 * typeRegs t)) ∧
  ScalarImm .movImm 0x3F (fun _ i => i)

/-- spec/11 R212: the integer and bit words of a scalar clause, on s registers, with the extension of a 32-bit result; SSETP writes 1 or 0; SDIV and
SREM where they do not trap. -/
def Obligations.ScalarWords : Prop :=
  ScalarWord .add 0x20 typeRegs (fun _ _ _ _ => True) (fun t f a b _ => extended t (outcome t (modB f 4) (value t a + value t b))) ∧
  ScalarWord .sub 0x21 typeRegs (fun _ _ _ _ => True) (fun t f a b _ => extended t (outcome t (modB f 4) (value t a - value t b))) ∧
  ScalarWord .mul 0x22 typeRegs (fun _ _ _ _ => True) (fun t f a b _ => extended t (outcome t (modB f 4) (value t a * value t b))) ∧
  ScalarWord .mulhi 0x23 typeRegs (fun _ _ _ _ => True) (fun t _ a b _ => extended t (wrapped t ((value t a * value t b) / 2 ^ width t))) ∧
  ScalarWord .mad 0x24 typeRegs (fun _ _ _ _ => True) (fun t _ a b c => extended t (wrapped t (value t a * value t b + value t c))) ∧
  ScalarWord .min 0x25 typeRegs (fun _ _ _ _ => True) (fun t _ a b _ => extended t (wrapped t (min (value t a) (value t b)))) ∧
  ScalarWord .max 0x26 typeRegs (fun _ _ _ _ => True) (fun t _ a b _ => extended t (wrapped t (max (value t a) (value t b)))) ∧
  ScalarWord .abs 0x27 typeRegs (fun _ _ _ _ => True) (fun t f a _ _ => extended t (outcome t (modB f 4) |value t a|)) ∧
  ScalarWord .neg 0x28 typeRegs (fun _ _ _ _ => True) (fun t f a _ _ => extended t (outcome t (modB f 4) (-value t a))) ∧
  ScalarWord .div 0x29 typeRegs (fun s u f v => value f.ty.toNat (sopB s u v) = 0 → (trapEnables s u).getLsbD 3 = false)
    (fun t _ a b _ => extended t (if value t b = 0 then 0 else wrapped t ((value t a).tdiv (value t b)))) ∧
  ScalarWord .rem 0x2A typeRegs (fun s u f v => value f.ty.toNat (sopB s u v) = 0 → (trapEnables s u).getLsbD 3 = false)
    (fun t _ a b _ => extended t (if value t b = 0 then wrapped t (value t a) else wrapped t (value t a - value t b * (value t a).tdiv (value t b)))) ∧
  ScalarWord .lea 0x2B (fun _ => 1) (fun _ _ _ _ => True) (fun _ f a b _ => (a + b * 2 ^ modF f 4 1) % 2 ^ 32) ∧
  ScalarWord .lea64 0x2C (fun _ => 2) (fun _ _ _ _ => True) (fun t f a b _ => wrapped 7 (a + value t b * 2 ^ modF f 4 1)) ∧
  (∀ s u r f, ScalarReady s u r (viewFull 0x2D f u.kind r) →
    exec (.setp f) s = .next (writeScalar (scalarStep s u r) u 1 f.dst.toNat
      (if combined (modF f 2 1) (holds (modF f 7 5) (value f.ty.toNat (sopA s u (viewFull 0x2D f u.kind r))) (value f.ty.toNat (sopB s u (viewFull 0x2D f u.kind r))))
        (look 0 (scalarRegs s u) f.dst.toNat != 0) then 1 else 0))) ∧
  ScalarWord .popc 0x2E (fun _ => 1) (fun _ _ _ _ => True) (fun t _ a _ _ => ((List.range (bitWidth t)).filter (fun i => a.testBit i)).length) ∧
  ScalarWord .clz 0x2F (fun _ => 1) (fun _ _ _ _ => True) (fun t _ a _ _ => bitWidth t - (a % 2 ^ bitWidth t).size) ∧
  ScalarWord .and 0x30 typeRegs (fun _ _ _ _ => True) (fun t _ a b _ => (a &&& b) % 2 ^ bitWidth t) ∧
  ScalarWord .or 0x31 typeRegs (fun _ _ _ _ => True) (fun t _ a b _ => (a ||| b) % 2 ^ bitWidth t) ∧
  ScalarWord .xor 0x32 typeRegs (fun _ _ _ _ => True) (fun t _ a b _ => (a ^^^ b) % 2 ^ bitWidth t) ∧
  ScalarWord .not 0x33 typeRegs (fun _ _ _ _ => True) (fun t _ a _ _ => 2 ^ bitWidth t - 1 - a % 2 ^ bitWidth t) ∧
  ScalarWord .shl 0x34 typeRegs (fun _ _ _ _ => True) (fun t _ a b _ => a * 2 ^ b % 2 ^ bitWidth t) ∧
  ScalarWord .shr 0x35 typeRegs (fun _ _ _ _ => True) (fun t _ a b _ => extended t (wrapped t (value t a / 2 ^ b))) ∧
  ScalarWord .bfe 0x36 typeRegs (fun _ _ _ _ => True) (fun t _ a b _ => extended t (extracted t a b)) ∧
  ScalarWord .bfi 0x37 typeRegs (fun _ _ _ _ => True) (fun t _ a b c => bfi (bitWidth t) a b c) ∧
  ScalarImm .addImm 0x38 (fun a i => a + i) ∧ ScalarImm .mulImm 0x39 (fun a i => a * i) ∧ ScalarImm .andImm 0x3A (fun a i => a &&& i) ∧
  ScalarImm .orImm 0x3B (fun a i => a ||| i) ∧ ScalarImm .xorImm 0x3C (fun a i => a ^^^ i) ∧
  (∀ s u r f, ScalarReady s u r (viewImm 0x3D f u.kind r) → exec (.shlImm f) s = .next (writeScalar (scalarStep s u r) u 1 f.dst.toNat
    (BitVec.ofNat 128 (if 64 ≤ f.imm.toNat then 0 else sopA s u (viewImm 0x3D f u.kind r) * 2 ^ f.imm.toNat % 2 ^ 64)))) ∧
  (∀ s u r f, ScalarReady s u r (viewImm 0x3E f u.kind r) → exec (.shrImm f) s = .next (writeScalar (scalarStep s u r) u 1 f.dst.toNat
    (BitVec.ofNat 128 (if 64 ≤ f.imm.toNat then 0 else sopA s u (viewImm 0x3E f u.kind r) / 2 ^ f.imm.toNat))))

/-- spec/11 R218: SETP on integer types writes the compare, combined with the old bit as read at issue, to the active lanes' bits of the predicate. -/
def Obligations.IntegerCompare : Prop :=
  ∀ s c k w r f, isIntT f.ty.toNat = true → Ready s c k w r (viewFull 0x2D f .vector r) →
    Results (.setp f) s c k w r (viewFull 0x2D f .vector r) 2 (.pred f.dst.toNat)
      (fun l => if combined (modF f 2 1)
        (holds (modF f 7 5) (value f.ty.toNat (opA w r (viewFull 0x2D f .vector r) l)) (value f.ty.toNat (opB w r (viewFull 0x2D f .vector r) l)))
        ((readPred (due w r (viewFull 0x2D f .vector r)).1 f.dst.toNat).getLsbD l) then 1 else 0)

/-- spec/11 R222, R224, R218, R221: the floating words that round once, on all four formats, with the rounding mode and FTZ of the word, where no lane
takes an enabled trap. That a function gives the exact result rounded once is stated by FloatingResultsRoundOnce. -/
def Obligations.FloatingWords : Prop :=
  FloatWord .add 0x20 (fun t => if t = 11 then 8 else 4) (fun g rm ftz _ a b _ => fadd g rm ftz a b) ∧
  FloatWord .sub 0x21 (fun t => if t = 11 then 8 else 4) (fun g rm ftz _ a b _ => fsub g rm ftz a b) ∧
  FloatWord .mul 0x22 (fun t => if t = 11 then 8 else 4) (fun g rm ftz _ a b _ => fmul g rm ftz a b) ∧
  FloatWord .fma 0x40 (fun t => if t = 11 then 8 else 4) (fun g rm ftz f a b c => ffma g rm ftz (modB f 4) (modB f 5) a b c) ∧
  FloatWord .div 0x29 (fun t => if t = 11 then 40 else 20) (fun g rm ftz _ a b _ => fdiv g rm ftz a b) ∧
  FloatWord .min 0x25 (fun t => if t = 11 then 8 else 4) (fun g _ ftz _ a b _ => fminmax g ftz false a b) ∧
  FloatWord .max 0x26 (fun t => if t = 11 then 8 else 4) (fun g _ ftz _ a b _ => fminmax g ftz true a b) ∧
  FloatWord .abs 0x27 (fun t => if t = 11 then 8 else 4) (fun g _ ftz _ a _ _ => fsign g ftz false a) ∧
  FloatWord .neg 0x28 (fun t => if t = 11 then 8 else 4) (fun g _ ftz _ a _ _ => fsign g ftz true a) ∧
  (∀ s c k w r f, Ready s c k w r (viewImm 0x4D f .vector r) →
    FloatResults (.addF32Imm f) s c k w r (viewImm 0x4D f .vector r) 4 (vdst f.dst 1)
      (fun l => fadd f32 f.mi.toNat false (opA w r (viewImm 0x4D f .vector r) l) f.imm.toNat)) ∧
  (∀ s c k w r f, Ready s c k w r (viewImm 0x4E f .vector r) →
    FloatResults (.mulF32Imm f) s c k w r (viewImm 0x4E f .vector r) 4 (vdst f.dst 1)
      (fun l => fmul f32 f.mi.toNat false (opA w r (viewImm 0x4E f .vector r) l) f.imm.toNat)) ∧
  (∀ s c k w r f, isFltT f.ty.toNat = true → Ready s c k w r (viewFull 0x2D f .vector r) →
    FloatResults (.setp f) s c k w r (viewFull 0x2D f .vector r) (if f.ty.toNat = 11 then 8 else 4) (.pred f.dst.toNat)
      (fun l =>
        let a := fdec (fmtOf f.ty.toNat) (ftzIn (fmtOf f.ty.toNat) (modB f 3) (opA w r (viewFull 0x2D f .vector r) l))
        let b := fdec (fmtOf f.ty.toNat) (ftzIn (fmtOf f.ty.toNat) (modB f 3) (opB w r (viewFull 0x2D f .vector r) l))
        { bits := if combined (modF f 2 1) (cmpHolds (modF f 7 5) (fcmp a b)) ((readPred (due w r (viewFull 0x2D f .vector r)).1 f.dst.toNat).getLsbD l)
            then 1 else 0
          flags := if isSig a ∨ isSig b then 1 else 0 }))

/-- spec/11 R225, R226, spec/10 R208, R210: the transcendental words, FRND, FCLASS and the conversions of one value, where no lane takes an enabled trap.
That a function gives the exact result rounded once is stated by FloatingResultsRoundOnce. -/
def Obligations.TranscendentalAndConversionWords : Prop :=
  FloatWord .rcp 0x41 (fun t => if t = 11 then 24 else 12) (fun g rm ftz _ a _ _ => frcp g rm ftz a) ∧
  FloatWord .rsq 0x42 (fun t => if t = 11 then 24 else 12) (fun g rm ftz _ a _ _ => frsq g rm ftz a) ∧
  FloatWord .sqrt 0x43 (fun t => if t = 11 then 24 else 12) (fun g rm ftz _ a _ _ => fsqrt g rm ftz a) ∧
  FloatWord .exp2 0x44 (fun t => if t = 11 then 24 else 12) (fun g rm ftz _ a _ _ => fexp2 g rm ftz a) ∧
  FloatWord .log2 0x45 (fun t => if t = 11 then 24 else 12) (fun g rm ftz _ a _ _ => flog2 g rm ftz a) ∧
  FloatWord .sin 0x46 (fun t => if t = 11 then 24 else 12) (fun g rm ftz _ a _ _ => ftrig false g rm ftz a) ∧
  FloatWord .cos 0x47 (fun t => if t = 11 then 24 else 12) (fun g rm ftz _ a _ _ => ftrig true g rm ftz a) ∧
  FloatWord .frnd 0x48 (fun _ => 4) (fun g rm ftz _ a _ _ => ffrnd g rm ftz a) ∧
  BitWord .fclass 0x49 4 (fun _ => 1) (fun t f a _ _ => 2 ^ fclass (fmtOf t) (modB f 3) a) ∧
  (∀ s c k w r f, Ready s c k w r (viewFull 0x4A f .vector r) →
    FloatResults (.cvt f) s c k w r (viewFull 0x4A f .vector r) 4 (vdst f.dst (typeRegs f.ty.toNat))
      (fun l => cvtVal f.ty.toNat (modF f 7 4) (modF f 2 1) (modB f 3)
        (if modB f 8 then opA w r (viewFull 0x4A f .vector r) l / 2 ^ 16 else opA w r (viewFull 0x4A f .vector r) l))) ∧
  (∀ s c k w r f, Ready s c k w r (viewFull 0x4C f .vector r) →
    FloatResults (.cvtx f) s c k w r (viewFull 0x4C f .vector r) 4 (vdst f.dst 1)
      (fun l => if modB f 7 then cvtxPack f.ty.toNat (modF f 2 1) (modB f 3) (opA w r (viewFull 0x4C f .vector r) l) (opB w r (viewFull 0x4C f .vector r) l)
        else cvtxDecode (modB f 6) (modF f 2 1) (modB f 3) (opA w r (viewFull 0x4C f .vector r) l) (opB w r (viewFull 0x4C f .vector r) l)))

/-- spec/11 R228, R229, R230, spec/10 R209, spec/11 R231: the words that combine lanes, in a warp that has not diverged, and PRMT. REDUX without .scan
gives every active lane the total of the fixed tree, with .scan the serial prefix, for every operation of every type, with the flags of every step. -/
def Obligations.WarpWideWords : Prop :=
  (∀ s c k w r f, Ready s c k w r (viewFull 0x52 f .vector r) → Converged w →
    Results (.shfl f) s c k w r (viewFull 0x52 f .vector r) 6 (vdst f.dst (typeRegs f.ty.toNat))
      (fun l => shuffled (modF f 2 1) (32 / 2 ^ modF f 5 3) l (opB w r (viewFull 0x52 f .vector r) l) (opA w r (viewFull 0x52 f .vector r))
        (opC w r (viewFull 0x52 f .vector r) l) % 2 ^ (32 * typeRegs f.ty.toNat))) ∧
  (∀ s c k w r f, Ready s c k w r (viewFull 0x53 f .vector r) → Converged w →
    Results (.vote f) s c k w r (viewFull 0x53 f .vector r) 4 (if modF f 3 1 < 4 then vdst f.dst 1 else .pred f.dst.toNat)
      (fun l => voted (modF f 3 1) l (readPred (due w r (viewFull 0x53 f .vector r)).1 f.sa.toNat &&& active w r (viewFull 0x53 f .vector r))
        (active w r (viewFull 0x53 f .vector r)))) ∧
  (∀ s c k w r f, Ready s c k w r (viewFull 0x54 f .vector r) → Converged w → ∃ vals fl,
    exec (.redux f) s = .next (posted s c k w r (viewFull 0x54 f .vector r) 6 (vdst f.dst 1) (active w r (viewFull 0x54 f .vector r)) vals fl) ∧
    let op := reduceStep f.ty.toNat (modF f 7 5) (modF f 2 1) (modB f 3)
    let x : Nat → Option FR := fun l => if (active w r (viewFull 0x54 f .vector r)).getLsbD l = true
      then some (contributed f.ty.toNat (modB f 3) (opA w r (viewFull 0x54 f .vector r) l)) else none
    (modB f 4 = false → fl = BitVec.ofNat 5 (slotOf (treeSlot op x 5 0)).flags ∧ ∀ l < 32, (active w r (viewFull 0x54 f .vector r)).getLsbD l = true →
      nth vals l = BitVec.ofNat 128 (slotOf (treeSlot op x 5 0)).bits) ∧
    (modB f 4 = true → fl = BitVec.ofNat 5 (slotOf (prefixSlot op x 32)).flags ∧ ∀ l < 32, (active w r (viewFull 0x54 f .vector r)).getLsbD l = true →
      nth vals l = BitVec.ofNat 128 (slotOf (prefixSlot op x (l + 1))).bits)) ∧
  (∀ s c k w r f, Ready s c k w r (viewFull 0x4B f .vector r) → Converged w →
    FloatResults (.cvtd f) s c k w r (viewFull 0x4B f .vector r) 4 (vdst f.dst 2)
      (fun l =>
        let blk := cvtdBlock (f.ty.toNat = 13) (modF f 8 5) (active w r (viewFull 0x4B f .vector r)) ((List.range 32).map (fun j =>
          if (active w r (viewFull 0x4B f .vector r)).getLsbD j then ftzIn f32 (modB f 3) (opA w r (viewFull 0x4B f .vector r) j) else 0))
        { bits := blk.2.1.getD l 0 + 2 ^ 32 * blk.1, flags := blk.2.2.getD l 0 })) ∧
  BitWord .prmt 0x55 2 (fun _ => 1) (fun _ f a b c => prmtVal (modB f 1) a b c)

/-- spec/11 R227, spec/12 R240, spec/02 R40: a warp-wide or matrix word of a warp with lanes in another entry takes ILLSTATE with the diverged lanes, precisely. -/
def Obligations.DivergedWarpTraps : Prop :=
  ∀ i op f, (i = Instr.shfl f ∧ op = 0x52) ∨ (i = .vote f ∧ op = 0x53) ∨ (i = .redux f ∧ op = 0x54) ∨ (i = .cvtd f ∧ op = 0x4B) ∨
      (i = .mma f ∧ op = 0x70) ∨ (i = .mmaj f ∧ op = 0x71) ∨ (i = .mgrp f ∧ op = 0x73) ∨ (i = .mzero f ∧ op = 0x74) ∨ (i = .mdrain f ∧ op = 0x75) →
    ∀ s c k w r, Ready s c k w r (viewFull op f .vector r) → r.idx < 15 → w.sheaf = none → ¬ Converged w →
      ∃ t, exec i s = .next t ∧ Stopped s t c k w r (viewFull op f .vector r) 0x21 (w.frontier.foldl (fun m e => m ||| e.mask) 0)

/-- spec/02 R33, R38, R39: a word of any form with no active lane has no effect of its own, legal or not: it takes its issue cycles, and a legal one
loads its latches. -/
def Obligations.InactiveWord : Prop :=
  ∀ i s c k w r v, viewOf i .vector r = some v → s.cur = some (.warp c k) → getWarp s c k = w → w.run = some r → active w r v = 0 →
    exec i s = .next (after s c k w r v (fun q => if v.legal then q else { q with la := none, lb := none, lc := none }))

/-- spec/02 R39, R40, R43, spec/22 R362: an illegal word with an active lane, and every word of a reserved opcode, takes ILLINS and stops its warp at the
word, with every earlier fixed-latency result written. -/
def Obligations.IllegalWordTraps : Prop :=
  (∀ i s c k w r v, viewOf i .vector r = some v → s.cur = some (.warp c k) → getWarp s c k = w → w.run = some r → r.idx < 15 → w.sheaf = none →
    active w r v ≠ 0 → v.legal = false → ∃ t, exec i s = .next t ∧ Stopped s t c k w r v 0x20 0) ∧
  (∀ i s u r v, viewOf i u.kind r = some v → s.cur = some u → u.kind ≠ .vector → getRun s u = some r → v.legal = false →
    ∃ t, exec i s = .next t ∧ StoppedScalar s t u r v 0x20 0) ∧
  (∀ w k r, viewOf (.reservedOpcode w) k r = some (viewReserved w k r) ∧ (viewReserved w k r).legal = false)

/-- spec/09 R182, spec/22 R365: a legal word that names a vector register at or above the warp's budget takes ILLSTATE and writes nothing; its DETAIL is the diverged lanes
for a warp-wide word, else 0. -/
def Obligations.BudgetTraps : Prop :=
  ∀ i s c k w r v, viewOf i .vector r = some v → s.cur = some (.warp c k) → getWarp s c k = w → w.run = some r → r.idx < 15 → w.sheaf = none →
    active w r v ≠ 0 → v.legal = true → (∃ g ∈ v.named, w.budget ≤ g) → ∃ t, exec i s = .next t ∧
      Stopped s t c k w r v 0x21 (if wholeWarp v.word = true then w.frontier.foldl (fun m e => m ||| e.mask) 0 else 0)

/-- spec/02 R25: a word whose flag counts 63 is held at issue: it issues again one cycle later, and nothing else happens. -/
def Obligations.FullFlagHolds : Prop :=
  (∀ i s c k w r v g, viewOf i .vector r = some v → s.cur = some (.warp c k) → getWarp s c k = w → w.run = some r → active w r v ≠ 0 →
    v.legal = true → (∀ g ∈ v.named, g < w.budget) → v.flag = some g → 63 ≤ flagCount s (.warp c k) g →
    exec i s = .next (setWarp s c k { (due w r v).1 with run := some { (due w r v).2 with cyc := r.cyc + 1 } })) ∧
  (∀ i s u r v g, viewOf i u.kind r = some v → s.cur = some u → u.kind ≠ .vector → getRun s u = some r → v.legal = true → v.flag = some g →
    63 ≤ flagCount s u g → exec i s = .next (setRun s u (some { r with cyc := r.cyc + 1 })))

/-- spec/09 R188, R189: a result is written at its due cycle and not before; of two due together that need one bank, the earlier-issued is written first
and the other a cycle later. -/
def Obligations.ResultsWrittenWhenDue : Prop :=
  (∀ c w r p, r.pend = [p] → r.written ≤ p.due → r.written ≤ c + 1 →
    drainTo c w r = if p.due ≤ c then (applyPend w p, { r with pend := [], written := c + 1 }) else (w, { r with written := c + 1 })) ∧
  (∀ w r p q, p.seq < q.seq → (r.pend = insertPend q [p] ∨ r.pend = insertPend p [q]) → r.written ≤ p.due → q.due = p.due → (∃ b ∈ p.banks, b ∈ q.banks) →
    drainTo p.due w r = (applyPend w p, { r with pend := [q], written := p.due + 1 }) ∧
    drainTo (p.due + 1) w r = (applyPend (applyPend w p) q, { r with pend := [], written := p.due + 2 }))

/-- spec/09 R181, R188, spec/02 R28, R30, R33; spec/11 R212: writing a result changes the named registers in the named lanes and no other register or lane; a predicate
write changes its lanes, and p7 discards it. R212: a scalar result changes its one s register (two for a 128-bit one) and no other state of the unit. -/
def Obligations.ResultRegisters : Prop :=
  (∀ w p x n g l, rising 0 w.v = true → p.dst = .reg x n → l < 32 →
    lane (look 0 (applyPend w p).v g) l =
      if x ≤ g ∧ g < x + n ∧ p.lanes.getLsbD l = true then (nth p.vals l).extractLsb' (32 * (g - x)) 32 else lane (look 0 w.v g) l) ∧
  (∀ w p x n, p.dst = .reg x n → (applyPend w p).p = w.p ∧ (applyPend w p).w = w.w ∧ (applyPend w p).flags = w.flags ∧
    (applyPend w p).fpstat = w.fpstat ||| p.flags) ∧
  (∀ w p q l, rising 0 w.p = true → p.dst = .pred q → q ≠ 7 → l < 32 → (applyPend w p).v = w.v ∧ ∀ j,
    (readPred (applyPend w p) j).getLsbD l = if j = q ∧ p.lanes.getLsbD l = true then nth p.vals l != 0 else (readPred w j).getLsbD l) ∧
  (∀ w p, p.dst = .pred 7 ∨ p.dst = .discard → applyPend w p = { w with fpstat := w.fpstat ||| p.flags }) ∧
  (∀ s u n x v, u.kind ≠ .vector → rising 0 (scalarRegs s u) = true → x < 64 →
    (∀ g, look 0 (scalarRegs (writeScalar s u n x v) u) g = if g = x then v.setWidth 64 else if n = 4 ∧ g = x + 1 then v.extractLsb' 64 64
      else look 0 (scalarRegs s u) g) ∧
    getRun (writeScalar s u n x v) u = getRun s u ∧ unitFlags (writeScalar s u n x v) u = unitFlags s u ∧ unitStack (writeScalar s u n x v) u = unitStack s u ∧
    (writeScalar s u n x v).mem = s.mem ∧ (writeScalar s u n x v).regs = s.regs)

/-- spec/11 R215, spec/10 R205, spec/22 R363-R365: an integer division by zero with IDZE set detaches the lane with a record of IDIVZ, which
writes no destination; the other lanes' result is outstanding. In a scalar clause it stops the context. -/
def Obligations.LanesTrap : Prop :=
  (∀ s c k w r f, isIntT f.ty.toNat = true → w.sheaf = none → (fptrap s w.ctx).getLsbD 3 = true →
    (Ready s c k w r (viewFull 0x29 f .vector r) →
      (∃ l < 32, (active w r (viewFull 0x29 f .vector r)).getLsbD l = true ∧ value f.ty.toNat (opB w r (viewFull 0x29 f .vector r) l) = 0) →
      ∃ t m, exec (.div f) s = .next t ∧ Detached s t c k w r (viewFull 0x29 f .vector r) m (fun _ => 1) (fun _ => 0) (fun _ => 0) ∧
        (∀ l < 32, m.getLsbD l = true ↔ (active w r (viewFull 0x29 f .vector r)).getLsbD l = true ∧
          value f.ty.toNat (opB w r (viewFull 0x29 f .vector r) l) = 0) ∧
        LeftResult t c k (issueCycle r (viewFull 0x29 f .vector r) + if width f.ty.toNat = 64 then 40 else 20) (vdst f.dst (typeRegs f.ty.toNat))
          (active w r (viewFull 0x29 f .vector r) &&& ~~~m)
          (fun l => wrapped f.ty.toNat ((value f.ty.toNat (opA w r (viewFull 0x29 f .vector r) l)).tdiv (value f.ty.toNat (opB w r (viewFull 0x29 f .vector r) l))))) ∧
    (Ready s c k w r (viewFull 0x2A f .vector r) →
      (∃ l < 32, (active w r (viewFull 0x2A f .vector r)).getLsbD l = true ∧ value f.ty.toNat (opB w r (viewFull 0x2A f .vector r) l) = 0) →
      ∃ t m, exec (.rem f) s = .next t ∧ Detached s t c k w r (viewFull 0x2A f .vector r) m (fun _ => 1) (fun _ => 0) (fun _ => 0) ∧
        (∀ l < 32, m.getLsbD l = true ↔ (active w r (viewFull 0x2A f .vector r)).getLsbD l = true ∧
          value f.ty.toNat (opB w r (viewFull 0x2A f .vector r) l) = 0) ∧
        LeftResult t c k (issueCycle r (viewFull 0x2A f .vector r) + if width f.ty.toNat = 64 then 40 else 20) (vdst f.dst (typeRegs f.ty.toNat))
          (active w r (viewFull 0x2A f .vector r) &&& ~~~m)
          (fun l => wrapped f.ty.toNat (value f.ty.toNat (opA w r (viewFull 0x2A f .vector r) l) - value f.ty.toNat (opB w r (viewFull 0x2A f .vector r) l) * (value f.ty.toNat (opA w r (viewFull 0x2A f .vector r) l)).tdiv (value f.ty.toNat (opB w r (viewFull 0x2A f .vector r) l)))))) ∧
  (∀ s u r f op, (op = 0x29 ∨ op = 0x2A) → ScalarReady s u r (viewFull op f u.kind r) → value f.ty.toNat (sopB s u (viewFull op f u.kind r)) = 0 →
    (trapEnables s u).getLsbD 3 = true → ∃ t, exec (if op = 0x29 then .div f else .rem f) s = .next t ∧
      StoppedScalar (scalarStep s u r) t u r (viewFull op f u.kind r) 1 0)

/-- spec/02 R35-R37, R44, spec/11 R232, spec/10 R205: the thirteen paired words. A half that raises an enabled exception traps its lane, and that lane's other half still
writes its result; of a lane that both halves trap the record is half 0's (the model's choice, log 14). -/
def Obligations.PairedWords : Prop :=
  PairWord .pairNop 0 ∧ PairWord .pairAdd 1 ∧ PairWord .pairSub 2 ∧ PairWord .pairRsub 3 ∧ PairWord .pairMul 4 ∧ PairWord .pairMin 5 ∧
  PairWord .pairMax 6 ∧ PairWord .pairAnd 7 ∧ PairWord .pairOr 8 ∧ PairWord .pairXor 9 ∧ PairWord .pairShl 10 ∧ PairWord .pairShr 11 ∧
  PairWord .pairMov 12 ∧
  PairTraps .pairNop 0 ∧ PairTraps .pairAdd 1 ∧ PairTraps .pairSub 2 ∧ PairTraps .pairRsub 3 ∧ PairTraps .pairMul 4 ∧ PairTraps .pairMin 5 ∧
  PairTraps .pairMax 6 ∧ PairTraps .pairAnd 7 ∧ PairTraps .pairOr 8 ∧ PairTraps .pairXor 9 ∧ PairTraps .pairShl 10 ∧ PairTraps .pairShr 11 ∧
  PairTraps .pairMov 12

/-- spec/15 R314. -/
def Obligations.NopWord : Prop :=
  (∀ k f, legalFull 0 k f = true ↔ 
    (f.dst = 0 ∧ f.sa = 0 ∧ f.sb = 0 ∧ f.sc = 0 ∧ f.ha = false ∧ f.hb = false ∧ f.hc = false ∧ f.ty = 0 ∧ f.md = 0 ∧ f.fsel = false) ∧ (k ≠ .vector → f.pred = 7 ∧ f.pneg = false)) ∧
  (∀ s c k w r f, Ready s c k w r (viewFull 0 f .vector r) → exec (.nop f) s = .next (issued s c k w r (viewFull 0 f .vector r))) ∧
  (∀ s u r f, ScalarReady s u r (viewFull 0 f u.kind r) → exec (.nop f) s = .next (scalarStep s u r))

/-- spec/15 R299-R301: the scalar transfers: a word notes its transfer for the clause's end; a misaligned target or a full stack traps; RET on an empty
stack halts a core's context and traps a thread. That a BRC not taken ignores a misaligned target is the model's choice (log 14). -/
def Obligations.ScalarTransfers : Prop :=
  (∀ s u r f, ScalarReady s u r (viewFull 1 f u.kind r) →
    if (targetOf r.pc (sopA s u (viewFull 1 f u.kind r))).toNat % 8 = 0 then
      exec (.bra f) s = .next (setRun s u (some { r with idx := r.idx + 1, cyc := r.cyc + 1, target := some (targetOf r.pc (sopA s u (viewFull 1 f u.kind r))) }))
    else ∃ t, exec (.bra f) s = .next t ∧ StoppedScalar (scalarStep s u r) t u r (viewFull 1 f u.kind r) 0x21 0) ∧
  (∀ s u r f, ScalarReady s u r (viewFull 2 f u.kind r) →
    if decide (sopB s u (viewFull 2 f u.kind r) = 0) ≠ modB f 1 then exec (.brc f) s = .next (scalarStep s u r)
    else if (targetOf r.pc (sopA s u (viewFull 2 f u.kind r))).toNat % 8 = 0 then
      exec (.brc f) s = .next (setRun s u (some { r with idx := r.idx + 1, cyc := r.cyc + 1, target := some (targetOf r.pc (sopA s u (viewFull 2 f u.kind r))) }))
    else ∃ t, exec (.brc f) s = .next t ∧ StoppedScalar (scalarStep s u r) t u r (viewFull 2 f u.kind r) 0x21 0) ∧
  (∀ s u r f, ScalarReady s u r (viewFull 3 f u.kind r) →
    if (unitStack s u).length < 16 ∧ (targetOf r.pc (sopA s u (viewFull 3 f u.kind r))).toNat % 8 = 0 then
      exec (.call f) s = .next (setRun s u (some { r with
        idx := r.idx + 1, cyc := r.cyc + 1, target := some (targetOf r.pc (sopA s u (viewFull 3 f u.kind r))),
        push := some (BitVec.ofNat 52 (r.pc.toNat + 8 * (hdrCount r.hdr + 1))) }))
    else ∃ t, exec (.call f) s = .next t ∧ StoppedScalar (scalarStep s u r) t u r (viewFull 3 f u.kind r) 0x21 0) ∧
  (∀ s u r f, ScalarReady s u r (viewFull 4 f u.kind r) → unitStack s u ≠ [] →
    exec (.ret f) s = .next (setRun s u (some { r with idx := r.idx + 1, cyc := r.cyc + 1, pops := true }))) ∧
  (∀ s c k r f, ScalarReady s (.front c k) r (viewFull 4 f .core r) → (getFront s c k).stack = [] →
    exec (.ret f) s = .next (setRun s (.front c k) (some { r with idx := r.idx + 1, cyc := r.cyc + 1, halts := true }))) ∧
  (∀ s q r f, ScalarReady s (.thread q) r (viewFull 4 f .sp r) → (getThread s q).stack = [] →
    ∃ t, exec (.ret f) s = .next t ∧ StoppedScalar (scalarStep s (.thread q) r) t (.thread q) r (viewFull 4 f .sp r) 0x21 0)

/-- spec/15 R299, R310, R311, R313: VBR groups the active lanes by target for the clause's end, or traps the warp; EXIT and YIELD note their lanes. -/
def Obligations.VectorTransfers : Prop :=
  (∀ s c k w r f, Ready s c k w r (viewFull 6 f .vector r) →
    (∀ l < 32, (active w r (viewFull 6 f .vector r)).getLsbD l = true → (targetOf r.pc (opA w r (viewFull 6 f .vector r) l)).toNat % 8 = 0) →
    ∃ bs, exec (.vbr f) s = .next (after s c k w r (viewFull 6 f .vector r) (fun q => { q with branches := bs })) ∧ (bs.map Prod.fst).Nodup ∧
      ∀ t l, l < 32 → ((∃ m, (t, m) ∈ bs ∧ m.getLsbD l = true) ↔
        (active w r (viewFull 6 f .vector r)).getLsbD l = true ∧ targetOf r.pc (opA w r (viewFull 6 f .vector r) l) = t)) ∧
  (∀ s c k w r f, Ready s c k w r (viewFull 6 f .vector r) → r.idx < 15 → w.sheaf = none →
    (∃ l < 32, (active w r (viewFull 6 f .vector r)).getLsbD l = true ∧ (targetOf r.pc (opA w r (viewFull 6 f .vector r) l)).toNat % 8 ≠ 0) →
    ∃ t, exec (.vbr f) s = .next t ∧ Stopped s t c k w r (viewFull 6 f .vector r) 0x21 0) ∧
  (∀ s c k w r f, Ready s c k w r (viewFull 7 f .vector r) →
    ∃ st, exec (.exit f) s = .next (after s c k w r (viewFull 7 f .vector r)
      (fun q => { q with exits := active w r (viewFull 7 f .vector r), exitSt := st })) ∧ ∀ l < 32, st.getD l 0 = opA w r (viewFull 7 f .vector r) l % 256) ∧
  (∀ s c k w r f, Ready s c k w r (viewFull 8 f .vector r) →
    exec (.yield f) s = .next (after s c k w r (viewFull 8 f .vector r) (fun q => { q with yielded := true })))

/-- spec/22 R379: TRAP. -/
def Obligations.TrapWord : Prop :=
  (∀ s c k w r f, Ready s c k w r (viewFull 9 f .vector r) → w.sheaf = none →
    ∃ t, exec (.trap f) s = .next t ∧ Detached s t c k w r (viewFull 9 f .vector r) (active w r (viewFull 9 f .vector r)) (fun _ => 8)
      (fun l => BitVec.ofNat 32 (opA w r (viewFull 9 f .vector r) l)) (fun _ => 0)) ∧
  (∀ s u r f, ScalarReady s u r (viewFull 9 f u.kind r) →
    ∃ t, exec (.trap f) s = .next t ∧ StoppedScalar (scalarStep s u r) t u r (viewFull 9 f u.kind r) 8 (BitVec.ofNat 32 (sopA s u (viewFull 9 f u.kind r))))

/-- spec/15 R303: DQPUSH pushes one entry for the live warps it names; with none it completes; a full queue holds it; a bad control word or target traps. -/
def Obligations.DecisionPush : Prop :=
  ∀ s c k r f, ScalarReady s (.front c k) r (viewFull 5 f .core r) →
    let v := viewFull 5 f .core r
    let ctl := sopC s (.front c k) v
    let n := ctl / 2 ^ 52 % 16
    let b := ctl / 2 ^ 48 % 16
    let tgt := targetOf r.pc (sopA s (.front c k) v)
    let ok : Prop := ctl / 2 ^ 56 = 0 ∧ n ≤ 8 ∧ b + n ≤ 16 ∧ (modB f 1 = true → tgt.toNat % 8 = 0)
    let live : Nat → Prop := fun i => ∃ j x, (j, x) ∈ (getCore s c).warps ∧ x.live = true ∧ x.handle = (getFront s c k).handle ∧ x.sheaf = none ∧
      x.num / teamCores s x.handle = i
    (¬ ok → ∃ t, exec (.dqpush f) s = .next t ∧ StoppedScalar (scalarStep s (.front c k) r) t (.front c k) r v 0x21 0) ∧
    (ok → (∀ i < 48, ctl.testBit i = true → ¬ live i) → exec (.dqpush f) s = .next (scalarStep s (.front c k) r)) ∧
    (ok → (∃ i < 48, ctl.testBit i = true ∧ live i) → 32 ≤ (getFront s c k).dq.length →
      exec (.dqpush f) s = .next (setRun s (.front c k) (some { r with cyc := r.cyc + 1 }))) ∧
    (ok → (∃ i < 48, ctl.testBit i = true ∧ live i) → (getFront s c k).dq.length < 32 →
      ∃ e, exec (.dqpush f) s = .next (setFront s c k { getFront s c k with
          run := some { r with idx := r.idx + 1, cyc := r.cyc + 1 }, dq := (getFront s c k).dq ++ [e] }) ∧
        e.target = (if modB f 1 then some tgt else none) ∧ e.vbase = b ∧ e.vals.length = n ∧
        (∀ i < 48, e.mask.getLsbD i = true ↔ ctl.testBit i = true ∧ live i) ∧
        (∀ i < n, e.vals.getD i 0 = BitVec.ofNat 32 ((look 0 (getFront s c k).s (f.sb.toNat + i / 2)).toNat / 2 ^ (32 * (i % 2)))))

/-- spec/02 R45, R46: SREAD of a register the unit may read gives every active lane its value as of the issue cycle; any other takes ILLSTATE.
spec/24 R401: an access that must cross the die link while it is down waits; where the module's registers stand, and so which access must cross, is the model's choice, and so
is what waits of a read (log 18). -/
def Obligations.SystemReads : Prop :=
  (∀ s c k w r f, Ready s c k w r (viewFull 0x0C f .vector r) → sysReadOk (sysNum f) .vector = true → Near s (.warp c k) (sysNum f) →
    Results (.sread f) s c k w r (viewFull 0x0C f .vector r) 4 (vdst f.dst (if modF f 5 4 = 0 then 2 else 1))
      (fun _ => partOf (modF f 5 4) (sysRead (issued s c k w r (viewFull 0x0C f .vector r)) (.warp c k) (sysNum f)))) ∧
  (∀ s u r f, ScalarReady s u r (viewFull 0x0C f u.kind r) → sysReadOk (sysNum f) u.kind = true → Near s u (sysNum f) →
    exec (.sread f) s = .next (writeScalar (scalarStep s u r) u 1 f.dst.toNat
      (BitVec.ofNat 128 (partOf (modF f 5 4) (sysRead (scalarStep s u r) u (sysNum f)))))) ∧
  (∀ s c k w r f, Ready s c k w r (viewFull 0x0C f .vector r) → r.idx < 15 → w.sheaf = none → sysReadOk (sysNum f) .vector = false →
    ∃ t, exec (.sread f) s = .next t ∧ Stopped s t c k w r (viewFull 0x0C f .vector r) 0x21 0) ∧
  (∀ s u r f, ScalarReady s u r (viewFull 0x0C f u.kind r) → sysReadOk (sysNum f) u.kind = false →
    ∃ t, exec (.sread f) s = .next t ∧ StoppedScalar (scalarStep s u r) t u r (viewFull 0x0C f u.kind r) 0x21 0) ∧
  (∀ s u r f, ScalarReady s u r (viewFull 0x0C f u.kind r) → sysReadOk (sysNum f) u.kind = true → ¬ Near s u (sysNum f) →
    ∃ t, exec (.sread f) s = .next t ∧ .link ∈ t.holds) ∧
  (∀ s c k, sysRead s (.warp c k) 0x010 = (getWarp s c k).wctmax ∧ sysRead s (.warp c k) 0x011 = (getWarp s c k).fpstat.toNat ∧
    sysRead s (.warp c k) 0x013 = (getWarp s c k).dqt.toNat ∧ sysRead s (.warp c k) 0x012 = (fptrap s (getWarp s c k).ctx).toNat) ∧
  (∀ s q, sysRead s (.thread q) 0x018 = (getThread s q).wakest.toNat ∧ sysRead s (.thread q) 0x019 = (getThread s q).pending.length ∧
    sysRead s (.thread q) 0x01E = (getThread s q).sproot.toNat) ∧
  (∀ s u, sysRead s u 0x002 = s.time % 2 ^ 64 ∧ sysRead s u 0x020 = s.regs.memsplit.toNat ∧ sysRead s u 0x022 = s.regs.leasecfg.toNat ∧
    sysRead s u 0x02C = s.regs.dlstat.toNat ∧ ∀ i < 16, sysRead s u (0x200 + i) = (look 0 s.regs.portctl i).toNat)

/-- spec/02 R45, R46, R3: SWRITE: a unit that may not write the register takes ILLSTATE; FPSTAT takes the lowest active lane's low five bits; a plain
register of the module takes its writable bits; a register whose write is a row of the opcode table is posted at its unit for that row (the model's choice, log 15: a row of a
register that the unit itself holds, 0x010 to 0x01F, runs in the same step, as the step statement says; another at the unit's next turn). A register with copies on both dies
(spec/05 R94) is written with the die link up; where the module's registers stand is the model's choice (log 18). -/
def Obligations.SystemWrites : Prop :=
  (∀ s c k w r f l, Ready s c k w r (viewFull 0x0D f .vector r) → sysNum f = 0x011 → (active w r (viewFull 0x0D f .vector r)).getLsbD l = true →
    (∀ j < l, (active w r (viewFull 0x0D f .vector r)).getLsbD j = false) →
    exec (.swrite f) s = .next (setWarp s c k { (due w r (viewFull 0x0D f .vector r)).1 with
      run := some (stepped w r (viewFull 0x0D f .vector r)), fpstat := BitVec.ofNat 5 (opA w r (viewFull 0x0D f .vector r) l) })) ∧
  (∀ s c k w r f, Ready s c k w r (viewFull 0x0D f .vector r) → r.idx < 15 → w.sheaf = none → sysNum f ≠ 0x011 →
    ∃ t, exec (.swrite f) s = .next t ∧ Stopped s t c k w r (viewFull 0x0D f .vector r) 0x21 0) ∧
  (∀ s u r f, ScalarReady s u r (viewFull 0x0D f u.kind r) → sysWriteOk (sysNum f) u.kind = false →
    ∃ t, exec (.swrite f) s = .next t ∧ StoppedScalar (scalarStep s u r) t u r (viewFull 0x0D f u.kind r) 0x21 0) ∧
  (∀ s q r f, ScalarReady s (.thread q) r (viewFull 0x0D f .sp r) →
    let x := written f (sopA s (.thread q) (viewFull 0x0D f .sp r))
    let b := scalarStep s (.thread q) r
    (sysNum f = 0x022 → exec (.swrite f) s = .next { b with regs := { s.regs with leasecfg := x &&& 0xFFFF } }) ∧
    (sysNum f = 0x023 → exec (.swrite f) s = .next { b with regs := { s.regs with swapcfg := x &&& 0xFFFFFFFF } }) ∧
    (sysNum f = 0x024 → s.regs.dlstat.getLsbD 0 = true → exec (.swrite f) s = .next { b with regs := { s.regs with vcarb := x &&& 0xFFFFFF } }) ∧
    (sysNum f = 0x027 → exec (.swrite f) s = .next { b with regs := { s.regs with tilctl := x &&& 3 } }) ∧
    (sysNum f = 0x028 → exec (.swrite f) s = .next { b with regs := { s.regs with imgpool := x &&& 0x000FFFFFFFFF001F } }) ∧
    (sysNum f = 0x02E → exec (.swrite f) s = .next { b with regs := { s.regs with worldtab := x &&& 0x000FFFFFFFFFFC01 } }) ∧
    (∀ i < 32, sysNum f = 0x080 + i → s.regs.dlstat.getLsbD 0 = true → exec (.swrite f) s = .next { b with
      regs := { s.regs with sidway := putC Regs.sidwayReset s.regs.sidway i (x &&& 0xFFFFFFFF) } }) ∧
    (∀ i < 32, sysNum f = 0x0A0 + i → s.regs.dlstat.getLsbD 0 = true → ∃ t, exec (.swrite f) s = .next t ∧
      t.regs = { s.regs with sidbw := putC Regs.sidbwReset s.regs.sidbw i (x &&& 0xFF0001FF7F) } ∧
      getThread t q = getThread b q ∧ t.cores = s.cores ∧ t.mem.dram = s.mem.dram ∧ t.mem.l2 = s.mem.l2) ∧
    ((sysNum f = 0x024 ∨ (0x040 ≤ sysNum f ∧ sysNum f < 0x100)) → s.regs.dlstat.getLsbD 0 = false → ∃ t, exec (.swrite f) s = .next t ∧ .link ∈ t.holds) ∧
    (∀ i < 64, sysNum f = 0x100 + i → exec (.swrite f) s = .next { b with regs := { s.regs with hqbase := putC 0 s.regs.hqbase i (x &&& 0x000FFFFFFFFFF000) } }) ∧
    ((sysNum f = 0x00C ∨ sysNum f = 0x018 ∨ sysNum f = 0x01E ∨ sysNum f = 0x020 ∨ sysNum f = 0x021 ∨
      (((0x040 ≤ sysNum f ∧ sysNum f < 0x070) ∨ (0x0C0 ≤ sysNum f ∧ sysNum f < 0x100)) ∧ s.regs.dlstat.getLsbD 0 = true) ∨ (0x1C0 ≤ sysNum f ∧ sysNum f < 0x210)) →
      exec (.swrite f) s = .next (setThread s q { getThread s q with
        run := some { r with idx := r.idx + 1, cyc := r.cyc + 1 }, posted := some (sysNum f, x) })))

/-- spec/08 R163, R164, R167-R171: the memory words whose lanes each name an address, in every form: one operation in flight over the active lanes. -/
def Obligations.MemoryWordsIssue : Prop :=
  LaneWord .ld 0x58 ∧ LaneWord .ldd 0x5C ∧ LaneWord .std 0x5D ∧ LaneWord .ldacq 0x5E ∧ LaneWord .strel 0x5F ∧ LaneWord .atom 0x60 ∧
  LaneWord .cas 0x62 ∧ LaneWord .pref 0x67 ∧
  (∀ s c k w r f, Ready s c k w r (viewFull 0x59 f .vector r) → OpsNumbered s →
    (∀ l < 32, (active w r (viewFull 0x59 f .vector r)).getLsbD l = true →
      Reaches (.st f) s (.warp c k) (BitVec.ofNat 64 (opA w r (viewFull 0x59 f .vector r) l))) →
    Launches (.st f) s c k w r (viewFull 0x59 f .vector r) (active w r (viewFull 0x59 f .vector r))
      (fun l => BitVec.ofNat 64 (opA w r (viewFull 0x59 f .vector r) l))) ∧
  ScalarLaneWord .ld 0x58 ∧ ScalarLaneWord .st 0x59 ∧ ScalarLaneWord .ldacq 0x5E ∧ ScalarLaneWord .strel 0x5F ∧ ScalarLaneWord .atom 0x60 ∧
  ScalarLaneWord .cas 0x62 ∧ ScalarLaneWord .pref 0x67

/-- spec/08 R175, R176, R178, R180, spec/14 R283: WAITC and the queue words name one address, the lowest active lane's; FENCE, SMAP, SUNMAP, RETAIN and UNPIN issue an
operation over the active lanes that makes no access at issue. -/
def Obligations.QueueAndBareWordsIssue : Prop :=
  OneWord .waitc 0x64 ∧ OneWord .tqinit 0x78 ∧ OneWord .tqkill 0x79 ∧ OneWord .tqacq 0x7A ∧ OneWord .tqput 0x7B ∧ OneWord .tqget 0x7C ∧
  OneWord .tqret 0x7D ∧
  ScalarLaneWord .tqinit 0x78 ∧ ScalarLaneWord .tqkill 0x79 ∧ ScalarLaneWord .tqacq 0x7A ∧ ScalarLaneWord .tqput 0x7B ∧ ScalarLaneWord .tqget 0x7C ∧
  ScalarLaneWord .tqret 0x7D ∧
  BareWord .fence 0x63 (fun _ _ _ => True) ∧ BareWord .retain 0x68 (fun _ _ _ => True) ∧ BareWord .unpin 0x69 (fun _ _ _ => True) ∧
  BareWord .smap 0x65 (fun s u _ => isSheaf s u = false) ∧ BareWord .sunmap 0x66 (fun s u _ => isSheaf s u = false)

/-- spec/08 R157, R167, R171: the stash words, each lane's 32-bit offset aligned and inside the team's grant; a sheaf has no stash (spec/22 R371). -/
def Obligations.StashWordsIssue : Prop :=
  ∀ i op f, (i = Instr.lds f ∧ op = 0x5A) ∨ (i = .sts f ∧ op = 0x5B) ∨ (i = .atoms f ∧ op = 0x61) → ∀ s c k w r,
    Ready s c k w r (viewFull op f .vector r) →
    (w.sheaf = none →
      (∀ l < 32, (active w r (viewFull op f .vector r)).getLsbD l = true →
        opA w r (viewFull op f .vector r) l % 2 ^ 32 % accessBytes i = 0 ∧
        ∃ t ∈ s.launch.teams, findTeam s w.handle = some t ∧ t.stashBase ≤ opA w r (viewFull op f .vector r) l % 2 ^ 32 ∧
          opA w r (viewFull op f .vector r) l % 2 ^ 32 + accessBytes i ≤ t.stashBase + t.stashLen) →
      Launches i s c k w r (viewFull op f .vector r) (active w r (viewFull op f .vector r))
        (fun l => BitVec.ofNat 64 (opA w r (viewFull op f .vector r) l % 2 ^ 32))) ∧
    (w.sheaf = none → (∀ l < 32, (active w r (viewFull op f .vector r)).getLsbD l = true → opA w r (viewFull op f .vector r) l % 2 ^ 32 % accessBytes i ≠ 0) →
      ∃ t, exec i s = .next t ∧ Detached s t c k w r (viewFull op f .vector r) (active w r (viewFull op f .vector r)) (fun _ => 7)
        (fun _ => BitVec.ofNat 32 (accessCode i)) (fun l => BitVec.ofNat 64 (opA w r (viewFull op f .vector r) l % 2 ^ 32)))

/-- spec/10 R199-R202, R208, spec/11 R222, R223, R225: the results of the floating words on finite operands whose exact result is not zero are that exact result rounded once,
with its flags, in every format and every rounding mode, with and without FTZ. EXP2 and LOG2 are stated where the exact result is rational: elsewhere their values, with those
of SIN and COS, rest on log 10. -/
def Obligations.FloatingResultsRoundOnce : Prop :=
  ∀ g ∈ [f16, bf16, f32, f64], ∀ rm < 4, ∀ ftz a x, Reads g ftz a x →
    (∀ b y, Reads g ftz b y →
      (x + y ≠ 0 → RoundedOnce g rm ftz (x + y) (fadd g rm ftz a b)) ∧
      (x - y ≠ 0 → RoundedOnce g rm ftz (x - y) (fsub g rm ftz a b)) ∧
      (x * y ≠ 0 → RoundedOnce g rm ftz (x * y) (fmul g rm ftz a b)) ∧
      (x ≠ 0 → y ≠ 0 → RoundedOnce g rm ftz (x / y) (fdiv g rm ftz a b)) ∧
      (∀ c z np nc, Reads g ftz c z → (if np then -(x * y) else x * y) + (if nc then -z else z) ≠ 0 →
        RoundedOnce g rm ftz ((if np then -(x * y) else x * y) + (if nc then -z else z)) (ffma g rm ftz np nc a b c)) ∧
      (x + y = 0 → (fadd g rm ftz a b).flags = 0 ∧ ((fadd g rm ftz a b).bits = zeroBits g false ∨ (fadd g rm ftz a b).bits = zeroBits g true))) ∧
    (x ≠ 0 → RoundedOnce g rm ftz (1 / x) (frcp g rm ftz a)) ∧
    (0 < x → RoundedOnce g rm ftz (Real.sqrt x) (fsqrt g rm ftz a) ∧ RoundedOnce g rm ftz (1 / Real.sqrt x) (frsq g rm ftz a)) ∧
    (∀ k : ℤ, x = k → RoundedOnce g rm ftz ((2 : ℝ) ^ k) (fexp2 g rm ftz a)) ∧
    (∀ k : ℤ, k ≠ 0 → x = (2 : ℝ) ^ k → RoundedOnce g rm ftz k (flog2 g rm ftz a)) ∧
    (∀ st, 8 ≤ st → st < 12 → g = fmtOf st → x ≠ 0 → ∀ dt, 8 ≤ dt → dt < 12 → RoundedOnce (fmtOf dt) rm ftz x (cvtVal dt st rm ftz a)) ∧
    (∀ st < 8, ∀ n, cvtInt st n ≠ 0 → ∀ dt, 8 ≤ dt → dt < 12 → RoundedOnce (fmtOf dt) rm ftz (cvtInt st n : ℤ) (cvtVal dt st rm ftz n))

/-- spec/08 R164, spec/22 R363, R365, R377, spec/24 R386: a lane whose address has bits [63:52] set takes XLATE, one whose address is misaligned ALIGN: it is detached with a
record, and nothing is accessed for it. Where every active lane does so no operation is issued; where only some do, the others' operation is issued without them. A scalar
unit stops at the word. -/
def Obligations.AddressTraps : Prop :=
  ∀ i op f, (i = Instr.ld f ∧ op = 0x58) ∨ (i = .st f ∧ op = 0x59) ∨ (i = .ldacq f ∧ op = 0x5E) ∨ (i = .strel f ∧ op = 0x5F) ∨ (i = .atom f ∧ op = 0x60) ∨
      (i = .cas f ∧ op = 0x62) ∨ (i = .ldd f ∧ op = 0x5C) ∨ (i = .std f ∧ op = 0x5D) →
    (∀ s c k w r m, Ready s c k w r (viewFull op f .vector r) → w.sheaf = none → OpsNumbered s →
      let va : Nat → W64 := fun l => BitVec.ofNat 64 (opA w r (viewFull op f .vector r) l)
      let cause : Nat → Byte := fun l => if 2 ^ 52 ≤ (va l).toNat then 5 else 7
      let act := active w r (viewFull op f .vector r)
      (∀ l < 32, m.getLsbD l = true ↔ act.getLsbD l = true ∧ (2 ^ 52 ≤ (va l).toNat ∨ (va l).toNat % accessBytes i ≠ 0)) →
      (∀ l < 32, act.getLsbD l = true → m.getLsbD l = false → Reaches i s (.warp c k) (va l)) →
      (m = act → ∃ t, exec i s = .next t ∧
        Detached s t c k w r (viewFull op f .vector r) m cause (fun _ => BitVec.ofNat 32 (accessCode i)) va) ∧
      (m ≠ act → m ≠ 0 → ∃ b t, exec i s = .next t ∧
        Detached s b c k w r (viewFull op f .vector r) m cause (fun _ => BitVec.ofNat 32 (accessCode i)) va ∧
        Launched b t (.warp c k) i r (viewFull op f .vector r) (act &&& ~~~m) (act &&& ~~~m) va
          (supplied w r (viewFull op f .vector r) r.la (viewFull op f .vector r).a) (supplied w r (viewFull op f .vector r) r.lb (viewFull op f .vector r).b)
          (supplied w r (viewFull op f .vector r) r.lc (viewFull op f .vector r).c))) ∧
    (∀ s u r, ScalarReady s u r (viewFull op f u.kind r) →
      let va := BitVec.ofNat 64 (sopA s u (viewFull op f u.kind r))
      2 ^ 52 ≤ va.toNat ∨ va.toNat % accessBytes i ≠ 0 → ∃ t, exec i s = .next t ∧
        StoppedScalar (scalarStep s u r) t u r (viewFull op f u.kind r) (if 2 ^ 52 ≤ va.toNat then 5 else 7) (BitVec.ofNat 32 (accessCode i)))

/-- spec/14 R291: BAR: the first arrival fixes the count, a later one agrees; the warp's arrival is noted with its operation. A count above the team's
warps, a different count or a second arrival takes ILLSTATE. -/
def Obligations.BarrierWord : Prop :=
  ∀ s c k w r f l t, Ready s c k w r (viewFull 0x7E f .vector r) → w.sheaf = none → findTeam s w.handle = some t →
    (active w r (viewFull 0x7E f .vector r)).getLsbD l = true → (∀ j < l, (active w r (viewFull 0x7E f .vector r)).getLsbD j = false) →
    (∀ e ∈ w.frontier, e.mask = 0) →
    let e := opA w r (viewFull 0x7E f .vector r) l % 2 ^ 32
    let br := look Barrier.reset t.barriers (modF f 8 5)
    (e ≤ shapeWarps t → (br.expect = none ∨ br.expect = some e) → (∀ p ∈ br.arrived, p.1 ≠ w.num) →
      ∃ q t', exec (.bar f) s = .next q ∧ Launched (issued s c k w r (viewFull 0x7E f .vector r)) q (.warp c k) (.bar f) r (viewFull 0x7E f .vector r)
          (active w r (viewFull 0x7E f .vector r)) 0 (fun _ => 0) (supplied w r (viewFull 0x7E f .vector r) r.la (viewFull 0x7E f .vector r).a)
          (supplied w r (viewFull 0x7E f .vector r) r.lb (viewFull 0x7E f .vector r).b) (supplied w r (viewFull 0x7E f .vector r) r.lc (viewFull 0x7E f .vector r).c) ∧
        findTeam q w.handle = some t' ∧
        t'.barriers = putC Barrier.reset t.barriers (modF f 8 5) { br with expect := some e, arrived := br.arrived ++ [(w.num, s.nextOp)] }) ∧
    (r.idx < 15 → (shapeWarps t < e ∨ (∃ x, br.expect = some x ∧ x ≠ e) ∨ (∃ p ∈ br.arrived, p.1 = w.num)) →
      ∃ q, exec (.bar f) s = .next q ∧ Stopped s q c k w r (viewFull 0x7E f .vector r) 0x21 0)

/-- spec/06 R113, R128, R131: the tree words while the tree is enabled, by handle and by address; while it is not, ILLSTATE. -/
def Obligations.TreeWordsIssue : Prop :=
  BareWord .tnode 0x18 (fun s _ _ => s.regs.treebase.getLsbD 0 = true) ∧ BareWord .trep 0x1A (fun s _ _ => s.regs.treebase.getLsbD 0 = true) ∧
  LaneWordIf .tenrol 0x19 (fun s _ => s.regs.treebase.getLsbD 0 = true) ∧ ScalarLaneWordIf .tenrol 0x19 (fun s _ => s.regs.treebase.getLsbD 0 = true) ∧
  BareWord .tsettle 0x1B (fun s _ f => s.regs.treebase.getLsbD 0 = true ∧ modB f 1 = false) ∧
  BareWord .tread 0x1C (fun s _ f => s.regs.treebase.getLsbD 0 = true ∧ modB f 1 = false) ∧
  BareWord .tcmp 0x1D (fun s _ f => s.regs.treebase.getLsbD 0 = true ∧ modB f 1 = false) ∧
  BareWord .tdrop 0x1E (fun s _ f => s.regs.treebase.getLsbD 0 = true ∧ modB f 1 = false) ∧
  LaneWordIf .tsettle 0x1B (fun s f => s.regs.treebase.getLsbD 0 = true ∧ modB f 1 = true) ∧
  LaneWordIf .tread 0x1C (fun s f => s.regs.treebase.getLsbD 0 = true ∧ modB f 1 = true) ∧
  LaneWordIf .tcmp 0x1D (fun s f => s.regs.treebase.getLsbD 0 = true ∧ modB f 1 = true) ∧
  LaneWordIf .tdrop 0x1E (fun s f => s.regs.treebase.getLsbD 0 = true ∧ modB f 1 = true) ∧
  ScalarLaneWordIf .tsettle 0x1B (fun s f => s.regs.treebase.getLsbD 0 = true ∧ modB f 1 = true) ∧
  ScalarLaneWordIf .tread 0x1C (fun s f => s.regs.treebase.getLsbD 0 = true ∧ modB f 1 = true) ∧
  ScalarLaneWordIf .tcmp 0x1D (fun s f => s.regs.treebase.getLsbD 0 = true ∧ modB f 1 = true) ∧
  ScalarLaneWordIf .tdrop 0x1E (fun s f => s.regs.treebase.getLsbD 0 = true ∧ modB f 1 = true) ∧
  (∀ i op f, (i = Instr.tnode f ∧ op = 0x18) ∨ (i = .tenrol f ∧ op = 0x19) ∨ (i = .trep f ∧ op = 0x1A) ∨ (i = .tsettle f ∧ op = 0x1B) ∨
      (i = .tread f ∧ op = 0x1C) ∨ (i = .tcmp f ∧ op = 0x1D) ∨ (i = .tdrop f ∧ op = 0x1E) →
    (∀ s c k w r, Ready s c k w r (viewFull op f .vector r) → r.idx < 15 → w.sheaf = none → s.regs.treebase.getLsbD 0 = false →
      ∃ t, exec i s = .next t ∧ Stopped s t c k w r (viewFull op f .vector r) 0x21 0) ∧
    (∀ s u r, ScalarReady s u r (viewFull op f u.kind r) → s.regs.treebase.getLsbD 0 = false →
      ∃ t, exec i s = .next t ∧ StoppedScalar (scalarStep s u r) t u r (viewFull op f u.kind r) 0x21 0))

/-- spec/19 R342, spec/26 R419-R424: SPAWN, NOTIFY, PREEMPT, CTXSAVE and CTXRESTORE issue an operation; JOIN issues one at its join object. -/
def Obligations.SystemWordsIssue : Prop :=
  (∀ i op f, (i = Instr.spawn f ∧ op = 0x0A) ∨ (i = .notify f ∧ op = 0x0F) ∨ (i = .notifyHost f ∧ op = 0x0F) ∨ (i = .preempt f ∧ op = 0x10) ∨
      (i = .preemptRel f ∧ op = 0x10) ∨ (i = .ctxsave f ∧ op = 0x11) ∨ (i = .ctxrestore f ∧ op = 0x12) →
    ∀ s u r, ScalarReady s u r (viewFull op f u.kind r) → ScalarLaunches i s (scalarStep s u r) u r (viewFull op f u.kind r) 0 0) ∧
  ScalarLaneWord .join 0x0B

/-- spec/24 R388: SLEEP with a wake bit set, or a deadline that has passed, writes WAKEST (or 64) and clears it; otherwise the thread sleeps. -/
def Obligations.SleepWord : Prop :=
  ∀ s q r f, ScalarReady s (.thread q) r (viewFull 0x0E f .sp r) →
    let d := sopA s (.thread q) (viewFull 0x0E f .sp r)
    let ran : Thread := { getThread s q with run := some { r with idx := r.idx + 1, cyc := r.cyc + 1 } }
    ((getThread s q).wakest ≠ 0 → exec (.sleep f) s = .next (writeScalar (setThread s q { ran with wakest := 0, sleeping := none }) (.thread q) 1 f.dst.toNat
      (BitVec.ofNat 128 (getThread s q).wakest.toNat))) ∧
    ((getThread s q).wakest = 0 → d ≠ 0 → d ≤ s.time → exec (.sleep f) s = .next (writeScalar (setThread s q { ran with wakest := 0, sleeping := none })
      (.thread q) 1 f.dst.toNat 64)) ∧
    ((getThread s q).wakest = 0 → d = 0 ∨ s.time < d → exec (.sleep f) s = .next (setThread s q { ran with sleeping := some (BitVec.ofNat 64 d) }))

/-- spec/26 R423: KEYBIND binds an entry to a loaded slot of its world, with the codes of a refusal; .unbind clears an entry; .revoke of an EMPTY slot does
nothing, and of a loaded one takes its key, its entries and its lines in L2 (R417; here with no stash entry mapped), and puts the interface of a private page of its world
in ERROR (R418). Its answer is the operation's result, whose flag falls when it is written. That bits of an operand that .revoke asks to be zero give BADARG (log 26), and that
KEYBIND acts at its issue (log 14), are the model's choice. -/
def Obligations.KeyWords : Prop :=
  (∀ s q r f, ScalarReady s (.thread q) r (viewFull 0x13 f .sp r) → OpsNumbered s →
    let a := sopA s (.thread q) (viewFull 0x13 f .sp r)
    let b := sopB s (.thread q) (viewFull 0x13 f .sp r)
    let argOk : Prop := a / 2 ^ 12 = 0 ∧ a / 16 % 16 = 0 ∧ a % 16 ≠ 0
    let entry := 16 * (a % 16) + a / 256 % 16
    let answers : Instr → State → Nat → Prop := fun i x code => ∃ t o, exec i s = .next t ∧ t.ops = s.ops ++ [o] ∧ o.id = s.nextOp ∧ o.unit = .thread q ∧
      o.instr = i ∧ o.phase = 1 ∧ (∀ l < 32, nth o.res l = BitVec.ofNat 128 (2 ^ 60 * code)) ∧ t.host = x.host ∧ t.mem = s.mem ∧ t.regs = s.regs ∧
      t.cores = s.cores ∧ unitFlags t (.thread q) = putC 0 (getThread s q).flags o.flag (look 0 (getThread s q).flags o.flag + 1)
    (¬ (argOk ∧ b / 256 = 0) → answers (.keybind f) s 1) ∧
    (argOk → b < 256 → look none s.host.keys b = none → answers (.keybind f) s 9) ∧
    (argOk → b < 256 → ∀ w m, look none s.host.keys b = some (w, m) → w ≠ a % 16 → answers (.keybind f) s 10) ∧
    (argOk → b < 256 → ∀ m, look none s.host.keys b = some (a % 16, m) → look none s.host.handles entry ≠ none → answers (.keybind f) s 11) ∧
    (argOk → b < 256 → ∀ m, look none s.host.keys b = some (a % 16, m) → look none s.host.handles entry = none →
      answers (.keybind f) { s with host := { s.host with handles := putC none s.host.handles entry (some b) } } 0) ∧
    (¬ (argOk ∧ b = 0) → answers (.keybindUnbind f) s 1) ∧
    (argOk → b = 0 → (∀ p ∈ s.cores, p.2.tags = []) →
      answers (.keybindUnbind f) { s with host := { s.host with handles := putC none s.host.handles entry none } } 0) ∧
    (a ≠ 0 ∨ b / 256 ≠ 0 → answers (.keybindRevoke f) s 1) ∧
    (a = 0 → b < 256 → look none s.host.keys b = none → answers (.keybindRevoke f) s 0) ∧
    (a = 0 → b < 256 → (∀ p ∈ s.cores, p.2.tags = []) → rising 0 s.mem.l2 = true → rising 0 s.host.keys = true → rising 0 s.host.handles = true →
      ∀ w m, look none s.host.keys b = some (w, m) →
      ∃ t o, exec (.keybindRevoke f) s = .next t ∧ t.ops = s.ops ++ [o] ∧ o.id = s.nextOp ∧ o.unit = .thread q ∧ o.instr = .keybindRevoke f ∧ o.phase = 1 ∧
        (∀ l < 32, nth o.res l = 0) ∧ (∀ i, look none t.host.keys i = if i = b then none else look none s.host.keys i) ∧
        (∀ e, look none t.host.handles e = if look none s.host.handles e = some b then none else look none s.host.handles e) ∧
        (∀ i, getL2 t i = if (getL2 s i).used = true ∧ (getL2 s i).kslot = b + 1 then L2Line.reset else getL2 s i) ∧
        t.host.tdisp = (if s.host.attrs.any (fun p => p.2 = w) then .error else s.host.tdisp) ∧ t.regs = s.regs ∧ t.cores = s.cores))

/-- spec/22 R378-R382: GINFO reads a word of the record each lane of a sheaf serves, or of a thread's current record; GLR and GLW issue an operation that
remembers the records' origins; a unit that serves no record takes ILLSTATE. -/
def Obligations.GleaningWords : Prop :=
  (∀ s c k w r f h, Ready s c k w r (viewFull 0x14 f .vector r) → w.sheaf = some h →
    Results (.ginfo f) s c k w r (viewFull 0x14 f .vector r) 4 (vdst f.dst 1)
      (fun l => match h.recs[l]? with
        | some q => if h.done.getLsbD l then 0 else recWord q (modF f 4 1)
        | none => 0)) ∧
  (∀ s q r f x rest, ScalarReady s (.thread q) r (viewFull 0x14 f .sp r) → (getThread s q).pending = x :: rest →
    exec (.ginfo f) s = .next (writeScalar (scalarStep s (.thread q) r) (.thread q) 1 f.dst.toNat (BitVec.ofNat 128 (recWord x (modF f 4 1))))) ∧
  (∀ i op f, (i = Instr.glr f ∧ op = 0x15) ∨ (i = .glw f ∧ op = 0x16) →
    (∀ s c k w r, Ready s c k w r (viewFull op f .vector r) → w.sheaf ≠ none →
      ∃ t, exec i s = .next t ∧ Launched (issued s c k w r (viewFull op f .vector r)) t (.warp c k) i r (viewFull op f .vector r)
        (active w r (viewFull op f .vector r)) 0 (fun _ => 0) (supplied w r (viewFull op f .vector r) r.la (viewFull op f .vector r).a)
        (supplied w r (viewFull op f .vector r) r.lb (viewFull op f .vector r).b) (originVals s (.warp c k))) ∧
    (∀ s q r, ScalarReady s (.thread q) r (viewFull op f .sp r) → (getThread s q).pending ≠ [] →
      ∃ t, exec i s = .next t ∧ Launched (scalarStep s (.thread q) r) t (.thread q) i r (viewFull op f .sp r) 1 0 (fun _ => 0)
        (scalarVals (scalarRegs s (.thread q)) (viewFull op f .sp r).a) (scalarVals (scalarRegs s (.thread q)) (viewFull op f .sp r).b)
        (originVals s (.thread q)))) ∧
  (∀ i op f, (i = Instr.ginfo f ∧ op = 0x14) ∨ (i = .glr f ∧ op = 0x15) ∨ (i = .glw f ∧ op = 0x16) ∨ (i = .gres f ∧ op = 0x17) →
    (∀ s c k w r, Ready s c k w r (viewFull op f .vector r) → r.idx < 15 → w.sheaf = none →
      ∃ t, exec i s = .next t ∧ Stopped s t c k w r (viewFull op f .vector r) 0x21 0) ∧
    (∀ s q r, ScalarReady s (.thread q) r (viewFull op f .sp r) → (getThread s q).pending = [] →
      ∃ t, exec i s = .next t ∧ StoppedScalar (scalarStep s (.thread q) r) t (.thread q) r (viewFull op f .sp r) 0x21 0)) ∧
  (∀ q : TrapRec, q.kind ≠ .slice → recOrigin q < 2 ^ 32 → recWord q 13 = q.detail.toNat ∧ recWord q 12 = 2 ^ 16 * (q.world % 16) + q.ctx % 2 ^ 16 ∧
    recWord q 10 = 2 ^ 24 * q.cause.toNat + 2 ^ 16 * q.prio.toNat + 2 ^ 12 * (q.widx % 16) + 2 ^ 11 * q.half.toNat + q.didx.toNat ∧
    recWord q 0 + 2 ^ 32 * recWord q 1 = q.pc.toNat ∧ recWord q 14 + 2 ^ 32 * recWord q 15 = q.addr.toNat)

/-- spec/22 R373-R375, R382; spec/09 R187: GRES issues as an operation without a flag, and its lanes' records leave them at once; it waits for the lanes' earlier events;
then a lane's record is resolved and its origin lane is to rejoin, and a record that stopped another thread sets that thread going. That it acts in these two steps, and that
the records leave at issue, is the model's choice (log 21). -/
def Obligations.ResolveWord : Prop :=
  (∀ s c k w r f h, Ready s c k w r (viewFull 0x17 f .vector r) → w.sheaf = some h →
    ∃ t o, exec (.gres f) s = .next t ∧ t.ops = s.ops ++ [o] ∧ o.id = s.nextOp ∧ o.unit = .warp c k ∧ o.instr = .gres f ∧ o.phase = 0 ∧
      o.lanes = active w r (viewFull 0x17 f .vector r) ∧ o.arg = (modB f 1).toNat ∧ o.wct = w.wctmax ∧
      (getWarp t c k).run = some (stepped w r (viewFull 0x17 f .vector r)) ∧ (getWarp t c k).flags = w.flags ∧
      (∃ x, (getWarp t c k).sheaf = some { h with done := x } ∧ ∀ l < 32, x.getLsbD l =
        (h.done.getLsbD l || ((active w r (viewFull 0x17 f .vector r)).getLsbD l && (h.recs[l]?).isSome))) ∧
      (getGleaner t (unitDie (.warp c k))).resolving = (getGleaner s (unitDie (.warp c k))).resolving ++
        ((List.range 32).filter (fun l => (active w r (viewFull 0x17 f .vector r)).getLsbD l)).filterMap (fun l =>
          if h.done.getLsbD l then none else (h.recs[l]?).map (fun q => (s.nextOp, q))) ∧
      t.mem = s.mem ∧ t.regs = s.regs ∧ t.threads = s.threads) ∧
  (∀ s q r f x rest, ScalarReady s (.thread q) r (viewFull 0x17 f .sp r) → (getThread s q).pending = x :: rest →
    ∃ t o, exec (.gres f) s = .next t ∧ t.ops = s.ops ++ [o] ∧ o.id = s.nextOp ∧ o.unit = .thread q ∧ o.instr = .gres f ∧ o.phase = 0 ∧
      o.arg = (modB f 1).toNat ∧ o.wct = (getThread s q).wctmax ∧
      getThread t q = { getThread s q with run := some { r with idx := r.idx + 1, cyc := r.cyc + 1 }, pending := rest } ∧
      (getGleaner t 0).resolving = (getGleaner s 0).resolving ++ [(s.nextOp, x)] ∧ t.mem = s.mem ∧ t.regs = s.regs ∧ t.cores = s.cores) ∧
  (∀ s o f, InFlight s o 0 → o.instr = .gres f → (∀ c k, o.unit = .warp c k → c < 320) →
    (s.time ≤ o.wct ∨ ∃ p ∈ s.ops, p.id < o.id ∧ sameIssuer p o = true ∧ p.phase = 0 ∧ isMemoryEvent p.instr = true) →
    exec (.longLatencyComplete o.id 0) s = .next s) ∧
  (∀ s o f q, InFlight s o 0 → o.instr = .gres f → (∀ c k, o.unit = .warp c k → c < 320) → o.wct < s.time →
    (∀ p ∈ s.ops, p.id < o.id → sameIssuer p o = true → p.phase ≠ 0) → resolved s o.id = [q] →
    (∀ d j, q.kind = .lane → originWarp s q = some (d, j) → ∃ t e, exec (.longLatencyComplete o.id 0) s = .next t ∧ findOp t o.id = none ∧
      (getWarp t d j).rejoins = (getWarp s d j).rejoins ++ [(e, BitVec.ofNat 32 (2 ^ q.lane))] ∧ (e.pc, e.word) = placeAfter q (decide (o.arg = 1)) ∧
      (getWarp t d j).v = (getWarp s d j).v ∧ resolved t o.id = [] ∧ t.mem = s.mem ∧ t.regs = s.regs ∧ t.threads = s.threads) ∧
    (∀ p, q.kind = .thread → q.unit = .thread p → ∃ t, exec (.longLatencyComplete o.id 0) s = .next t ∧ findOp t o.id = none ∧
      (getThread t p).halt = false ∧ (getThread t p).runBit = true ∧ ((getThread t p).pc, (getThread t p).word) = placeAfter q (decide (o.arg = 1)) ∧
      (getThread t p).s = (getThread s p).s ∧ resolved t o.id = [] ∧ t.mem = s.mem ∧ t.cores = s.cores))

/-- spec/07 R140, R146: XCOPY issues an operation, or ends a sheaf with ILLSTATE (spec/22 R371); XREPLAY one with its replay of the residue record it names; XCANCEL of no copy answers 1, and of a running copy marks
it cancelled and answers 0. -/
def Obligations.CopyWords : Prop :=
  (∀ s c k w r f, Ready s c k w r (viewFull 0x6A f .vector r) → w.sheaf = none → Launches (.xcopy f) s c k w r (viewFull 0x6A f .vector r) 0 (fun _ => 0)) ∧
  (∀ s c k w r f, Ready s c k w r (viewFull 0x6A f .vector r) → r.idx < 15 → w.sheaf ≠ none →
    ∃ t, exec (.xcopy f) s = .next t ∧ SheafEnds s t c k r (viewFull 0x6A f .vector r) 0x21) ∧
  (∀ s c k w r f l, Ready s c k w r (viewFull 0x6B f .vector r) → OpsNumbered s → (active w r (viewFull 0x6B f .vector r)).getLsbD l = true →
    (∀ j < l, (active w r (viewFull 0x6B f .vector r)).getLsbD j = false) →
    ∃ t x, Launched (issued s c k w r (viewFull 0x6B f .vector r)) t (.warp c k) (.xreplay f) r (viewFull 0x6B f .vector r)
        (active w r (viewFull 0x6B f .vector r)) 0 (fun _ => 0) (supplied w r (viewFull 0x6B f .vector r) r.la (viewFull 0x6B f .vector r).a)
        (supplied w r (viewFull 0x6B f .vector r) r.lb (viewFull 0x6B f .vector r).b) (supplied w r (viewFull 0x6B f .vector r) r.lc (viewFull 0x6B f .vector r).c) ∧
      exec (.xreplay f) s = .next { t with copies := s.copies ++ [x], nextOp := t.nextOp + 1 } ∧ x.replay = true ∧ x.ready = true ∧ x.started = false ∧
      x.residue = BitVec.ofNat 64 (opA w r (viewFull 0x6B f .vector r) l) ∧ x.arrivals = [(s.nextOp, 0, 0)] ∧ x.ctx = w.ctx ∧ x.handle = w.handle) ∧
  (∀ s u r f, ScalarReady s u r (viewFull 0x6B f u.kind r) → OpsNumbered s →
    ∃ t x, Launched (scalarStep s u r) t u (.xreplay f) r (viewFull 0x6B f u.kind r) 1 0 (fun _ => 0) (scalarVals (scalarRegs s u) (viewFull 0x6B f u.kind r).a)
        (scalarVals (scalarRegs s u) (viewFull 0x6B f u.kind r).b) (scalarVals (scalarRegs s u) (viewFull 0x6B f u.kind r).c) ∧
      exec (.xreplay f) s = .next { t with copies := s.copies ++ [x], nextOp := t.nextOp + 1 } ∧ x.replay = true ∧ x.ready = true ∧ x.started = false ∧
      x.residue = BitVec.ofNat 64 (sopA s u (viewFull 0x6B f u.kind r)) ∧ x.arrivals = [(s.nextOp, 0, 0)]) ∧
  (∀ s u r f, ScalarReady s u r (viewFull 0x6C f u.kind r) → OpsNumbered s →
    (∀ x ∈ s.copies, x.ccb ≠ BitVec.ofNat 64 (sopA s u (viewFull 0x6C f u.kind r))) →
    ∃ t o, exec (.xcancel f) s = .next t ∧ t.ops = s.ops ++ [o] ∧ o.id = s.nextOp ∧ o.instr = .xcancel f ∧ o.phase = 1 ∧
      (∀ l < 32, nth o.res l = BitVec.ofNat 128 (2 ^ 28)) ∧ t.copies = s.copies ∧ t.mem = s.mem) ∧
  (∀ s c k w r f l x, Ready s c k w r (viewFull 0x6C f .vector r) → OpsNumbered s → (active w r (viewFull 0x6C f .vector r)).getLsbD l = true →
    (∀ j < l, (active w r (viewFull 0x6C f .vector r)).getLsbD j = false) → x ∈ s.copies → x.ctx = w.ctx → (∀ q, x.unit ≠ .thread q) → x.ready = true →
    x.started = true → x.cancelled = false → x.ccb = BitVec.ofNat 64 (opA w r (viewFull 0x6C f .vector r) l) →
    (∀ y ∈ s.copies, y = x ∨ y.ccb ≠ x.ccb) →
    ∃ t o, exec (.xcancel f) s = .next t ∧ t.ops = s.ops ++ [o] ∧ o.id = s.nextOp ∧ o.instr = .xcancel f ∧ o.phase = 1 ∧
      (∀ i < 32, nth o.res i = 0) ∧ t.copies = s.copies.map (fun y => if y.id = x.id then { x with cancelled := true } else y) ∧ t.mem = s.mem)

/-- spec/12 R240, R241, R246-R251, R254: MRDY marks the warp ready, and ends a sheaf with ILLSTATE (spec/22 R371); a matrix word whose checks pass issues an operation, uses up the mark if it needs it, and
brings its part to its pair; with its tile outside the grant or without the mark it takes ILLSTATE. A set's request stands at the issue cycle of its last part (R247); of
parts of one cycle the model takes the order of their turns (the model's choice, log 11). -/
def Obligations.MatrixWords : Prop :=
  (∀ s c k w r f, Ready s c k w r (viewFull 0x72 f .vector r) → r.idx < 15 → w.sheaf ≠ none →
    ∃ t, exec (.mrdy f) s = .next t ∧ SheafEnds s t c k r (viewFull 0x72 f .vector r) 0x21) ∧
  (∀ s c k w r f, Ready s c k w r (viewFull 0x72 f .vector r) → w.sheaf = none → exec (.mrdy f) s = .next (setWarp s c k { (due w r (viewFull 0x72 f .vector r)).1 with
    run := some (stepped w r (viewFull 0x72 f .vector r)), rdy := true, rdySeq := s.nextOp, rdyLost := false, wrAtRdy := w.wrSeq })) ∧
  (∀ i op f, (i = Instr.mma f ∧ op = 0x70) ∨ (i = .mmaj f ∧ op = 0x71) ∨ (i = .mgrp f ∧ op = 0x73) ∨ (i = .mzero f ∧ op = 0x74) ∨ (i = .mdrain f ∧ op = 0x75) →
    ∀ s c k w r t, Ready s c k w r (viewFull op f .vector r) → w.sheaf = none → Converged w → findTeam s w.handle = some t →
    let needs : Bool := op = 0x70 || op = 0x71 || op = 0x73
    (t.tileBase ≤ f.dst.toNat → f.dst.toNat < t.tileBase + t.tileLen → (needs = true → w.rdy = true) →
      (op = 0x73 → ((List.range 8).map (groupRows (groupZ w i))).sum ≤ 64) →
      (∀ p ∈ matSpans i (groupZ w i), p.1 + p.2 ≤ 320 ∧ p.1 + p.2 ≤ w.budget) →
      ∃ q, Launched (issued s c k w r (viewFull op f .vector r)) q (.warp c k) i r (viewFull op f .vector r)
          (active w r (viewFull op f .vector r)) 0 (fun _ => 0) (supplied w r (viewFull op f .vector r) r.la (viewFull op f .vector r).a)
          (supplied w r (viewFull op f .vector r) r.lb (viewFull op f .vector r).b) (supplied w r (viewFull op f .vector r) r.lc (viewFull op f .vector r).c) ∧
        exec i s = .next (addPart (setWarp q c k { getWarp q c k with rdy := w.rdy && !needs })
          (partFor s c k w i (issueCycle r (viewFull op f .vector r))))) ∧
    (r.idx < 15 → (f.dst.toNat < t.tileBase ∨ t.tileBase + t.tileLen ≤ f.dst.toNat ∨ (needs = true ∧ w.rdy = false)) →
      ∃ q, exec i s = .next q ∧ Stopped s q c k w r (viewFull op f .vector r) 0x21 0)) ∧
  -- a word of one part is a request at once; the first part of a set waits for the others; the second of two makes the request, at the later issue cycle
  (∀ s (p : MPart), partCount p.instr = 1 →
    getPair (addPart s p) (p.core / 2) = { getPair s (p.core / 2) with
      reqs := (getPair s (p.core / 2)).reqs ++ [{ tile := (instrFull p.instr).dst.toNat, parts := [p], issueAt := p.issueAt, core := p.core, world := p.world, perform := true }] }) ∧
  (∀ s (p : MPart), (getPair s (p.core / 2)).unmatched = [] → (∀ r ∈ (getPair s (p.core / 2)).reqs, r.parts.length ≤ 1) → 1 < partCount p.instr →
    getPair (addPart s p) (p.core / 2) = { getPair s (p.core / 2) with unmatched := [p] }) ∧
  (∀ s (p u : MPart), (getPair s (p.core / 2)).unmatched = [u] → (∀ r ∈ (getPair s (p.core / 2)).reqs, r.parts.length ≤ 1) → partCount p.instr = 2 →
    partsMatch u p = true → u.op ≠ p.op → (partIndex u.instr, partIndex p.instr) ∈ [(0, 1), (1, 0)] →
    let last : MPart := if u.issueAt < p.issueAt ∨ (u.issueAt = p.issueAt ∧ u.op < p.op) then p else u
    getPair (addPart s p) (p.core / 2) = { getPair s (p.core / 2) with
      unmatched := []
      reqs := (getPair s (p.core / 2)).reqs ++ [{ tile := (instrFull p.instr).dst.toNat, parts := if partIndex u.instr = 0 then [u, p] else [p, u]
                                                  issueAt := last.issueAt, core := p.core, world := last.world
                                                  perform := decide (matTypeOf u.instr = matTypeOf p.instr ∧ u.z = p.z) }] })

/-- spec/04 R73-R75, R68: what a write of each register of a format window does while the die link is up (R401): taken while EN and BUSY are 0, refused with ERR otherwise;
enabling, for every FMT, is refused where R75's checks fail; enabling and disabling set BUSY; the drain writes back and invalidates, and clears BUSY. That FMT 0 has no scale
region to check (log 24), that a write of EN 0 while EN is 0 and BUSY 1 is refused (log 29), that the writes cross the link from die A (log 18) and the turn noted with a change
of EN (log 23) are the model's choice. -/
def Obligations.WindowRows : Prop :=
  let up : State → Prop := fun s => s.regs.dlstat.getLsbD 0 = true
  let idle : State → Nat → Prop := fun s i => (fwctlOf s i).getLsbD 0 = false ∧ (fwctlOf s i).getLsbD 1 = false
  let turned : State → Nat → W64 → State := fun s i v => withRegs s (fun r => { r with
    fwctl := putC 0 r.fwctl i ((v &&& 0xFFFFFFFFFF00D#64) ||| 2), fwAt := putC 0 r.fwAt i s.turnNo })
  let refused : State → Nat → W64 → State := fun s i _ => withRegs s (fun r => { r with fwctl := putC 0 r.fwctl i (fwctlOf s i ||| 16) })
  RowWrite .fwctlWrite 0x40 16 (fun s i v => up s ∧ idle s i ∧ v.getLsbD 0 = false)
    (fun s i v => withRegs s (fun r => { r with fwctl := putC 0 r.fwctl i (v &&& 0xFFFFFFFFFF00D#64) })) ∧
  RowWrite .fwctlWrite 0x40 16 (fun s i v => up s ∧ idle s i ∧ v.getLsbD 0 = true ∧ Enables s i v) turned ∧
  RowWrite .fwctlWrite 0x40 16 (fun s i v => up s ∧ idle s i ∧ v.getLsbD 0 = true ∧ ¬ Enables s i v) refused ∧
  RowWrite .fwctlWrite 0x40 16 (fun s i v => up s ∧ (fwctlOf s i).getLsbD 0 = true ∧ v.getLsbD 0 = false ∧
      v &&& 0xFFFFFFFFFF00C#64 = fwctlOf s i &&& 0xFFFFFFFFFF00C#64) turned ∧
  RowWrite .fwctlWrite 0x40 16 (fun s i v => up s ∧ ¬ idle s i ∧
      ((fwctlOf s i).getLsbD 0 = false ∨ v.getLsbD 0 = true ∨ v &&& 0xFFFFFFFFFF00C#64 ≠ fwctlOf s i &&& 0xFFFFFFFFFF00C#64)) refused ∧
  RowWrite .fwlimWrite 0x50 16 (fun s i _ => up s ∧ idle s i)
    (fun s i v => withRegs s (fun r => { r with
      fwlim := putC 0 r.fwlim i (v &&& 0xFFFFFFFFFF000#64), fwctl := putC 0 r.fwctl i (fwctlOf s i &&& ~~~16#64) })) ∧
  RowWrite .fwscaleWrite 0x60 16 (fun s i _ => up s ∧ idle s i)
    (fun s i v => withRegs s (fun r => { r with
      fwscale := putC 0 r.fwscale i (v &&& 0xFFFFFFFFFFF80#64), fwctl := putC 0 r.fwctl i (fwctlOf s i &&& ~~~16#64) })) ∧
  (∀ mk lo, (mk = Instr.fwlimWrite ∧ lo = 0x50) ∨ (mk = Instr.fwscaleWrite ∧ lo = 0x60) → RowWrite mk lo 16 (fun s i _ => up s ∧ ¬ idle s i) refused) ∧
  (∀ s i, rising 0 s.mem.l2 = true → (fwctlOf s i).getLsbD 1 = true → s.regs.dlstat.getLsbD 0 = true → ∃ t, exec (.windowDrainDone i) s = .next t ∧
    t.regs = { s.regs with fwctl := putC 0 s.regs.fwctl i (fwctlOf s i &&& ~~~2#64) } ∧ (∀ k, drained s i (getL2 s k) = true → (getL2 t k).used = false) ∧
    (∀ k, drained s i (getL2 s k) = false → getL2 t k = getL2 s k) ∧ t.cores = s.cores ∧ t.threads = s.threads ∧ t.ops = s.ops ∧ t.launch = s.launch)

/-- spec/05 R101-R105: what a write of each register of a retention range does; enabling and releasing set BUSY, and their completions clear it:
the reserved ways are written back and invalidated, or the retained lines become ordinary lines. The writes go to both dies (R94) and need the die link (spec/24 R401); that
they cross from die A (log 18) and that a write of RETSTAT leaves RETCTL.ERR (log 29) are the model's choice. -/
def Obligations.RetentionRows : Prop :=
  let up : State → Prop := fun s => s.regs.dlstat.getLsbD 0 = true
  RowWrite .retctlWrite 0xE0 16 (fun s i v => up s ∧ (retctlOf s i).getLsbD 0 = false ∧ (retctlOf s i).getLsbD 1 = false ∧ v.getLsbD 0 = false)
    (fun s i v => withRegs s (fun r => { r with retctl := putC 0 r.retctl i (v &&& 0x1FFF01#64) })) ∧
  RowWrite .retctlWrite 0xE0 16 (fun s i v => up s ∧ (retctlOf s i).getLsbD 0 = false ∧ (retctlOf s i).getLsbD 1 = false ∧ v.getLsbD 0 = true ∧
      1 ≤ fld v 11 8 ∧ fld v 11 8 ≤ 12 ∧ fld v 15 12 + fld v 11 8 ≤ 16 ∧ fld (look 0 s.regs.retbase i) 51 12 ≤ fld (look 0 s.regs.retlim i) 51 12 ∧
      (∀ j < 16, j ≠ i → (retctlOf s j).getLsbD 0 = false))
    (fun s i v => withRegs s (fun r => { r with retctl := putC 0 r.retctl i ((v &&& 0x1FFF01#64) ||| 2) })) ∧
  RowWrite .retctlWrite 0xE0 16 (fun s i v => up s ∧ (retctlOf s i).getLsbD 0 = false ∧ (retctlOf s i).getLsbD 1 = false ∧ v.getLsbD 0 = true ∧
      (fld v 11 8 = 0 ∨ 12 < fld v 11 8 ∨ 16 < fld v 15 12 + fld v 11 8 ∨ fld (look 0 s.regs.retlim i) 51 12 < fld (look 0 s.regs.retbase i) 51 12))
    (fun s i _ => withRegs s (fun r => { r with retctl := putC 0 r.retctl i (retctlOf s i ||| 4) })) ∧
  RowWrite .retctlWrite 0xE0 16 (fun s i v => up s ∧ (retctlOf s i).getLsbD 0 = true ∧ v.getLsbD 0 = false ∧ v &&& 0x1FFF00#64 = retctlOf s i &&& 0x1FFF00#64)
    (fun s i v => withRegs s (fun r => { r with retctl := putC 0 r.retctl i ((v &&& 0x1FFF01#64) ||| 2) })) ∧
  RowWrite .retctlWrite 0xE0 16 (fun s i v => up s ∧ ((retctlOf s i).getLsbD 0 = true ∨ (retctlOf s i).getLsbD 1 = true) ∧
      ((retctlOf s i).getLsbD 0 = false ∨ v.getLsbD 0 = true ∨ v &&& 0x1FFF00#64 ≠ retctlOf s i &&& 0x1FFF00#64))
    (fun s i _ => withRegs s (fun r => { r with retctl := putC 0 r.retctl i (retctlOf s i ||| 4) })) ∧
  RowWrite .retbaseWrite 0xC0 16 (fun s i _ => up s ∧ (retctlOf s i).getLsbD 0 = false ∧ (retctlOf s i).getLsbD 1 = false)
    (fun s i v => withRegs s (fun r => { r with
      retbase := putC 0 r.retbase i (v &&& 0xFFFFFFFFFF000#64), retctl := putC 0 r.retctl i (retctlOf s i &&& ~~~4#64) })) ∧
  RowWrite .retlimWrite 0xD0 16 (fun s i _ => up s ∧ (retctlOf s i).getLsbD 0 = false ∧ (retctlOf s i).getLsbD 1 = false)
    (fun s i v => withRegs s (fun r => { r with
      retlim := putC 0 r.retlim i (v &&& 0xFFFFFFFFFF000#64), retctl := putC 0 r.retctl i (retctlOf s i &&& ~~~4#64) })) ∧
  (∀ mk lo, (mk = Instr.retbaseWrite ∧ lo = 0xC0) ∨ (mk = Instr.retlimWrite ∧ lo = 0xD0) →
    RowWrite mk lo 16 (fun s i _ => up s ∧ ((retctlOf s i).getLsbD 0 = true ∨ (retctlOf s i).getLsbD 1 = true))
      (fun s i _ => withRegs s (fun r => { r with retctl := putC 0 r.retctl i (retctlOf s i ||| 4) }))) ∧
  RowWrite .retstatWrite 0xF0 16 (fun s _ _ => up s)
    (fun s i v => withRegs s (fun r => { r with retstat := putC 0 r.retstat i (v &&& 0xFFFFFFFF00000000#64) })) ∧
  (∀ s i, rising 0 s.mem.l2 = true → (retctlOf s i).getLsbD 0 = true → (retctlOf s i).getLsbD 1 = true → s.regs.dlstat.getLsbD 0 = true →
    ∃ t, exec (.retentionEnableDone i) s = .next t ∧
    t.regs = { s.regs with retctl := putC 0 s.regs.retctl i (retctlOf s i &&& ~~~2#64) } ∧
    (∀ k, (getL2 s k).quarantined = false → fld (retctlOf s i) 15 12 ≤ k % 16 → k % 16 < fld (retctlOf s i) 15 12 + fld (retctlOf s i) 11 8 →
      (getL2 t k).used = false) ∧
    (∀ k, k % 16 < fld (retctlOf s i) 15 12 ∨ fld (retctlOf s i) 15 12 + fld (retctlOf s i) 11 8 ≤ k % 16 → getL2 t k = getL2 s k) ∧
    t.cores = s.cores ∧ t.threads = s.threads ∧ t.ops = s.ops ∧ t.launch = s.launch) ∧
  (∀ s i, rising 0 s.mem.l2 = true → (retctlOf s i).getLsbD 0 = false → (retctlOf s i).getLsbD 1 = true → s.regs.dlstat.getLsbD 0 = true →
    ∃ t, exec (.retentionReleaseDone i) s = .next t ∧
    t.regs = { s.regs with retctl := putC 0 s.regs.retctl i (retctlOf s i &&& ~~~2#64) } ∧
    (∀ k, getL2 t k = if (getL2 s k).used = true ∧ (getL2 s k).range = some i then { getL2 s k with range := none } else getL2 s k) ∧
    t.mem.dram = s.mem.dram ∧ t.cores = s.cores ∧ t.threads = s.threads ∧ t.ops = s.ops ∧ t.launch = s.launch ∧ t.host = s.host)

/-- spec/04 R86, R87; spec/24 R385, R387, R437: TLB invalidation by page, context and all with its BUSY and ERR, and the writes of SPCTL, WAKEST and
SPROOT. BUSY stands until every access that used a removed translation is performed. R386: thread 0, stopped by a trap, is set going by the host's write and by no thread's.
A refused GO leaving CTX and SCOPE (log 29) and the removal at TLBI_DONE's first turn, all at once (log 14), are the model's choice. -/
def Obligations.ThreadRows : Prop :=
  (∀ mk n, (mk, n) = (Instr.tlbiPage, 0) ∨ (mk, n) = (Instr.tlbiContext, 1) ∨ (mk, n) = (Instr.tlbiAll, 2) →
    ThreadRow mk 0x1B (fun t v => t.tlbicmd.getLsbD 1 = false ∧ v.getLsbD 0 = true ∧ fld v 9 8 = n) (fun t v => { t with
      tlbicmd := (v &&& 0xFFFF0300#64) ||| 2, tlbiTime := none, tlbiGoCmd := (v &&& 0xFFFF0300#64) ||| 2, tlbiGoVa := t.tlbiva })) ∧
  (∀ mk n, (mk, n) = (Instr.tlbiPage, 0) ∨ (mk, n) = (Instr.tlbiContext, 1) ∨ (mk, n) = (Instr.tlbiAll, 2) →
    ThreadRow mk 0x1B (fun t v => t.tlbicmd.getLsbD 1 = true ∧ v.getLsbD 0 = true ∧ fld v 9 8 = n) (fun t _ => { t with tlbicmd := t.tlbicmd ||| 4 })) ∧
  (∀ s q, (getThread s q).tlbicmd.getLsbD 1 = true → (getThread s q).tlbiTime = none → s.regs.dlstat.getLsbD 0 = true →
    let cmd := (getThread s q).tlbiGoCmd
    let va := (getThread s q).tlbiGoVa
    (fld cmd 9 8 = 0 → ∃ t, exec (.tlbiDone q) s = .next t ∧ Invalidated s t q (fun e => e.space = fld cmd 31 16 && e.vpage = va.toNat / 2 ^ e.size)
      (walkHits va (fld cmd 31 16)) ∧ ∀ p, (getThread t p).tlb = (getThread s p).tlb) ∧
    (fld cmd 9 8 = 1 → ∃ t, exec (.tlbiDone q) s = .next t ∧ Invalidated s t q (fun e => e.space = fld cmd 31 16) (fun e => e.space = fld cmd 31 16) ∧
      ∀ p, (getThread t p).tlb = (getThread s p).tlb) ∧
    (fld cmd 9 8 = 2 → ∃ t, exec (.tlbiDone q) s = .next t ∧ Invalidated s t q (fun _ => true) (fun _ => true) ∧ ∀ p, (getThread t p).tlb = [])) ∧
  (∀ s q n, (getThread s q).tlbicmd.getLsbD 1 = true → (getThread s q).tlbiTime = some n →
    ((∀ o ∈ s.ops, o.phase = 0 → ∀ a ∈ o.accs, a.pa = none ∨ (a.done = true ∧ ∀ w ∈ s.mem.waiters, w.op ≠ o.id)) →
      exec (.tlbiDone q) s = .next (setThread s q { getThread s q with tlbicmd := (getThread s q).tlbicmd &&& ~~~2#64 })) ∧
    (∀ o ∈ s.ops, ∀ a ∈ o.accs, o.phase = 0 → a.pa.isSome = true → a.size ≠ 0 → a.xlatAt ≤ n → (a.done = false ∨ ∃ w ∈ s.mem.waiters, w.op = o.id ∧ w.hit = none) →
      let cmd := (getThread s q).tlbiGoCmd
      (fld cmd 9 8 = 2 ∨ ((∀ p, o.unit ≠ .thread p) ∧ o.ctx = fld cmd 31 16 ∧
        (fld cmd 9 8 = 1 ∨ (fld cmd 9 8 = 0 ∧ a.va.toNat / 2 ^ a.size = (getThread s q).tlbiGoVa.toNat / 2 ^ a.size)))) → exec (.tlbiDone q) s = .next s)) ∧
  RowWrite .spctlWrite 0x1C0 64 (fun s q v => (getThread s q).halt = true ∧ (q = 0 → (getThread s q).trapped = true → v.getLsbD 0 = false))
    (fun s q v => setThread s q { getThread s q with
      pc := BitVec.ofNat 52 (8 * fld v 51 3), word := 0, halt := !v.getLsbD 0, trapped := (getThread s q).trapped && !v.getLsbD 0, runBit := v.getLsbD 0,
      stopReq := false }) ∧
  (∀ s v t, Taken s .host 0x1C0 v t → (getThread t 0).halt = true → v.getLsbD 0 = true → exec (.spctlWrite .host) s = .next (setThread t 0 { getThread t 0 with
    pc := BitVec.ofNat 52 (8 * fld v 51 3), word := 0, halt := false, trapped := false, runBit := true, stopReq := false })) ∧
  (∀ s u v t, Taken s (.unit u) 0x1C0 v t → (getThread t 0).halt = true → (getThread t 0).trapped = true →
    exec (.spctlWrite (.unit u)) s = .next (setThread t 0 { getThread t 0 with
      pc := BitVec.ofNat 52 (8 * fld v 51 3), word := 0, runBit := false, stopReq := false })) ∧
  RowWrite .spctlWrite 0x1C0 64 (fun s q v => (getThread s q).halt = false ∧ v.getLsbD 0 = true ∧ (q = 0 → (getThread s q).trapped = false))
    (fun s q _ => setThread s q { getThread s q with runBit := true, stopReq := false }) ∧
  RowWrite .spctlWrite 0x1C0 64 (fun s q v => (getThread s q).halt = false ∧ v.getLsbD 0 = false ∧ (getThread s q).run = none ∧ (getThread s q).posted = none)
    (fun s q _ => setThread s q { getThread s q with runBit := false, halt := true, stopReq := false }) ∧
  RowWrite .spctlWrite 0x1C0 64 (fun s q v => (getThread s q).halt = false ∧ v.getLsbD 0 = false ∧ (getThread s q).run ≠ none)
    (fun s q _ => setThread s q { getThread s q with runBit := false, stopReq := true }) ∧
  ThreadRow .wakestClear 0x18 (fun _ _ => True) (fun t v => { t with wakest := t.wakest &&& ~~~BitVec.ofNat 6 v.toNat }) ∧
  ThreadRow .sprootWrite 0x1E (fun _ _ => True) (fun t v => { t with sproot := v &&& 0xFFFFFFFFFE001#64, tlb := [] })

/-- spec/04 R69, spec/06 R113, spec/19 R321, spec/28 R428, spec/24 R399: the writes of MEMSPLIT, TREEBASE, PROD, BOOTSTAT and QRCMD, with what each
refuses. That a refused GO of QRCMD still writes INDEX and OP is the model's choice (log 29). -/
def Obligations.ModuleRows : Prop :=
  RowWrite .memsplitWrite 0x20 1 (fun s _ v => s.regs.memsplit.getLsbD 63 = false ∧ fld v 8 0 ≤ 288)
    (fun s _ v => withRegs s (fun r => { r with memsplit := v &&& 0x80000000000001FF#64 })) ∧
  RowWrite .memsplitWrite 0x20 1 (fun s _ _ => s.regs.memsplit.getLsbD 63 = true) (fun s _ _ => s) ∧
  RowWrite .treebaseWrite 0x21 1 (fun s _ v => s.regs.treebase.getLsbD 0 = false ∧ (v.getLsbD 0 = true →
      (rangeOf s (2 ^ 22 * fld v 51 22)).isDram = true ∧ rangeOf s (2 ^ 22 * fld v 51 22) = rangeOf s (2 ^ 22 * fld v 51 22 + (2 ^ 22 - 1))))
    (fun s _ v => withRegs s (fun r => { r with treebase := v &&& 0xFFFFFFFC00001#64 })) ∧
  RowWrite .treebaseWrite 0x21 1 (fun s _ v => s.regs.treebase.getLsbD 0 = true ∨ (v.getLsbD 0 = true ∧ (rangeOf s (2 ^ 22 * fld v 51 22)).isDram = false))
    (fun s _ _ => withRegs s (fun r => { r with treebase := r.treebase ||| 2 })) ∧
  (∀ s t q v, q < 64 → Taken s .host (0x180 + q) v t →
    let ctl := look 0x0000040000000300#64 s.regs.hqctl q
    let old := look 0 s.regs.hqnotify q
    let ahead : Nat → Nat := fun p => (p + 2 ^ 32 - fld old 63 32) % 2 ^ 32
    (ctl.getLsbD 0 = true → ahead (fld v 31 0) ≤ 2 ^ fld ctl 10 7 → ahead (fld old 31 0) ≤ ahead (fld v 31 0) →
      exec (.hqProdWrite .host) s = .next (setThread (withRegs t (fun r => { r with
        hqctl := putC 0x0000040000000300#64 r.hqctl q (ctl &&& ~~~2#64), hqnotify := putC 0 r.hqnotify q (BitVec.ofNat 64 (2 ^ 32 * fld old 63 32 + fld v 31 0)) }))
        q { getThread t q with wakest := (getThread t q).wakest ||| 2 })) ∧
    (ctl.getLsbD 0 = false ∨ 2 ^ fld ctl 10 7 < ahead (fld v 31 0) ∨ ahead (fld v 31 0) < ahead (fld old 31 0) →
      exec (.hqProdWrite .host) s = .next (withRegs t (fun r => { r with hqctl := putC 0x0000040000000300#64 r.hqctl q (ctl ||| 2) })))) ∧
  RowWrite .bootstatWrite 0x0C 1 (fun s _ v => (fld v 15 8 = 5 ∨ fld v 15 8 = 7) ∧ fld s.regs.bootstat 15 8 < fld v 15 8)
    (fun s _ v => withRegs s (fun r => { r with bootstat := (r.bootstat &&& ~~~0xFF00#64) ||| BitVec.ofNat 64 (256 * fld v 15 8) })) ∧
  RowWrite .bootstatWrite 0x0C 1 (fun s _ v => (fld v 15 8 ≠ 5 ∧ fld v 15 8 ≠ 7) ∨ fld v 15 8 ≤ fld s.regs.bootstat 15 8) (fun s _ _ => s) ∧
  (∀ mk b, (mk, b) = (Instr.qrRelease, false) ∨ (mk, b) = (Instr.qrWriteback, true) →
    RowWrite mk 0x2B 1 (fun s _ v => v.getLsbD 0 = true ∧ v.getLsbD 1 = b ∧ ∀ p ∈ s.mem.quar, p.1 ≠ fld v 31 8)
    (fun s _ v => withRegs s (fun r => { r with qrcmd := (v &&& 0xFFFFFF02#64) ||| 4 }))) ∧
  (∀ s src v t la, Taken s src 0x2B v t → t.mem.quar.find? (fun p => p.1 = fld v 31 8) = some (fld v 31 8, la) → v.getLsbD 0 = true →
    let left : State → State := fun x => { x with
      regs := { x.regs with qrstat := BitVec.ofNat 64 (2 ^ 32 * fld x.regs.qrstat 63 32 + (fld x.regs.qrstat 31 0 - 1)), qrcmd := v &&& 0xFFFFFF02#64 }
      mem := { x.mem with quar := dropKey x.mem.quar (fld v 31 8) } }
    let none_ : State → Prop := fun x => ∀ p ∈ x.mem.l2, p.2.quarantined = false
    (none_ t → v.getLsbD 1 = false → exec (.qrRelease src) s = .next (left t)) ∧
    (fld (look 0 t.regs.portctl (la / 2 ^ 39 % 16)) 4 1 = 4 → v.getLsbD 1 = true → ∀ y d, none_ y →
      devGet t poolX (BitVec.ofNat 64 (4096 * fld t.regs.qrcfg 51 12 + 256 * fld v 31 8)) 256 = (y, .inr d) →
      exec (.qrWriteback src) s = .next (left (memWrite y (128 * la) (sectorBytes (BitVec.ofNat 4 (d / 2 ^ 64))) (d / 2 ^ 1024) 128))) ∧
    (fld (look 0 t.regs.portctl (la / 2 ^ 39 % 16)) 4 1 ≠ 4 → v.getLsbD 1 = true →
      exec (.qrWriteback src) s = .next (withRegs t (fun r => { r with qrcmd := (v &&& 0xFFFFFF02#64) ||| 4 }))))

/-- spec/28 R426-R430, R433: reset returns everything of the module to its reset value; a rail's failure and a thermal shutdown do too, and the ROM
does not run; the clock moves by a sixteenth; the boot ROM stops with its stage and error, or places the image and starts thread 0; a PCIe reset
clears only the function; training brings the link up; a configuration request is answered, or retried until the part is up. The image's bytes stand at consecutive physical
addresses, and its SHA-256 is kept for reports (R434). The model's choice: DRAM reads 0 after reset (log 3), the other reset values the spec does not give (log 4), what is kept
outside the part, the ROM not running after a rail's failure and the error of an oversized image (log 25), and the dwords of configuration space (log 15). -/
def Obligations.ResetAndBoot : Prop :=
  (let fresh : State → Bool → State := fun s off => { State.reset with
     sched := s.sched, turnNo := s.turnNo, freeNo := s.freeNo, mem := { Mem.reset with fabric := s.mem.fabric }
     host := { HostIf.reset with outs := s.host.outs, booted := off } }
   (∀ s, exec .resetNAssert s = .next (fresh s false)) ∧ (∀ s r, r < 4 → exec (.railFailure r) s = .next (fresh s true)) ∧
   (∀ s, exec .thermalShutdown s = .next (fresh s true))) ∧
  (∀ s, exec .clockThrottleStep s = .next { s with host := { s.host with clockStep := max 4 (s.host.clockStep - 1) } }) ∧
  (∀ s, exec .clockRecoverStep s = .next { s with host := { s.host with clockStep := min 16 (s.host.clockStep + 1) } }) ∧
  (∀ s i, s.host.booted = false →
    let stop : Nat → State := fun v => { s with regs := { s.regs with bootstat := BitVec.ofNat 64 v }, host := { s.host with booted := true } }
    let good : Prop := i.keyDigest = Config.fusedKey ∧ i.sigOk = true ∧ i.image.length ≤ 63 * 2 ^ 20
    (¬ good → exec (.bootRom i) s = .next (stop 0x101)) ∧
    (good → i.version.toNat < Config.fusedMin.toNat → exec (.bootRom i) s = .next (stop 0x102)) ∧
    (good → Config.fusedMin.toNat ≤ i.version.toNat → ∀ n < 12, i.badStack = some n → exec (.bootRom i) s = .next (stop (0x203 + 2 ^ 16 * n))) ∧
    (good → Config.fusedMin.toNat ≤ i.version.toNat → i.badStack = none → i.linkOk = false → exec (.bootRom i) s = .next (stop 0x304)) ∧
    (good → Config.fusedMin.toNat ≤ i.version.toNat → i.badStack = none → i.linkOk = true → (getThread s 0).halt = true → ∃ t, exec (.bootRom i) s = .next t ∧
      t.regs = { s.regs with bootstat := BitVec.ofNat 64 (2 ^ 32 * i.version.toNat + 0x400), dlstat := s.regs.dlstat ||| 1 } ∧
      t.mem = (copyFrames ((i.image.length + 4095) / 4096) s 0x100000 i.image).mem ∧ t.host.fwDigest = sha256 (i.image.map BitVec.toNat) ∧
      (MemoryOk s → s.regs.memsplit = 0 → ∀ j < i.image.length, memRead t (0x100000 + j) 1 = (i.image.getD j 0).toNat) ∧
      getThread t 0 = { getThread s 0 with pc := i.entry &&& ~~~7#52, word := 0, halt := false, runBit := true, stopReq := false } ∧
      (∀ q, q ≠ 0 → getThread t q = getThread s q) ∧ t.cores = s.cores ∧ t.launch = s.launch)) ∧
  (∀ s, exec .pcieReset s = .next { s with host := { s.host with
    tdisp := .unlocked, attrs := [], msix := [], linkUp := false, linkWidth := 0, linkSpeed := 0, confWords := []
    posted := s.host.posted.filter (fun p => p.way = 2), lastWct := s.host.lastWct.filter (fun e => e.1 % 2 = 1) } }) ∧
  (∀ s w g, s.host.linkUp = false → 1 ≤ w → w ≤ 16 → 1 ≤ g → g ≤ 6 →
    exec (.perstDeassertion w g) s = .next { s with host := { s.host with linkUp := true, linkWidth := w, linkSpeed := g } }) ∧
  (∀ s r, s.host.linkUp = true → fld s.regs.bootstat 15 8 ≠ 7 → exec (.configurationRequest r) s = .next (emit s .retry)) ∧
  (∀ s r, s.host.linkUp = true → fld s.regs.bootstat 15 8 = 7 → r.write = none → ∃ v, exec (.configurationRequest r) s = .next (emit s (.config v)) ∧
    (r.reg = 0 → v.extractLsb' 16 16 = 0x9120#16) ∧ (r.reg = 2 → v.extractLsb' 0 8 = 0x21#8)) ∧
  (∀ s r d, s.host.linkUp = true → fld s.regs.bootstat 15 8 = 7 → r.write = some d → ∃ v, exec (.configurationRequest r) s = .next
    (emit { s with host := { s.host with confWords := put s.host.confWords r.reg d } } (.config v)))

/-- spec/24 R398, R401, R402; spec/28 R431, R432: the states of a port and what moves it between them; a port that leaves UP loses its lines and its
snoops; the die link's loss and retraining. The periods are counted at 1 GHz (log 14); that a port leaving UP
forgets its snoops (log 19) is the model's choice. -/
def Obligations.PortEvents : Prop :=
  (let at_ : State → Nat → Nat → Prop := fun s p st => p < 16 ∧ fld (look 0 s.regs.portctl p) 4 1 = st
   let since : State → Nat → Nat := fun s p => s.time - look 0 s.regs.portAt p
   let lost : State → State → Nat → Prop := fun s t p => rising 0 s.mem.l2 = true →
     (∀ k, (getL2 s k).used = true → 3 * 2 ^ 43 ≤ (getL2 s k).line → (getL2 s k).line / 2 ^ 39 % 16 = p → (getL2 s k).dirty = 0 ∧ (getL2 s k).line < 2 ^ 45) →
     (∀ k, (getL2 t k).used = true → (getL2 t k).quarantined = true ∨ (getL2 t k).line < 3 * 2 ^ 43 ∨ (getL2 t k).line / 2 ^ 39 % 16 ≠ p) ∧
     (∀ la ∈ t.mem.snoops, la ∈ s.mem.snoops ∧ (la < 3 * 2 ^ 43 ∨ 2 ^ 45 ≤ la ∨ la / 2 ^ 39 % 16 ≠ p)) ∧ (getThread t 0).wakest = (getThread s 0).wakest ||| 32 ∧
     t.cores = s.cores ∧ t.mem.fabric = s.mem.fabric
   RowWrite .portctlWrite 0x200 16 (fun s p v => v.getLsbD 0 = true ∧ fld (look 0 s.regs.portctl p) 4 1 = 0) (fun s p _ => portIn (portEn s p 1) p 1 0) ∧
   RowWrite .portctlWrite 0x200 16 (fun s p v => v.getLsbD 0 = true ∧ fld (look 0 s.regs.portctl p) 4 1 ≠ 0) (fun s p _ => portEn s p 1) ∧
   RowWrite .portctlWrite 0x200 16 (fun s p v => v.getLsbD 0 = false ∧ fld (look 0 s.regs.portctl p) 4 1 = 0) (fun s p _ => portEn s p 0) ∧
   RowWrite .portctlWrite 0x200 16 (fun s p v => v.getLsbD 0 = false ∧ fld (look 0 s.regs.portctl p) 4 1 ≠ 0 ∧ fld (look 0 s.regs.portctl p) 4 1 ≠ 4)
     (fun s p _ => portIn (portEn s p 0) p 0 0) ∧
   (∀ s src p v t, p < 16 → Taken s src (0x200 + p) v t → v.getLsbD 0 = false → at_ t p 4 → ∃ q, exec (.portctlWrite src) s = .next q ∧
     lost (portIn (portEn t p 0) p 0 0) q p) ∧
   (∀ s p, at_ s p 1 → since s p ≤ 12000000 → exec (.portDetectExitIdle p) s = .next (portIn s p 2 0)) ∧
   (∀ s p, at_ s p 1 → 12000000 ≤ since s p → exec (.portDetectTimeout p) s = .next (portIn s p 1 0)) ∧
   (∀ s p a b c, at_ s p 2 → exec (.portNegotiate p a b c) s = .next
     (if a = false then portIn s p 6 1 else if b = false then portIn s p 6 2 else if c = false then portIn s p 6 3 else portIn s p 3 0)) ∧
   (∀ s p, at_ s p 2 → exec (.portPartnerIdle p) s = .next (portIn s p 1 0)) ∧
   (∀ s p, at_ s p 3 → since s p ≤ 100000000 → exec (.portTrainDone p) s = .next (linkNote (portIn s p 4 0))) ∧
   (∀ s p, at_ s p 3 → 100000000 ≤ since s p → exec (.portTrainTimeout p) s = .next (portIn s p 1 0)) ∧
   (∀ s p, at_ s p 4 → ∃ t, exec (.portLinkLoss p) s = .next t ∧ lost s t p ∧ (rising 0 s.mem.l2 = true →
     (∀ k, (getL2 s k).used = true → 3 * 2 ^ 43 ≤ (getL2 s k).line → (getL2 s k).line / 2 ^ 39 % 16 = p → (getL2 s k).dirty = 0) →
     fld (look 0 t.regs.portctl p) 4 1 = 5 ∧ fld (look 0 t.regs.portctl p) 11 8 = 0 ∧
     fld (look 0 t.regs.portctl p) 63 32 = min (2 ^ 32 - 1) (fld (look 0 s.regs.portctl p) 63 32 + 1))) ∧
   (∀ s p, at_ s p 5 → since s p ≤ 100000000 → exec (.portRelock p) s = .next (linkNote (portIn s p 4 0))) ∧
   (∀ s p, at_ s p 5 → 100000000 ≤ since s p → exec (.portRetrainTimeout p) s = .next (portIn s p 1 0))) ∧
  (∀ s, s.regs.dlstat.getLsbD 0 = true → (∀ x ∈ s.launch.slices, x.diepol ≠ 0 ∨ x.loss.isSome = true ∨ x.killed = true ∨ (sliceDies s x).length < 2) →
    exec .dieLinkLoss s = .next (linkNote (withRegs s (fun r => { r with dlstat := BitVec.ofNat 64 (2 ^ 32 * min (2 ^ 32 - 1) (fld r.dlstat 63 32 + 1)) })))) ∧
  (∀ s, s.regs.dlstat.getLsbD 0 = false → exec .dieLinkRetrain s = .next (linkNote (withRegs s (fun r => { r with dlstat := r.dlstat ||| 1 }))))

/-- spec/13 R263; spec/24 R391-R396: requests of the host and of peers. A read answers with the register or with memory's bytes; a write is posted,
held behind its requester's earlier writes, behind an earlier write of the window, or until its request can be served, and released; grants and snoops of host-homed lines;
a slice that holds no host-homed line is gated. That a write that must wait is posted and tried again (log 26), and how grants and snoops meet the lines and
requests they name (log 24), are the model's choice. -/
def Obligations.HostEvents : Prop :=
  (let up : State → Prop := fun s => s.host.linkUp = true ∧ fld s.regs.bootstat 15 8 = 7
   let shared : State → HostReq → Nat → Prop := fun s r page => r.tee = false ∧ ∀ a ∈ s.host.attrs, a.1 ≠ page
   let alone : State → Nat → Prop := fun s key =>
     (∀ p ∈ s.host.posted, p.req.relaxed = true ∨ 2 * p.req.requester + (if p.way = 2 then 1 else 0) ≠ key) ∧ ∀ e ∈ s.host.lastWct, e.1 = key → e.2 < s.time
   let noted : State × Nat → Nat → HostReq → State := fun w key r => if r.relaxed then w.1 else
     { w.1 with host := { w.1.host with lastWct := put w.1.host.lastWct key (max w.2 (look 0 w.1.host.lastWct key)) } }
   let window : State → Prop := fun s => ∀ p ∈ s.host.posted, p.way = 0 → 0x8000 ≤ p.req.addr
   let held : State → HostReq → Nat → State := fun s r w => { s with host := { s.host with posted := s.host.posted ++ [{ req := r, way := w }] } }
   let serve : State → HostReq → Nat → Nat → State × Nat → Prop := fun s r w key x =>
     (x.1.holds = [] → exec (if w = 1 then .bar2Write r else .peerWrite r) s = .next (noted x key r)) ∧
     (x.1.holds ≠ [] → exec (if w = 1 then .bar2Write r else .peerWrite r) s = .next (held s r w))
   let line : State → Nat → Prop := fun _ la => 3 * 2 ^ 43 ≤ la ∧ la < 2 ^ 45
   let answer : Nat → Bool → BitVec 4 → Line → Out := fun la held dirty d => .snoopAnswer la held dirty d
   (∀ s r, up s → shared s r (r.addr / 4096) → r.addr + r.len ≤ 0x8000 → r.len = 8 → r.addr % 8 = 0 →
     exec (.bar0Read r) s = .next (emit s (.readData r.requester (toBytes 8 (hostReg s (r.addr / 8)))))) ∧
   (∀ s r, up s → r.tee = true → (∀ a ∈ s.host.attrs, a.1 ≠ r.addr / 4096) → exec (.bar0Read r) s = .next (emit s (.unsupported r.requester))) ∧
   (∀ s r n, up s → s.holds = [] → shared s r (r.addr / 4096) → (r.relaxed = true ∨ alone s (2 * r.requester)) → window s → r.bytes.length = 8 → r.addr = 8 * n → n < 0x1000 →
     exec (.bar0Write r) s = .next (if (0x180 ≤ n ∧ n < 0x1C0) then { s with host := { s.host with regq := s.host.regq ++ [(n, BitVec.ofNat 64 (leBytes r.bytes % 2 ^ 32))] } }
       else if n = 0x1C0 then { s with host := { s.host with regq := s.host.regq ++ [(n, BitVec.ofNat 64 (leBytes r.bytes))] } } else s)) ∧
   (∀ s r n, up s → shared s r (r.addr / 4096) → ((r.relaxed = false ∧ ¬ alone s (2 * r.requester)) ∨ ¬ window s) → r.bytes.length = 8 → r.addr = 8 * n →
     n < 0x1000 → exec (.bar0Write r) s = .next (held s r 0)) ∧
   (∀ s r pa t v, up s → bar2Span s r r.len = some pa → hostRead 0 (pageWorld s (64 + r.addr / 4096)) (r.len / 128 + 2) s pa r.len = (t, some v) →
     exec (.bar2Read r) s = .next (emit t (.readData r.requester (toBytes r.len v)))) ∧
   (∀ s r, up s → bar2Span s r r.len = none → exec (.bar2Read r) s = .next (emit s (.unsupported r.requester))) ∧
   (∀ s r pa, up s → (r.relaxed = true ∨ alone s (2 * r.requester)) → bar2Span s r r.bytes.length = some pa → serve s r 1 (2 * r.requester)
     (hostWrite 0 (pageWorld s (64 + r.addr / 4096)) (r.bytes.length / 128 + 2) s pa r.bytes.length (leBytes r.bytes))) ∧
   (∀ s key p rest, s.host.posted = p :: rest → 2 * p.req.requester + (if p.way = 2 then 1 else 0) = key → (∀ e ∈ s.host.lastWct, e.1 = key → e.2 < s.time) →
     p.way = 2 → exec (.postedWriteRelease key) s = .next (noted (hostWrite (p.req.port / 8) 0 (p.req.bytes.length / 128 + 2)
       { s with host := { s.host with posted := rest } } p.req.addr p.req.bytes.length (leBytes p.req.bytes)) key p.req)) ∧
   (∀ s r t v, fld (look 0 s.regs.portctl r.port) 4 1 = 4 → r.len ≤ 128 → (rangeOf s r.addr).isDram = true →
     rangeOf s (r.addr + max 1 r.len - 1) = rangeOf s r.addr → hostRead (r.port / 8) 0 3 s r.addr r.len = (t, some v) →
     exec (.peerRead r) s = .next (emit t (.readData r.requester (toBytes r.len v)))) ∧
   (∀ s r, fld (look 0 s.regs.portctl r.port) 4 1 = 4 → r.bytes.length ≤ 128 → (rangeOf s r.addr).isDram = true →
     rangeOf s (r.addr + max 1 r.bytes.length - 1) = rangeOf s r.addr → (r.relaxed = true ∨ alone s (2 * r.requester + 1)) → serve s r 2 (2 * r.requester + 1)
     (hostWrite (r.port / 8) 0 (r.bytes.length / 128 + 2) s r.addr r.bytes.length (leBytes r.bytes))) ∧
   (∀ s r t m, fld (look 0 s.regs.portctl r.port) 4 1 = 4 → r.bytes.length = 4 → (rangeOf s r.addr).isDram = true → rangeOf s (r.addr + 3) = rangeOf s r.addr →
     r.addr % 4 = 0 → hostRead (r.port / 8) 0 3 s r.addr 4 = (t, some m) → m < 2 ^ 32 →
     exec (.peerAtomic r 0 6) s = .next (emit (hostWrite (r.port / 8) 0 3 t r.addr 4 ((m + leBytes r.bytes) % 2 ^ 32)).1 (.readData r.requester (toBytes 4 m)))) ∧
   (∀ s la excl d k, line s la → fld (look 0 s.regs.portctl (la / 2 ^ 39 % 16)) 4 1 = 4 → quarantinedLine s la = false → la ∉ s.mem.snoops → heldAt s la = some k →
     exec (.directoryGrant la excl d) s = .next (setL2 { s with mem := { s.mem with wants := s.mem.wants.filter (fun w => w.1 ≠ la) } } k
       { getL2 s k with grant := max (if excl then 2 else 1) (getL2 s k).grant })) ∧
   (∀ s la, line s la → la ∉ s.mem.snoops → heldAt s la = none → (∀ p ∈ s.mem.passes, p.line ≠ la) →
     exec (.snoopInvalidate la) s = .next (emit s (answer la false 0 0)) ∧ exec (.snoopShare la) s = .next (emit s (answer la false 0 0))) ∧
   (∀ s la k, line s la → la ∉ s.mem.snoops → heldAt s la = some k → (getL2 s k).quarantined = false →
     look false s.mem.gated (sliceOf (getL2 s k).home (128 * la)) = false →
     exec (.snoopInvalidate la) s = .next { s with mem := { s.mem with snoops := s.mem.snoops ++ [la] } } ∧
     ∃ t, exec (.snoopShare la) s = .next t ∧ (getL2 t k).grant = 1 ∧ (getL2 t k).dirty = 0 ∧ (getL2 t k).data = (getL2 s k).data ∧
       t.host.outs = s.host.outs ++ [answer la true (getL2 s k).dirty (getL2 s k).data] ∧ t.regs = s.regs ∧ t.cores = s.cores) ∧
   (∀ s la k, la ∈ s.mem.snoops → heldAt s la = some k → rising 0 s.mem.l2 = true → lmaxOf s (getL2 s k).home la < s.time →
     ∃ t, exec (.snoopInvalidateAnswer la) s = .next t ∧ la ∉ t.mem.snoops ∧ (getL2 t k).used = false ∧
       t.host.outs = s.host.outs ++ [answer la true (getL2 s k).dirty (getL2 s k).data] ∧ t.regs = s.regs ∧ t.cores = s.cores) ∧
   (∀ s n, n < 192 → (∀ p ∈ s.mem.l2, p.2.used = true → p.1 / 16384 = n → rangeOf s (128 * p.2.line) ≠ .fabric) →
     exec (.slicePowerGate n) s = .next { s with mem := { s.mem with gated := putC false s.mem.gated n true } }))

/-- spec/26 R416-R418; spec/28 R434-R436: the interface's states; a report states what the part runs and counts; a tenant's message loads, erases or
queries a key slot of its world, with the status of each refusal. That reports and key messages are requests of configuration space, so that they are answered Retry
until STAGE is 7 and do not arrive without the link (R430), is the model's choice (log 17). -/
def Obligations.SecurityEvents : Prop :=
  let up : State → Prop := fun s => s.host.linkUp = true ∧ fld s.regs.bootstat 15 8 = 7
  (∀ s a, s.host.tdisp = .unlocked → exec (.lockInterfaceRequest a) s = .next { s with host := { s.host with
    tdisp := .locked, attrs := a.filter (fun p => 1 ≤ p.2 && p.2 ≤ 15) } }) ∧
  (∀ s, s.host.tdisp = .locked → exec .startInterfaceRequest s = .next { s with host := { s.host with tdisp := .run } }) ∧
  (∀ s, exec .stopInterfaceRequest s = .next { s with host := { s.host with tdisp := .unlocked } }) ∧
  (∀ s n, up s → ∃ b : BitVec 960, exec (.getMeasurements n) s = .next (emit { s with host := { s.host with reports := s.host.reports + 1 } } (.report b (Config.signature b))) ∧
    b.extractLsb' 320 256 = s.host.fwDigest ∧ b.extractLsb' 64 256 = Config.romDigest ∧ b.extractLsb' 640 256 = n ∧
    b.extractLsb' 896 64 = BitVec.ofNat 64 s.host.reports ∧ b.extractLsb' 576 32 = s.regs.bootstat.extractLsb' 32 32) ∧
  (let reply : State → KeyMsg → Nat → State := fun s m st => emit s (.keyStatus m.kop m.slot (BitVec.ofNat 8 st) (match look none s.host.keys m.slot.toNat with
     | none => 0
     | some (w, _) => if w = m.world.toNat then 1 else 2))
   let mine : KeyMsg → Nat → Prop := fun m e => getB e 32 1 ≤ m.slot.toNat ∧ m.slot.toNat < getB e 32 1 + getB e 33 1
   (∀ s m, up s → m.zero = 0 → s.regs.worldtab.getLsbD 0 = false →
     (m.kop = 1 → exec (.keyLoad m) s = .next (reply s m 2)) ∧ (m.kop = 2 → exec (.keyErase m) s = .next (reply s m 2)) ∧
     (m.kop = 3 → exec (.slotQuery m) s = .next (reply s m 2))) ∧
   (∀ s m z e, up s → m.zero = 0 → worldEntry s m.world.toNat = (z, e) →
     (keyAllowed m e = false →
       (m.kop = 1 → exec (.keyLoad m) s = .next (reply z m 2)) ∧ (m.kop = 2 → exec (.keyErase m) s = .next (reply z m 2)) ∧
       (m.kop = 3 → exec (.slotQuery m) s = .next (reply z m 2))) ∧
     (keyAllowed m e = true → m.len ≠ (if m.kop = 1 then 100 else 4) →
       (m.kop = 1 → exec (.keyLoad m) s = .next (reply z m 5)) ∧ (m.kop = 2 → exec (.keyErase m) s = .next (reply z m 5)) ∧
       (m.kop = 3 → exec (.slotQuery m) s = .next (reply z m 5))) ∧
     (keyAllowed m e = true → m.kop = 1 → m.len = 100 →
       (mine m e → look none z.host.keys m.slot.toNat = none →
         exec (.keyLoad m) s = .next (reply { z with host := { z.host with keys := putC none z.host.keys m.slot.toNat (some (m.world.toNat, m.keys)) } } m 0)) ∧
       (¬ mine m e → exec (.keyLoad m) s = .next (reply z m 3)) ∧
       (mine m e → look none z.host.keys m.slot.toNat ≠ none → exec (.keyLoad m) s = .next (reply z m 4))) ∧
     (keyAllowed m e = true → m.kop = 2 → m.len = 4 →
       (look none z.host.keys m.slot.toNat = none → exec (.keyErase m) s = .next (reply z m 0)) ∧
       (∀ w k, look none z.host.keys m.slot.toNat = some (w, k) → w ≠ m.world.toNat → exec (.keyErase m) s = .next (reply z m 2)) ∧
       (∀ k, rising 0 z.host.keys = true → look none z.host.keys m.slot.toNat = some (m.world.toNat, k) →
         ∃ t, exec (.keyErase m) s = .next t ∧ look none t.host.keys m.slot.toNat = none ∧ (∀ h ∈ t.host.handles, h.2 ≠ some m.slot.toNat))) ∧
     (keyAllowed m e = true → m.kop = 3 → m.len = 4 → exec (.slotQuery m) s = .next (reply z m 0))) ∧
   (∀ s m, up s → m.kop = 0 ∨ 3 < m.kop.toNat → exec (.slotQuery m) s = .next (reply s m 1))) ∧
  (∀ s i, (∃ n, i = .getMeasurements n) ∨ (∃ m : KeyMsg, (m.kop = 1 ∧ i = .keyLoad m) ∨ (m.kop = 2 ∧ i = .keyErase m) ∨ (m.kop = 3 ∧ i = .slotQuery m)) →
    (s.host.linkUp = false → exec i s = .next s) ∧
    (s.host.linkUp = true → fld s.regs.bootstat 15 8 ≠ 7 → exec i s = .next (emit s .retry)))

/-- spec/08 R156, R160, R165, R167, R171-R176, R438; spec/04 R83, R85, R89; spec/05 R100, R106; spec/09 R190: what carries an operation out. Its
address is walked, where a miss has room; its line's request is granted bandwidth or takes its place among those that wait, and is filled; a store, an atomic or a compare-and-swap changes the bytes it names and no other byte of any line; a wait is
answered or polled; a fence ends; and a performed operation writes its lanes, whereupon its flag falls. That a store to
a protected line costs 8 units (log 8), that a line's whole transaction is one step (log 24) and in what order a slice's waiting requests go where R100 is silent (log 7) are the
model's choice. -/
def Obligations.MemoryEvents : Prop :=
  (∀ s o c k (d : BitVec 9) n m, InFlight s o 1 → o.unit = .warp c k → c < 320 → teamHolds s o.handle = false → instrDst o.instr = some (d, n) →
    o.wrote = 0 →
    let wrote : Mask → Warp := fun x => if d.toNat < 320 then writeLate (getWarp s c k) d.toNat n x o.res else getWarp s c k
    (o.lanes &&& m = o.lanes → ∃ t, exec (.longLatencyComplete o.id m) s = .next t ∧ Retired s t o ∧ (getWarp t c k).v = (wrote o.lanes).v ∧
      t.mem = s.mem ∧ t.regs = s.regs ∧ t.launch = s.launch) ∧
    (o.lanes &&& ~~~m ≠ 0 → ∃ t, exec (.longLatencyComplete o.id m) s = .next t ∧ findOp t o.id = some { o with wrote := m &&& o.lanes } ∧
      (getWarp t c k).v = (wrote (m &&& o.lanes)).v ∧ (getWarp t c k).flags = (getWarp s c k).flags ∧ t.mem = s.mem)) ∧
  (∀ s o f, InFlight s o 0 → o.instr = .fence f → (modF f 7 6 = 1 ∨ modF f 5 3 < 2) → ∃ t, exec (.fenceComplete o.id) s = .next t ∧ Retired s t o ∧
    t.mem = s.mem ∧ t.regs = s.regs) ∧
  (∀ s o a e ea level z tabs, InFlight s o 0 → o.accs = [a] → a.pa = none → isScalar o.unit = false →
    walkTargets s (spaceOf o) (a.va.toNat / 4096) = [(o.id, a)] → missRoom s (unitDie o.unit) (spaceOf o, a.va.toNat / 4096) = true →
    walkNow s (opX s o) a.va = (z, tabs, .leaf e ea level) → z.ops = s.ops → pagePlaced z e level = true →
    wordLeafCheck z (opX z o) o.instr e ea level = none →
    ∃ t p, exec (.tlbWalk o.id (a.va.toNat / 4096)) s = .next t ∧ findOp t o.id = some p ∧
      p.accs = [{ a with pa := some (leafPa e level a.va), leaf := e, size := leafBits e level, xlatAt := z.turnNo }] ∧ t.mem.faults = z.mem.faults ∧ t.mem.l2 = z.mem.l2 ∧
      t.mem.dram = z.mem.dram ∧ t.regs = z.regs) ∧
  (∀ s o (a : LaneAcc), findOp s o.id = some o → walkTargets s (spaceOf o) (a.va.toNat / 4096) ≠ [] → missRoom s (unitDie o.unit) (spaceOf o, a.va.toNat / 4096) = false →
    exec (.tlbWalk o.id (a.va.toNat / 4096)) s = .next s) ∧
  (∀ s d r rest c z, look [] s.mem.faults d = r :: rest → findCtx s r.ctx = some c → c.desc.getD 1 0 ≠ 0 →
    z.holds = [] →
    (r.unusable = false → ringTry s d c r = .written z → exec (.faultRecordWrite d) s = .next (setFaults z d rest)) ∧
    (r.unusable = false → r.counted = false → ringTry s d c r = .full z →
      exec (.faultRecordWrite d) s = .next (setFaults z d ({ r with counted := true, unusable := false } :: rest))) ∧
    (r.unusable = false → ringTry s d c r = .unusable z →
      exec (.faultRecordWrite d) s = .next (setFaults z d ({ r with unusable := true, retryAt := z.time + 65536 } :: rest))) ∧
    (r.unusable = true → r.retryAt ≤ s.time → ringTry s d c { r with unusable := false } = .written z →
      exec (.faultRingRetry d) s = .next (setFaults z d rest))) ∧
  (∀ s slice sid cost self, s.mem.waits = [] → grantNow s slice sid cost self =
    if 1024 < grantedBytes s slice + 16 * cost then none
    else if bucketRate (bandwidth s sid) ≠ 0 ∧ cost ≤ bucketNow s slice sid then some cost
    else if (bandwidth s sid).getLsbD 16 = true ∨ bucketRate (bandwidth s sid) = 0 then some 0 else none) ∧
  (∀ s o a pa f, InFlight s o 0 → o.accs = [a] → a.pa = some pa → a.done = false → o.instr = .st f → o.bufs = [] → o.granted = [] → sentBefore s o a = false →
    s.regs.dlstat.getLsbD 0 = true → look 0 s.mem.bucketAt (accSlice s a * 32 + o.sid) ≤ s.sclk →
    let slice := accSlice s a
    let cost := if (leafEntry a.leaf).isSome then 8 else 2
    (∀ n, grantNow s slice o.sid cost (fun x => x.op = o.id && x.line = pa / 128) = some n → ∃ t, exec (.bandwidthGrant o.id (pa / 128)) s = .next t ∧
      findOp t o.id = some { o with granted := [pa / 128] } ∧ t.mem.bucket = putC 0 s.mem.bucket (slice * 32 + o.sid) (bucketNow s slice o.sid - n) ∧
      t.mem.lastSid = putC 31 s.mem.lastSid slice o.sid ∧ (∀ w ∈ t.mem.waits, w.op ≠ o.id ∨ w.line ≠ pa / 128) ∧ t.mem.l2 = s.mem.l2 ∧ t.mem.dram = s.mem.dram ∧ t.regs = s.regs) ∧
    (grantNow s slice o.sid cost (fun x => x.op = o.id && x.line = pa / 128) = none → ∃ t, exec (.bandwidthGrant o.id (pa / 128)) s = .next t ∧
      t.ops = s.ops ∧ (∃ w ∈ t.mem.waits, w.op = o.id ∧ w.line = pa / 128) ∧ t.mem.l2 = s.mem.l2 ∧ t.mem.bucket = s.mem.bucket ∧ t.regs = s.regs)) ∧
  (∀ s o a pa f, OneAccess s o a pa none → o.instr = .ld f → sliceHolds s (opReq s o a) false = false →
    (∀ k ∈ waysOf (opReq s o a).die (pa / 128), (getL2 s k).used = true → (getL2 s k).line = pa / 128 ∨ (getL2 s k).dirty = 0) →
    ∃ t, exec (.lineFill o.id (pa / 128)) s = .next t ∧ (poisoned t (pa / 128) = false → PerformedWith t o.id a.lane
      (loadVal (.ld f) (isScalar o.unit) (fieldOfLine (lineNow s (opReq s o a).die (pa / 128)) (pa % 128) (accessBytes (.ld f))))) ∧
      t.mem.dram = s.mem.dram ∧ t.mem.fabric = s.mem.fabric) ∧
  (∀ s o a pa f k, OneAccess s o a pa none → Held s o a pa k → o.instr = .ld f → sliceHolds s (opReq s o a) false = false →
    ∃ t, exec (.lineFill o.id (pa / 128)) s = .next t ∧ PerformedWith t o.id a.lane
      (loadVal (.ld f) (isScalar o.unit) (fieldOfLine (lineNow s (opReq s o a).die (pa / 128)) (pa % 128) (accessBytes (.ld f)))) ∧
      t.mem.dram = s.mem.dram ∧ t.mem.fabric = s.mem.fabric ∧ t.mem.poison = s.mem.poison) ∧
  (∀ s o a pa f k, OneAccess s o a pa none → Held s o a pa k → o.instr = .st f → sliceHolds s (opReq s o a) true = false →
    ∃ t, exec (.writePerform o.id (pa / 128)) s = .next t ∧ LineOnly s t (opReq s o a).die (pa / 128) (pa % 128) (accessBytes (.st f)) ∧
      fieldOfLine (lineNow t (opReq s o a).die (pa / 128)) (pa % 128) (accessBytes (.st f)) = (nth o.b a.lane).toNat % 2 ^ (8 * accessBytes (.st f)) ∧
      unitWct t o.unit = max (unitWct s o.unit) (max s.time (lmaxOf s (opReq s o a).die (pa / 128))) ∧ (∃ p, findOp t o.id = some p ∧ p.phase = 1)) ∧
  (∀ s o a pa f k, OneAccess s o a pa none → Held s o a pa k → o.instr = .atom f → f.ty = 2 ∨ f.ty = 3 ∨ f.ty = 6 ∨ f.ty = 7 →
    sliceHolds s (opReq s o a) true = false →
    let n := accessBytes (.atom f)
    let m := fieldOfLine (lineNow s (opReq s o a).die (pa / 128)) (pa % 128) n
    ∃ t, exec (.writePerform o.id pa) s = .next t ∧ LineOnly s t (opReq s o a).die (pa / 128) (pa % 128) n ∧
      fieldOfLine (lineNow t (opReq s o a).die (pa / 128)) (pa % 128) n = atomOf (modF f 8 6) f.ty.toNat m ((nth o.b a.lane).toNat % 2 ^ (8 * n)) ∧
      PerformedWith t o.id a.lane (loadVal (.atom f) (isScalar o.unit) m)) ∧
  (∀ s o a pa f k, OneAccess s o a pa none → Held s o a pa k → o.instr = .cas f → sliceHolds s (opReq s o a) true = false →
    let n := accessBytes (.cas f)
    let m := fieldOfLine (lineNow s (opReq s o a).die (pa / 128)) (pa % 128) n
    ∃ t, exec (.writePerform o.id pa) s = .next t ∧ LineOnly s t (opReq s o a).die (pa / 128) (pa % 128) n ∧
      fieldOfLine (lineNow t (opReq s o a).die (pa / 128)) (pa % 128) n =
        (if m = (nth o.b a.lane).toNat % 2 ^ (8 * n) then (nth o.c a.lane).toNat % 2 ^ (8 * n) else m) ∧
      PerformedWith t o.id a.lane (loadVal (.cas f) (isScalar o.unit) m)) ∧
  (∀ s o a pa f k e key, OneAccess s o a pa (some e) → Held s o a pa k → o.instr = .atom f → sliceHolds s (opReq s o a) true = false →
    keyOf s e = some key → (getL2 s k).valid = 15 → lineTag key (pa / 128) (getL2 s k).data = (getL2 s k).side.setWidth 64 →
    let m := fieldOfLine (lineCrypt true key (pa / 128) (getL2 s k).data) (pa % 128) (accessBytes (.atom f))
    ∃ t, exec (.lineLockAcquire o.id (pa / 128)) s = .next t ∧ PerformedWith t o.id a.lane (loadVal (.atom f) (isScalar o.unit) m) ∧
      lineTag key (pa / 128) (getL2 t k).data = (getL2 t k).side.setWidth 64 ∧ t.mem.dram = s.mem.dram ∧ t.regs = s.regs) ∧
  (∀ s o w m f, InFlight s o 0 → w ∈ s.mem.waiters → (∀ x ∈ s.mem.waiters, x.op = o.id → x = w) → w.op = o.id → w.queue = false → o.instr = .waitc f →
    (w.hit = some m → ∃ t, exec (.monitorAnswer o.id) s = .next t ∧ (∀ l < 32, PerformedWith t o.id l (loadVal (.waitc f) (isScalar o.unit) m.toNat)) ∧
      t.mem.waiters = s.mem.waiters.filter (fun x => x.op ≠ o.id) ∧ t.mem.l2 = s.mem.l2 ∧ t.mem.dram = s.mem.dram ∧ t.regs = s.regs) ∧
    (w.entry = false → w.since + 256 ≤ s.sclk → ∃ t, exec (.monitorRepoll o.id) s = .next t ∧ ∃ x ∈ t.mem.waiters, x.op = o.id ∧ x.since = s.sclk ∧
      x.entry = decide (entriesAt s w.slice < 512) ∧ t.mem.l2 = s.mem.l2 ∧ t.mem.dram = s.mem.dram ∧ t.ops = s.ops))

/-- spec/14 R280-R287; spec/06 R117-R125: a queue's operations on a live object; a waiter that can proceed is served; TNODE, a node's
roll-up and TSETTLE of a node, after the nodes' lines have been read (spec/04 R72: here where none is poisoned). That TSETTLE_COMPLETE passes up
every bump below its node in one step is the model's choice (log 12). -/
def Obligations.QueueAndTreeEvents : Prop :=
  (∀ (q : QObj) h b c, q.bad = false → q.status = 1 → 1 ≤ b → b < 512 → b ≤ q.cap → c < 2 ^ 32 →
    (b ≤ q.permits → qapply q { kind := .acq, b := b, c := c, flag := false, handle := h } false false =
      .word q.pix (some { q with permits := q.permits - b, pix := (q.pix + b) % q.cap })) ∧
    (q.permits < b → qapply q { kind := .acq, b := b, c := c, flag := false, handle := h } false false = .wait ∧
      qapply q { kind := .acq, b := b, c := c, flag := true, handle := h } false false = .word (2 ^ 28) none) ∧
    (b ≤ q.tokens → qapply q { kind := .get, b := b, c := c, flag := false, handle := h } false false =
      .word (2 ^ 16 * q.flags + q.cix) (some { q with tokens := q.tokens - b, cix := (q.cix + b) % q.cap })) ∧
    (q.permits + q.tokens + b ≤ q.cap → qapply q { kind := .put, b := b, c := c, flag := false, handle := h } false false = .word 0
      (some { q with tokens := q.tokens + b, fix := (q.fix + b) % q.cap, bytes := (q.bytes + c) % 2 ^ 64, flags := q.flags ||| 0 })) ∧
    (q.permits + q.tokens + b ≤ q.cap → qapply q { kind := .ret, b := b, c := c, flag := false, handle := h } false false = .word 0
      (some { q with permits := q.permits + b, rix := (q.rix + b) % q.cap })) ∧
    (q.cap < q.permits + q.tokens + b → qapply q { kind := .put, b := b, c := c, flag := false, handle := h } false false = .word (6 * 2 ^ 28) none)) ∧
  (∀ s o a w pa q q' vm z r v, InFlight s o 0 → o.accs = [a] → qwaiters s pa = [w] → w.op = o.id → w.hit = none →
    qread s (LReq.again s (opReq s o a)) pa = (z, .inr (q, vm)) → z.ops = s.ops → qwaiters z pa = [w] → waiterReq z w = some (o, r) → qapply q r false false = .word v (some q') →
    (r.kind = .put ∨ r.kind = .get ∨ r.kind = .acq ∨ r.kind = .ret) →
    ∃ t, exec (.queueWaiterServe pa) s = .next t ∧ ∀ l < 32, PerformedWith t o.id l v) ∧
  (∀ s o f l, InFlight s o 0 → o.instr = .tnode f → o.accs = [] → treeOn s = true → o.lanes = BitVec.ofNat 32 (2 ^ l) → l < 32 →
    s.regs.dlstat.getLsbD 0 = true → (∀ q, o.unit ≠ .thread q) →
    let p := (nth o.a l).toNat % 2 ^ 16
    let z := readNodes (payNodes s o) (dedup (nodesRead s o l))
    (∀ h, p = 0 → freeNode s = some h → ∃ t, exec (.treeOpPerform o.id) s = .next t ∧ PerformedWith t o.id l h ∧
      t.mem = (setNodeWord (clearNode s h) h 1 (BitVec.ofNat 64 (2 ^ 32 * o.ctx + 2 ^ 28 * o.world + 1))).mem) ∧
    (p ≠ 0 → (∀ h ∈ nodesRead z o l, poisoned z (nodeLine z h) = false) →
      (nodeLive z p = false → ∃ t, exec (.treeOpPerform o.id) s = .next t ∧ PerformedWith t o.id l (2 ^ 28) ∧ t.mem = z.mem) ∧
      (nodeLive z p = true → (nodeCtx z p ≠ o.ctx ∨ nodeWorld z p ≠ o.world) →
        ∃ t, exec (.treeOpPerform o.id) s = .next t ∧ PerformedWith t o.id l (2 * 2 ^ 28) ∧ t.mem = z.mem))) ∧
  (∀ s h, treeOn s = true → nodeLive s h = true → s.regs.dlstat.getLsbD 0 = true →
    let z := readNodes s (rollupNodes s h)
    let p := nodeParent z h
    (nodeWord z h 3 = 0 ∨ nodeLive z p = false → exec (.treeRollup h) s = .next (setNodeWord z h 3 0)) ∧
    (nodeWord z h 3 ≠ 0 → nodeLive z p = true → exec (.treeRollup h) s = .next (raiseNodeWct (addPend (addCount (setNodeWord z h 3 0) p (nodeWord z h 3).toNat)
      p (nodeWord z h 3).toNat) p (look 0 z.mem.nodeWct h)))) ∧
  (∀ s o f l, InFlight s o 0 → o.instr = .tsettle f → modB f 1 = false → o.accs = [] → treeOn s = true → o.lanes = BitVec.ofNat 32 (2 ^ l) → l < 32 →
    s.regs.dlstat.getLsbD 0 = true → (∀ q, o.unit ≠ .thread q) →
    let h := (nth o.a l).toNat % 2 ^ 16
    let z := readNodes (payNodes s o) (dedup (nodesRead s o l))
    ((∀ k ∈ nodesRead z o l, poisoned z (nodeLine z k) = false) →
      (nodeLive z h = false → ∃ t, exec (.tsettleComplete o.id) s = .next t ∧ PerformedWith t o.id l (2 ^ 28) ∧ t.mem = z.mem) ∧
      (nodeLive z h = true → nodeCtx z h = o.ctx → nodeWorld z h = o.world → ∃ t, exec (.tsettleComplete o.id) s = .next t ∧
        PerformedWith t o.id l 0 ∧ t.mem = (settleBelow z h).mem)))

/-- spec/07 R132, R141-R150; spec/12 R235, R236, R243, R251, R256-R258; spec/20 R354: the engines. A ready copy starts and ends with its status word; an
overlay is loaded, by the context that asked for it, whatever holds its place now; the matrix arbiter grants the earliest request and the array retires it; a drain takes the epilogue processor and ends; an engine end
hands a slot on. That it makes one move a turn is the model's choice (log 22). -/
def Obligations.EngineEvents : Prop :=
  (∀ s c z d, findCopy s c.id = some c → c.ready = true → c.stopped = false → c.started = false → c.replay = false → engineLoad s c.core c.eng < 8 →
    engineQueue s c = false → stashHeld s c = false → startChecks s c = (z, d) →
    (d.fatal ≠ 0 → exec (.copyStart c.id) s = .next (setCopy z d)) ∧
    (d.fatal = 0 → (parseCcb d.ccb d.dsp d.parts d.coresel d.words).queue = 0 → d.residue = 0 → exec (.copyStart c.id) s = .next
      (setCopy z { d with started := true, todo := arrivedSectors d (copyGeo d) }))) ∧
  (∀ s c o b n, findCopy s c.id = some c → c.started = true → c.stopped = false → c.todo = [] → c.missing = [] → c.wct < s.time → c.fatal = 0 → c.cancelled = false →
    c.residue = 0 → (copyGeo c).ccb.queue = 0 → c.noStat = false → c.arrivals = [(o.id, b, n)] → InFlight s o 0 → o.wrote = 0 → teamHolds s o.handle = false →
    ∃ t, exec (.copyComplete c.id) s = .next t ∧ findCopy t c.id = none ∧ Answered s t o (List.replicate 32 (BitVec.ofNat 128 ((c.doneBefore + c.moved) % 2 ^ 28))) ∧
      t.mem = s.mem ∧ t.regs = s.regs) ∧
  (∀ s c k v, (getFront s c k).posted = some (0x14, v) →
    let i := fld v 1 1
    let f := getFront s c k
    (ovlBusy s c = false → 1 ≤ fld v 14 4 → fld v 14 4 ≤ 1024 → ∃ t, exec (.overlayLoad (.unit (.front c k))) s = .next t ∧
      getSlot t c i = { getSlot s c i with valid := false, loading := some { front := k, handle := f.handle, cmd := v, ctx := f.ctx, world := f.world, sid := f.sid } } ∧ (getFront t c k).ovlerr = false ∧
      (getFront t c k).ovlcode = (getFront s c k).ovlcode ∧ (getFront t c k).s = (getFront s c k).s ∧ (∀ j, j ≠ i → getSlot t c j = getSlot s c j) ∧
      t.mem = s.mem) ∧
    (ovlBusy s c = false → fld v 14 4 = 0 ∨ 1024 < fld v 14 4 → ∃ t, exec (.overlayLoad (.unit (.front c k))) s = .next t ∧
      getSlot t c i = { getSlot s c i with valid := false, loading := none } ∧ (getFront t c k).ovlcode = 2) ∧
    (ovlBusy s c = true → ∃ t, exec (.overlayLoad (.unit (.front c k))) s = .next t ∧ (getFront t c k).ovlerr = true ∧
      ∀ j, getSlot t c j = getSlot s c j)) ∧
  (∀ s c i l z d, (getSlot s c i).loading = some l →
    devRead (ctxX s c l.ctx l.world l.sid) 0 (64 * fld l.cmd 14 4 / 128 + 2) s (BitVec.ofNat 64 (2 ^ 16 * fld l.cmd 51 16)) (64 * fld l.cmd 14 4) = (z, .inr d) →
    getFront z c l.front = getFront s c l.front →
    ∃ t, exec (.overlayLoadDone c i) s = .next t ∧ getSlot t c i = {
      valid := true, image := l.cmd.extractLsb' 16 36, len := 64 * fld l.cmd 14 4, loading := none
      code := memPut (getSlot s c i).code 0 (2 ^ (64 * fld l.cmd 14 4) - 1) d (64 * fld l.cmd 14 4) } ∧ t.mem = z.mem ∧
      getFront t c l.front = (if (getFront s c l.front).live = true ∧ (getFront s c l.front).handle = l.handle then { getFront s c l.front with ovlcode := 0 }
        else getFront s c l.front)) ∧
  (∀ s p r, (getPair s p).reqs = [r] → r.issueAt < s.cyc → issuesBefore s p r.issueAt = false → (getPair s p).freeAt ≤ s.cyc → (getCore s (2 * p)).latch = r.world →
    (getCore s (2 * p + 1)).latch = r.world → isDrainReq r = false →
    exec (.matrixGrant p) s = .next (setPair s p { getPair s p with
      reqs := [], granted := (getPair s p).granted ++ [r], freeAt := s.cyc + if r.perform = true ∧ (∃ q ∈ r.parts, needsReady q.instr = true) then 8 else 1 })) ∧
  (∀ s p r q, (getPair s p).reqs = [r, q] → q.issueAt = r.issueAt → r.issueAt < s.cyc → issuesBefore s p r.issueAt = false → (getPair s p).freeAt ≤ s.cyc → r.core % 2 = 0 → q.core % 2 = 1 →
    sameReq r q = false → (getCore s (2 * p)).latch = r.world → (getCore s (2 * p + 1)).latch = r.world → q.world = r.world → isDrainReq r = false →
    isDrainReq q = false →
    ∃ t, exec (.matrixGrant p) s = .next t ∧ (getPair t p).granted = (getPair s p).granted ++ [if (getPair s p).evenNext then r else q] ∧
      (getPair t p).reqs = [if (getPair s p).evenNext then q else r] ∧ (getPair t p).evenNext = !(getPair s p).evenNext) ∧
  (∀ s p r o (m : MPart) f, (getPair s p).granted = [r] → r.parts = [m] → m.instr = o.instr → m.op = o.id → InFlight s o 0 → o.wrote = 0 → teamHolds s o.handle = false →
    (o.instr = .mzero f → ∃ t, exec (.matrixRetire p) s = .next t ∧ getTile t p r.tile = { words := [], im := false, tflags := 0 } ∧ (getPair t p).granted = [] ∧
      Answered s t o [] ∧ (∀ j, j ≠ r.tile → getTile t p j = getTile s p j) ∧ t.mem = s.mem) ∧
    (o.instr = .mma f → f.ty = 0 → r.perform = true → partTainted s m = false → ∃ t, exec (.matrixRetire p) s = .next t ∧ (getPair t p).granted = [] ∧
      (getTile t p r.tile).im = true ∧ (∀ a < 64, ∀ b < 64, look 0 (getTile t p r.tile).words (64 * a + b) =
        BitVec.ofInt 32 ((look 0 (getTile s p r.tile).words (64 * a + b)).toInt + (((operandRow s r 0 false 0 a).zip (operandRow s r 0 true 0 b)).map
          (fun q => fvInt q.1 * fvInt q.2)).sum)) ∧ (∀ j, j ≠ r.tile → getTile t p j = getTile s p j) ∧ t.mem = s.mem)) ∧
  (∀ s p d r o z ws, (getPair s p).drains = [d] → (getPair s p).granted = [r] → (∃ q ∈ r.parts, q.op = d.part.op) → d.started = false → d.fatal = 0 → InFlight s o 0 →
    o.id = d.part.op → d.desc.toNat % 64 = 0 → devWords (releaseStep s o 0).1 (opX (releaseStep s o 0).1 o) d.desc 8 = (z, .inr ws) →
    let g := parseDrain ws
    (g.bad = true → ∃ t e, exec (.drainStart p) s = .next t ∧ (getPair t p).drains = [e] ∧ e.started = true ∧ e.fatal = 1 ∧ t.mem = z.mem) ∧
    (∀ y v, g.bad = false → g.queue = 0 → g.kind = 0 → devGet z (opX (releaseStep s o 0).1 o) g.prog (4 * g.plen) = (y, .inr v) →
      let prog := (List.range g.plen).map (fun i => BitVec.ofNat 32 (v / 2 ^ (32 * i)))
      (∀ w ∈ prog, epiBad w = false) → (∀ q ∈ drainRanges g prog, inGrant (releaseStep s o 0).1 d.part.handle q.1 q.2 = true) → g.dest.toNat % 4 = 0 →
      g.dest.toNat + drainSpan g.ofmt ≤ 320 → g.dest.toNat + drainSpan g.ofmt ≤ (getWarp (releaseStep s o 0).1 d.part.core d.part.slot).budget →
      ∃ t e, exec (.drainStart p) s = .next t ∧ (getPair t p).drains = [e] ∧ e.started = true ∧ e.fatal = 0 ∧ e.written = 64 * g.rows ∧
        e.regs = spanRegs g (drainRows y d.part.core g prog (getTile y p d.tile)) ∧ t.mem = y.mem)) ∧
  (∀ s p d r o, (getPair s p).drains = [d] → (getPair s p).granted = [r] → (∃ q ∈ r.parts, q.op = d.part.op) → d.started = true → InFlight s o 0 →
    o.id = d.part.op → o.wrote = 0 → o.unit = .warp d.part.core d.part.slot → teamHolds s o.handle = false → d.wct < s.time → d.refTaken = false →
    (parseDrain d.words).queue = 0 → instrDst o.instr = none →
    ∃ t, exec (.drainComplete p) s = .next t ∧ (getPair t p).drains = [] ∧ (getPair t p).granted = [] ∧ Retired s t o ∧
      (getWarp t d.part.core d.part.slot).v = (d.regs.foldl (fun w q => writeLate w q.1 1 q.2.1 q.2.2) (getWarp s d.part.core d.part.slot)).v ∧
      t.mem = (structWrite s (opX s o) (d.desc + 48) 4 (if d.fatal ≠ 0 then 2 * 2 ^ 28 + d.fatal else 2 ^ 28 * (if d.faulted then 1 else 0) + d.written) 1
        (engineOrigin d.part.core 0) false).1.mem) ∧
  (∀ s n k x core f o, findEnd s n k = some (x, core, f) → f.stage = 4 → s.ops.find? (fun p => p.unit = endUnit n k) = some o → o.phase ≠ 0 →
    (nth o.res 0).toNat / 2 ^ 28 = 0 →
    let next : Bool → State := fun last => setPipe (dropOp s o.id) n (fun p => setFurrow p k (fun g => { g with
      moved := g.moved + 1, unit := g.unit + 1, slot := none, stage := 0, wct := 0, prodend := g.prodend || last, stopped := g.stopped || last }))
    (f.src = 15 → exec (.sourceEndSlot n k) s = .next (next (decide (endUnits f ≤ f.unit + 1)))) ∧
    (f.dst = 15 → f.src ≠ 15 → exec (.sinkEndSlot n k) s = .next (next false)))


/-- spec/02 R23, R24; spec/09 R192, R193; spec/15 R304-R307, R311, R316; spec/19 R344, R345; spec/22 R374; spec/24 R385, R437: a unit's boundary. The
first entry of a warp begins its clause, traps on a bad header, parks on a busy flag, a miss or an empty decision queue, gives way to a more urgent warp,
or pops its decision first; a halted context with no stub traps OVLMISS for its core's warp; a clause's end puts every lane in its place; a warp's end frees it, and the last one's ends the team. That
CLAUSE_BEGIN takes every word of its clause as the slot then holds it (log 6), and that a context which has halted is still asked for its stub (log 14), are the model's choice. -/
def Obligations.ClauseEvents : Prop :=
  (∀ s c k w e i hdr, Boundary s c k w → First s c w e i → slotWord s c i e.pc = hdr →
    let words := clauseWords s c i e.pc hdr
    let good : Prop := ¬ BadHeader hdr e.pc false
    let goes : State → Prop := fun t => (∃ q, (getWarp t c k).run = some q ∧ Begun q hdr e.pc words 0 e.word e.mask) ∧ (getWarp t c k).v = w.v ∧
      (getWarp t c k).p = w.p ∧ (getWarp t c k).flags = w.flags ∧ (∀ x ∈ (getWarp t c k).frontier, x.pc ≠ e.pc ∨ x.word ≠ e.word) ∧
      (∀ x ∈ w.frontier, x ≠ e → ∃ y ∈ (getWarp t c k).frontier, y.pc = x.pc ∧ y.word = x.word ∧ y.mask = x.mask) ∧
      (∀ j, j ≠ k → getWarp t c j = getWarp s c j) ∧ t.mem = s.mem ∧ t.regs = s.regs ∧ t.threads = s.threads
    (BadHeader hdr e.pc false → w.sheaf = none → ∃ t q, exec (.clauseBegin (.warp c k)) s = .next t ∧ (getWarp t c k).run = none ∧
      (getWarp t c k).stopped = true ∧ (getCore t c).trapBuf = (getCore s c).trapBuf ++ [q] ∧ q.kind = .warp ∧ q.cause = 0x20 ∧ q.pc = e.pc.setWidth 64 ∧
      q.wordv = hdr ∧ q.widx = 15 ∧ t.mem = s.mem ∧ t.regs = s.regs) ∧
    (good → hdr.getLsbD 27 = false ∨ e.word ≠ 0 → ¬ WaitClear w.flags hdr → ∃ t, exec (.clauseBegin (.warp c k)) s = .next t ∧
      (getWarp t c k).run = none ∧ (getWarp t c k).parked = true ∧ (getWarp t c k).blocked = none ∧ (getWarp t c k).v = w.v ∧ t.mem = s.mem) ∧
    (good → hdr.getLsbD 27 = false ∨ e.word ≠ 0 → WaitClear w.flags hdr → w.absent ≠ 0 → words.any wholeWarp = true →
      ∃ t, exec (.clauseBegin (.warp c k)) s = .next t ∧ (getWarp t c k).run = none ∧ (getWarp t c k).parked = true ∧
        (getWarp t c k).blocked = some (w.blocked.getD s.time) ∧ t.mem = s.mem) ∧
    (good → hdr.getLsbD 27 = false ∨ e.word ≠ 0 → WaitClear w.flags hdr → w.absent = 0 ∨ words.any wholeWarp = false →
      ∃ t, exec (.clauseBegin (.warp c k)) s = .next t ∧ goes t ∧ (getWarp t c k).w = w.w ∧ (getWarp t c k).dqt = w.dqt) ∧
    (good → hdr.getLsbD 27 = true → e.word = 0 → e.pc ∉ w.popFor → w.sheaf = none → ∀ f, frontOf s c w.handle = some f →
      ((∀ d ∈ (getFront s c f).dq, d.mask.getLsbD (localIndex s w) = false) → ∃ t, exec (.clauseBegin (.warp c k)) s = .next t ∧
        (getWarp t c k).run = none ∧ (getWarp t c k).parked = true ∧ getFront t c f = getFront s c f ∧ t.mem = s.mem) ∧
      (∀ pre d post, (getFront s c f).dq = pre ++ d :: post → d.mask.getLsbD (localIndex s w) = true →
        (∀ x ∈ pre, x.mask.getLsbD (localIndex s w) = false ∧ x.mask ≠ 0) → (∀ x ∈ post, x.mask ≠ 0) → localIndex s w < 48 → rising 0 w.w = true →
        WaitClear w.flags hdr → w.absent = 0 → ∃ t, exec (.clauseBegin (.warp c k)) s = .next t ∧ goes t ∧ (getWarp t c k).dqt = d.target.getD 0 ∧
        (∀ j < d.vals.length, look 0 (getWarp t c k).w (d.vbase + j) = d.vals.getD j 0) ∧
        (∀ j, j < d.vbase ∨ d.vbase + d.vals.length ≤ j → look 0 (getWarp t c k).w j = look 0 w.w j) ∧
        (let rest := d.mask &&& ~~~BitVec.ofNat 48 (2 ^ localIndex s w)
         (getFront t c f).dq = if rest = 0 then pre ++ post else pre ++ { d with mask := rest } :: post)))) ∧
  (∀ s c k w e, Boundary s c k w → e ∈ w.frontier → (∀ x ∈ w.frontier, x ≠ e → Before s c e x) → codeSlots s c e.pc = [] →
    ∃ t, exec (.clauseBegin (.warp c k)) s = .next t ∧ (getWarp t c k).run = none ∧ (getWarp t c k).parked = true ∧ t.mem = s.mem) ∧
  (∀ s c k w j p, getWarp s c k = w → WarpReady s w → (j, p) ∈ (getCore s c).warps → j % 4 = k % 4 → j ≠ k → (p.live = true ∧ p.run.isSome = true) ∨
    (WarpReady s p ∧ Urgent s p w) → exec (.clauseBegin (.warp c k)) s = .next s) ∧
  (∀ s c k f m i hdr, getFront s c k = f → f.live = true → f.run = none → f.stopped = false → f.halted = false → f.posted = none → f.ovlpc.getLsbD 1 = false →
    findTeam s f.handle = some m → m.st = .running → m.saved = false →
    (∀ p ∈ (getCore s c).warps, p.2.live = true → p.2.handle = f.handle → p.2.parked = false) →
    (codeSlots s c f.pc = [i] → slotWord s c i f.pc = hdr → ¬ BadHeader hdr f.pc true → WaitClear f.flags hdr → ∃ t q,
      exec (.clauseBegin (.front c k)) s = .next t ∧ (getFront t c k).run = some q ∧ Begun q hdr f.pc (clauseWords s c i f.pc hdr) f.word 0 1 ∧
      (getFront t c k).s = f.s ∧ (getFront t c k).flags = f.flags ∧ (getCore t c).warps = (getCore s c).warps ∧ t.mem = s.mem ∧ t.regs = s.regs) ∧
    (codeSlots s c f.pc = [] → slotLoading s c f.pc = false →
      let stub : Addr := BitVec.ofNat 52 (8 * fld f.ovlstub 51 3)
      (stub ≠ 0 → (∃ j, codeSlots s c stub = [j]) → f.stack.length < 16 → ∃ t, exec (.clauseBegin (.front c k)) s = .next t ∧
        (getFront t c k).pc = stub ∧ (getFront t c k).stack = f.stack ++ [f.pc] ∧ (getFront t c k).ovlpc = BitVec.ofNat 64 (f.pc.toNat / 8 * 8 + 2) ∧
        t.mem = s.mem) ∧
      (stub = 0 ∨ 16 ≤ f.stack.length → ∃ t q, exec (.clauseBegin (.front c k)) s = .next t ∧ (getFront t c k).stopped = true ∧
        (getCore t c).trapBuf = (getCore s c).trapBuf ++ [q] ∧ q.kind = .front ∧ q.cause = 0x30 ∧ q.widx = 15 ∧ q.wordv = 0 ∧ q.prio = 0 ∧
        q.pc = f.pc.setWidth 64 ∧ q.addr = f.pc.setWidth 64 ∧ t.mem = s.mem))) ∧
  (∀ s c k f m j p e, getFront s c k = f → f.live = true → f.run = none → f.stopped = false → f.halted = true → f.posted = none → f.ovlpc.getLsbD 1 = false → f.word = 0 →
    findTeam s f.handle = some m → m.st = .running → m.saved = false → (getCore s c).warps = [(j, p)] → p.live = true → p.handle = f.handle → p.sheaf = none →
    p.parked = true → p.frontier = [e] → codeSlots s c e.pc = [] → slotLoading s c e.pc = false → fld f.ovlstub 51 3 = 0 →
    ∃ t q, exec (.clauseBegin (.front c k)) s = .next t ∧ (getFront t c k).stopped = true ∧ (getCore t c).trapBuf = (getCore s c).trapBuf ++ [q] ∧ q.kind = .front ∧
      q.cause = 0x30 ∧ q.pc = f.pc.setWidth 64 ∧ q.addr = e.pc.setWidth 64 ∧ t.mem = s.mem) ∧
  (∀ s q x, getThread s q = x → x.halt = false → x.run = none → x.sleeping = none → x.posted = none →
    (x.stopReq = true → exec (.clauseBegin (.thread q)) s = .next (setThread s q { x with halt := true, runBit := false, stopReq := false })) ∧
    (∀ a b hdr ws, x.stopReq = false → threadWord s q (x.pc.setWidth 64) = (a, .inr hdr) → ¬ BadHeader hdr x.pc true → WaitClear x.flags hdr →
      getThread a q = x → threadWords q x.pc (fld hdr 25 22) 0 a = (b, .inr ws) → getThread b q = x → ∃ t r, exec (.clauseBegin (.thread q)) s = .next t ∧
        (getThread t q).run = some r ∧ Begun r hdr x.pc ws x.word 0 1 ∧ (getThread t q).s = x.s ∧ t.mem = b.mem ∧ t.cores = b.cores)) ∧
  (∀ s c k w, getWarp s c k = w → w.live = true → w.parked = true → w.stopped = false →
    (∀ e i hdr, First s c w e i → slotWord s c i e.pc = hdr → ¬ BadHeader hdr e.pc false → hdr.getLsbD 27 = false ∨ e.word ≠ 0 →
      (¬ WaitClear w.flags hdr → exec (.warpUnpark c k) s = .next (setWarp s c k { w with blocked := none })) ∧
      (WaitClear w.flags hdr → w.absent = 0 → exec (.warpUnpark c k) s = .next (setWarp s c k { w with
        parked := false, blocked := none, boundSince := none, waiting := Nat.max s.cyc w.waiting })))) ∧
  (∀ s c k w r, getWarp s c k = w → w.run = some r → r.words.length ≤ r.idx → ∃ t, exec (.clauseEnd (.warp c k)) s = .next t ∧
    let d := drainTo (drainBound r) w r
    let ex := r.exits &&& r.mask
    let dest := if r.hdr.getLsbD 27 = true ∧ r.skip = 0 ∧ w.dqt ≠ 0 then w.dqt else r.pc + BitVec.ofNat 52 (8 * (fld r.hdr 25 22 + 1))
    let here : Addr → Nat → Prop := fun pc l => ∃ y ∈ (getWarp t c k).frontier, y.pc = pc ∧ y.word = 0 ∧ y.mask.getLsbD l = true
    (getWarp t c k).run = none ∧ (getWarp t c k).v = d.1.v ∧ (getWarp t c k).p = d.1.p ∧ (getWarp t c k).exited = w.exited ||| ex ∧
    (∀ x ∈ w.frontier, ∃ y ∈ (getWarp t c k).frontier, y.pc = x.pc ∧ y.word = x.word ∧ x.mask &&& y.mask = x.mask) ∧
    (∀ l < 32, r.mask.getLsbD l = true → ex.getLsbD l = false →
      (∀ b ∈ r.branches, b.2.getLsbD l = true → here b.1 l) ∧ ((∀ b ∈ r.branches, b.2.getLsbD l = false) → here dest l)) ∧
    (getWarp t c k).yieldWord = r.yielded ∧ (getWarp t c k).yieldHint = r.hdr.getLsbD 36 ∧ t.mem = s.mem ∧ t.regs = s.regs ∧
    (∀ j, j ≠ k → getWarp t c j = getWarp s c j) ∧
    (∀ m, w.sheaf = none → findTeam s w.handle = some m → ∃ n, findTeam t w.handle = some n ∧
      n.sum.threads = m.sum.threads + ((List.range 32).filter (fun l => ex.getLsbD l)).length ∧
      n.sum.nz = m.sum.nz + ((List.range 32).filter (fun l => ex.getLsbD l && r.exitSt.getD l 0 != 0)).length ∧
      n.sum.maxst = ((List.range 32).filter (fun l => ex.getLsbD l)).foldl (fun x l => max x (r.exitSt.getD l 0)) m.sum.maxst ∧
      n.sum.low = ((List.range 32).filter (fun l => ex.getLsbD l && r.exitSt.getD l 0 != 0)).foldl (fun x l => min x (32 * w.num + l)) m.sum.low)) ∧
  (∀ s c k f r, getFront s c k = f → f.run = some r → r.words.length ≤ r.idx → (∀ n ∈ f.divRet, n.1 ≠ f.stack.length - 1) →
    exec (.clauseEnd (.front c k)) s = .next (setFront s c k { f with
      run := none, pc := (leftAt f.stack r).1, stack := (leftAt f.stack r).2, halted := f.halted || r.halts })) ∧
  (∀ s q x r, getThread s q = x → x.run = some r → r.words.length ≤ r.idx → exec (.clauseEnd (.thread q)) s = .next (setThread s q { x with
    run := none, pc := (leftAt x.stack r).1, stack := (leftAt x.stack r).2, halt := x.halt || x.stopReq, runBit := x.runBit && !x.stopReq
    stopReq := false })) ∧
  (∀ s u r, getRun s u = some r → r.idx < r.words.length → exec (.clauseEnd u) s = .next s) ∧
  (∀ s c k w, k < 48 → getWarp s c k = w → w.live = true → w.run = none → w.exited = 0xFFFFFFFF#32 → w.flags = [] → w.rejoins = [] →
    (w.sheaf.isSome = true → (∀ o ∈ s.ops, o.unit ≠ .warp c k) → exec (.warpEnd c k) s = .next (setWarp s c k Warp.reset)) ∧
    (w.sheaf.isSome = true → (∃ o ∈ s.ops, o.unit = .warp c k ∧ ownerHere s o = true) → exec (.warpEnd c k) s = .next s) ∧
    (∀ m, w.sheaf = none → findTeam s w.handle = some m →
      ((m.st = .running ∨ m.st = .stopping) → m.ended + 1 < ((m.shape.roles.map (fun r => r.warps)).foldl (· + ·) 0) → ∃ t n,
        exec (.warpEnd c k) s = .next t ∧ getWarp t c k = Warp.reset ∧ findTeam t w.handle = some n ∧ n.ended = m.ended + 1 ∧
        n.wctmax = max m.wctmax w.wctmax ∧ t.mem.dram = s.mem.dram) ∧
      ((m.st = .running ∨ m.st = .stopping) → ((m.shape.roles.map (fun r => r.warps)).foldl (· + ·) 0) ≤ m.ended + 1 → m.stage = none → ∃ t,
        exec (.warpEnd c k) s = .next t ∧ ∀ n, findTeam t w.handle = some n → n.st = .ending) ∧
      (∀ x, m.st = .ending → m.closed = true → x.killed = false → m.wctmax < s.time → m.isTask = false → m.stage = none → findSlice s m.slice = some x → x.kind = 1 →
        let z := setSlice s { x with retired := x.retired + 1 }
        ∃ t, exec (.warpEnd c k) s = .next t ∧ findTeam t w.handle = none ∧ t.mem = (structWrite z (ctxX z m.start x.ctx x.world x.sid)
          (x.crec + BitVec.ofNat 64 (32 * m.tid)) 32 (teamRecord m.sum 0 s.time) 3 deviceOrigin false).1.mem) ∧
      (m.st = .ending → m.closed = true → s.time ≤ m.wctmax → exec (.warpEnd c k) s = .next s) ∧
      (m.st = .held → exec (.warpEnd c k) s = .next s))) ∧
  (∀ s c k w e m rest, getWarp s c k = w → w.rejoins = (e, m) :: rest → w.live = true → w.run = none → (∀ x, findTeam s w.handle = some x → x.st ≠ .held) →
    ∃ t, exec (.laneRejoin c k) s = .next t ∧ (getWarp t c k).rejoins = rest ∧ (getWarp t c k).absent = w.absent &&& ~~~m ∧
      (m &&& w.absent ≠ 0 → ∃ y ∈ (getWarp t c k).frontier, y.pc = e.pc ∧ y.word = e.word ∧ m &&& w.absent &&& y.mask = m &&& w.absent) ∧
      (∀ x ∈ w.frontier, ∃ y ∈ (getWarp t c k).frontier, y.pc = x.pc ∧ y.word = x.word ∧ x.mask &&& y.mask = x.mask) ∧
      (getWarp t c k).v = w.v ∧ t.mem = s.mem ∧
      ∀ j, j ≠ k → { getWarp t c j with boundSince := (getWarp s c j).boundSince } = getWarp s c j)

/-- spec/14 R295; spec/19 R328-R332, R335, R337, R338, R340, R327; spec/20 R355; spec/26 R405, R411, R412: a GO of SLICECMD sets BUSY, or ERR
while BUSY is set; forming, resuming and killing a slice; placing a team or a worker; a task's start and a steal, which writes memory only for records beyond the 64 that a core holds (log 20); budgets; a team held, swapped out, and restored from the pool; the Tiller's sample; the end of a
context, BUSY until nothing of it is out. BUSY standing
from a GO until its operation is over (log 14), a refused GO writing the RW fields (log 29) and the image's layout (log 16) are the model's choice. -/
def Obligations.LaunchEvents : Prop :=
  (let fresh : State → Prop := fun s => ∀ m ∈ s.launch.teams, m.handle ≠ s.launch.handleCtr
   let address : W64 → W64 := fun v => BitVec.ofNat 64 (64 * fld v 51 6)
   let going : State → Nat → Nat → W64 → Prop := fun s q k v =>
     (getThread s q).posted = none ∧ (getThread s q).sliceGo = some v ∧ v.getLsbD 0 = true ∧ fld v 2 1 = k
   -- a GO of SLICECMD: BUSY, or ERR while BUSY; a refusal is over at once and changes nothing else
   (∀ s q v t mk k, (mk, k) ∈ [(Instr.sliceForm, 1), (Instr.sliceResume, 2), (Instr.sliceKill, 3)] → Taken s (.unit (.thread q)) 0x1C v t → v.getLsbD 0 = true →
     fld v 2 1 = k → ∃ y, y = ownWrite t (.thread q) 0x1C v ∧
     ((getThread t q).sliceGo = none → exec (mk (.unit (.thread q))) s = .next (setThread y q { getThread y q with sliceGo := some v, sliceMark := y.nextOp })) ∧
     ((getThread t q).sliceGo ≠ none → exec (mk (.unit (.thread q))) s = .next (setThread y q { getThread y q with slicestat := (getThread y q).slicestat ||| 4 }))) ∧
   -- forming a slice
   (∀ s q v, going s q 1 v →
     (∀ z x cx, readForm s q (address v) = (z, some (x, cx)) → ∃ y, exec (.sliceForm (.unit (.thread q))) s = .next (writePipe y x.num) ∧
       y.launch.slices = z.launch.slices ++ [x] ∧ y.launch.seqCtr = x.seq ∧ (getThread y q).slicestat = BitVec.ofNat 64 (256 * x.num) ∧
       (getThread y q).sliceGo = none ∧ (findCtx z cx.id = none → y.launch.ctxs = z.launch.ctxs ++ [cx]) ∧ y.mem = z.mem ∧ x.queue = q ∧ x.thread = q ∧
       x.st = .ready ∧ x.next = 0 ∧ (x.kind ≠ 2 → x.pipe = none) ∧
       ∀ z' ws, formWords s (threadX s q) (address v) 8 = (z', some ws) →
         let w : Nat → W64 := fun i => ws.getD i 0
         x.crec = w 2 ∧ x.param = w 3 ∧ x.teams = fld (w 4) 31 0 ∧ x.kind = fld (w 4) 63 56 ∧ x.diepol = fld (w 4) 34 33 ∧ x.ordered = (w 4).getLsbD 32 ∧
         x.budget = (if w 6 = 0 then none else some (w 6).toNat)) ∧
     (∀ z, readForm s q (address v) = (z, none) → ∃ y, exec (.sliceForm (.unit (.thread q))) s = .next y ∧ y.launch = z.launch ∧
       (getThread y q).slicestat.getLsbD 2 = true ∧ (getThread y q).sliceGo = none) ∧
     (∀ z ws, formWords s (threadX s q) (address v) 8 = (z, some ws) →
       (fld (ws.getD 4 0) 63 56 ∉ [1, 2, 3] ∨ fld (ws.getD 4 0) 34 33 = 3 ∨ (ws.getD 2 0).toNat % 32 ≠ 0 ∨ fld (ws.getD 4 0) 55 35 ≠ 0 ∨
         (fld (ws.getD 4 0) 63 56 = 1 ∧ fld (ws.getD 4 0) 31 0 = 0) ∨ (fld (ws.getD 4 0) 63 56 = 3 ∧ 160 < fld (ws.getD 4 0) 31 0)) →
       ∃ y, exec (.sliceForm (.unit (.thread q))) s = .next y ∧ y.launch = z.launch ∧ (getThread y q).slicestat.getLsbD 2 = true)) ∧
   -- RESUME and KILL
   (∀ s q v, findSlice s (fld v 63 56) = none →
     (going s q 2 v → ∃ y, exec (.sliceResume (.unit (.thread q))) s = .next y ∧ y.launch = s.launch ∧ (getThread y q).slicestat.getLsbD 2 = true ∧ y.mem = s.mem) ∧
     (going s q 3 v → ∃ y, exec (.sliceKill (.unit (.thread q))) s = .next y ∧ y.launch = s.launch ∧ (getThread y q).slicestat.getLsbD 2 = true ∧ y.mem = s.mem)) ∧
   (∀ s q v x z w, going s q 2 v → findSlice s (fld v 63 56) = some x → x.st = .stopped → x.killed = false → x.loss = none →
     devWords s (threadX s q) (address v) 1 = (z, .inr [w]) →
     ∃ y n, exec (.sliceResume (.unit (.thread q))) s = .next y ∧ findSlice y x.num = some n ∧ n.st ≠ .stopped ∧
       n.budget = (if w = 0 then none else some w.toNat) ∧ (getThread y q).slicestat.getLsbD 2 = false ∧ (getThread y q).sliceGo = none ∧
       (∀ m ∈ y.launch.teams, m.slice = x.num → m.why = some .budget → m.st ≠ .stopping) ∧
       (∀ m ∈ y.launch.teams, m.st = .held → m ∈ z.launch.teams) ∧ y.mem = z.mem) ∧
   (∀ s q v x, going s q 3 v → findSlice s (fld v 63 56) = some x → x.kind = 1 → x.pipe = none → x.loss = none →
     (∀ m ∈ s.launch.teams, m.slice ≠ x.num) → (∀ o ∈ s.ops, ∀ f, o.unit ≠ .warp 512 (16 * x.num + f)) →
     ∃ y, exec (.sliceKill (.unit (.thread q))) s = .next y ∧ findSlice y x.num = none ∧ (getThread y q).slicestat.getLsbD 2 = false ∧
       (getThread y q).sliceGo = none ∧ (getThread y x.thread).wakest.getLsbD 4 = true ∧ y.mem = s.mem ∧ y.cores = s.cores) ∧
   (∀ s q v x, going s q 3 v → findSlice s (fld v 63 56) = some x → x.killed = false →
     (s.launch.teams.map (fun m => m.handle)).Nodup → ∃ y, exec (.sliceKill (.unit (.thread q))) s = .next y ∧ (findSlice y x.num = none ∨
       (∃ n, findSlice y x.num = some n ∧ n.killed = true ∧ n.st = .stopped ∧ (getThread y q).sliceGo = some v ∧
         ∀ m ∈ y.launch.teams, m.slice = x.num → m.st = .ending))) ∧
   (∀ s q v x, going s q 3 v → findSlice s (fld v 63 56) = some x → x.killed = true → (∀ m ∈ s.launch.teams, m.slice = x.num → m.closed = true ∧ m.wctmax < s.time) →
     ∃ y, exec (.sliceKill (.unit (.thread q))) s = .next y ∧ findSlice y x.num = none ∧ (getThread y q).sliceGo = none) ∧
   -- the scheduler
   (∀ s x i y, headSlice s = some (x, i) → y ∈ s.launch.slices → (headItem s y).isSome = true → orderedWait s y = false →
     ¬ List.Lex (· < ·) [y.deadline, y.queue, y.seq] [x.deadline, x.queue, x.seq]) ∧
   (∀ s x n, sheavesFirst s = false → headSlice s = some (x, .team n) → fresh s →
     (findRun s (teamWant x x.shape) = none → ∃ t, exec .schedulerPlace s = .next t ∧ t.launch.teams = s.launch.teams ∧ t.cores = s.cores ∧ t.mem = s.mem) ∧
     (∀ spot, findRun s (teamWant x x.shape) = some spot → runReady s (teamWant x x.shape) spot = true → ∃ t m, exec .schedulerPlace s = .next t ∧
       findTeam t s.launch.handleCtr = some m ∧ m.slice = x.num ∧ m.tid = x.next ∧ m.start = spot.run.headD 0 ∧ m.stashBase = 256 * spot.base ∧
       m.tileBase = spot.tile ∧ m.shape = x.shape ∧ m.st = .running ∧ (∀ c ∈ spot.run, (getCore t c).latch = x.world) ∧
       t.launch.handleCtr = (if s.launch.handleCtr = 0xFFFFFFFF then 1 else s.launch.handleCtr + 1) ∧ t.mem = s.mem ∧ t.regs = s.regs)) ∧
   (∀ s x spot c, sheavesFirst s = false → headSlice s = some (x, .worker) → findRun s (teamWant x (workerShape x.shape)) = some spot →
     runReady s (teamWant x (workerShape x.shape)) spot = true → spot.run = [c] → ∃ t, exec .schedulerPlace s = .next t ∧
     (getCore t c).worker = some x.num ∧ (getCore t c).task = 0 ∧ (getCore t c).deque = (if x.next = 0 then [.held x.root] else []) ∧
     (getCore t c).lfsr = 0xACE1#16 ^^^ BitVec.ofNat 16 c ∧ (getCore t c).latch = x.world ∧ t.launch.teams = s.launch.teams ∧ t.mem = s.mem) ∧
   -- tasks
   (∀ s c n x l e, (getCore s c).worker = some n → findSlice s n = some x → (getCore s c).deque = l ++ [e] →
     (((getCore s c).task ≠ 0 ∨ x.st = .stopped) → exec (.taskStart c) s = .next s) ∧
     (∀ r, e = .held r → readRec s x c e = (s, some r)) ∧
     (∀ z, (getCore s c).task = 0 → x.st ≠ .stopped → readRec s x c e = (z, none) → exec (.taskStart c) s = .next z) ∧
     (∀ z r, (getCore s c).task = 0 → x.st ≠ .stopped → readRec s x c e = (z, some r) → fresh z → ∃ t m, exec (.taskStart c) s = .next t ∧
       (getCore t c).deque = l ∧ (getCore t c).task = z.launch.handleCtr ∧
       findTeam t z.launch.handleCtr = some m ∧ m.isTask = true ∧ m.slice = n ∧ m.start = c ∧ m.tid = fld (r.getD 3 0) 31 0 ∧ m.param = r.getD 1 0 ∧
       m.taskj = r.getD 2 0 ∧ m.shape.fentry = BitVec.ofNat 64 (fld (r.getD 0 0) 51 0) ∧ t.mem = z.mem)) ∧
   (∀ s c n x, (getCore s c).worker = some n → findSlice s n = some x → (getCore s c).task = 0 → (getCore s c).deque = [] →
     (s.cyc < (getCore s c).probeAt + 64 → exec (.stealProbe c) s = .next s) ∧
     ((getCore s c).probeAt + 64 ≤ s.cyc →
       let l := (getCore s c).lfsr
       let next : W16 := (l <<< 1) ||| BitVec.ofNat 16 ((l.getLsbD 15 ^^ l.getLsbD 13) ^^ (l.getLsbD 12 ^^ l.getLsbD 10)).toNat
       let victim := 160 * (c / 160) + next.toNat % 160
       let d := (getCore s victim).deque
       let half := (d.length + 1) / 2
       let b := setCore s c { getCore s c with lfsr := next, probeAt := s.cyc }
       (victim = c ∨ (getCore s victim).worker ≠ some n → exec (.stealProbe c) s = .next b) ∧
       (victim ≠ c → (getCore s victim).worker = some n →
         (∀ rs, d.take half = rs.map DqRec.held → readRecs x victim (d.take half) b = (b, some rs)) ∧
         (∀ z, readRecs x victim (d.take half) b = (z, none) → exec (.stealProbe c) s = .next z) ∧
         (∀ z rs, readRecs x victim (d.take half) b = (z, some rs) → ∃ t, exec (.stealProbe c) s = .next t ∧ (getCore t victim).deque = d.drop half ∧
           (getCore t c).deque.length = half ∧ (rs.length ≤ 64 → (getCore t c).deque = rs.map DqRec.held ∧ t.mem = z.mem ∧ t.launch = z.launch ∧
             ∀ e, e ≠ c → e ≠ victim → getCore t e = getCore z e))))) ∧
   -- budgets, held teams, swap-outs
   (∀ s n x, findSlice s n = some x → x.budget = some 0 → x.st ≠ .stopped → pendingFrom s 0 < 4096 → ∃ t q, exec (.budgetExhausted n) s = .next t ∧
     findSlice t n = some { x with st := .stopped } ∧ (getThread t x.thread).pending = (getThread s x.thread).pending ++ [q] ∧ q.kind = .slice ∧
     q.cause = 0x31 ∧ q.detail = BitVec.ofNat 32 n ∧ (getThread t x.thread).wakest.getLsbD 3 = true ∧
     t.launch.teams = s.launch.teams.map (fun m => if m.slice = n ∧ m.st = .running ∧ m.saved = false then
       { m with st := .stopping, why := some .budget } else m) ∧ t.cores = s.cores ∧ t.mem = s.mem) ∧
   (∀ s h m, findTeam s h = some m → (m.st ≠ .stopping ∨ teamQuiet s m = false → exec (.teamHeld h) s = .next s) ∧
     (m.st = .stopping → teamQuiet s m = true → ∃ t, exec (.teamHeld h) s = .next t ∧ findTeam t h = some { m with st := .held } ∧
       t.copies = s.copies.map (fun c => if c.handle = h ∧ c.dsp = true ∧ c.started = true then { c with stopped := true } else c) ∧
       (∀ id o, m.why = some (.preempt id) → findOp s id = some o → findOp t id = some { o with phase := 1, res := List.replicate 32 0 }) ∧
       t.cores = s.cores ∧ t.mem = s.mem ∧ t.regs = s.regs)) ∧
   (∀ s h m, findTeam s h = some m → m.saved = false →
     (m.st = .running → fld s.regs.swapcfg 31 0 = 0 → exec (.swapOut h) s = .next s) ∧
     (m.st = .running → fld s.regs.swapcfg 31 0 ≠ 0 → teamWarps s h ≠ [] → rising 0 s.cores = true → (∀ c, rising 0 (getCore s c).warps = true) →
       (∀ p ∈ teamWarps s h, monitorBound s p.1 p.2 = true ∧ ∃ b, (getWarp s p.1 p.2).boundSince = some b ∧ fld s.regs.swapcfg 31 0 ≤ s.time - b) →
       (poolFor s m).isSome = true → ∃ t, exec (.swapOut h) s = .next t ∧ findTeam t h = some { m with st := .stopping, why := some .swap } ∧
       (∀ p ∈ teamWarps s h, getWarp t p.1 p.2 = getWarp s p.1 p.2) ∧ (∀ c k, { getWarp t c k with boundSince := (getWarp s c k).boundSince } = getWarp s c k ∧
         getFront t c k = getFront s c k) ∧ t.mem = s.mem) ∧
     (m.st = .held → m.why = some .swap → m.imgLen = 0 → poolFor s m = none → ∃ t, exec (.swapOut h) s = .next t ∧
       findTeam t h = some { m with st := .running, why := none } ∧ (∀ c ∈ t.copies, c.handle = h → c.stopped = false) ∧ t.cores = (waitAfresh s h).cores ∧
       t.mem = s.mem) ∧
     (m.st = .held → m.why = some .swap → m.imgLen ≠ 0 → m.wctmax < s.time → m.stage = none → ∃ t n, exec (.swapOut h) s = .next t ∧ findTeam t h = some n ∧
       n.saved = true ∧ n.pool = m.pool ∧ n.imgLen = m.imgLen ∧ n.readyAgain = hasAnswer s h ∧ t.mem = s.mem)) ∧
   (∀ s x h m a, sheavesFirst s = false → headSlice s = some (x, .saved h) → findTeam s h = some m → m.pool = some a →
     (∀ z c, readImage s poolX (BitVec.ofNat 64 a) = (z, .inl c) → ∃ t, exec .poolRestore s = .next t ∧ t.cores = s.cores ∧ t.mem = s.mem ∧
       t.launch.teams = s.launch.teams) ∧
     (∀ z k img, readImage s poolX (BitVec.ofNat 64 a) = (z, .inr (k, img)) → restorePlace z k img = .waits ∨ restorePlace z k img = .none → ∃ t,
       exec .poolRestore s = .next t ∧ t.cores = s.cores ∧ t.mem = s.mem ∧ t.launch.teams = s.launch.teams) ∧
     (∀ z k img p start, readImage s poolX (BitVec.ofNat 64 a) = (z, .inr (k, img)) → restorePlace z k img = .placed p start →
       k.old = findTeam s k.hdr.handle → rising 0 p.host.savectr = true →
       (rebuild (if k.hdr.world = 0 then p else { p with host := { p.host with
         savectr := putC 0 p.host.savectr k.hdr.ctx (look 0 p.host.savectr k.hdr.ctx + 1) } }) k start img).2 = true → ∃ t n, exec .poolRestore s = .next t ∧ findTeam t k.hdr.handle = some n ∧ n.st = .running ∧ n.saved = false ∧
       n.pool = none ∧ n.start = start ∧ (k.hdr.world ≠ 0 → look 0 t.host.savectr k.hdr.ctx = look 0 p.host.savectr k.hdr.ctx + 1))) ∧
   -- the Tiller
   (∀ s n x p t0, findSlice s n = some x → x.pipe = some p → p.t0 = some t0 →
     let k := (s.time - t0) / (1000 * p.interval)
     (k ≤ p.samples → exec (.tillerSample n) s = .next s) ∧
     (p.samples < k → s.regs.tilctl.getLsbD 0 = false ∨ x.st = .stopped →
       exec (.tillerSample n) s = .next (setSlice s { x with pipe := some { p with samples := k } })) ∧
     (∀ z (qs : List QObj), p.samples < k → s.regs.tilctl.getLsbD 0 = true → s.regs.tilctl.getLsbD 1 = true → x.st ≠ .stopped → p.stages ≠ [] →
       (∀ g ∈ p.stages, g.ended = false) → (∀ f ∈ p.furrows, f.prodend = false ∧ f.closed = false ∧ f.stage ≠ 2) →
       (∀ j < p.stages.length, ∃ f ∈ p.furrows, f.dst = j) →
       sampleQueues (setSlice s { x with pipe := some { p with samples := k } }) x (poolCore p) p.furrows = (z, qs) →
       ∃ t y r, exec (.tillerSample n) s = .next t ∧ findSlice t n = some y ∧ y.pipe = some r ∧ r.samples = k ∧ r.furrows = p.furrows ∧ r.pool = p.pool ∧
         ∀ j g, p.stages[j]? = some g → ∃ e, r.stages[j]? = some e ∧ e.cur = g.cur ∧ e.stalls = g.stalls + (if g.pend = 0 then 0 else 1) ∧
           let fq := p.furrows.zip qs
           let ins := fq.filter (fun a => a.1.dst = j)
           let tokens := (ins.map (fun a => a.2.tokens)).foldr (· + ·) 0
           let cap := (ins.map (fun a => a.2.cap)).foldr (· + ·) 0
           let blocked : Prop := ∃ a ∈ fq, a.1.src = j ∧ a.2.permits = 0 ∧ a.2.waiters ≠ 0
           (cap = 0 ∨ blocked → e.occ = 0) ∧ (cap ≠ 0 → ¬ blocked → e.occ = 256 * tokens / cap))) ∧
   -- the end of a context
   (∀ s src v t, Taken s src 0x2D v t →
     let ctx := fld v 31 16
     let refused : Prop := t.regs.ctxGo.isSome = true ∨ findCtx t ctx = none ∨ (∃ x ∈ t.launch.slices, x.ctx = ctx) ∨ (∃ m ∈ t.launch.teams, m.ctx = ctx ∧ m.pool.isSome = true)
     (refused → ∃ y, exec (.contextDestroy src) s = .next y ∧ y.regs.ctxcmd.getLsbD 2 = true ∧ y.regs.ctxGo = t.regs.ctxGo ∧ y.launch = t.launch ∧ y.mem = t.mem ∧
       y.cores = t.cores) ∧
     (¬ refused → ∃ y, exec (.contextDestroy src) s = .next y ∧ y.regs.ctxcmd.getLsbD 2 = false ∧ y.regs.ctxGo = some ctx ∧ y.launch = t.launch ∧ y.mem = t.mem ∧
       y.cores = t.cores)) ∧
   (∀ s src ctx, (∀ v t, ¬ Taken s src 0x2D v t) → s.regs.ctxGo = some ctx →
     (ctxBusy s ctx = true → exec (.contextDestroy src) s = .next s) ∧
     ((∀ x ∈ s.launch.slices, x.ctx ≠ ctx) → ctxBusy s ctx = false →
       ∃ y, exec (.contextDestroy src) s = .next y ∧ y.regs.ctxGo = none ∧ findCtx y ctx = none ∧
         (∀ i, i ≠ ctx → findCtx y i = findCtx s i) ∧ (∀ c, ∀ e ∈ (getCore y c).tlb, e.space ≠ ctx) ∧
         (∀ q, ∀ r ∈ (getThread y q).pending, r.ctx ≠ ctx ∨ r.kind = .thread) ∧ y.host = s.host)))

/-- spec/22 R363, R366-R371, R376; spec/24 R388: a record is filed once its lane's writes are over, and an XLATE record its walk's, where there is room: to
its slice's or ring's service thread, or to the crib of its cause, world and context, which forms at 32 records or when its window ends; a formed sheaf is placed; a blocked warp traps ABSENT at its limit; a sleeping
thread wakes. In a crib the
records of one cycle stand by core, slot and lane. When a record is filed (log 21) and that order across the cores of a die (spec/23 R383, log 14) are the model's choice. -/
def Obligations.TrapEvents : Prop :=
  (∀ s c, (getCore s c).trapBuf = [] → exec (.gleanerFile c) s = .next s) ∧
  (∀ s c r rest, (getCore s c).trapBuf = r :: rest → s.holds = [] →
    let die := match r.unit with
      | .warp d _ => d / 160
      | .front d _ => d / 160
      | .thread _ => 0
    let h := if 1 ≤ r.cause.toNat ∧ r.cause.toNat ≤ 9 then ctxHtab s r.ctx r.cause.toNat else 0
    let q := match findSlice s r.slice with
      | some x => x.thread
      | none => 0
    let mine := { r with filed := s.cyc }
    let g := getGleaner s die
    let count := ((g.cribs ++ g.waiting).map (fun x => x.recs.length)).foldr (· + ·) 0
    let key : Crib → Prop := fun x => x.cause = r.cause ∧ x.world = r.world ∧ x.ctx = r.ctx
    let later : Prop := ∃ x ∈ formedCribs s die, key x ∧ ∃ p ∈ x.recs, p.filed = s.cyc ∧ List.Lex (· < ·) (fileRank r) (fileRank p)
    let earlier : Prop := ∃ e ∈ s.cores, dieOf e.1 = die ∧ ∃ p ∈ e.2.trapBuf, recDie p = die ∧ p.direct = false ∧ p.kind = .lane ∧ p.wait < s.time ∧ p.cause = r.cause ∧
      p.world = r.world ∧ p.ctx = r.ctx ∧ List.Lex (· < ·) (fileRank p) (fileRank r)
    let listed : Prop := (r.direct = true ∧ r.wait < s.time) ∨ (r.direct = false ∧ ((r.kind ≠ .lane ∧ ¬ (r.kind = .front ∧ r.cause = 5)) ∨
      (r.kind = .lane ∧ r.wait < s.time ∧ r.cause ≠ 5 ∧ h = 0)))
    let walked : Prop := r.direct = false ∧ r.cause = 5 ∧ (r.kind = .front ∨ (r.kind = .lane ∧ r.wait < s.time))
    let room : State → Prop := fun z => pendingFrom z die < 4096 ∧ (die = 0 ∨ z.regs.dlstat.getLsbD 0 = true)
    let kept : State → State → Prop := fun z t => (getCore t c).trapBuf = (getCore z c).trapBuf.tail ∧ t.mem = z.mem ∧ t.regs = z.regs ∧ t.launch = z.launch ∧ t.ops = z.ops ∧
      (getCore t c).warps = (getCore z c).warps ∧ ∀ d, d ≠ c → getCore t d = getCore z d
    let joins : State → State → Nat → Prop := fun z t p => kept z t ∧ t.gleaners = z.gleaners ∧ (getThread t p).pending = (getThread z p).pending ++ [{ r with filed := z.cyc }] ∧
      (getThread t p).wakest = (getThread z p).wakest ||| 8 ∧ ∀ j, j ≠ p → getThread t j = getThread z j
    ((r.kind = .lane ∨ r.direct = true) → rest = [] → s.time ≤ r.wait → exec (.gleanerFile c) s = .next s) ∧
    (listed → room s → ∃ t, exec (.gleanerFile c) s = .next t ∧ joins s t q) ∧
    (listed → rest = [] → ¬ room s → exec (.gleanerFile c) s = .next s) ∧
    (walked → rest = [] → awaitsRing s r = true → exec (.gleanerFile c) s = .next s) ∧
    (∀ z p, walked → awaitsRing s r = false → ringThread s r = (z, p) → z.holds = [] → room z → ∃ t, exec (.gleanerFile c) s = .next t ∧
      joins z t (match p with
        | some k => k
        | none => match findSlice z r.slice with
          | some x => x.thread
          | none => 0)) ∧
    (r.direct = false → r.kind = .lane → r.wait < s.time → r.cause ≠ 5 → h ≠ 0 → count < 2048 → ¬ later → ¬ earlier →
      ((∀ x ∈ g.cribs, ¬ key x) → g.cribs.length < 64 → ∃ t, exec (.gleanerFile c) s = .next t ∧ kept s t ∧ t.threads = s.threads ∧
        getGleaner t die = { g with cribs := g.cribs ++ [{ cause := r.cause, world := r.world, ctx := r.ctx, recs := [mine] }] }) ∧
      (∀ pre x post, g.cribs = pre ++ x :: post → (∀ y ∈ pre, ¬ key y) → key x → ∃ t, exec (.gleanerFile c) s = .next t ∧ kept s t ∧
        t.threads = s.threads ∧ getGleaner t die = (if x.recs.length < 31 then { g with cribs := pre ++ { x with recs := insertRec mine x.recs } :: post } else
          { g with cribs := pre ++ post, waiting := g.waiting ++ [{ x with recs := insertRec mine x.recs }] }))) ∧
    (r.direct = false → r.kind = .lane → r.wait < s.time → r.cause ≠ 5 → h ≠ 0 → rest = [] →
      (2048 ≤ count ∨ later ∨ earlier ∨ (64 ≤ g.cribs.length ∧ ∀ x ∈ g.cribs, ¬ key x)) → exec (.gleanerFile c) s = .next s)) ∧
  (∀ r l, ∃ pre post, l = pre ++ post ∧ insertRec r l = pre ++ r :: post ∧ (∀ p ∈ pre, p.filed = r.filed → ¬ List.Lex (· < ·) (fileRank r) (fileRank p)) ∧
    ∀ p, post.head? = some p → p.filed = r.filed ∧ List.Lex (· < ·) (fileRank r) (fileRank p)) ∧
  (∀ s die i x r rest, (getGleaner s die).cribs[i]? = some x → x.recs = r :: rest →
    let given := fld (ctxHtab s x.ctx 0) 31 0
    let window := if given = 0 then 4096 else max 64 given
    let blocked : Prop := ∃ p ∈ x.recs, ∃ d k, originWarp s p = some (d, k) ∧ blockedNow s d k = true
    ((r.filed + window ≤ s.cyc ∨ (r.filed + window / 8 ≤ s.cyc ∧ blocked)) → ∃ t, exec (.cribWindowExpiry die i) s = .next t ∧
      getGleaner t die = { getGleaner s die with cribs := (getGleaner s die).cribs.eraseIdx i, waiting := (getGleaner s die).waiting ++ [x] } ∧ t.cores = s.cores ∧
      t.mem = s.mem ∧ t.threads = s.threads ∧ ∀ d, d ≠ die → getGleaner t d = getGleaner s d) ∧
    (s.cyc < r.filed + window → ¬ blocked ∨ s.cyc < r.filed + window / 8 → exec (.cribWindowExpiry die i) s = .next s)) ∧
  (∀ s die x rest k, (getGleaner s die).waiting = x :: rest → sheafCore s die x = some k → x.recs.length ≤ 32 → 1 ≤ x.cause.toNat → x.cause.toNat ≤ 9 →
    x.cause ≠ 5 → ∃ t j w, exec (.sheafPlace die) s = .next t ∧ (getGleaner t die).waiting = rest ∧ (getGleaner t die).cribs = (getGleaner s die).cribs ∧
      j < 48 ∧ getWarp t k j = w ∧ w.live = true ∧ (getCore t k).latch = x.world ∧ w.ctx = x.ctx ∧ w.world = x.world ∧ w.run = none ∧ w.v = [] ∧ w.flags = [] ∧
      (let h := ctxHtab s x.ctx x.cause.toNat
       w.budget = 8 * fld h 63 56 ∧ (∃ e, w.frontier = [e] ∧ e.pc = BitVec.ofNat 52 (8 * fld h 51 3) ∧ e.word = 0 ∧
         ∀ l < 32, e.mask.getLsbD l = decide (l < x.recs.length))) ∧
      (∀ l < 32, w.exited.getLsbD l = decide (x.recs.length ≤ l)) ∧ (∃ h, w.sheaf = some h ∧ h.recs = x.recs ∧ h.done = 0) ∧
      (getCore t k).sheafAt = some s.cyc ∧ t.mem = s.mem ∧
      t.regs = s.regs ∧ t.launch = s.launch) ∧
  (∀ s die, (getGleaner s die).waiting = [] → exec (.sheafPlace die) s = .next s) ∧
  (∀ s c k w e i b x, getWarp s c k = w → First s c w e i → w.live = true → w.run = none → w.stopped = false → w.sheaf = none → w.blocked = some b →
    findSlice s w.slice = some x →
    (x.abslim = 0 ∨ s.time < b + 1024 * x.abslim ∨ blockedNow s c k = false → exec (.absentTimeout c k) s = .next s) ∧
    (x.abslim ≠ 0 → b + 1024 * x.abslim ≤ s.time → blockedNow s c k = true → ∃ t q, exec (.absentTimeout c k) s = .next t ∧ (getWarp t c k).stopped = true ∧
      (getWarp t c k).blocked = none ∧ (getWarp t c k).frontier = w.frontier ∧ (getWarp t c k).v = w.v ∧ (getCore t c).trapBuf = (getCore s c).trapBuf ++ [q] ∧
      q.kind = .warp ∧ q.unit = .warp c k ∧ q.cause = 0x22 ∧ q.detail = w.absent ∧ q.pc = e.pc.setWidth 64 ∧ q.widx = 15 ∧ q.addr = 0 ∧
      q.wordv = slotWord s c i e.pc ∧ t.mem = s.mem ∧ t.threads = s.threads)) ∧
  (∀ s q d, (getThread s q).sleeping = some d →
    let x := getThread s q
    (x.wakest = 0 → (d = 0 ∨ s.time < d.toNat) → exec (.sleepWake q) s = .next s) ∧
    (∀ r w, (x.wakest ≠ 0 ∨ (d ≠ 0 ∧ d.toNat ≤ s.time)) → x.run = some r → r.words[r.idx - 1]? = some w → fld w 51 43 < 64 → rising 0 x.s = true →
      ∃ t, exec (.sleepWake q) s = .next t ∧ (getThread t q).sleeping = none ∧ (getThread t q).wakest = 0 ∧ (getThread t q).run = some r ∧
        (getThread t q).pc = x.pc ∧ look 0 (getThread t q).s (fld w 51 43) = (if x.wakest = 0 then 64 else BitVec.ofNat 64 x.wakest.toNat) ∧
        (∀ j, j ≠ fld w 51 43 → look 0 (getThread t q).s j = look 0 x.s j) ∧ (∀ p, p ≠ q → getThread t p = getThread s p) ∧ t.cores = s.cores ∧ t.mem = s.mem))

/-- spec/02 R26, R34, R35, R41, R44: decoding and encoding agree, for every instruction its word can hold and for every word; and the words of no
instruction are those of a reserved OP or POP, which are the row that raises ILLINS. -/
def Obligations.DecodeEncode : Prop :=
  (∀ i, Laws.RoundTrip.Statement i) ∧
  (∀ w, (decodeWord w).encodable = true ∧ encode (decodeWord w) = some w) ∧
  (∀ w, w.getLsbD 63 = false → (decodeWord w = .reservedOpcode w ↔ (w.extractLsb' 56 7).toNat ∈ reservedOps)) ∧
  (∀ w, w.getLsbD 63 = true → (decodeWord w = .reservedOpcode w ↔ 13 ≤ (w.extractLsb' 54 6).toNat ∨ 13 ≤ (w.extractLsb' 24 6).toNat))

/-- Every step keeps the machine's invariant, whatever turn the schedule holds. -/
def Obligations.MachineInvariant : Prop := ∀ s t, MachineInv s → step s = .next t → MachineInv t

/-- The machine's invariant holds after reset. -/
def Obligations.InvariantAtReset : Prop := MachineInv State.reset

/-- spec/28 R427: the module reset leaves these registers at the reset values that their own rules give: LEASECFG R155, SWAPCFG R294, VCARB R110, TILCTL R359, MEMSPLIT R69,
TREEBASE R113, WORLDTAB R436, IMGPOOL R412, BOOTSTAT R428, HQCTL R320, the windows R73, the retention ranges R101 and the ports R431. Every thread is stopped, no key slot
is filled and no save counter is kept. That no operation, copy, slice, team, warp or front-end context is there is the model's choice (logs 4, 23). -/
def Obligations.ResetValues : Prop :=
  State.reset.regs.leasecfg = 0x200 ∧ State.reset.regs.swapcfg = 20000 ∧ State.reset.regs.vcarb = 0x124244 ∧ State.reset.regs.tilctl = 1 ∧
  State.reset.regs.memsplit = 0 ∧ State.reset.regs.treebase = 0 ∧ State.reset.regs.worldtab = 0 ∧ State.reset.regs.imgpool = 0 ∧
  State.reset.regs.bootstat = 0 ∧ (∀ q, look Regs.hqctlReset State.reset.regs.hqctl q = 0x0000040000000300#64) ∧
  (∀ i, fwctlOf State.reset i = 0 ∧ retctlOf State.reset i = 0 ∧ look 0 State.reset.regs.portctl i = 0) ∧
  (∀ q, (getThread State.reset q).halt = true ∧ (getThread State.reset q).runBit = false ∧ (getThread State.reset q).run = none ∧
    (getThread State.reset q).wakest = 0) ∧
  (∀ k, look none State.reset.host.keys k = none) ∧ (∀ e, boundSlot State.reset e = none) ∧ (∀ c, look 0 State.reset.host.savectr c = 0) ∧
  State.reset.ops = [] ∧ State.reset.copies = [] ∧ State.reset.launch.teams = [] ∧ State.reset.launch.slices = [] ∧ State.reset.launch.ctxs = [] ∧
  (∀ c k, (getWarp State.reset c k).live = false ∧ (getFront State.reset c k).live = false)

/-- spec/02 R21, R25, R26, R45; spec/09 R186; spec/24 R384: a step runs the instruction that its unit's next word decodes to, in a state where only time has
passed: the time, the clocks, the turn's number and the budgets of slices (R335) have moved, and the unit and what it does are known. A
unit at its clause's end runs CLAUSE_END, one in no clause CLAUSE_BEGIN, and a turn of an event runs the event. Around `exec`
stands only this: a SWRITE of a register that its unit itself holds runs that register's row in the same step; a step of which a request has to wait does not happen (the die link,
R401; a grant or a snoop, R394, R395; bandwidth, R100; a full buffer of fault records, R89), but that it asks for what it needs, and that its thread is passed over; and after a step
that happens the thread that has issued a word is noted, and the places at slices that it waited in and the grants that it used are left. The schedule (log 1), a step that does not
happen (logs 18, 24), the row in the step of its SWRITE (log 15) and withFetchWord (log 5) are the model's choice. -/
def Obligations.StepRunsDecodedInstruction : Prop :=
  (let passed : State → Turn → List Turn → State := fun s t rest => { s with
     sched := rest, time := s.time + t.dt, cyc := s.cyc + t.dc, sclk := s.sclk + t.ds, turnNo := s.turnNo + 1, cur := none, holds := []
     launch := (useBudgets s t.dc).launch }
   let after : State → Host.Outcome State Fault Refusal → Host.Outcome State Fault Refusal := fun p r => match r with
     | .next t => if t.holds = [] then .next (noteThread p (leaveStep t)) else .next (passThread (askHeld p t.holds))
     | r => r
   let own : Host.Outcome State Fault Refusal → Host.Outcome State Fault Refusal := fun r => match r with
     | .next t => match ownRow t with
       | some j => exec j t
       | none => .next t
     | r => r
   let by_ : State → UnitId → Instr → State := fun p u i => { p with cur := some u, ev := some i }
   let runs : State → UnitId → Instr → Host.Outcome State Fault Refusal := fun p u i => after (by_ p u i) (own (exec i (by_ p u i)))
   (∀ s, (s.cur = none ∨ ∃ u, s.cur = some u ∧ (postedOf s u = none ∨ ∃ n v, postedOf s u = some (n, v) ∧ (n < 0x10 ∨ 0x20 ≤ n))) → ownRow s = none) ∧
   ∀ s t rest, s.sched = t :: rest →
     (∀ i, t.act = .event i → step s = after { passed s t rest with ev := some i } (own (exec i { passed s t rest with ev := some i }))) ∧
     (∀ c k r, t.act = .unit (.warp c k) → (getWarp s c k).run = some r →
       (∀ w, r.words[r.idx]? = some w → step s = runs (passed s t rest) (.warp c k) (decodeWord w)) ∧
       (r.words.length ≤ r.idx → step s = runs (passed s t rest) (.warp c k) (.clauseEnd (.warp c k)))) ∧
     (∀ c k, t.act = .unit (.warp c k) → (getWarp s c k).run = none → step s = runs (passed s t rest) (.warp c k) (.clauseBegin (.warp c k))) ∧
     (∀ c k r, t.act = .unit (.front c k) → (getFront s c k).posted = none → (getFront s c k).run = some r →
       (∀ w, r.words[r.idx]? = some w → step s = runs (passed s t rest) (.front c k) (decodeWord w)) ∧
       (r.words.length ≤ r.idx → step s = runs (passed s t rest) (.front c k) (.clauseEnd (.front c k)))) ∧
     (∀ c k, t.act = .unit (.front c k) → (getFront s c k).posted = none → (getFront s c k).run = none →
       step s = runs (passed s t rest) (.front c k) (.clauseBegin (.front c k))) ∧
     (∀ p q r w, t.act = .unit (.thread p) → nextThread (passed s t rest) p = q → threadReady (passed s t rest) q = true →
       (getThread s q).posted = none → (getThread s q).run = some r → r.words[r.idx]? = some w →
       step s = runs (passed s t rest) (.thread q) (decodeWord w)) ∧
     (∀ p q r, t.act = .unit (.thread p) → nextThread (passed s t rest) p = q → threadReady (passed s t rest) q = true →
       (getThread s q).posted = none → (getThread s q).run = some r → r.words.length ≤ r.idx →
       step s = runs (passed s t rest) (.thread q) (.clauseEnd (.thread q)))) ∧
  (∀ n w, turnInstr (turnStart (State.reset.withFetchWord n w)) (nextTurn (State.reset.withFetchWord n w)) = decodeWord (BitVec.ofNat 64 w))

/-- spec/02, spec/03, spec/08, spec/11, spec/12, spec/14, spec/24: words worked out in the spec's own tables decode to their instructions, field by field.
A sanity statement. -/
def Obligations.DecodeWords : Prop :=
  decodeWord 0x0E70201400000E00#64 = .sleep (fullWord 4 5 0 0 7 0) ∧
  decodeWord 0x20A028180E001402#64 = .add { fullWord 5 6 7 0 10 1 with pneg := true, pred := 2 } ∧
  decodeWord 0x3810181000000190#64 = .addImm { pneg := false, pred := 1, dst := 3, sa := 4, imm := 100, mi := 0 } ∧
  decodeWord 0x5870485000000C02#64 = .ld (fullWord 9 20 0 0 6 1) ∧
  decodeWord 0x7B704D0A8D470E12#64 = .tqput (fullWord 9 322 326 327 7 9) ∧
  decodeWord 0x70701100C0001200#64 = .mma (fullWord 2 64 96 0 9 0) ∧
  decodeWord 0xF041835004020940#64 = .pairAdd {
    pred := 7, d := 6, src := 13, pty := 2, mbz := 0, h := false, h1 := { pop := 4, d := 2, src := 9, pty := 2, mbz := 0, h := false } } ∧
  decodeWord 0x7700000000000000#64 = .reservedOpcode 0x7700000000000000#64 ∧
  decodeTableWord 64 0x0E70201400000E00 = some (.sleep (fullWord 4 5 0 0 7 0))
end

