-- ==== Sys2Proof/Laws/Maps.lean ====
section
/-!
SUPPORT. The sparse maps: a read after a write, and the canonical form that a write keeps.
-/
namespace Sys2Proof.Machine

@[simp] theorem look_put_same {α : Type} (d : α) (m : SMap α) (k : Nat) (v : α) : look d (put m k v) k = v := by
  induction m with
  | nil => simp [put, look]
  | cons p t ih =>
    obtain ⟨k', v'⟩ := p
    simp only [put]
    split
    · simp [look]
    · split
      · simp [look]
      · rename_i h1 h2
        simp [look, h2, ih]

theorem look_put_other {α : Type} (d : α) (m : SMap α) {k k' : Nat} (v : α) (h : k' ≠ k) : look d (put m k v) k' = look d m k' := by
  induction m with
  | nil => simp [put, look, Ne.symm h]
  | cons p t ih =>
    obtain ⟨a, b⟩ := p
    simp only [put]
    split
    · simp [look, Ne.symm h]
    · split
      · rename_i _ h2
        subst h2
        simp [look, Ne.symm h]
      · simp only [look, ih]

theorem look_put {α : Type} (d : α) (m : SMap α) (k k' : Nat) (v : α) :
    look d (put m k v) k' = if k' = k then v else look d m k' := by
  by_cases h : k' = k
  · subst h; simp
  · simp [h, look_put_other d m v h]

@[simp] theorem put_put {α : Type} (m : SMap α) (k : Nat) (v w : α) : put (put m k v) k w = put m k w := by
  induction m with
  | nil => simp [put]
  | cons p t ih =>
    obtain ⟨a, b⟩ := p
    simp only [put]
    split
    · simp [put]
    · split
      · simp [put]
      · rename_i h1 h2
        simp [put, h1, h2, ih]

/-- A key below every listed one reads as the default. -/
theorem look_low {α : Type} (d : α) {m : SMap α} {lo k : Nat} (h : rising lo m = true) (hk : k < lo) : look d m k = d := by
  induction m generalizing lo with
  | nil => rfl
  | cons p t ih =>
    obtain ⟨a, b⟩ := p
    simp only [rising, Bool.and_eq_true, decide_eq_true_eq] at h
    have hne : a ≠ k := by omega
    simp [look, hne, ih h.2 (by omega)]

theorem rising_mono {α : Type} {m : SMap α} {lo lo' : Nat} (h : rising lo m = true) (hl : lo' ≤ lo) : rising lo' m = true := by
  cases m with
  | nil => rfl
  | cons p t =>
    obtain ⟨a, b⟩ := p
    simp only [rising, Bool.and_eq_true, decide_eq_true_eq] at h ⊢
    exact ⟨by omega, h.2⟩

theorem rising_put {α : Type} {m : SMap α} {lo k : Nat} (v : α) (h : rising lo m = true) (hk : lo ≤ k) : rising lo (put m k v) = true := by
  induction m generalizing lo with
  | nil => simp [put, rising, hk]
  | cons p t ih =>
    obtain ⟨a, b⟩ := p
    simp only [rising, Bool.and_eq_true, decide_eq_true_eq] at h
    simp only [put]
    split
    · simp only [rising, Bool.and_eq_true, decide_eq_true_eq]
      exact ⟨hk, by omega, h.2⟩
    · split
      · rename_i _ h2
        subst h2
        simp [rising, hk, h.2]
      · simp only [rising, Bool.and_eq_true, decide_eq_true_eq]
        exact ⟨h.1, ih h.2 (by omega)⟩

theorem rising_dropKey {α : Type} {m : SMap α} {lo k : Nat} (h : rising lo m = true) : rising lo (dropKey m k) = true := by
  induction m generalizing lo with
  | nil => rfl
  | cons p t ih =>
    obtain ⟨a, b⟩ := p
    simp only [rising, Bool.and_eq_true, decide_eq_true_eq] at h
    simp only [dropKey]
    split
    · exact rising_mono h.2 (by omega)
    · simp only [rising, Bool.and_eq_true, decide_eq_true_eq]
      exact ⟨h.1, ih h.2⟩

theorem look_dropKey {α : Type} (d : α) {m : SMap α} {lo : Nat} (k k' : Nat) (h : rising lo m = true) :
    look d (dropKey m k) k' = if k' = k then d else look d m k' := by
  induction m generalizing lo with
  | nil => simp [dropKey, look]
  | cons p t ih =>
    obtain ⟨a, b⟩ := p
    simp only [rising, Bool.and_eq_true, decide_eq_true_eq] at h
    simp only [dropKey]
    split
    · rename_i h1
      subst h1
      by_cases hk : k' = a
      · subst hk
        simp [look_low d h.2 (Nat.lt_succ_self _)]
      · simp [hk, look, Ne.symm hk]
    · rename_i h1
      simp only [look, ih h.2]
      by_cases hk : a = k'
      · subst hk; simp [h1]
      · simp [hk]

/-- A read after a canonical write: the value written there, what stood elsewhere. -/
theorem look_putC {α : Type} [DecidableEq α] (d : α) {m : SMap α} {lo : Nat} (k k' : Nat) (v : α) (h : rising lo m = true) :
    look d (putC d m k v) k' = if k' = k then v else look d m k' := by
  unfold putC
  split
  · rename_i hv
    subst hv
    exact look_dropKey v k k' h
  · exact look_put d m k k' v

theorem rising_putC {α : Type} [DecidableEq α] (d : α) {m : SMap α} {k : Nat} (v : α) (h : rising 0 m = true) :
    rising 0 (putC d m k v) = true := by
  unfold putC
  split
  · exact rising_dropKey h
  · exact rising_put v h (Nat.zero_le _)

theorem mem_put {α : Type} {m : SMap α} {k : Nat} {v : α} {c : Nat × α} (h : c ∈ put m k v) : c = (k, v) ∨ c ∈ m := by
  induction m with
  | nil => simpa [put] using h
  | cons p t ih =>
    obtain ⟨a, b⟩ := p
    simp only [put] at h
    split at h
    · simpa using h
    · split at h
      · simp only [List.mem_cons] at h ⊢; tauto
      · simp only [List.mem_cons] at h ⊢; tauto

theorem mem_dropKey {α : Type} {m : SMap α} {k : Nat} {c : Nat × α} (h : c ∈ dropKey m k) : c ∈ m := by
  induction m with
  | nil => simp [dropKey] at h
  | cons p t ih =>
    obtain ⟨a, b⟩ := p
    simp only [dropKey] at h
    split at h
    · exact List.mem_cons_of_mem _ h
    · simp only [List.mem_cons] at h ⊢; tauto

/-- A canonical write keeps the canonical form of a byte memory. -/
theorem wf_putC {m : List Host.Cell} (k : Nat) (v : Byte) (h : Memory.wf m = true) : Memory.wf (putC unlistedByte m k v) = true := by
  simp only [Memory.wf, Bool.and_eq_true, List.all_eq_true] at h ⊢
  refine ⟨rising_putC unlistedByte v h.1, ?_⟩
  intro c hc
  unfold putC at hc
  split at hc
  · exact h.2 c (mem_dropKey hc)
  · rename_i hv
    rcases mem_put hc with rfl | hm
    · simpa [unlistedByte] using hv
    · exact h.2 c hm

/-- Equal reads make equal memories: the canonical form is unique. -/
theorem wf_ext {m n : List Host.Cell} (hm : Memory.wf m = true) (hn : Memory.wf n = true)
    (h : ∀ a, look unlistedByte m a = look unlistedByte n a) : m = n := by
  suffices H : ∀ lo, rising lo m = true → rising lo n = true → m = n by
    simp only [Memory.wf, Bool.and_eq_true] at hm hn
    exact H 0 hm.1 hn.1
  simp only [Memory.wf, Bool.and_eq_true, List.all_eq_true] at hm hn
  have hm2 := hm.2
  have hn2 := hn.2
  clear hm hn
  induction m generalizing n with
  | nil =>
    intro lo _ _
    cases n with
    | nil => rfl
    | cons p t =>
      obtain ⟨a, b⟩ := p
      have := h a
      have hb := hn2 (a, b) (by simp)
      simp [look, unlistedByte] at this hb
      exact absurd this.symm hb
  | cons p t ih =>
    obtain ⟨a, b⟩ := p
    intro lo h1 h2
    cases n with
    | nil =>
      have := h a
      have hb := hm2 (a, b) (by simp)
      simp [look, unlistedByte] at this hb
      exact absurd this hb
    | cons q u =>
      obtain ⟨a', b'⟩ := q
      simp only [rising, Bool.and_eq_true, decide_eq_true_eq] at h1 h2
      have hb := hm2 (a, b) (by simp)
      have hb' := hn2 (a', b') (by simp)
      simp only [bne_iff_ne, ne_eq] at hb hb'
      have e : a = a' := by
        rcases Nat.lt_trichotomy a a' with hlt | he | hgt
        · have e1 := h a
          have : a' ≠ a := by omega
          simp only [look, if_pos, this, if_false] at e1
          rw [look_low _ h2.2 (by omega)] at e1
          exact absurd e1 hb
        · exact he
        · have e1 := h a'
          have : a ≠ a' := by omega
          simp only [look, if_pos, this, if_false] at e1
          rw [look_low _ h1.2 (by omega)] at e1
          exact absurd e1.symm hb'
      subst e
      have ev : b = b' := by simpa [look] using h a
      subst ev
      congr 1
      refine ih ?_ (fun c hc => hm2 c (List.mem_cons_of_mem _ hc)) (fun c hc => hn2 c (List.mem_cons_of_mem _ hc)) (a + 1) h1.2 h2.2
      intro x
      have := h x
      by_cases hx : a = x
      · subst hx
        rw [look_low _ h1.2 (by omega), look_low _ h2.2 (by omega)]
      · simpa [look, hx] using this

end Sys2Proof.Machine
end

