-- ==== Sys2Proof/Laws/State.lean ====
section
/-!
SUPPORT. One lemma per field of the state for each update of a unit, a team, an operation or the output: what the update leaves alone.
-/
namespace Sys2Proof.Machine

@[simp] theorem setCore_sched (s : State) (c : Nat) (x : Core) : (setCore s c x).sched = s.sched := rfl
@[simp] theorem setCore_turnNo (s : State) (c : Nat) (x : Core) : (setCore s c x).turnNo = s.turnNo := rfl
@[simp] theorem setCore_freeNo (s : State) (c : Nat) (x : Core) : (setCore s c x).freeNo = s.freeNo := rfl
@[simp] theorem setCore_cur (s : State) (c : Nat) (x : Core) : (setCore s c x).cur = s.cur := rfl
@[simp] theorem setCore_ev (s : State) (c : Nat) (x : Core) : (setCore s c x).ev = s.ev := rfl
@[simp] theorem setCore_holds (s : State) (c : Nat) (x : Core) : (setCore s c x).holds = s.holds := rfl
@[simp] theorem setCore_time (s : State) (c : Nat) (x : Core) : (setCore s c x).time = s.time := rfl
@[simp] theorem setCore_cyc (s : State) (c : Nat) (x : Core) : (setCore s c x).cyc = s.cyc := rfl
@[simp] theorem setCore_sclk (s : State) (c : Nat) (x : Core) : (setCore s c x).sclk = s.sclk := rfl
@[simp] theorem setCore_regs (s : State) (c : Nat) (x : Core) : (setCore s c x).regs = s.regs := rfl
@[simp] theorem setCore_mem (s : State) (c : Nat) (x : Core) : (setCore s c x).mem = s.mem := rfl
@[simp] theorem setCore_threads (s : State) (c : Nat) (x : Core) : (setCore s c x).threads = s.threads := rfl
@[simp] theorem setCore_pairs (s : State) (c : Nat) (x : Core) : (setCore s c x).pairs = s.pairs := rfl
@[simp] theorem setCore_ops (s : State) (c : Nat) (x : Core) : (setCore s c x).ops = s.ops := rfl
@[simp] theorem setCore_nextOp (s : State) (c : Nat) (x : Core) : (setCore s c x).nextOp = s.nextOp := rfl
@[simp] theorem setCore_copies (s : State) (c : Nat) (x : Core) : (setCore s c x).copies = s.copies := rfl
@[simp] theorem setCore_launch (s : State) (c : Nat) (x : Core) : (setCore s c x).launch = s.launch := rfl
@[simp] theorem setCore_gleaners (s : State) (c : Nat) (x : Core) : (setCore s c x).gleaners = s.gleaners := rfl
@[simp] theorem setCore_host (s : State) (c : Nat) (x : Core) : (setCore s c x).host = s.host := rfl

@[simp] theorem setWarp_sched (s : State) (c k : Nat) (w : Warp) : (setWarp s c k w).sched = s.sched := rfl
@[simp] theorem setWarp_turnNo (s : State) (c k : Nat) (w : Warp) : (setWarp s c k w).turnNo = s.turnNo := rfl
@[simp] theorem setWarp_freeNo (s : State) (c k : Nat) (w : Warp) : (setWarp s c k w).freeNo = s.freeNo := rfl
@[simp] theorem setWarp_cur (s : State) (c k : Nat) (w : Warp) : (setWarp s c k w).cur = s.cur := rfl
@[simp] theorem setWarp_ev (s : State) (c k : Nat) (w : Warp) : (setWarp s c k w).ev = s.ev := rfl
@[simp] theorem setWarp_holds (s : State) (c k : Nat) (w : Warp) : (setWarp s c k w).holds = s.holds := rfl
@[simp] theorem setWarp_time (s : State) (c k : Nat) (w : Warp) : (setWarp s c k w).time = s.time := rfl
@[simp] theorem setWarp_cyc (s : State) (c k : Nat) (w : Warp) : (setWarp s c k w).cyc = s.cyc := rfl
@[simp] theorem setWarp_sclk (s : State) (c k : Nat) (w : Warp) : (setWarp s c k w).sclk = s.sclk := rfl
@[simp] theorem setWarp_regs (s : State) (c k : Nat) (w : Warp) : (setWarp s c k w).regs = s.regs := rfl
@[simp] theorem setWarp_mem (s : State) (c k : Nat) (w : Warp) : (setWarp s c k w).mem = s.mem := rfl
@[simp] theorem setWarp_threads (s : State) (c k : Nat) (w : Warp) : (setWarp s c k w).threads = s.threads := rfl
@[simp] theorem setWarp_pairs (s : State) (c k : Nat) (w : Warp) : (setWarp s c k w).pairs = s.pairs := rfl
@[simp] theorem setWarp_ops (s : State) (c k : Nat) (w : Warp) : (setWarp s c k w).ops = s.ops := rfl
@[simp] theorem setWarp_nextOp (s : State) (c k : Nat) (w : Warp) : (setWarp s c k w).nextOp = s.nextOp := rfl
@[simp] theorem setWarp_copies (s : State) (c k : Nat) (w : Warp) : (setWarp s c k w).copies = s.copies := rfl
@[simp] theorem setWarp_launch (s : State) (c k : Nat) (w : Warp) : (setWarp s c k w).launch = s.launch := rfl
@[simp] theorem setWarp_gleaners (s : State) (c k : Nat) (w : Warp) : (setWarp s c k w).gleaners = s.gleaners := rfl
@[simp] theorem setWarp_host (s : State) (c k : Nat) (w : Warp) : (setWarp s c k w).host = s.host := rfl

@[simp] theorem setFront_sched (s : State) (c k : Nat) (f : Front) : (setFront s c k f).sched = s.sched := rfl
@[simp] theorem setFront_turnNo (s : State) (c k : Nat) (f : Front) : (setFront s c k f).turnNo = s.turnNo := rfl
@[simp] theorem setFront_freeNo (s : State) (c k : Nat) (f : Front) : (setFront s c k f).freeNo = s.freeNo := rfl
@[simp] theorem setFront_cur (s : State) (c k : Nat) (f : Front) : (setFront s c k f).cur = s.cur := rfl
@[simp] theorem setFront_ev (s : State) (c k : Nat) (f : Front) : (setFront s c k f).ev = s.ev := rfl
@[simp] theorem setFront_holds (s : State) (c k : Nat) (f : Front) : (setFront s c k f).holds = s.holds := rfl
@[simp] theorem setFront_time (s : State) (c k : Nat) (f : Front) : (setFront s c k f).time = s.time := rfl
@[simp] theorem setFront_cyc (s : State) (c k : Nat) (f : Front) : (setFront s c k f).cyc = s.cyc := rfl
@[simp] theorem setFront_sclk (s : State) (c k : Nat) (f : Front) : (setFront s c k f).sclk = s.sclk := rfl
@[simp] theorem setFront_regs (s : State) (c k : Nat) (f : Front) : (setFront s c k f).regs = s.regs := rfl
@[simp] theorem setFront_mem (s : State) (c k : Nat) (f : Front) : (setFront s c k f).mem = s.mem := rfl
@[simp] theorem setFront_threads (s : State) (c k : Nat) (f : Front) : (setFront s c k f).threads = s.threads := rfl
@[simp] theorem setFront_pairs (s : State) (c k : Nat) (f : Front) : (setFront s c k f).pairs = s.pairs := rfl
@[simp] theorem setFront_ops (s : State) (c k : Nat) (f : Front) : (setFront s c k f).ops = s.ops := rfl
@[simp] theorem setFront_nextOp (s : State) (c k : Nat) (f : Front) : (setFront s c k f).nextOp = s.nextOp := rfl
@[simp] theorem setFront_copies (s : State) (c k : Nat) (f : Front) : (setFront s c k f).copies = s.copies := rfl
@[simp] theorem setFront_launch (s : State) (c k : Nat) (f : Front) : (setFront s c k f).launch = s.launch := rfl
@[simp] theorem setFront_gleaners (s : State) (c k : Nat) (f : Front) : (setFront s c k f).gleaners = s.gleaners := rfl
@[simp] theorem setFront_host (s : State) (c k : Nat) (f : Front) : (setFront s c k f).host = s.host := rfl

@[simp] theorem setSlot_sched (s : State) (c i : Nat) (x : OvlSlot) : (setSlot s c i x).sched = s.sched := rfl
@[simp] theorem setSlot_turnNo (s : State) (c i : Nat) (x : OvlSlot) : (setSlot s c i x).turnNo = s.turnNo := rfl
@[simp] theorem setSlot_freeNo (s : State) (c i : Nat) (x : OvlSlot) : (setSlot s c i x).freeNo = s.freeNo := rfl
@[simp] theorem setSlot_cur (s : State) (c i : Nat) (x : OvlSlot) : (setSlot s c i x).cur = s.cur := rfl
@[simp] theorem setSlot_ev (s : State) (c i : Nat) (x : OvlSlot) : (setSlot s c i x).ev = s.ev := rfl
@[simp] theorem setSlot_holds (s : State) (c i : Nat) (x : OvlSlot) : (setSlot s c i x).holds = s.holds := rfl
@[simp] theorem setSlot_time (s : State) (c i : Nat) (x : OvlSlot) : (setSlot s c i x).time = s.time := rfl
@[simp] theorem setSlot_cyc (s : State) (c i : Nat) (x : OvlSlot) : (setSlot s c i x).cyc = s.cyc := rfl
@[simp] theorem setSlot_sclk (s : State) (c i : Nat) (x : OvlSlot) : (setSlot s c i x).sclk = s.sclk := rfl
@[simp] theorem setSlot_regs (s : State) (c i : Nat) (x : OvlSlot) : (setSlot s c i x).regs = s.regs := rfl
@[simp] theorem setSlot_mem (s : State) (c i : Nat) (x : OvlSlot) : (setSlot s c i x).mem = s.mem := rfl
@[simp] theorem setSlot_threads (s : State) (c i : Nat) (x : OvlSlot) : (setSlot s c i x).threads = s.threads := rfl
@[simp] theorem setSlot_pairs (s : State) (c i : Nat) (x : OvlSlot) : (setSlot s c i x).pairs = s.pairs := rfl
@[simp] theorem setSlot_ops (s : State) (c i : Nat) (x : OvlSlot) : (setSlot s c i x).ops = s.ops := rfl
@[simp] theorem setSlot_nextOp (s : State) (c i : Nat) (x : OvlSlot) : (setSlot s c i x).nextOp = s.nextOp := rfl
@[simp] theorem setSlot_copies (s : State) (c i : Nat) (x : OvlSlot) : (setSlot s c i x).copies = s.copies := rfl
@[simp] theorem setSlot_launch (s : State) (c i : Nat) (x : OvlSlot) : (setSlot s c i x).launch = s.launch := rfl
@[simp] theorem setSlot_gleaners (s : State) (c i : Nat) (x : OvlSlot) : (setSlot s c i x).gleaners = s.gleaners := rfl
@[simp] theorem setSlot_host (s : State) (c i : Nat) (x : OvlSlot) : (setSlot s c i x).host = s.host := rfl

@[simp] theorem bufferRec_sched (s : State) (c : Nat) (r : TrapRec) : (bufferRec s c r).sched = s.sched := rfl
@[simp] theorem bufferRec_turnNo (s : State) (c : Nat) (r : TrapRec) : (bufferRec s c r).turnNo = s.turnNo := rfl
@[simp] theorem bufferRec_freeNo (s : State) (c : Nat) (r : TrapRec) : (bufferRec s c r).freeNo = s.freeNo := rfl
@[simp] theorem bufferRec_cur (s : State) (c : Nat) (r : TrapRec) : (bufferRec s c r).cur = s.cur := rfl
@[simp] theorem bufferRec_ev (s : State) (c : Nat) (r : TrapRec) : (bufferRec s c r).ev = s.ev := rfl
@[simp] theorem bufferRec_holds (s : State) (c : Nat) (r : TrapRec) : (bufferRec s c r).holds = s.holds := rfl
@[simp] theorem bufferRec_time (s : State) (c : Nat) (r : TrapRec) : (bufferRec s c r).time = s.time := rfl
@[simp] theorem bufferRec_cyc (s : State) (c : Nat) (r : TrapRec) : (bufferRec s c r).cyc = s.cyc := rfl
@[simp] theorem bufferRec_sclk (s : State) (c : Nat) (r : TrapRec) : (bufferRec s c r).sclk = s.sclk := rfl
@[simp] theorem bufferRec_regs (s : State) (c : Nat) (r : TrapRec) : (bufferRec s c r).regs = s.regs := rfl
@[simp] theorem bufferRec_mem (s : State) (c : Nat) (r : TrapRec) : (bufferRec s c r).mem = s.mem := rfl
@[simp] theorem bufferRec_threads (s : State) (c : Nat) (r : TrapRec) : (bufferRec s c r).threads = s.threads := rfl
@[simp] theorem bufferRec_pairs (s : State) (c : Nat) (r : TrapRec) : (bufferRec s c r).pairs = s.pairs := rfl
@[simp] theorem bufferRec_ops (s : State) (c : Nat) (r : TrapRec) : (bufferRec s c r).ops = s.ops := rfl
@[simp] theorem bufferRec_nextOp (s : State) (c : Nat) (r : TrapRec) : (bufferRec s c r).nextOp = s.nextOp := rfl
@[simp] theorem bufferRec_copies (s : State) (c : Nat) (r : TrapRec) : (bufferRec s c r).copies = s.copies := rfl
@[simp] theorem bufferRec_launch (s : State) (c : Nat) (r : TrapRec) : (bufferRec s c r).launch = s.launch := rfl
@[simp] theorem bufferRec_gleaners (s : State) (c : Nat) (r : TrapRec) : (bufferRec s c r).gleaners = s.gleaners := rfl
@[simp] theorem bufferRec_host (s : State) (c : Nat) (r : TrapRec) : (bufferRec s c r).host = s.host := rfl

@[simp] theorem setThread_sched (s : State) (q : Nat) (t : Thread) : (setThread s q t).sched = s.sched := rfl
@[simp] theorem setThread_turnNo (s : State) (q : Nat) (t : Thread) : (setThread s q t).turnNo = s.turnNo := rfl
@[simp] theorem setThread_freeNo (s : State) (q : Nat) (t : Thread) : (setThread s q t).freeNo = s.freeNo := rfl
@[simp] theorem setThread_cur (s : State) (q : Nat) (t : Thread) : (setThread s q t).cur = s.cur := rfl
@[simp] theorem setThread_ev (s : State) (q : Nat) (t : Thread) : (setThread s q t).ev = s.ev := rfl
@[simp] theorem setThread_holds (s : State) (q : Nat) (t : Thread) : (setThread s q t).holds = s.holds := rfl
@[simp] theorem setThread_time (s : State) (q : Nat) (t : Thread) : (setThread s q t).time = s.time := rfl
@[simp] theorem setThread_cyc (s : State) (q : Nat) (t : Thread) : (setThread s q t).cyc = s.cyc := rfl
@[simp] theorem setThread_sclk (s : State) (q : Nat) (t : Thread) : (setThread s q t).sclk = s.sclk := rfl
@[simp] theorem setThread_regs (s : State) (q : Nat) (t : Thread) : (setThread s q t).regs = s.regs := rfl
@[simp] theorem setThread_mem (s : State) (q : Nat) (t : Thread) : (setThread s q t).mem = s.mem := rfl
@[simp] theorem setThread_cores (s : State) (q : Nat) (t : Thread) : (setThread s q t).cores = s.cores := rfl
@[simp] theorem setThread_pairs (s : State) (q : Nat) (t : Thread) : (setThread s q t).pairs = s.pairs := rfl
@[simp] theorem setThread_ops (s : State) (q : Nat) (t : Thread) : (setThread s q t).ops = s.ops := rfl
@[simp] theorem setThread_nextOp (s : State) (q : Nat) (t : Thread) : (setThread s q t).nextOp = s.nextOp := rfl
@[simp] theorem setThread_copies (s : State) (q : Nat) (t : Thread) : (setThread s q t).copies = s.copies := rfl
@[simp] theorem setThread_launch (s : State) (q : Nat) (t : Thread) : (setThread s q t).launch = s.launch := rfl
@[simp] theorem setThread_gleaners (s : State) (q : Nat) (t : Thread) : (setThread s q t).gleaners = s.gleaners := rfl
@[simp] theorem setThread_host (s : State) (q : Nat) (t : Thread) : (setThread s q t).host = s.host := rfl

@[simp] theorem wake_sched (s : State) (q b : Nat) : (wake s q b).sched = s.sched := rfl
@[simp] theorem wake_turnNo (s : State) (q b : Nat) : (wake s q b).turnNo = s.turnNo := rfl
@[simp] theorem wake_freeNo (s : State) (q b : Nat) : (wake s q b).freeNo = s.freeNo := rfl
@[simp] theorem wake_cur (s : State) (q b : Nat) : (wake s q b).cur = s.cur := rfl
@[simp] theorem wake_ev (s : State) (q b : Nat) : (wake s q b).ev = s.ev := rfl
@[simp] theorem wake_holds (s : State) (q b : Nat) : (wake s q b).holds = s.holds := rfl
@[simp] theorem wake_time (s : State) (q b : Nat) : (wake s q b).time = s.time := rfl
@[simp] theorem wake_cyc (s : State) (q b : Nat) : (wake s q b).cyc = s.cyc := rfl
@[simp] theorem wake_sclk (s : State) (q b : Nat) : (wake s q b).sclk = s.sclk := rfl
@[simp] theorem wake_regs (s : State) (q b : Nat) : (wake s q b).regs = s.regs := rfl
@[simp] theorem wake_mem (s : State) (q b : Nat) : (wake s q b).mem = s.mem := rfl
@[simp] theorem wake_cores (s : State) (q b : Nat) : (wake s q b).cores = s.cores := rfl
@[simp] theorem wake_pairs (s : State) (q b : Nat) : (wake s q b).pairs = s.pairs := rfl
@[simp] theorem wake_ops (s : State) (q b : Nat) : (wake s q b).ops = s.ops := rfl
@[simp] theorem wake_nextOp (s : State) (q b : Nat) : (wake s q b).nextOp = s.nextOp := rfl
@[simp] theorem wake_copies (s : State) (q b : Nat) : (wake s q b).copies = s.copies := rfl
@[simp] theorem wake_launch (s : State) (q b : Nat) : (wake s q b).launch = s.launch := rfl
@[simp] theorem wake_gleaners (s : State) (q b : Nat) : (wake s q b).gleaners = s.gleaners := rfl
@[simp] theorem wake_host (s : State) (q b : Nat) : (wake s q b).host = s.host := rfl

@[simp] theorem addPending_sched (s : State) (q : Nat) (r : TrapRec) : (addPending s q r).sched = s.sched := rfl
@[simp] theorem addPending_turnNo (s : State) (q : Nat) (r : TrapRec) : (addPending s q r).turnNo = s.turnNo := rfl
@[simp] theorem addPending_freeNo (s : State) (q : Nat) (r : TrapRec) : (addPending s q r).freeNo = s.freeNo := rfl
@[simp] theorem addPending_cur (s : State) (q : Nat) (r : TrapRec) : (addPending s q r).cur = s.cur := rfl
@[simp] theorem addPending_ev (s : State) (q : Nat) (r : TrapRec) : (addPending s q r).ev = s.ev := rfl
@[simp] theorem addPending_holds (s : State) (q : Nat) (r : TrapRec) : (addPending s q r).holds = s.holds := rfl
@[simp] theorem addPending_time (s : State) (q : Nat) (r : TrapRec) : (addPending s q r).time = s.time := rfl
@[simp] theorem addPending_cyc (s : State) (q : Nat) (r : TrapRec) : (addPending s q r).cyc = s.cyc := rfl
@[simp] theorem addPending_sclk (s : State) (q : Nat) (r : TrapRec) : (addPending s q r).sclk = s.sclk := rfl
@[simp] theorem addPending_regs (s : State) (q : Nat) (r : TrapRec) : (addPending s q r).regs = s.regs := rfl
@[simp] theorem addPending_mem (s : State) (q : Nat) (r : TrapRec) : (addPending s q r).mem = s.mem := rfl
@[simp] theorem addPending_cores (s : State) (q : Nat) (r : TrapRec) : (addPending s q r).cores = s.cores := rfl
@[simp] theorem addPending_pairs (s : State) (q : Nat) (r : TrapRec) : (addPending s q r).pairs = s.pairs := rfl
@[simp] theorem addPending_ops (s : State) (q : Nat) (r : TrapRec) : (addPending s q r).ops = s.ops := rfl
@[simp] theorem addPending_nextOp (s : State) (q : Nat) (r : TrapRec) : (addPending s q r).nextOp = s.nextOp := rfl
@[simp] theorem addPending_copies (s : State) (q : Nat) (r : TrapRec) : (addPending s q r).copies = s.copies := rfl
@[simp] theorem addPending_launch (s : State) (q : Nat) (r : TrapRec) : (addPending s q r).launch = s.launch := rfl
@[simp] theorem addPending_gleaners (s : State) (q : Nat) (r : TrapRec) : (addPending s q r).gleaners = s.gleaners := rfl
@[simp] theorem addPending_host (s : State) (q : Nat) (r : TrapRec) : (addPending s q r).host = s.host := rfl

@[simp] theorem setPair_sched (s : State) (p : Nat) (x : PairSt) : (setPair s p x).sched = s.sched := rfl
@[simp] theorem setPair_turnNo (s : State) (p : Nat) (x : PairSt) : (setPair s p x).turnNo = s.turnNo := rfl
@[simp] theorem setPair_freeNo (s : State) (p : Nat) (x : PairSt) : (setPair s p x).freeNo = s.freeNo := rfl
@[simp] theorem setPair_cur (s : State) (p : Nat) (x : PairSt) : (setPair s p x).cur = s.cur := rfl
@[simp] theorem setPair_ev (s : State) (p : Nat) (x : PairSt) : (setPair s p x).ev = s.ev := rfl
@[simp] theorem setPair_holds (s : State) (p : Nat) (x : PairSt) : (setPair s p x).holds = s.holds := rfl
@[simp] theorem setPair_time (s : State) (p : Nat) (x : PairSt) : (setPair s p x).time = s.time := rfl
@[simp] theorem setPair_cyc (s : State) (p : Nat) (x : PairSt) : (setPair s p x).cyc = s.cyc := rfl
@[simp] theorem setPair_sclk (s : State) (p : Nat) (x : PairSt) : (setPair s p x).sclk = s.sclk := rfl
@[simp] theorem setPair_regs (s : State) (p : Nat) (x : PairSt) : (setPair s p x).regs = s.regs := rfl
@[simp] theorem setPair_mem (s : State) (p : Nat) (x : PairSt) : (setPair s p x).mem = s.mem := rfl
@[simp] theorem setPair_cores (s : State) (p : Nat) (x : PairSt) : (setPair s p x).cores = s.cores := rfl
@[simp] theorem setPair_threads (s : State) (p : Nat) (x : PairSt) : (setPair s p x).threads = s.threads := rfl
@[simp] theorem setPair_ops (s : State) (p : Nat) (x : PairSt) : (setPair s p x).ops = s.ops := rfl
@[simp] theorem setPair_nextOp (s : State) (p : Nat) (x : PairSt) : (setPair s p x).nextOp = s.nextOp := rfl
@[simp] theorem setPair_copies (s : State) (p : Nat) (x : PairSt) : (setPair s p x).copies = s.copies := rfl
@[simp] theorem setPair_launch (s : State) (p : Nat) (x : PairSt) : (setPair s p x).launch = s.launch := rfl
@[simp] theorem setPair_gleaners (s : State) (p : Nat) (x : PairSt) : (setPair s p x).gleaners = s.gleaners := rfl
@[simp] theorem setPair_host (s : State) (p : Nat) (x : PairSt) : (setPair s p x).host = s.host := rfl

@[simp] theorem setTile_sched (s : State) (p t : Nat) (x : Tile) : (setTile s p t x).sched = s.sched := rfl
@[simp] theorem setTile_turnNo (s : State) (p t : Nat) (x : Tile) : (setTile s p t x).turnNo = s.turnNo := rfl
@[simp] theorem setTile_freeNo (s : State) (p t : Nat) (x : Tile) : (setTile s p t x).freeNo = s.freeNo := rfl
@[simp] theorem setTile_cur (s : State) (p t : Nat) (x : Tile) : (setTile s p t x).cur = s.cur := rfl
@[simp] theorem setTile_ev (s : State) (p t : Nat) (x : Tile) : (setTile s p t x).ev = s.ev := rfl
@[simp] theorem setTile_holds (s : State) (p t : Nat) (x : Tile) : (setTile s p t x).holds = s.holds := rfl
@[simp] theorem setTile_time (s : State) (p t : Nat) (x : Tile) : (setTile s p t x).time = s.time := rfl
@[simp] theorem setTile_cyc (s : State) (p t : Nat) (x : Tile) : (setTile s p t x).cyc = s.cyc := rfl
@[simp] theorem setTile_sclk (s : State) (p t : Nat) (x : Tile) : (setTile s p t x).sclk = s.sclk := rfl
@[simp] theorem setTile_regs (s : State) (p t : Nat) (x : Tile) : (setTile s p t x).regs = s.regs := rfl
@[simp] theorem setTile_mem (s : State) (p t : Nat) (x : Tile) : (setTile s p t x).mem = s.mem := rfl
@[simp] theorem setTile_cores (s : State) (p t : Nat) (x : Tile) : (setTile s p t x).cores = s.cores := rfl
@[simp] theorem setTile_threads (s : State) (p t : Nat) (x : Tile) : (setTile s p t x).threads = s.threads := rfl
@[simp] theorem setTile_ops (s : State) (p t : Nat) (x : Tile) : (setTile s p t x).ops = s.ops := rfl
@[simp] theorem setTile_nextOp (s : State) (p t : Nat) (x : Tile) : (setTile s p t x).nextOp = s.nextOp := rfl
@[simp] theorem setTile_copies (s : State) (p t : Nat) (x : Tile) : (setTile s p t x).copies = s.copies := rfl
@[simp] theorem setTile_launch (s : State) (p t : Nat) (x : Tile) : (setTile s p t x).launch = s.launch := rfl
@[simp] theorem setTile_gleaners (s : State) (p t : Nat) (x : Tile) : (setTile s p t x).gleaners = s.gleaners := rfl
@[simp] theorem setTile_host (s : State) (p t : Nat) (x : Tile) : (setTile s p t x).host = s.host := rfl

@[simp] theorem setTeam_sched (s : State) (t : Team) : (setTeam s t).sched = s.sched := rfl
@[simp] theorem setTeam_turnNo (s : State) (t : Team) : (setTeam s t).turnNo = s.turnNo := rfl
@[simp] theorem setTeam_freeNo (s : State) (t : Team) : (setTeam s t).freeNo = s.freeNo := rfl
@[simp] theorem setTeam_cur (s : State) (t : Team) : (setTeam s t).cur = s.cur := rfl
@[simp] theorem setTeam_ev (s : State) (t : Team) : (setTeam s t).ev = s.ev := rfl
@[simp] theorem setTeam_holds (s : State) (t : Team) : (setTeam s t).holds = s.holds := rfl
@[simp] theorem setTeam_time (s : State) (t : Team) : (setTeam s t).time = s.time := rfl
@[simp] theorem setTeam_cyc (s : State) (t : Team) : (setTeam s t).cyc = s.cyc := rfl
@[simp] theorem setTeam_sclk (s : State) (t : Team) : (setTeam s t).sclk = s.sclk := rfl
@[simp] theorem setTeam_regs (s : State) (t : Team) : (setTeam s t).regs = s.regs := rfl
@[simp] theorem setTeam_mem (s : State) (t : Team) : (setTeam s t).mem = s.mem := rfl
@[simp] theorem setTeam_cores (s : State) (t : Team) : (setTeam s t).cores = s.cores := rfl
@[simp] theorem setTeam_threads (s : State) (t : Team) : (setTeam s t).threads = s.threads := rfl
@[simp] theorem setTeam_pairs (s : State) (t : Team) : (setTeam s t).pairs = s.pairs := rfl
@[simp] theorem setTeam_ops (s : State) (t : Team) : (setTeam s t).ops = s.ops := rfl
@[simp] theorem setTeam_nextOp (s : State) (t : Team) : (setTeam s t).nextOp = s.nextOp := rfl
@[simp] theorem setTeam_copies (s : State) (t : Team) : (setTeam s t).copies = s.copies := rfl
@[simp] theorem setTeam_gleaners (s : State) (t : Team) : (setTeam s t).gleaners = s.gleaners := rfl
@[simp] theorem setTeam_host (s : State) (t : Team) : (setTeam s t).host = s.host := rfl

@[simp] theorem dropTeam_sched (s : State) (h : Nat) : (dropTeam s h).sched = s.sched := rfl
@[simp] theorem dropTeam_turnNo (s : State) (h : Nat) : (dropTeam s h).turnNo = s.turnNo := rfl
@[simp] theorem dropTeam_freeNo (s : State) (h : Nat) : (dropTeam s h).freeNo = s.freeNo := rfl
@[simp] theorem dropTeam_cur (s : State) (h : Nat) : (dropTeam s h).cur = s.cur := rfl
@[simp] theorem dropTeam_ev (s : State) (h : Nat) : (dropTeam s h).ev = s.ev := rfl
@[simp] theorem dropTeam_holds (s : State) (h : Nat) : (dropTeam s h).holds = s.holds := rfl
@[simp] theorem dropTeam_time (s : State) (h : Nat) : (dropTeam s h).time = s.time := rfl
@[simp] theorem dropTeam_cyc (s : State) (h : Nat) : (dropTeam s h).cyc = s.cyc := rfl
@[simp] theorem dropTeam_sclk (s : State) (h : Nat) : (dropTeam s h).sclk = s.sclk := rfl
@[simp] theorem dropTeam_regs (s : State) (h : Nat) : (dropTeam s h).regs = s.regs := rfl
@[simp] theorem dropTeam_mem (s : State) (h : Nat) : (dropTeam s h).mem = s.mem := rfl
@[simp] theorem dropTeam_cores (s : State) (h : Nat) : (dropTeam s h).cores = s.cores := rfl
@[simp] theorem dropTeam_threads (s : State) (h : Nat) : (dropTeam s h).threads = s.threads := rfl
@[simp] theorem dropTeam_pairs (s : State) (h : Nat) : (dropTeam s h).pairs = s.pairs := rfl
@[simp] theorem dropTeam_ops (s : State) (h : Nat) : (dropTeam s h).ops = s.ops := rfl
@[simp] theorem dropTeam_nextOp (s : State) (h : Nat) : (dropTeam s h).nextOp = s.nextOp := rfl
@[simp] theorem dropTeam_copies (s : State) (h : Nat) : (dropTeam s h).copies = s.copies := rfl
@[simp] theorem dropTeam_gleaners (s : State) (h : Nat) : (dropTeam s h).gleaners = s.gleaners := rfl
@[simp] theorem dropTeam_host (s : State) (h : Nat) : (dropTeam s h).host = s.host := rfl

@[simp] theorem setSlice_sched (s : State) (x : Slice) : (setSlice s x).sched = s.sched := rfl
@[simp] theorem setSlice_turnNo (s : State) (x : Slice) : (setSlice s x).turnNo = s.turnNo := rfl
@[simp] theorem setSlice_freeNo (s : State) (x : Slice) : (setSlice s x).freeNo = s.freeNo := rfl
@[simp] theorem setSlice_cur (s : State) (x : Slice) : (setSlice s x).cur = s.cur := rfl
@[simp] theorem setSlice_ev (s : State) (x : Slice) : (setSlice s x).ev = s.ev := rfl
@[simp] theorem setSlice_holds (s : State) (x : Slice) : (setSlice s x).holds = s.holds := rfl
@[simp] theorem setSlice_time (s : State) (x : Slice) : (setSlice s x).time = s.time := rfl
@[simp] theorem setSlice_cyc (s : State) (x : Slice) : (setSlice s x).cyc = s.cyc := rfl
@[simp] theorem setSlice_sclk (s : State) (x : Slice) : (setSlice s x).sclk = s.sclk := rfl
@[simp] theorem setSlice_regs (s : State) (x : Slice) : (setSlice s x).regs = s.regs := rfl
@[simp] theorem setSlice_mem (s : State) (x : Slice) : (setSlice s x).mem = s.mem := rfl
@[simp] theorem setSlice_cores (s : State) (x : Slice) : (setSlice s x).cores = s.cores := rfl
@[simp] theorem setSlice_threads (s : State) (x : Slice) : (setSlice s x).threads = s.threads := rfl
@[simp] theorem setSlice_pairs (s : State) (x : Slice) : (setSlice s x).pairs = s.pairs := rfl
@[simp] theorem setSlice_ops (s : State) (x : Slice) : (setSlice s x).ops = s.ops := rfl
@[simp] theorem setSlice_nextOp (s : State) (x : Slice) : (setSlice s x).nextOp = s.nextOp := rfl
@[simp] theorem setSlice_copies (s : State) (x : Slice) : (setSlice s x).copies = s.copies := rfl
@[simp] theorem setSlice_gleaners (s : State) (x : Slice) : (setSlice s x).gleaners = s.gleaners := rfl
@[simp] theorem setSlice_host (s : State) (x : Slice) : (setSlice s x).host = s.host := rfl

@[simp] theorem setOp_sched (s : State) (o : Op) : (setOp s o).sched = s.sched := rfl
@[simp] theorem setOp_turnNo (s : State) (o : Op) : (setOp s o).turnNo = s.turnNo := rfl
@[simp] theorem setOp_freeNo (s : State) (o : Op) : (setOp s o).freeNo = s.freeNo := rfl
@[simp] theorem setOp_cur (s : State) (o : Op) : (setOp s o).cur = s.cur := rfl
@[simp] theorem setOp_ev (s : State) (o : Op) : (setOp s o).ev = s.ev := rfl
@[simp] theorem setOp_holds (s : State) (o : Op) : (setOp s o).holds = s.holds := rfl
@[simp] theorem setOp_time (s : State) (o : Op) : (setOp s o).time = s.time := rfl
@[simp] theorem setOp_cyc (s : State) (o : Op) : (setOp s o).cyc = s.cyc := rfl
@[simp] theorem setOp_sclk (s : State) (o : Op) : (setOp s o).sclk = s.sclk := rfl
@[simp] theorem setOp_regs (s : State) (o : Op) : (setOp s o).regs = s.regs := rfl
@[simp] theorem setOp_mem (s : State) (o : Op) : (setOp s o).mem = s.mem := rfl
@[simp] theorem setOp_cores (s : State) (o : Op) : (setOp s o).cores = s.cores := rfl
@[simp] theorem setOp_threads (s : State) (o : Op) : (setOp s o).threads = s.threads := rfl
@[simp] theorem setOp_pairs (s : State) (o : Op) : (setOp s o).pairs = s.pairs := rfl
@[simp] theorem setOp_nextOp (s : State) (o : Op) : (setOp s o).nextOp = s.nextOp := rfl
@[simp] theorem setOp_copies (s : State) (o : Op) : (setOp s o).copies = s.copies := rfl
@[simp] theorem setOp_launch (s : State) (o : Op) : (setOp s o).launch = s.launch := rfl
@[simp] theorem setOp_gleaners (s : State) (o : Op) : (setOp s o).gleaners = s.gleaners := rfl
@[simp] theorem setOp_host (s : State) (o : Op) : (setOp s o).host = s.host := rfl

@[simp] theorem dropOp_sched (s : State) (id : Nat) : (dropOp s id).sched = s.sched := rfl
@[simp] theorem dropOp_turnNo (s : State) (id : Nat) : (dropOp s id).turnNo = s.turnNo := rfl
@[simp] theorem dropOp_freeNo (s : State) (id : Nat) : (dropOp s id).freeNo = s.freeNo := rfl
@[simp] theorem dropOp_cur (s : State) (id : Nat) : (dropOp s id).cur = s.cur := rfl
@[simp] theorem dropOp_ev (s : State) (id : Nat) : (dropOp s id).ev = s.ev := rfl
@[simp] theorem dropOp_holds (s : State) (id : Nat) : (dropOp s id).holds = s.holds := rfl
@[simp] theorem dropOp_time (s : State) (id : Nat) : (dropOp s id).time = s.time := rfl
@[simp] theorem dropOp_cyc (s : State) (id : Nat) : (dropOp s id).cyc = s.cyc := rfl
@[simp] theorem dropOp_sclk (s : State) (id : Nat) : (dropOp s id).sclk = s.sclk := rfl
@[simp] theorem dropOp_regs (s : State) (id : Nat) : (dropOp s id).regs = s.regs := rfl
@[simp] theorem dropOp_mem (s : State) (id : Nat) : (dropOp s id).mem = s.mem := rfl
@[simp] theorem dropOp_cores (s : State) (id : Nat) : (dropOp s id).cores = s.cores := rfl
@[simp] theorem dropOp_threads (s : State) (id : Nat) : (dropOp s id).threads = s.threads := rfl
@[simp] theorem dropOp_pairs (s : State) (id : Nat) : (dropOp s id).pairs = s.pairs := rfl
@[simp] theorem dropOp_nextOp (s : State) (id : Nat) : (dropOp s id).nextOp = s.nextOp := rfl
@[simp] theorem dropOp_copies (s : State) (id : Nat) : (dropOp s id).copies = s.copies := rfl
@[simp] theorem dropOp_launch (s : State) (id : Nat) : (dropOp s id).launch = s.launch := rfl
@[simp] theorem dropOp_gleaners (s : State) (id : Nat) : (dropOp s id).gleaners = s.gleaners := rfl
@[simp] theorem dropOp_host (s : State) (id : Nat) : (dropOp s id).host = s.host := rfl

@[simp] theorem setCopy_sched (s : State) (o : Copy) : (setCopy s o).sched = s.sched := rfl
@[simp] theorem setCopy_turnNo (s : State) (o : Copy) : (setCopy s o).turnNo = s.turnNo := rfl
@[simp] theorem setCopy_freeNo (s : State) (o : Copy) : (setCopy s o).freeNo = s.freeNo := rfl
@[simp] theorem setCopy_cur (s : State) (o : Copy) : (setCopy s o).cur = s.cur := rfl
@[simp] theorem setCopy_ev (s : State) (o : Copy) : (setCopy s o).ev = s.ev := rfl
@[simp] theorem setCopy_holds (s : State) (o : Copy) : (setCopy s o).holds = s.holds := rfl
@[simp] theorem setCopy_time (s : State) (o : Copy) : (setCopy s o).time = s.time := rfl
@[simp] theorem setCopy_cyc (s : State) (o : Copy) : (setCopy s o).cyc = s.cyc := rfl
@[simp] theorem setCopy_sclk (s : State) (o : Copy) : (setCopy s o).sclk = s.sclk := rfl
@[simp] theorem setCopy_regs (s : State) (o : Copy) : (setCopy s o).regs = s.regs := rfl
@[simp] theorem setCopy_mem (s : State) (o : Copy) : (setCopy s o).mem = s.mem := rfl
@[simp] theorem setCopy_cores (s : State) (o : Copy) : (setCopy s o).cores = s.cores := rfl
@[simp] theorem setCopy_threads (s : State) (o : Copy) : (setCopy s o).threads = s.threads := rfl
@[simp] theorem setCopy_pairs (s : State) (o : Copy) : (setCopy s o).pairs = s.pairs := rfl
@[simp] theorem setCopy_ops (s : State) (o : Copy) : (setCopy s o).ops = s.ops := rfl
@[simp] theorem setCopy_nextOp (s : State) (o : Copy) : (setCopy s o).nextOp = s.nextOp := rfl
@[simp] theorem setCopy_launch (s : State) (o : Copy) : (setCopy s o).launch = s.launch := rfl
@[simp] theorem setCopy_gleaners (s : State) (o : Copy) : (setCopy s o).gleaners = s.gleaners := rfl
@[simp] theorem setCopy_host (s : State) (o : Copy) : (setCopy s o).host = s.host := rfl

@[simp] theorem dropCopy_sched (s : State) (id : Nat) : (dropCopy s id).sched = s.sched := rfl
@[simp] theorem dropCopy_turnNo (s : State) (id : Nat) : (dropCopy s id).turnNo = s.turnNo := rfl
@[simp] theorem dropCopy_freeNo (s : State) (id : Nat) : (dropCopy s id).freeNo = s.freeNo := rfl
@[simp] theorem dropCopy_cur (s : State) (id : Nat) : (dropCopy s id).cur = s.cur := rfl
@[simp] theorem dropCopy_ev (s : State) (id : Nat) : (dropCopy s id).ev = s.ev := rfl
@[simp] theorem dropCopy_holds (s : State) (id : Nat) : (dropCopy s id).holds = s.holds := rfl
@[simp] theorem dropCopy_time (s : State) (id : Nat) : (dropCopy s id).time = s.time := rfl
@[simp] theorem dropCopy_cyc (s : State) (id : Nat) : (dropCopy s id).cyc = s.cyc := rfl
@[simp] theorem dropCopy_sclk (s : State) (id : Nat) : (dropCopy s id).sclk = s.sclk := rfl
@[simp] theorem dropCopy_regs (s : State) (id : Nat) : (dropCopy s id).regs = s.regs := rfl
@[simp] theorem dropCopy_mem (s : State) (id : Nat) : (dropCopy s id).mem = s.mem := rfl
@[simp] theorem dropCopy_cores (s : State) (id : Nat) : (dropCopy s id).cores = s.cores := rfl
@[simp] theorem dropCopy_threads (s : State) (id : Nat) : (dropCopy s id).threads = s.threads := rfl
@[simp] theorem dropCopy_pairs (s : State) (id : Nat) : (dropCopy s id).pairs = s.pairs := rfl
@[simp] theorem dropCopy_ops (s : State) (id : Nat) : (dropCopy s id).ops = s.ops := rfl
@[simp] theorem dropCopy_nextOp (s : State) (id : Nat) : (dropCopy s id).nextOp = s.nextOp := rfl
@[simp] theorem dropCopy_launch (s : State) (id : Nat) : (dropCopy s id).launch = s.launch := rfl
@[simp] theorem dropCopy_gleaners (s : State) (id : Nat) : (dropCopy s id).gleaners = s.gleaners := rfl
@[simp] theorem dropCopy_host (s : State) (id : Nat) : (dropCopy s id).host = s.host := rfl

@[simp] theorem bumpFree_sched (s : State) : (bumpFree s).sched = s.sched := rfl
@[simp] theorem bumpFree_turnNo (s : State) : (bumpFree s).turnNo = s.turnNo := rfl
@[simp] theorem bumpFree_cur (s : State) : (bumpFree s).cur = s.cur := rfl
@[simp] theorem bumpFree_ev (s : State) : (bumpFree s).ev = s.ev := rfl
@[simp] theorem bumpFree_holds (s : State) : (bumpFree s).holds = s.holds := rfl
@[simp] theorem bumpFree_time (s : State) : (bumpFree s).time = s.time := rfl
@[simp] theorem bumpFree_cyc (s : State) : (bumpFree s).cyc = s.cyc := rfl
@[simp] theorem bumpFree_sclk (s : State) : (bumpFree s).sclk = s.sclk := rfl
@[simp] theorem bumpFree_regs (s : State) : (bumpFree s).regs = s.regs := rfl
@[simp] theorem bumpFree_mem (s : State) : (bumpFree s).mem = s.mem := rfl
@[simp] theorem bumpFree_cores (s : State) : (bumpFree s).cores = s.cores := rfl
@[simp] theorem bumpFree_threads (s : State) : (bumpFree s).threads = s.threads := rfl
@[simp] theorem bumpFree_pairs (s : State) : (bumpFree s).pairs = s.pairs := rfl
@[simp] theorem bumpFree_ops (s : State) : (bumpFree s).ops = s.ops := rfl
@[simp] theorem bumpFree_nextOp (s : State) : (bumpFree s).nextOp = s.nextOp := rfl
@[simp] theorem bumpFree_copies (s : State) : (bumpFree s).copies = s.copies := rfl
@[simp] theorem bumpFree_launch (s : State) : (bumpFree s).launch = s.launch := rfl
@[simp] theorem bumpFree_gleaners (s : State) : (bumpFree s).gleaners = s.gleaners := rfl
@[simp] theorem bumpFree_host (s : State) : (bumpFree s).host = s.host := rfl

@[simp] theorem emit_sched (s : State) (o : Out) : (emit s o).sched = s.sched := rfl
@[simp] theorem emit_turnNo (s : State) (o : Out) : (emit s o).turnNo = s.turnNo := rfl
@[simp] theorem emit_freeNo (s : State) (o : Out) : (emit s o).freeNo = s.freeNo := rfl
@[simp] theorem emit_cur (s : State) (o : Out) : (emit s o).cur = s.cur := rfl
@[simp] theorem emit_ev (s : State) (o : Out) : (emit s o).ev = s.ev := rfl
@[simp] theorem emit_holds (s : State) (o : Out) : (emit s o).holds = s.holds := rfl
@[simp] theorem emit_time (s : State) (o : Out) : (emit s o).time = s.time := rfl
@[simp] theorem emit_cyc (s : State) (o : Out) : (emit s o).cyc = s.cyc := rfl
@[simp] theorem emit_sclk (s : State) (o : Out) : (emit s o).sclk = s.sclk := rfl
@[simp] theorem emit_regs (s : State) (o : Out) : (emit s o).regs = s.regs := rfl
@[simp] theorem emit_mem (s : State) (o : Out) : (emit s o).mem = s.mem := rfl
@[simp] theorem emit_cores (s : State) (o : Out) : (emit s o).cores = s.cores := rfl
@[simp] theorem emit_threads (s : State) (o : Out) : (emit s o).threads = s.threads := rfl
@[simp] theorem emit_pairs (s : State) (o : Out) : (emit s o).pairs = s.pairs := rfl
@[simp] theorem emit_ops (s : State) (o : Out) : (emit s o).ops = s.ops := rfl
@[simp] theorem emit_nextOp (s : State) (o : Out) : (emit s o).nextOp = s.nextOp := rfl
@[simp] theorem emit_copies (s : State) (o : Out) : (emit s o).copies = s.copies := rfl
@[simp] theorem emit_launch (s : State) (o : Out) : (emit s o).launch = s.launch := rfl
@[simp] theorem emit_gleaners (s : State) (o : Out) : (emit s o).gleaners = s.gleaners := rfl

@[simp] theorem setUnitFlags_sched (s : State) (u : UnitId) (m : SMap Nat) : (setUnitFlags s u m).sched = s.sched := by cases u <;> rfl
@[simp] theorem setUnitFlags_turnNo (s : State) (u : UnitId) (m : SMap Nat) : (setUnitFlags s u m).turnNo = s.turnNo := by cases u <;> rfl
@[simp] theorem setUnitFlags_freeNo (s : State) (u : UnitId) (m : SMap Nat) : (setUnitFlags s u m).freeNo = s.freeNo := by cases u <;> rfl
@[simp] theorem setUnitFlags_cur (s : State) (u : UnitId) (m : SMap Nat) : (setUnitFlags s u m).cur = s.cur := by cases u <;> rfl
@[simp] theorem setUnitFlags_ev (s : State) (u : UnitId) (m : SMap Nat) : (setUnitFlags s u m).ev = s.ev := by cases u <;> rfl
@[simp] theorem setUnitFlags_holds (s : State) (u : UnitId) (m : SMap Nat) : (setUnitFlags s u m).holds = s.holds := by cases u <;> rfl
@[simp] theorem setUnitFlags_time (s : State) (u : UnitId) (m : SMap Nat) : (setUnitFlags s u m).time = s.time := by cases u <;> rfl
@[simp] theorem setUnitFlags_cyc (s : State) (u : UnitId) (m : SMap Nat) : (setUnitFlags s u m).cyc = s.cyc := by cases u <;> rfl
@[simp] theorem setUnitFlags_sclk (s : State) (u : UnitId) (m : SMap Nat) : (setUnitFlags s u m).sclk = s.sclk := by cases u <;> rfl
@[simp] theorem setUnitFlags_regs (s : State) (u : UnitId) (m : SMap Nat) : (setUnitFlags s u m).regs = s.regs := by cases u <;> rfl
@[simp] theorem setUnitFlags_mem (s : State) (u : UnitId) (m : SMap Nat) : (setUnitFlags s u m).mem = s.mem := by cases u <;> rfl
@[simp] theorem setUnitFlags_pairs (s : State) (u : UnitId) (m : SMap Nat) : (setUnitFlags s u m).pairs = s.pairs := by cases u <;> rfl
@[simp] theorem setUnitFlags_ops (s : State) (u : UnitId) (m : SMap Nat) : (setUnitFlags s u m).ops = s.ops := by cases u <;> rfl
@[simp] theorem setUnitFlags_nextOp (s : State) (u : UnitId) (m : SMap Nat) : (setUnitFlags s u m).nextOp = s.nextOp := by cases u <;> rfl
@[simp] theorem setUnitFlags_copies (s : State) (u : UnitId) (m : SMap Nat) : (setUnitFlags s u m).copies = s.copies := by cases u <;> rfl
@[simp] theorem setUnitFlags_launch (s : State) (u : UnitId) (m : SMap Nat) : (setUnitFlags s u m).launch = s.launch := by cases u <;> rfl
@[simp] theorem setUnitFlags_gleaners (s : State) (u : UnitId) (m : SMap Nat) : (setUnitFlags s u m).gleaners = s.gleaners := by cases u <;> rfl
@[simp] theorem setUnitFlags_host (s : State) (u : UnitId) (m : SMap Nat) : (setUnitFlags s u m).host = s.host := by cases u <;> rfl

@[simp] theorem raiseFlag_sched (s : State) (u : UnitId) (f : Nat) : (raiseFlag s u f).sched = s.sched := by cases u <;> rfl
@[simp] theorem raiseFlag_turnNo (s : State) (u : UnitId) (f : Nat) : (raiseFlag s u f).turnNo = s.turnNo := by cases u <;> rfl
@[simp] theorem raiseFlag_freeNo (s : State) (u : UnitId) (f : Nat) : (raiseFlag s u f).freeNo = s.freeNo := by cases u <;> rfl
@[simp] theorem raiseFlag_cur (s : State) (u : UnitId) (f : Nat) : (raiseFlag s u f).cur = s.cur := by cases u <;> rfl
@[simp] theorem raiseFlag_ev (s : State) (u : UnitId) (f : Nat) : (raiseFlag s u f).ev = s.ev := by cases u <;> rfl
@[simp] theorem raiseFlag_holds (s : State) (u : UnitId) (f : Nat) : (raiseFlag s u f).holds = s.holds := by cases u <;> rfl
@[simp] theorem raiseFlag_time (s : State) (u : UnitId) (f : Nat) : (raiseFlag s u f).time = s.time := by cases u <;> rfl
@[simp] theorem raiseFlag_cyc (s : State) (u : UnitId) (f : Nat) : (raiseFlag s u f).cyc = s.cyc := by cases u <;> rfl
@[simp] theorem raiseFlag_sclk (s : State) (u : UnitId) (f : Nat) : (raiseFlag s u f).sclk = s.sclk := by cases u <;> rfl
@[simp] theorem raiseFlag_regs (s : State) (u : UnitId) (f : Nat) : (raiseFlag s u f).regs = s.regs := by cases u <;> rfl
@[simp] theorem raiseFlag_mem (s : State) (u : UnitId) (f : Nat) : (raiseFlag s u f).mem = s.mem := by cases u <;> rfl
@[simp] theorem raiseFlag_pairs (s : State) (u : UnitId) (f : Nat) : (raiseFlag s u f).pairs = s.pairs := by cases u <;> rfl
@[simp] theorem raiseFlag_ops (s : State) (u : UnitId) (f : Nat) : (raiseFlag s u f).ops = s.ops := by cases u <;> rfl
@[simp] theorem raiseFlag_nextOp (s : State) (u : UnitId) (f : Nat) : (raiseFlag s u f).nextOp = s.nextOp := by cases u <;> rfl
@[simp] theorem raiseFlag_copies (s : State) (u : UnitId) (f : Nat) : (raiseFlag s u f).copies = s.copies := by cases u <;> rfl
@[simp] theorem raiseFlag_launch (s : State) (u : UnitId) (f : Nat) : (raiseFlag s u f).launch = s.launch := by cases u <;> rfl
@[simp] theorem raiseFlag_gleaners (s : State) (u : UnitId) (f : Nat) : (raiseFlag s u f).gleaners = s.gleaners := by cases u <;> rfl
@[simp] theorem raiseFlag_host (s : State) (u : UnitId) (f : Nat) : (raiseFlag s u f).host = s.host := by cases u <;> rfl

@[simp] theorem lowerFlag_sched (s : State) (u : UnitId) (f : Nat) : (lowerFlag s u f).sched = s.sched := by cases u <;> rfl
@[simp] theorem lowerFlag_turnNo (s : State) (u : UnitId) (f : Nat) : (lowerFlag s u f).turnNo = s.turnNo := by cases u <;> rfl
@[simp] theorem lowerFlag_freeNo (s : State) (u : UnitId) (f : Nat) : (lowerFlag s u f).freeNo = s.freeNo := by cases u <;> rfl
@[simp] theorem lowerFlag_cur (s : State) (u : UnitId) (f : Nat) : (lowerFlag s u f).cur = s.cur := by cases u <;> rfl
@[simp] theorem lowerFlag_ev (s : State) (u : UnitId) (f : Nat) : (lowerFlag s u f).ev = s.ev := by cases u <;> rfl
@[simp] theorem lowerFlag_holds (s : State) (u : UnitId) (f : Nat) : (lowerFlag s u f).holds = s.holds := by cases u <;> rfl
@[simp] theorem lowerFlag_time (s : State) (u : UnitId) (f : Nat) : (lowerFlag s u f).time = s.time := by cases u <;> rfl
@[simp] theorem lowerFlag_cyc (s : State) (u : UnitId) (f : Nat) : (lowerFlag s u f).cyc = s.cyc := by cases u <;> rfl
@[simp] theorem lowerFlag_sclk (s : State) (u : UnitId) (f : Nat) : (lowerFlag s u f).sclk = s.sclk := by cases u <;> rfl
@[simp] theorem lowerFlag_regs (s : State) (u : UnitId) (f : Nat) : (lowerFlag s u f).regs = s.regs := by cases u <;> rfl
@[simp] theorem lowerFlag_mem (s : State) (u : UnitId) (f : Nat) : (lowerFlag s u f).mem = s.mem := by cases u <;> rfl
@[simp] theorem lowerFlag_pairs (s : State) (u : UnitId) (f : Nat) : (lowerFlag s u f).pairs = s.pairs := by cases u <;> rfl
@[simp] theorem lowerFlag_ops (s : State) (u : UnitId) (f : Nat) : (lowerFlag s u f).ops = s.ops := by cases u <;> rfl
@[simp] theorem lowerFlag_nextOp (s : State) (u : UnitId) (f : Nat) : (lowerFlag s u f).nextOp = s.nextOp := by cases u <;> rfl
@[simp] theorem lowerFlag_copies (s : State) (u : UnitId) (f : Nat) : (lowerFlag s u f).copies = s.copies := by cases u <;> rfl
@[simp] theorem lowerFlag_launch (s : State) (u : UnitId) (f : Nat) : (lowerFlag s u f).launch = s.launch := by cases u <;> rfl
@[simp] theorem lowerFlag_gleaners (s : State) (u : UnitId) (f : Nat) : (lowerFlag s u f).gleaners = s.gleaners := by cases u <;> rfl
@[simp] theorem lowerFlag_host (s : State) (u : UnitId) (f : Nat) : (lowerFlag s u f).host = s.host := by cases u <;> rfl

@[simp] theorem raiseWct_sched (s : State) (u : UnitId) (n : Nat) : (raiseWct s u n).sched = s.sched := by cases u <;> rfl
@[simp] theorem raiseWct_turnNo (s : State) (u : UnitId) (n : Nat) : (raiseWct s u n).turnNo = s.turnNo := by cases u <;> rfl
@[simp] theorem raiseWct_freeNo (s : State) (u : UnitId) (n : Nat) : (raiseWct s u n).freeNo = s.freeNo := by cases u <;> rfl
@[simp] theorem raiseWct_cur (s : State) (u : UnitId) (n : Nat) : (raiseWct s u n).cur = s.cur := by cases u <;> rfl
@[simp] theorem raiseWct_ev (s : State) (u : UnitId) (n : Nat) : (raiseWct s u n).ev = s.ev := by cases u <;> rfl
@[simp] theorem raiseWct_holds (s : State) (u : UnitId) (n : Nat) : (raiseWct s u n).holds = s.holds := by cases u <;> rfl
@[simp] theorem raiseWct_time (s : State) (u : UnitId) (n : Nat) : (raiseWct s u n).time = s.time := by cases u <;> rfl
@[simp] theorem raiseWct_cyc (s : State) (u : UnitId) (n : Nat) : (raiseWct s u n).cyc = s.cyc := by cases u <;> rfl
@[simp] theorem raiseWct_sclk (s : State) (u : UnitId) (n : Nat) : (raiseWct s u n).sclk = s.sclk := by cases u <;> rfl
@[simp] theorem raiseWct_regs (s : State) (u : UnitId) (n : Nat) : (raiseWct s u n).regs = s.regs := by cases u <;> rfl
@[simp] theorem raiseWct_mem (s : State) (u : UnitId) (n : Nat) : (raiseWct s u n).mem = s.mem := by cases u <;> rfl
@[simp] theorem raiseWct_pairs (s : State) (u : UnitId) (n : Nat) : (raiseWct s u n).pairs = s.pairs := by cases u <;> rfl
@[simp] theorem raiseWct_ops (s : State) (u : UnitId) (n : Nat) : (raiseWct s u n).ops = s.ops := by cases u <;> rfl
@[simp] theorem raiseWct_nextOp (s : State) (u : UnitId) (n : Nat) : (raiseWct s u n).nextOp = s.nextOp := by cases u <;> rfl
@[simp] theorem raiseWct_copies (s : State) (u : UnitId) (n : Nat) : (raiseWct s u n).copies = s.copies := by cases u <;> rfl
@[simp] theorem raiseWct_launch (s : State) (u : UnitId) (n : Nat) : (raiseWct s u n).launch = s.launch := by cases u <;> rfl
@[simp] theorem raiseWct_gleaners (s : State) (u : UnitId) (n : Nat) : (raiseWct s u n).gleaners = s.gleaners := by cases u <;> rfl
@[simp] theorem raiseWct_host (s : State) (u : UnitId) (n : Nat) : (raiseWct s u n).host = s.host := by cases u <;> rfl

@[simp] theorem setRun_sched (s : State) (u : UnitId) (r : Option ClauseRun) : (setRun s u r).sched = s.sched := by cases u <;> rfl
@[simp] theorem setRun_turnNo (s : State) (u : UnitId) (r : Option ClauseRun) : (setRun s u r).turnNo = s.turnNo := by cases u <;> rfl
@[simp] theorem setRun_freeNo (s : State) (u : UnitId) (r : Option ClauseRun) : (setRun s u r).freeNo = s.freeNo := by cases u <;> rfl
@[simp] theorem setRun_cur (s : State) (u : UnitId) (r : Option ClauseRun) : (setRun s u r).cur = s.cur := by cases u <;> rfl
@[simp] theorem setRun_ev (s : State) (u : UnitId) (r : Option ClauseRun) : (setRun s u r).ev = s.ev := by cases u <;> rfl
@[simp] theorem setRun_holds (s : State) (u : UnitId) (r : Option ClauseRun) : (setRun s u r).holds = s.holds := by cases u <;> rfl
@[simp] theorem setRun_time (s : State) (u : UnitId) (r : Option ClauseRun) : (setRun s u r).time = s.time := by cases u <;> rfl
@[simp] theorem setRun_cyc (s : State) (u : UnitId) (r : Option ClauseRun) : (setRun s u r).cyc = s.cyc := by cases u <;> rfl
@[simp] theorem setRun_sclk (s : State) (u : UnitId) (r : Option ClauseRun) : (setRun s u r).sclk = s.sclk := by cases u <;> rfl
@[simp] theorem setRun_regs (s : State) (u : UnitId) (r : Option ClauseRun) : (setRun s u r).regs = s.regs := by cases u <;> rfl
@[simp] theorem setRun_mem (s : State) (u : UnitId) (r : Option ClauseRun) : (setRun s u r).mem = s.mem := by cases u <;> rfl
@[simp] theorem setRun_pairs (s : State) (u : UnitId) (r : Option ClauseRun) : (setRun s u r).pairs = s.pairs := by cases u <;> rfl
@[simp] theorem setRun_ops (s : State) (u : UnitId) (r : Option ClauseRun) : (setRun s u r).ops = s.ops := by cases u <;> rfl
@[simp] theorem setRun_nextOp (s : State) (u : UnitId) (r : Option ClauseRun) : (setRun s u r).nextOp = s.nextOp := by cases u <;> rfl
@[simp] theorem setRun_copies (s : State) (u : UnitId) (r : Option ClauseRun) : (setRun s u r).copies = s.copies := by cases u <;> rfl
@[simp] theorem setRun_launch (s : State) (u : UnitId) (r : Option ClauseRun) : (setRun s u r).launch = s.launch := by cases u <;> rfl
@[simp] theorem setRun_gleaners (s : State) (u : UnitId) (r : Option ClauseRun) : (setRun s u r).gleaners = s.gleaners := by cases u <;> rfl
@[simp] theorem setRun_host (s : State) (u : UnitId) (r : Option ClauseRun) : (setRun s u r).host = s.host := by cases u <;> rfl

@[simp] theorem setScalarRegs_sched (s : State) (u : UnitId) (m : SMap W64) : (setScalarRegs s u m).sched = s.sched := by cases u <;> rfl
@[simp] theorem setScalarRegs_turnNo (s : State) (u : UnitId) (m : SMap W64) : (setScalarRegs s u m).turnNo = s.turnNo := by cases u <;> rfl
@[simp] theorem setScalarRegs_freeNo (s : State) (u : UnitId) (m : SMap W64) : (setScalarRegs s u m).freeNo = s.freeNo := by cases u <;> rfl
@[simp] theorem setScalarRegs_cur (s : State) (u : UnitId) (m : SMap W64) : (setScalarRegs s u m).cur = s.cur := by cases u <;> rfl
@[simp] theorem setScalarRegs_ev (s : State) (u : UnitId) (m : SMap W64) : (setScalarRegs s u m).ev = s.ev := by cases u <;> rfl
@[simp] theorem setScalarRegs_holds (s : State) (u : UnitId) (m : SMap W64) : (setScalarRegs s u m).holds = s.holds := by cases u <;> rfl
@[simp] theorem setScalarRegs_time (s : State) (u : UnitId) (m : SMap W64) : (setScalarRegs s u m).time = s.time := by cases u <;> rfl
@[simp] theorem setScalarRegs_cyc (s : State) (u : UnitId) (m : SMap W64) : (setScalarRegs s u m).cyc = s.cyc := by cases u <;> rfl
@[simp] theorem setScalarRegs_sclk (s : State) (u : UnitId) (m : SMap W64) : (setScalarRegs s u m).sclk = s.sclk := by cases u <;> rfl
@[simp] theorem setScalarRegs_regs (s : State) (u : UnitId) (m : SMap W64) : (setScalarRegs s u m).regs = s.regs := by cases u <;> rfl
@[simp] theorem setScalarRegs_mem (s : State) (u : UnitId) (m : SMap W64) : (setScalarRegs s u m).mem = s.mem := by cases u <;> rfl
@[simp] theorem setScalarRegs_pairs (s : State) (u : UnitId) (m : SMap W64) : (setScalarRegs s u m).pairs = s.pairs := by cases u <;> rfl
@[simp] theorem setScalarRegs_ops (s : State) (u : UnitId) (m : SMap W64) : (setScalarRegs s u m).ops = s.ops := by cases u <;> rfl
@[simp] theorem setScalarRegs_nextOp (s : State) (u : UnitId) (m : SMap W64) : (setScalarRegs s u m).nextOp = s.nextOp := by cases u <;> rfl
@[simp] theorem setScalarRegs_copies (s : State) (u : UnitId) (m : SMap W64) : (setScalarRegs s u m).copies = s.copies := by cases u <;> rfl
@[simp] theorem setScalarRegs_launch (s : State) (u : UnitId) (m : SMap W64) : (setScalarRegs s u m).launch = s.launch := by cases u <;> rfl
@[simp] theorem setScalarRegs_gleaners (s : State) (u : UnitId) (m : SMap W64) : (setScalarRegs s u m).gleaners = s.gleaners := by cases u <;> rfl
@[simp] theorem setScalarRegs_host (s : State) (u : UnitId) (m : SMap W64) : (setScalarRegs s u m).host = s.host := by cases u <;> rfl

end Sys2Proof.Machine
end

