-- ==== Sys2Proof/Laws/Units.lean ====
section
/-!
SUPPORT. Units: a read of a core, warp, front-end context, thread, pair or tile after a write of one, and their clauses and flags.
-/
namespace Sys2Proof.Machine

@[simp] theorem getCore_setCore (s : State) (c : Nat) (x : Core) : getCore (setCore s c x) c = x := by simp [getCore, setCore]
theorem getCore_setCore_other (s : State) {c d : Nat} (x : Core) (h : d ≠ c) : getCore (setCore s c x) d = getCore s d := by
  simp [getCore, setCore, look_put_other _ _ _ h]
@[simp] theorem setCore_setCore (s : State) (c : Nat) (x y : Core) : setCore (setCore s c x) c y = setCore s c y := by simp [setCore]

@[simp] theorem getThread_setThread (s : State) (q : Nat) (t : Thread) : getThread (setThread s q t) q = t := by simp [getThread, setThread]
theorem getThread_setThread_other (s : State) {q r : Nat} (t : Thread) (h : r ≠ q) : getThread (setThread s q t) r = getThread s r := by
  simp [getThread, setThread, look_put_other _ _ _ h]
@[simp] theorem setThread_setThread (s : State) (q : Nat) (t u : Thread) : setThread (setThread s q t) q u = setThread s q u := by
  simp [setThread]

@[simp] theorem getPair_setPair (s : State) (p : Nat) (x : PairSt) : getPair (setPair s p x) p = x := by simp [getPair, setPair]
theorem getPair_setPair_other (s : State) {p q : Nat} (x : PairSt) (h : q ≠ p) : getPair (setPair s p x) q = getPair s q := by
  simp [getPair, setPair, look_put_other _ _ _ h]
@[simp] theorem getTile_setTile (s : State) (p t : Nat) (x : Tile) : getTile (setTile s p t x) p t = x := by simp [getTile, setTile]
theorem getTile_setTile_other (s : State) {p t u : Nat} (x : Tile) (h : u ≠ t) : getTile (setTile s p t x) p u = getTile s p u := by
  simp [getTile, setTile, look_put_other _ _ _ h]

@[simp] theorem getWarp_setWarp (s : State) (c k : Nat) (w : Warp) : getWarp (setWarp s c k w) c k = w := by simp [getWarp, setWarp]
theorem getWarp_setWarp_slot (s : State) (c : Nat) {k j : Nat} (w : Warp) (h : j ≠ k) : getWarp (setWarp s c k w) c j = getWarp s c j := by
  simp [getWarp, setWarp, look_put_other _ _ _ h]
theorem getWarp_setWarp_core (s : State) {c d : Nat} (k j : Nat) (w : Warp) (h : d ≠ c) : getWarp (setWarp s c k w) d j = getWarp s d j := by
  simp [getWarp, setWarp, getCore_setCore_other s _ h]
@[simp] theorem setWarp_setWarp (s : State) (c k : Nat) (w x : Warp) : setWarp (setWarp s c k w) c k x = setWarp s c k x := by
  simp [setWarp]
@[simp] theorem getFront_setWarp (s : State) (c k d j : Nat) (w : Warp) : getFront (setWarp s c k w) d j = getFront s d j := by
  by_cases h : d = c
  · subst h; simp [getFront, setWarp]
  · simp [getFront, setWarp, getCore_setCore_other s _ h]
@[simp] theorem getSlot_setWarp (s : State) (c k d j : Nat) (w : Warp) : getSlot (setWarp s c k w) d j = getSlot s d j := by
  by_cases h : d = c
  · subst h; simp [getSlot, setWarp]
  · simp [getSlot, setWarp, getCore_setCore_other s _ h]

@[simp] theorem getFront_setFront (s : State) (c k : Nat) (f : Front) : getFront (setFront s c k f) c k = f := by simp [getFront, setFront]
theorem getFront_setFront_slot (s : State) (c : Nat) {k j : Nat} (f : Front) (h : j ≠ k) : getFront (setFront s c k f) c j = getFront s c j := by
  simp [getFront, setFront, look_put_other _ _ _ h]
@[simp] theorem setFront_setFront (s : State) (c k : Nat) (f g : Front) : setFront (setFront s c k f) c k g = setFront s c k g := by
  simp [setFront]
@[simp] theorem getWarp_setFront (s : State) (c k d j : Nat) (f : Front) : getWarp (setFront s c k f) d j = getWarp s d j := by
  by_cases h : d = c
  · subst h; simp [getWarp, setFront]
  · simp [getWarp, setFront, getCore_setCore_other s _ h]

@[simp] theorem getThread_setWarp (s : State) (c k q : Nat) (w : Warp) : getThread (setWarp s c k w) q = getThread s q := rfl
@[simp] theorem getThread_setFront (s : State) (c k q : Nat) (f : Front) : getThread (setFront s c k f) q = getThread s q := rfl
@[simp] theorem getWarp_setThread (s : State) (q c k : Nat) (t : Thread) : getWarp (setThread s q t) c k = getWarp s c k := rfl
@[simp] theorem getFront_setThread (s : State) (q c k : Nat) (t : Thread) : getFront (setThread s q t) c k = getFront s c k := rfl
@[simp] theorem getCore_setThread (s : State) (q c : Nat) (t : Thread) : getCore (setThread s q t) c = getCore s c := rfl
@[simp] theorem getPair_setWarp (s : State) (c k p : Nat) (w : Warp) : getPair (setWarp s c k w) p = getPair s p := rfl

@[simp] theorem getRun_setRun (s : State) (u : UnitId) (r : Option ClauseRun) : getRun (setRun s u r) u = r := by
  cases u <;> simp [getRun, setRun]
@[simp] theorem setRun_setRun (s : State) (u : UnitId) (r q : Option ClauseRun) : setRun (setRun s u r) u q = setRun s u q := by
  cases u <;> simp [setRun]
@[simp] theorem unitFlags_setUnitFlags (s : State) (u : UnitId) (m : SMap Nat) : unitFlags (setUnitFlags s u m) u = m := by
  cases u <;> simp [unitFlags, setUnitFlags]
@[simp] theorem unitFlags_setRun (s : State) (u : UnitId) (r : Option ClauseRun) : unitFlags (setRun s u r) u = unitFlags s u := by
  cases u <;> simp [unitFlags, setRun]
@[simp] theorem getRun_setUnitFlags (s : State) (u : UnitId) (m : SMap Nat) : getRun (setUnitFlags s u m) u = getRun s u := by
  cases u <;> simp [getRun, setUnitFlags]
@[simp] theorem scalarRegs_setRun (s : State) (u : UnitId) (r : Option ClauseRun) : scalarRegs (setRun s u r) u = scalarRegs s u := by
  cases u <;> simp [scalarRegs, setRun]

/-- A raised flag counts one more, where the unit's flag counts are in canonical form (spec/02 R25). -/
theorem flagCount_raiseFlag (s : State) (u : UnitId) (f g : Nat) (h : rising 0 (unitFlags s u) = true) :
    flagCount (raiseFlag s u f) u g = if g = f then flagCount s u f + 1 else flagCount s u g := by
  simp [flagCount, raiseFlag, look_putC 0 f g _ h]

/-- A lowered flag counts one less. -/
theorem flagCount_lowerFlag (s : State) (u : UnitId) (f g : Nat) (h : rising 0 (unitFlags s u) = true) :
    flagCount (lowerFlag s u f) u g = if g = f then flagCount s u f - 1 else flagCount s u g := by
  simp [flagCount, lowerFlag, look_putC 0 f g _ h]

@[simp] theorem readPred_seven (w : Warp) : readPred w 7 = 0xFFFFFFFF#32 := by simp [readPred]
@[simp] theorem writePred_seven (w : Warp) (m b : Mask) : writePred w 7 m b = w := by simp [writePred]

/-- ZERO discards a scalar result; nothing else of the state changes with it (spec/02 R28, R29). -/
theorem writeScalar_discard (s : State) (u : UnitId) (n x : Nat) (v : W128) (h : 64 ≤ x) : writeScalar s u n x v = s := by
  simp [writeScalar, h]

end Sys2Proof.Machine
end

