-- ==== Sys2Proof/Laws/Issue.lean ====
section
/-!
SUPPORT. What issuing a word can do (spec/02 R33, R38-R40; spec/09 R182, R186-R188): no unit, a word with no active lane, a precise trap, a
hold for a full flag, or the word's own effect on its operands.
-/
namespace Sys2Proof.Machine

/-- A meaning over an issued word never refuses; it faults only with no unit or no clause. -/
theorem issue_cases (s : State) (view : UKind → ClauseRun → WView) (body : State → Issued → State) :
    (prep s view = .fault ∧ issue s view body = .fault .noIssuer) ∨
    (∃ t, prep s view = .done t ∧ issue s view body = .next t) ∨
    (∃ t x, prep s view = .go t x ∧ issue s view body = .next (body t x)) := by
  unfold issue
  cases prep s view with
  | fault => exact .inl ⟨rfl, rfl⟩
  | done t => exact .inr (.inl ⟨t, rfl, rfl⟩)
  | go t x => exact .inr (.inr ⟨t, x, rfl, rfl⟩)

theorem prep_warp {s : State} {c k : Nat} {r : ClauseRun} (view : UKind → ClauseRun → WView) (hc : s.cur = some (.warp c k))
    (hr : (getWarp s c k).run = some r) : prep s view = prepWarp s c k r (view .vector r) := by
  simp [prep, hc, getRun, hr]

theorem prep_front {s : State} {c k : Nat} {r : ClauseRun} (view : UKind → ClauseRun → WView) (hc : s.cur = some (.front c k))
    (hr : (getFront s c k).run = some r) : prep s view = prepScalar s (.front c k) r (view .core r) := by
  simp [prep, hc, getRun, hr]

theorem prep_thread {s : State} {q : Nat} {r : ClauseRun} (view : UKind → ClauseRun → WView) (hc : s.cur = some (.thread q))
    (hr : (getThread s q).run = some r) : prep s view = prepScalar s (.thread q) r (view .sp r) := by
  simp [prep, hc, getRun, hr]

/-- A legal scalar word whose flag is not full goes to its meaning. -/
theorem prepScalar_go {s : State} {u : UnitId} {r : ClauseRun} {v : WView} (hl : v.legal = true) (hf : flagFull s u v = false) :
    prepScalar s u r v = .go (setRun s u (some { r with idx := r.idx + 1, cyc := r.cyc + 1 }))
      { u := u, kind := u.kind, word := v.word, pc := r.pc, hdr := r.hdr, widx := r.idx, didx := v.didx, flag := v.flag.getD 0, t := r.cyc,
        act := 1, a := scalarVals (scalarRegs s u) v.a, b := scalarVals (scalarRegs s u) v.b, c := scalarVals (scalarRegs s u) v.c } := by
  simp [prepScalar, hl, hf]

/-- An illegal scalar word takes ILLINS at the word. -/
theorem prepScalar_illegal {s : State} {u : UnitId} {r : ClauseRun} {v : WView} (hl : v.legal = false) :
    prepScalar s u r v = .done (trapUnit s u r.pc r.hdr v.word r.idx v.didx illins) := by
  simp [prepScalar, hl]

/-! ### Writing due results -/

/-- What writing results can change of a warp: its registers and predicates, the log of writes, FPSTAT. -/
theorem writeRegs_frame (w : Warp) (x n : Nat) (m : Mask) (vals : List W128) (q : Nat) :
    ∃ v g, writeRegs w x n m vals q = { w with v := v, wrLog := g } := by
  unfold writeRegs
  split
  · exact ⟨w.v, w.wrLog, rfl⟩
  · exact ⟨_, _, rfl⟩

theorem writePred_frame (w : Warp) (p : Nat) (m b : Mask) : ∃ x, writePred w p m b = { w with p := x } := by
  unfold writePred
  split
  · exact ⟨w.p, rfl⟩
  · exact ⟨_, rfl⟩

theorem applyPend_frame (w : Warp) (p : Pend) :
    ∃ v g x f, applyPend w p = { w with v := v, wrLog := g, p := x, fpstat := f } := by
  unfold applyPend
  cases p.dst with
  | reg r n =>
    obtain ⟨v, g, h⟩ := writeRegs_frame w r n p.lanes p.vals p.seq
    exact ⟨v, g, w.p, w.fpstat ||| p.flags, by simp only [h]⟩
  | pred q =>
    obtain ⟨x, h⟩ := writePred_frame w q p.lanes (maskOf (fun l => nth p.vals l != 0))
    exact ⟨w.v, w.wrLog, x, w.fpstat ||| p.flags, by simp only [h]⟩
  | discard => exact ⟨w.v, w.wrLog, w.p, w.fpstat ||| p.flags, rfl⟩

theorem drainCycle_frame (c : Nat) (ps : List Pend) : ∀ (used : List Nat) (w : Warp),
    ∃ v g x f, (drainCycle c used w ps).1 = { w with v := v, wrLog := g, p := x, fpstat := f } := by
  induction ps with
  | nil => intro used w; exact ⟨w.v, w.wrLog, w.p, w.fpstat, rfl⟩
  | cons p t ih =>
    intro used w
    simp only [drainCycle]
    split
    · obtain ⟨v, g, x, f, h⟩ := applyPend_frame w p
      obtain ⟨v', g', x', f', h'⟩ := ih (p.banks ++ used) (applyPend w p)
      exact ⟨v', g', x', f', by rw [h', h]⟩
    · exact ih _ w

theorem drainFor_frame (n : Nat) : ∀ (c : Nat) (w : Warp) (ps : List Pend),
    ∃ v g x f, (drainFor n c w ps).1 = { w with v := v, wrLog := g, p := x, fpstat := f } := by
  induction n with
  | zero => intro c w ps; exact ⟨w.v, w.wrLog, w.p, w.fpstat, rfl⟩
  | succ n ih =>
    intro c w ps
    simp only [drainFor]
    split
    · exact ⟨w.v, w.wrLog, w.p, w.fpstat, rfl⟩
    · obtain ⟨v, g, x, f, h⟩ := drainCycle_frame c ps [] w
      obtain ⟨v', g', x', f', h'⟩ := ih (c + 1) (drainCycle c [] w ps).1 (drainCycle c [] w ps).2
      exact ⟨v', g', x', f', by rw [h', h]⟩

/-- Writing the results due changes only v registers, predicates, the log of writes and FPSTAT. -/
theorem drainTo_frame (c : Nat) (w : Warp) (r : ClauseRun) :
    ∃ v g x f, (drainTo c w r).1 = { w with v := v, wrLog := g, p := x, fpstat := f } := drainFor_frame _ _ _ _

@[simp] theorem drainTo_budget (c : Nat) (w : Warp) (r : ClauseRun) : (drainTo c w r).1.budget = w.budget := by
  obtain ⟨v, g, x, f, h⟩ := drainTo_frame c w r
  rw [h]

@[simp] theorem drainTo_run (c : Nat) (w : Warp) (r : ClauseRun) : (drainTo c w r).1.run = w.run := by
  obtain ⟨v, g, x, f, h⟩ := drainTo_frame c w r
  rw [h]

@[simp] theorem drainTo_wrSeq (c : Nat) (w : Warp) (r : ClauseRun) : (drainTo c w r).1.wrSeq = w.wrSeq := by
  obtain ⟨v, g, x, f, h⟩ := drainTo_frame c w r
  rw [h]

@[simp] theorem drainTo_flags (c : Nat) (w : Warp) (r : ClauseRun) : (drainTo c w r).1.flags = w.flags := by
  obtain ⟨v, g, x, f, h⟩ := drainTo_frame c w r
  rw [h]

@[simp] theorem drainTo_w (c : Nat) (w : Warp) (r : ClauseRun) : (drainTo c w r).1.w = w.w := by
  obtain ⟨v, g, x, f, h⟩ := drainTo_frame c w r
  rw [h]

@[simp] theorem drainTo_frontier (c : Nat) (w : Warp) (r : ClauseRun) : (drainTo c w r).1.frontier = w.frontier := by
  obtain ⟨v, g, x, f, h⟩ := drainTo_frame c w r
  rw [h]

/-- A warp with nothing outstanding is as it was. -/
theorem drainTo_none (c : Nat) (w : Warp) (r : ClauseRun) (h : r.pend = []) :
    drainTo c w r = (w, { r with written := Nat.max r.written (c + 1) }) := by
  have hd : ∀ n c, drainFor n c w [] = (w, []) := by
    intro n
    induction n with
    | zero => intro c; rfl
    | succ n _ => intro c; simp [drainFor]
  obtain ⟨hdr, pc, words, idx, skip, mask, cyc, written, la, lb, lc, pend, branches, exits, exitSt, target, push, pops, halts, yielded⟩ := r
  simp only at h
  subst h
  simp [drainTo, hd]

/-! ### A ready vector word -/

/-- A legal vector word with active lanes, registers within the budget and room in its flag goes to its meaning. -/
theorem prepWarp_go {s : State} {c k : Nat} {r : ClauseRun} {v : WView} {act : Mask}
    (ha : act = if r.idx < r.skip then 0 else r.mask &&& (if v.pneg then ~~~readPred (drainTo (r.cyc + bankCycles v.reads - 1) (getWarp s c k) r).1 v.pred
      else readPred (drainTo (r.cyc + bankCycles v.reads - 1) (getWarp s c k) r).1 v.pred))
    (h0 : act ≠ 0) (hl : v.legal = true) (hb : v.named.any (fun g => (getWarp s c k).budget ≤ g) = false)
    (hf : flagFull s (.warp c k) v = false) :
    prepWarp s c k r v = .go (setWarp s c k { (drainTo (r.cyc + bankCycles v.reads - 1) (getWarp s c k) r).1 with
        run := some { (drainTo (r.cyc + bankCycles v.reads - 1) (getWarp s c k) r).2 with
          idx := r.idx + 1
          cyc := r.cyc + bankCycles v.reads - 1 + 1
          la := loadLatch v.a (srcVals (drainTo (r.cyc + bankCycles v.reads - 1) (getWarp s c k) r).1 r.la v.a)
          lb := loadLatch v.b (srcVals (drainTo (r.cyc + bankCycles v.reads - 1) (getWarp s c k) r).1 r.lb v.b)
          lc := loadLatch v.c (srcVals (drainTo (r.cyc + bankCycles v.reads - 1) (getWarp s c k) r).1 r.lc v.c) } })
      { u := .warp c k, kind := .vector, word := v.word, pc := r.pc, hdr := r.hdr, widx := r.idx, didx := v.didx, flag := v.flag.getD 0,
        t := r.cyc + bankCycles v.reads - 1, act := act
        a := srcVals (drainTo (r.cyc + bankCycles v.reads - 1) (getWarp s c k) r).1 r.la v.a
        b := srcVals (drainTo (r.cyc + bankCycles v.reads - 1) (getWarp s c k) r).1 r.lb v.b
        c := srcVals (drainTo (r.cyc + bankCycles v.reads - 1) (getWarp s c k) r).1 r.lc v.c } := by
  subst ha
  simp only [prepWarp, if_neg h0, hl, Bool.not_true, Bool.false_eq_true, if_false, drainTo_budget, hb, hf, if_true]

end Sys2Proof.Machine
end

