-- ==== Sys2Proof/Laws/Memory.lean ====
section
/-!
SUPPORT. Memory operations: what they write, what they leave alone, and that they keep the canonical form of both byte memories.
-/
namespace Sys2Proof.Machine

theorem wf_memPut (n : Nat) : ∀ (m : List Host.Cell) (b k v : Nat), Memory.wf m = true → Memory.wf (memPut m b k v n) = true := by
  induction n with
  | zero => intro m b k v h; exact h
  | succ n ih =>
    intro m b k v h
    simp only [memPut]
    apply ih
    split
    · exact wf_putC _ _ h
    · exact h

/-- A masked write of bytes: byte `a` reads as the written one where the mask has a one, else as before. -/
theorem look_memPut (n : Nat) : ∀ (m : List Host.Cell) (b k v a : Nat), Memory.wf m = true →
    look unlistedByte (memPut m b k v n) a =
      if b ≤ a ∧ a < b + n ∧ k / 2 ^ (a - b) % 2 = 1 then BitVec.ofNat 8 (v / 256 ^ (a - b)) else look unlistedByte m a := by
  induction n with
  | zero =>
    intro m b k v a _
    have : ¬ (b ≤ a ∧ a < b + 0 ∧ k / 2 ^ (a - b) % 2 = 1) := by omega
    simp only [memPut, if_neg this]
  | succ n ih =>
    intro m b k v a h
    have hr : rising 0 m = true := by
      simp only [Memory.wf, Bool.and_eq_true] at h
      exact h.1
    simp only [memPut]
    rw [ih _ _ _ _ _ (by split; exacts [wf_putC _ _ h, h])]
    by_cases e : a = b
    · subst e
      have h1 : ¬ (a + 1 ≤ a ∧ a < a + 1 + n ∧ k / 2 / 2 ^ (a - (a + 1)) % 2 = 1) := by omega
      simp only [if_neg h1]
      by_cases hk : k % 2 = 1
      · simp [hk, look_putC unlistedByte a a _ hr]
      · simp [hk]
    · have hl : look unlistedByte (if k % 2 = 1 then putC unlistedByte m b (BitVec.ofNat 8 v) else m) a = look unlistedByte m a := by
        split
        · rw [look_putC unlistedByte b a _ hr, if_neg e]
        · rfl
      rw [hl]
      by_cases hb : b < a
      · have e2 : a - b = a - (b + 1) + 1 := by omega
        have e3 : k / 2 ^ (a - b) = k / 2 / 2 ^ (a - (b + 1)) := by rw [e2, Nat.pow_succ', Nat.div_div_eq_div_mul]
        have e4 : v / 256 ^ (a - b) = v / 256 / 256 ^ (a - (b + 1)) := by rw [e2, Nat.pow_succ', Nat.div_div_eq_div_mul]
        rw [e3, e4]
        by_cases hc : k / 2 / 2 ^ (a - (b + 1)) % 2 = 1 <;> by_cases hd : a < b + 1 + n
        · rw [if_pos ⟨by omega, hd, hc⟩, if_pos ⟨by omega, by omega, hc⟩]
        · rw [if_neg (by omega), if_neg (by omega)]
        · rw [if_neg (by omega), if_neg (by omega)]
        · rw [if_neg (by omega), if_neg (by omega)]
      · rw [if_neg (by omega), if_neg (by omega)]

theorem memoryOk_reset : Sys2Proof.MemoryOk State.reset := ⟨rfl, rfl⟩

/-- A write of memory keeps both canonical forms. -/
theorem memoryOk_memWrite {s : State} (pa k v n : Nat) (h : Sys2Proof.MemoryOk s) : Sys2Proof.MemoryOk (memWrite s pa k v n) := by
  unfold memWrite
  split
  · exact ⟨h.1, wf_memPut n _ _ _ _ h.2⟩
  · exact ⟨wf_memPut n _ _ _ _ h.1, h.2⟩
  · exact ⟨wf_memPut n _ _ _ _ h.1, h.2⟩
  · exact ⟨wf_memPut n _ _ _ _ h.1, h.2⟩
  · exact h

/-- Anything that leaves the two byte memories alone keeps their forms. -/
theorem memoryOk_same {s t : State} (hd : t.mem.dram = s.mem.dram) (hf : t.mem.fabric = s.mem.fabric) (h : Sys2Proof.MemoryOk s) :
    Sys2Proof.MemoryOk t := by
  unfold Sys2Proof.MemoryOk at *
  rw [hd, hf]
  exact h

/-- A write outside device ranges changes only the two byte memories. -/
theorem memWrite_frame (s : State) (pa k v n : Nat) :
    ∃ d f, memWrite s pa k v n = { s with mem := { s.mem with dram := d, fabric := f } } := by
  unfold memWrite
  split
  · exact ⟨s.mem.dram, _, rfl⟩
  · exact ⟨_, s.mem.fabric, rfl⟩
  · exact ⟨_, s.mem.fabric, rfl⟩
  · exact ⟨_, s.mem.fabric, rfl⟩
  · exact ⟨s.mem.dram, s.mem.fabric, rfl⟩

theorem memoryOk_splitSide {s : State} (i la : Nat) (side : W128) (h : Sys2Proof.MemoryOk s) : Sys2Proof.MemoryOk (splitSide s i la side) := by
  unfold splitSide
  split
  · exact memoryOk_memWrite _ _ _ _ h
  · exact h

theorem memoryOk_putMeta {s : State} (la : Nat) (side : W128) (kslot : Nat) (win : Option Nat) (h : Sys2Proof.MemoryOk s) :
    Sys2Proof.MemoryOk (putMeta s la side kslot win) := by
  unfold putMeta
  split
  · exact memoryOk_splitSide _ _ _ h
  · simpa only [Sys2Proof.MemoryOk] using h

theorem memoryOk_setL2 {s : State} (k : Nat) (e : L2Line) (h : Sys2Proof.MemoryOk s) : Sys2Proof.MemoryOk (setL2 s k e) := by
  simpa only [Sys2Proof.MemoryOk, setL2] using h

theorem memoryOk_setRecency {s : State} (k : Nat) (l : List Nat) (h : Sys2Proof.MemoryOk s) : Sys2Proof.MemoryOk (setRecency s k l) := by
  simpa only [Sys2Proof.MemoryOk, setRecency] using h

theorem memoryOk_emit {s : State} (o : Out) (h : Sys2Proof.MemoryOk s) : Sys2Proof.MemoryOk (emit s o) := by
  simpa only [Sys2Proof.MemoryOk, emit] using h

theorem memoryOk_writeBack {s : State} (k : Nat) (h : Sys2Proof.MemoryOk s) : Sys2Proof.MemoryOk (writeBack s k) := by
  unfold writeBack
  dsimp only
  split
  · exact h
  · exact memoryOk_setL2 _ _ (memoryOk_putMeta _ _ _ _ (memoryOk_memWrite _ _ _ _ h))

theorem memoryOk_forget {s : State} (k : Nat) (h : Sys2Proof.MemoryOk s) : Sys2Proof.MemoryOk (forget s k) := memoryOk_setRecency _ _ h

theorem memoryOk_enter {s : State} (k p : Nat) (h : Sys2Proof.MemoryOk s) : Sys2Proof.MemoryOk (enter s k p) := memoryOk_setRecency _ _ h

theorem memoryOk_dropLine {s : State} (k : Nat) (h : Sys2Proof.MemoryOk s) : Sys2Proof.MemoryOk (dropLine s k) := by
  unfold dropLine
  dsimp only
  split
  · exact memoryOk_emit _ (memoryOk_forget _ (memoryOk_setL2 _ _ h))
  · exact memoryOk_forget _ (memoryOk_setL2 _ _ h)

theorem memoryOk_evict {s : State} (k : Nat) (h : Sys2Proof.MemoryOk s) : Sys2Proof.MemoryOk (evict s k) := by
  unfold evict
  split
  · exact memoryOk_dropLine _ (memoryOk_writeBack _ h)
  · exact h

theorem memoryOk_countOvf {s : State} (r : Option Nat) (h : Sys2Proof.MemoryOk s) : Sys2Proof.MemoryOk (countOvf s r) := by
  cases r with
  | none => exact h
  | some i => simpa only [Sys2Proof.MemoryOk, countOvf] using h

theorem memoryOk_dramError {s : State} (la : Nat) (h : Sys2Proof.MemoryOk s) : Sys2Proof.MemoryOk (dramError s la) := by
  unfold dramError countSoft
  split
  · dsimp only
    split <;> simpa only [Sys2Proof.MemoryOk, bumpFree] using h
  · exact h

theorem memoryOk_fillMeta {s : State} (r : LReq) (h : Sys2Proof.MemoryOk s) : Sys2Proof.MemoryOk (fillMeta s r).1 := by
  unfold fillMeta
  split
  · dsimp only
    split
    · dsimp only
      have h2 := memoryOk_dramError ((scaleAt s (by assumption) r.la).1 / 128) h
      split <;> simpa only [Sys2Proof.MemoryOk] using h2
    · exact h
  · exact h

theorem memoryOk_dropPass {s : State} (la : Nat) (h : Sys2Proof.MemoryOk s) : Sys2Proof.MemoryOk (dropPass s la) := by
  unfold dropPass
  split
  · simpa only [Sys2Proof.MemoryOk] using h
  · exact h

theorem memoryOk_allocate {s : State} (r : LReq) (h : Sys2Proof.MemoryOk s) : Sys2Proof.MemoryOk (allocate s r).1 := by
  have h2 := memoryOk_countOvf (chooseWay s r).2 h
  unfold allocate
  split
  · exact h
  · dsimp only
    split
    · exact h2
    · rename_i k range _
      have h3 := memoryOk_fillMeta r (memoryOk_evict k h2)
      dsimp only
      split
      · exact memoryOk_enter _ _ (memoryOk_dropPass _ (memoryOk_setL2 _ _ h3))
      · exact memoryOk_dropPass _ (memoryOk_setL2 _ _ h3)

theorem memoryOk_fillSectors {s : State} (k : Nat) (need : BitVec 4) (h : Sys2Proof.MemoryOk s) : Sys2Proof.MemoryOk (fillSectors s k need) := by
  unfold fillSectors
  dsimp only
  split
  · exact h
  · exact memoryOk_setL2 _ _ (memoryOk_dramError _ h)

theorem memoryOk_hitLine {s : State} (k p : Nat) (h : Sys2Proof.MemoryOk s) : Sys2Proof.MemoryOk (hitLine s k p) := by
  unfold hitLine
  split
  · exact h
  · exact memoryOk_enter _ _ h

theorem memoryOk_reachLine {s : State} (r : LReq) (h : Sys2Proof.MemoryOk s) : Sys2Proof.MemoryOk (reachLine s r).1 := by
  unfold reachLine
  split
  · exact memoryOk_hitLine _ _ h
  · exact memoryOk_allocate _ h

theorem memoryOk_fetchRaw {s : State} (r : LReq) (need : BitVec 4) (h : Sys2Proof.MemoryOk s) : Sys2Proof.MemoryOk (fetchRaw s r need).1 := by
  have h2 := memoryOk_reachLine r h
  unfold fetchRaw
  dsimp only
  split
  · exact memoryOk_fillSectors _ _ h2
  · exact memoryOk_fillMeta _ (memoryOk_dramError _ h2)

theorem memoryOk_storeRaw {s : State} (r : LReq) (k : Nat) (data : Line) (side : W128 → W128) (kslot : Option Nat) (h : Sys2Proof.MemoryOk s) :
    Sys2Proof.MemoryOk (storeRaw s r k data side kslot) := by
  have h2 := memoryOk_reachLine r h
  unfold storeRaw
  dsimp only
  split
  · exact memoryOk_setL2 _ _ (memoryOk_fillSectors _ _ h2)
  · exact memoryOk_putMeta _ _ _ _ (memoryOk_memWrite _ _ _ _ h2)

theorem memoryOk_cohWrite {s : State} (pa n v : Nat) (h : Sys2Proof.MemoryOk s) : Sys2Proof.MemoryOk (cohWrite s pa n v) := by
  unfold cohWrite
  dsimp only
  split
  · split
    · exact memoryOk_setL2 _ _ h
    · exact memoryOk_memWrite _ _ _ _ h
  · exact memoryOk_memWrite _ _ _ _ h

end Sys2Proof.Machine
end

