-- ==== Sys2Proof/Laws/Results.lean ====
section
/-!
SUPPORT. What posting a word's results can do (spec/09 R188, spec/10 R203, R205): without a trapping lane, one result outstanding and nothing else.
-/
namespace Sys2Proof.Machine

/-- No lane of the results traps. -/
def Quiet (res : List LaneRes) : Prop := ∀ q ∈ res, q.cause = none

theorem maskOf_none (p : Nat → Bool) (h : ∀ l < 32, p l = false) : maskOf p = 0 := by
  have : (List.range 32).filter p = [] := by
    rw [List.filter_eq_nil_iff]
    intro a ha
    simp only [List.mem_range] at ha
    simp [h a ha]
  simp [maskOf, this]

theorem and_all (m : Mask) : m &&& ~~~(0 : Mask) = m := by
  rw [show ~~~(0 : Mask) = BitVec.allOnes 32 from rfl]
  exact BitVec.and_allOnes

theorem quiet_get {res : List LaneRes} (h : Quiet res) {l : Nat} {q : LaneRes} (hq : res[l]? = some q) : q.cause = none :=
  h q (List.mem_of_getElem? hq)

theorem trapMask_quiet (act : Mask) {res : List LaneRes} (h : Quiet res) : trapMask act res = 0 := by
  unfold trapMask
  rw [maskOf_none]
  · simp
  · intro l _
    split
    · rename_i q hq
      simp [quiet_get h hq]
    · rfl

theorem trapLanes_quiet (s : State) (x : Issued) (half : Bool) (d : BitVec 9) {res : List LaneRes} (h : Quiet res) :
    trapLanes s x half d res = s := by
  unfold trapLanes
  split
  · rename_i c k _
    generalize lanesIn x.act = ls
    induction ls generalizing s with
    | nil => rfl
    | cons a t ih =>
      rw [List.foldl_cons]
      split
      · rename_i q hq
        simp only [quiet_get h hq]
        exact ih s
      · exact ih s
  · rfl

/-- The flags of results that raise none. -/
theorem laneFlags_zero (act : Mask) {res : List LaneRes} (h : ∀ q ∈ res, q.flags = 0) : laneFlags act res = 0 := by
  unfold laneFlags
  generalize lanesIn act = ls
  induction ls with
  | nil => rfl
  | cons a t ih =>
    rw [List.foldl_cons]
    split
    · rename_i q hq
      have := h q (List.mem_of_getElem? hq)
      split
      · exact ih
      · rw [this]
        exact ih
    · exact ih

/-- Results without a trap: one outstanding result, all active lanes. -/
theorem postLanes_quiet (s : State) (x : Issued) (lat : Nat) (dst : PDst) (half : Bool) (d : BitVec 9) {res : List LaneRes} (h : Quiet res) :
    postLanes s x lat dst half d res = post s x lat dst x.act (res.map (fun r => BitVec.ofNat 128 r.val)) (laneFlags x.act res) := by
  unfold postLanes
  simp only [trapMask_quiet x.act h, trapLanes_quiet _ _ _ _ h]
  congr 1
  exact and_all x.act

/-- A word computed lane by lane in a vector clause that raises nothing: one outstanding result. -/
theorem compute_plain {s : State} {x : Issued} {c k : Nat} (hx : x.u = .warp c k) (lat n : Nat) (dst : BitVec 9) (fn : Nat → Nat → Nat → LaneRes)
    (ext : Nat → Nat) (h : ∀ a b d, (fn a b d).cause = none ∧ (fn a b d).flags = 0) :
    compute s x lat n dst fn ext = post s x lat (vdst dst n) x.act
      ((List.range 32).map (fun l => BitVec.ofNat 128 (fn (nth x.a l).toNat (nth x.b l).toNat (nth x.c l).toNat).val)) 0 := by
  have hq : Quiet ((List.range 32).map (fun l => fn (nth x.a l).toNat (nth x.b l).toNat (nth x.c l).toNat)) := by
    intro q hm
    simp only [List.mem_map] at hm
    obtain ⟨l, _, rfl⟩ := hm
    exact (h _ _ _).1
  have hf : ∀ q ∈ ((List.range 32).map (fun l => fn (nth x.a l).toNat (nth x.b l).toNat (nth x.c l).toNat)), q.flags = 0 := by
    intro q hm
    simp only [List.mem_map] at hm
    obtain ⟨l, _, rfl⟩ := hm
    exact (h _ _ _).2
  unfold compute computeAt
  simp only [hx]
  rw [postLanes_quiet _ _ _ _ _ _ hq, laneFlags_zero _ hf]
  simp only [List.map_map]
  rfl

/-- A word computed in a scalar clause that does not trap writes its extended result. -/
theorem compute_scalar {s : State} {x : Issued} (hx : ∀ c k, x.u ≠ .warp c k) (lat n : Nat) (dst : BitVec 9) (fn : Nat → Nat → Nat → LaneRes)
    (ext : Nat → Nat) (h : (fn (nth x.a 0).toNat (nth x.b 0).toNat (nth x.c 0).toNat).cause = none) :
    compute s x lat n dst fn ext =
      writeScalar s x.u n dst.toNat (BitVec.ofNat 128 (ext (fn (nth x.a 0).toNat (nth x.b 0).toNat (nth x.c 0).toNat).val)) := by
  unfold compute computeAt
  cases hu : x.u with
  | warp c k => exact absurd hu (hx c k)
  | front c k => simp only [h]
  | thread q => simp only [h]

theorem nth_map_range (f : Nat → W128) {l : Nat} (h : l < 32) : nth ((List.range 32).map f) l = f l := by
  simp [nth, h]

end Sys2Proof.Machine
end

