-- ==== Sys2Proof/Laws/Turns.lean ====
section
/-!
SUPPORT. Turns: what a step that had to wait leaves alone, and all that a step can do around its instruction (spec/24 R384, R394, R401).
-/
namespace Sys2Proof.Machine

@[simp] theorem hold_holds (s : State) (h : Hold) : (hold s h).holds = s.holds ++ [h] := rfl
@[simp] theorem hold_mem (s : State) (h : Hold) : (hold s h).mem = s.mem := rfl
@[simp] theorem hold_regs (s : State) (h : Hold) : (hold s h).regs = s.regs := rfl
@[simp] theorem hold_cores (s : State) (h : Hold) : (hold s h).cores = s.cores := rfl
@[simp] theorem hold_threads (s : State) (h : Hold) : (hold s h).threads = s.threads := rfl
@[simp] theorem hold_pairs (s : State) (h : Hold) : (hold s h).pairs = s.pairs := rfl
@[simp] theorem hold_ops (s : State) (h : Hold) : (hold s h).ops = s.ops := rfl
@[simp] theorem hold_copies (s : State) (h : Hold) : (hold s h).copies = s.copies := rfl
@[simp] theorem hold_launch (s : State) (h : Hold) : (hold s h).launch = s.launch := rfl
@[simp] theorem hold_gleaners (s : State) (h : Hold) : (hold s h).gleaners = s.gleaners := rfl
@[simp] theorem hold_host (s : State) (h : Hold) : (hold s h).host = s.host := rfl
@[simp] theorem hold_time (s : State) (h : Hold) : (hold s h).time = s.time := rfl

/-- With the die link up, or within one die, a request does not wait for the link. -/
theorem atLink_pass {s : State} {a b : Nat} (h : s.regs.dlstat.getLsbD 0 = true ∨ a = b) : atLink s a b = s := by
  unfold atLink bit
  rcases h with h | h <;> simp [h]

/-- A request either passes the link or waits for it. -/
theorem atLink_cases (s : State) (a b : Nat) : atLink s a b = s ∨ atLink s a b = hold s .link := by
  unfold atLink
  split
  · exact .inl rfl
  · exact .inr rfl

/-- Taking a place at a slice changes the places alone. -/
theorem takePlace_cases (s : State) (slice sid cost : Nat) : ∃ w, takePlace s slice sid cost = { s with mem := { s.mem with waits := w } } := by
  unfold takePlace
  split
  · exact ⟨s.mem.waits, rfl⟩
  · exact ⟨_, rfl⟩

/-- What asking for grants and places leaves alone: everything but what has been asked, the places at slices and what the module has sent out. -/
theorem askHeld_frame (l : List Hold) : ∀ s : State, (askHeld s l).cores = s.cores ∧ (askHeld s l).threads = s.threads ∧ (askHeld s l).regs = s.regs ∧
    (askHeld s l).launch = s.launch ∧ (askHeld s l).ops = s.ops ∧ (askHeld s l).pairs = s.pairs ∧ (askHeld s l).copies = s.copies ∧
    (askHeld s l).gleaners = s.gleaners ∧ (askHeld s l).mem.dram = s.mem.dram ∧ (askHeld s l).mem.fabric = s.mem.fabric ∧ (askHeld s l).mem.l2 = s.mem.l2 ∧
    (askHeld s l).time = s.time := by
  induction l with
  | nil => intro s; exact ⟨rfl, rfl, rfl, rfl, rfl, rfl, rfl, rfl, rfl, rfl, rfl, rfl⟩
  | cons h l ih =>
    intro s
    cases h with
    | grant la x d q p => exact ih _
    | link => exact ih s
    | tokens a b c =>
      have h := ih (takePlace s a b c)
      obtain ⟨w, hw⟩ := takePlace_cases s a b c
      simp only [askHeld, hw] at h ⊢
      exact h
    | faults => exact ih s
    | snoop => exact ih s

/-- Noting the thread that issued changes that note alone. -/
theorem noteThread_cases (s t : State) : noteThread s t = t ∨ ∃ q, noteThread s t = { t with launch := { t.launch with lastThread := q } } := by
  unfold noteThread
  split
  · split
    · split
      · exact .inr ⟨_, rfl⟩
      · exact .inl rfl
    · exact .inl rfl
  · exact .inl rfl

/-- A thread that is passed over changes the note of the last thread alone. -/
theorem passThread_cases (s : State) : passThread s = s ∨ ∃ q, passThread s = { s with launch := { s.launch with lastThread := q } } := by
  unfold passThread
  split
  · exact .inr ⟨_, rfl⟩
  · exact .inl rfl

/-- A step that is made leaves its places at slices and gives back the grants that stood for it alone: nothing else changes but what the module has sent out. -/
theorem leaveStep_frame (s : State) : ∃ w p h, leaveStep s = { s with mem := { s.mem with waits := w, passes := p }, host := h } := by
  unfold leaveStep
  generalize s.mem.passes.filter (fun p => p.used) = l
  dsimp only
  have key : ∀ (l : List Pass) (w : List SliceWait) (p : List Pass) (h : HostIf), ∃ h', l.foldl (fun t p => emit t (.released p.line))
      { s with mem := { s.mem with waits := w, passes := p }, host := h } = { s with mem := { s.mem with waits := w, passes := p }, host := h' } := by
    intro l
    induction l with
    | nil => intro w p h; exact ⟨h, rfl⟩
    | cons a l ih => intro w p h; exact ih w p _
  obtain ⟨h', hh⟩ := key l (s.mem.waits.filter (fun w => !selfWait s w)) (s.mem.passes.filter (fun p => !p.used)) s.host
  exact ⟨_, _, h', hh⟩

/-- A step that answers a next state has run its instruction to a next state, which stands unless a request of it has to wait. -/
theorem afterStep_next {s t : State} {r : Host.Outcome State Fault Refusal} (h : afterStep s r = .next t) :
    ∃ u, r = .next u ∧ ((u.holds = [] ∧ t = noteThread s (leaveStep u)) ∨ (u.holds ≠ [] ∧ t = passThread (askHeld s u.holds))) := by
  unfold afterStep at h
  split at h
  · rename_i u
    refine ⟨u, rfl, ?_⟩
    split at h
    · rename_i hu
      exact .inl ⟨hu, by cases h; rfl⟩
    · rename_i hu
      exact .inr ⟨hu, by cases h; rfl⟩
  · rename_i hr
    exact absurd h (hr t)

end Sys2Proof.Machine
end

