-- ==== Sys2Proof/Tests/Slice0.lean ====
section
/-!
SUPPORT. The model's own tests: ill-formed words that WellFormed refuses, words read from the spec's encodings, and, for every statement with hypotheses, a
state and operands that meet them together. Expected values come from the spec's tables and rules.
-/
namespace Sys2Proof.Tests

open Sys2Proof.Machine Sys2Proof.Claims

set_option Elab.async false

/-! ### A small machine -/

/-- A clause header of one word that sets flag 0 (spec/02 R22), of a vector clause or a scalar one. -/
def vHdr : W64 := 0x0000000000410000#64
def sHdr : W64 := 0x0000000004410000#64

/-- The clause at address 0x1000, its first word not issued. -/
def theRun (hdr : W64) : ClauseRun :=
  { hdr := hdr, pc := 0x1000, words := [0], idx := 0, skip := 0, mask := 0xFFFFFFFF, cyc := 0, written := 0, la := none, lb := none, lc := none, pend := [],
    branches := [], exits := 0, exitSt := [], target := none, push := none, pops := false, halts := false, yielded := false }

/-- A whole warp in its clause; `vMach` is a machine that executes a word of it. -/
def vWarp : Warp := { Warp.reset with live := true, handle := 1, budget := 320, run := some (theRun vHdr) }
def vCore : Core := { Core.reset with warps := [(0, vWarp)] }
def vMach : State := { State.reset with cur := some (.warp 0 0), cores := [(0, vCore)] }

/-- A front-end context and a service thread in a scalar clause. -/
def fUnit : Front := { Front.reset with live := true, handle := 1, run := some (theRun sHdr) }
def fMach : State := { State.reset with cur := some (.front 0 0), cores := [(0, { Core.reset with fronts := [(0, fUnit)] })] }
def tUnit : Thread := { Thread.reset with halt := false, runBit := true, run := some (theRun sHdr) }
def tMach : State := { State.reset with cur := some (.thread 2), threads := [(2, tUnit)] }

/-! ### Readiness, decided -/

def readyB (s : State) (c k : Nat) (w : Warp) (r : ClauseRun) (v : WView) : Bool :=
  decide (s.cur = some (.warp c k)) && decide (getWarp s c k = w) && decide (w.run = some r) && v.legal && decide (active w r v ≠ 0) &&
  v.named.all (fun g => g < w.budget) && (match v.flag with
    | some f => decide (flagCount s (.warp c k) f < 63)
    | none => true)

theorem readyB_ready {s : State} {c k : Nat} {w : Warp} {r : ClauseRun} {v : WView} (h : readyB s c k w r v = true) : Ready s c k w r v := by
  simp only [readyB, Bool.and_eq_true, decide_eq_true_eq, List.all_eq_true] at h
  obtain ⟨⟨⟨⟨⟨⟨h1, h2⟩, h3⟩, h4⟩, h5⟩, h6⟩, h7⟩ := h
  refine ⟨h1, h2, h3, h4, h5, h6, fun f hf => ?_⟩
  rw [hf] at h7
  exact of_decide_eq_true h7

def scalarB (s : State) (u : UnitId) (r : ClauseRun) (v : WView) : Bool :=
  decide (s.cur = some u) && decide (u.kind ≠ .vector) && decide (getRun s u = some r) && v.legal && (match v.flag with
    | some f => decide (flagCount s u f < 63)
    | none => true)

theorem scalarB_ready {s : State} {u : UnitId} {r : ClauseRun} {v : WView} (h : scalarB s u r v = true) : ScalarReady s u r v := by
  simp only [scalarB, Bool.and_eq_true, decide_eq_true_eq] at h
  obtain ⟨⟨⟨⟨h1, h2⟩, h3⟩, h4⟩, h5⟩ := h
  refine ⟨h1, fun c k e => ?_, h3, h4, fun f hf => ?_⟩
  · subst e; exact h2 rfl
  · rw [hf] at h5; exact of_decide_eq_true h5

/-! ### Words for every opcode -/

/-- A legal field for a use of a source or destination slot. -/
def fitSrc (sc : Bool) : Pos → BitVec 9
  | .unused => 0
  | .val _ => 8
  | .noLane _ => 8
  | .uni _ => if sc then 8 else 324
  | .wreg _ => if sc then 8 else 324
  | .frag _ => 64
  | .pred => 3
  | .tile => 2
  | .quad => 12
  | .run4 => 20
  | .other => 2

/-- The type of an opcode's word, where every form takes it: n64 for an opcode that works on no type. -/
def fitType (op : Nat) : BitVec 4 :=
  if op = 0 then 0
  else if op < 0x20 then 7
  else if op = 0x2B then 6
  else if op = 0x2E || op = 0x2F || (0x30 ≤ op && op < 0x35) || op = 0x37 || op = 0x50 || op = 0x51 || op = 0x55 || op = 0x52 then 6
  else if op < 0x40 then 2
  else if op = 0x4B then 12
  else if op = 0x5C || op = 0x5D then 13
  else if op < 0x53 then 10
  else if op = 0x54 || op = 0x60 then 2
  else if 0x70 ≤ op && op < 0x74 && op ≠ 0x72 then 9
  else 7

/-- Its modifier bits: a conversion from f32, a block of 4 lanes, two ready partners. -/
def fitMod (op : Nat) : BitVec 8 := if op = 0x4A then 0x50 else if op = 0x4B then 0x10 else if op = 0x71 then 0x40 else 0

/-- A word of opcode `op` with a legal field in every slot. -/
def fitWord (op : Nat) (sc : Bool) (ty : BitVec 4) (md : BitVec 8) : Full :=
  let sp := wspec op sc (fullWord 0 0 0 0 ty md)
  fullWord (fitSrc sc sp.d) (fitSrc sc sp.a) (fitSrc sc sp.b) (fitSrc sc sp.c) ty md

def vWord (op : Nat) : Full := fitWord op false (fitType op) (fitMod op)
def sWord (op : Nat) : Full := fitWord op true (fitType op) (fitMod op)

/-- The warp of a machine in its clause is ready for a word. -/
def vReady (s : State) (op : Nat) (f : Full) : Bool := readyB s 0 0 (getWarp s 0 0) (theRun vHdr) (viewFull op f .vector (theRun vHdr))

theorem vReady_ready {s : State} {op : Nat} {f : Full} (h : vReady s op f = true) :
    Ready s 0 0 (getWarp s 0 0) (theRun vHdr) (viewFull op f .vector (theRun vHdr)) := readyB_ready h

/-- The scalar unit that executes is ready for a word. -/
def sReady (s : State) (u : UnitId) (op : Nat) (f : Full) : Bool := scalarB s u (theRun sHdr) (viewFull op f u.kind (theRun sHdr))

theorem sReady_ready {s : State} {u : UnitId} {op : Nat} {f : Full} (h : sReady s u op f = true) :
    ScalarReady s u (theRun sHdr) (viewFull op f u.kind (theRun sHdr)) := scalarB_ready h

/-- The machine of `vMach`, its warp changed; the scalar machines, their unit changed. -/
def vWith (g : Warp → Warp) : State := setWarp vMach 0 0 (g vWarp)
def fWith (g : Front → Front) : State := setFront fMach 0 0 (g fUnit)
def tWith (g : Thread → Thread) : State := setThread tMach 2 (g tUnit)

/-- Operand values of a machine's next word. -/
def vA (s : State) (op : Nat) (f : Full) (l : Nat) : Nat := opA (getWarp s 0 0) (theRun vHdr) (viewFull op f .vector (theRun vHdr)) l
def vB (s : State) (op : Nat) (f : Full) (l : Nat) : Nat := opB (getWarp s 0 0) (theRun vHdr) (viewFull op f .vector (theRun vHdr)) l
def vAct (s : State) (op : Nat) (f : Full) : Mask := active (getWarp s 0 0) (theRun vHdr) (viewFull op f .vector (theRun vHdr))

/-- A context whose enables trap every floating and integer exception. -/
def trapCtx : Ctx := { id := 0, desc := [0, 0, 0xF00000], htab := [] }
def withCtx (s : State) (x : Ctx) : State := { s with launch := { s.launch with ctxs := [x] } }

/-! ### Witnesses: the words of a warp and of a scalar unit -/

theorem witness_IntegerArithmetic : ∀ op ∈ [0x20, 0x21, 0x22, 0x23, 0x24, 0x25, 0x26, 0x27, 0x28],
    isIntT (vWord op).ty.toNat = true ∧ vReady vMach op (vWord op) = true := by decide +kernel

theorem witness_IntegerDivision : ∀ op ∈ [0x29, 0x2A], isIntT (vWord op).ty.toNat = true ∧ vReady vMach op (vWord op) = true ∧
    (∀ l < 32, (vAct vMach op (vWord op)).getLsbD l = true → vB vMach op (vWord op) l = 0 → (fptrap vMach vWarp.ctx).getLsbD 3 = false) ∧
    vB vMach op (vWord op) 31 = 0 := by decide +kernel

theorem witness_AddressAndBitWords : ∀ op ∈ [0x2B, 0x2C, 0x2E, 0x2F, 0x30, 0x31, 0x32, 0x33, 0x34, 0x35, 0x36, 0x37],
    vReady vMach op (vWord op) = true := by decide +kernel

/-- A legal I-form word. -/
def immWord (op : Nat) : Imm := { pneg := false, pred := 7, dst := 8, sa := if op = 0x3F then 0 else 9, imm := 32, mi := 0 }
def vImmReady (op : Nat) : Bool := readyB vMach 0 0 vWarp (theRun vHdr) (viewImm op (immWord op) .vector (theRun vHdr))

theorem witness_ImmediateWords : ∀ op ∈ [0x38, 0x39, 0x3A, 0x3B, 0x3C, 0x3D, 0x3E, 0x3F, 0x4D, 0x4E], vImmReady op = true := by decide +kernel

theorem witness_MoveWords : (∀ op ∈ [0x50, 0x51], vReady vMach op (vWord op) = true ∧ sReady fMach (.front 0 0) op (sWord op) = true ∧
    sReady tMach (.thread 2) op (sWord op) = true) ∧ legalImm 0x3F .vector (immWord 0x3F) = true := by decide +kernel

theorem witness_ScalarWords :
    (∀ op ∈ [0x20, 0x21, 0x22, 0x23, 0x24, 0x25, 0x26, 0x27, 0x28, 0x29, 0x2A, 0x2B, 0x2C, 0x2D, 0x2E, 0x2F, 0x30, 0x31, 0x32, 0x33, 0x34, 0x35, 0x36, 0x37],
      sReady fMach (.front 0 0) op (sWord op) = true ∧ sReady tMach (.thread 2) op (sWord op) = true) ∧
    (∀ op ∈ [0x38, 0x39, 0x3A, 0x3B, 0x3C, 0x3D, 0x3E, 0x3F],
      scalarB fMach (.front 0 0) (theRun sHdr) (viewImm op (immWord op) .core (theRun sHdr)) = true) ∧
    value 2 (sopB fMach (.front 0 0) (viewFull 0x29 (sWord 0x29) .core (theRun sHdr))) = 0 ∧ (trapEnables fMach (.front 0 0)).getLsbD 3 = false := by
  decide +kernel

theorem witness_IntegerCompare : isIntT (vWord 0x2D).ty.toNat = true ∧ vReady vMach 0x2D (vWord 0x2D) = true := by decide +kernel

/-- No enables, no trap: the condition of the floating statements holds of any value. -/
theorem no_trap (x : Nat) : fpCause (fptrap vMach vWarp.ctx) x = none := by
  have h : fptrap vMach vWarp.ctx = 0 := by decide
  simp [h, fpCause, bit]

theorem witness_FloatingWords : ∀ op ∈ [0x20, 0x21, 0x22, 0x40, 0x29, 0x25, 0x26, 0x27, 0x28, 0x2D], ∀ t ∈ [8, 9, 10, 11],
    isFltT (BitVec.ofNat 4 t).toNat = true ∧ vReady vMach op (fitWord op false (BitVec.ofNat 4 t) 0) = true := by decide +kernel

theorem witness_TranscendentalAndConversionWords :
    (∀ op ∈ [0x41, 0x42, 0x43, 0x44, 0x45, 0x46, 0x47, 0x48], isFltT (vWord op).ty.toNat = true ∧ vReady vMach op (vWord op) = true) ∧
    (∀ op ∈ [0x49, 0x4A, 0x4C], vReady vMach op (vWord op) = true) := by decide +kernel

theorem witness_WarpWideWords : (∀ op ∈ [0x52, 0x53, 0x54, 0x4B, 0x55], vReady vMach op (vWord op) = true) ∧
    (∀ e ∈ vWarp.frontier, e.mask = 0) ∧ modB (vWord 0x54) 4 = false ∧ (∀ ty ∈ [2, 6, 10], ∀ md ∈ [0, 8],
      vReady vMach 0x54 (fitWord 0x54 false ty md) = true ∧ modB (fitWord 0x54 false ty md) 4 = decide (md = 8)) := by decide +kernel

/-- A warp that has diverged: lanes 0 to 15 run the clause, lane 16 waits in another entry. -/
def diverged : State := vWith (fun w => { w with frontier := [{ key := 0, pc := 0x2000, word := 0, mask := 0x10000 }] })

theorem witness_DivergedWarpTraps : (∀ op ∈ [0x52, 0x53, 0x54, 0x4B, 0x70, 0x71, 0x73, 0x74, 0x75], vReady diverged op (vWord op) = true) ∧
    (theRun vHdr).idx < 15 ∧ (getWarp diverged 0 0).sheaf = none ∧ ¬ ∀ e ∈ (getWarp diverged 0 0).frontier, e.mask = 0 := by decide +kernel

theorem witness_InactiveWord :
    active vWarp (theRun vHdr) (viewFull 0x20 { vWord 0x20 with pred := 1 } .vector (theRun vHdr)) = 0 ∧
    active vWarp (theRun vHdr) (viewFull 0x20 { vWord 0x20 with ty := 4, pneg := true } .vector (theRun vHdr)) = 0 ∧
    (∀ f, viewOf (.add f) .vector (theRun vHdr) = some (viewFull 0x20 f .vector (theRun vHdr))) ∧
    vMach.cur = some (.warp 0 0) ∧ getWarp vMach 0 0 = vWarp ∧ vWarp.run = some (theRun vHdr) :=
  ⟨by decide +kernel, by decide +kernel, fun _ => rfl, rfl, by decide +kernel, rfl⟩

theorem witness_IllegalWordTraps :
    (viewFull 0x20 { vWord 0x20 with ty := 4 } .vector (theRun vHdr)).legal = false ∧
    active vWarp (theRun vHdr) (viewFull 0x20 { vWord 0x20 with ty := 4 } .vector (theRun vHdr)) ≠ 0 ∧
    (viewReserved 0x1F00000000000000#64 .core (theRun sHdr)).legal = false ∧ fMach.cur = some (.front 0 0) ∧ UnitId.kind (.front 0 0) ≠ .vector ∧
    getRun fMach (.front 0 0) = some (theRun sHdr) ∧ getRun tMach (.thread 2) = some (theRun sHdr) := by decide +kernel

/-- The least budget, 8, of a warp whose word names v8. -/
theorem witness_BudgetTraps :
    let w := getWarp (vWith (fun w => { w with budget := 8 })) 0 0
    let v := viewFull 0x20 (vWord 0x20) .vector (theRun vHdr)
    w.run = some (theRun vHdr) ∧ w.sheaf = none ∧ active w (theRun vHdr) v ≠ 0 ∧ v.legal = true ∧ ∃ g ∈ v.named, w.budget ≤ g := by decide +kernel

theorem witness_FullFlagHolds :
    let s := vWith (fun w => { w with flags := [(0, 63)] })
    let v := viewFull 0x58 (vWord 0x58) .vector (theRun vHdr)
    let u := fWith (fun f => { f with flags := [(0, 63)] })
    active (getWarp s 0 0) (theRun vHdr) v ≠ 0 ∧ v.legal = true ∧ (∀ g ∈ v.named, g < (getWarp s 0 0).budget) ∧ v.flag = some 0 ∧
    63 ≤ flagCount s (.warp 0 0) 0 ∧ (viewFull 0x58 (sWord 0x58) .core (theRun sHdr)).legal = true ∧
    (viewFull 0x58 (sWord 0x58) .core (theRun sHdr)).flag = some 0 ∧ 63 ≤ flagCount u (.front 0 0) 0 := by decide +kernel

/-- A result due at cycle `t` for v`x`. -/
def aPend (t seq x : Nat) : Pend := { due := t, seq := seq, dst := .reg x 1, lanes := 1, vals := [7], flags := 0 }

theorem witness_ResultsWrittenWhenDue :
    let r := { theRun vHdr with pend := [aPend 3 1 0] }
    let q := { theRun vHdr with pend := insertPend (aPend 3 2 6) [aPend 3 1 0] }
    (r.written ≤ (aPend 3 1 0).due ∧ r.written ≤ 2 + 1) ∧ ((aPend 3 1 0).seq < (aPend 3 2 6).seq ∧ q.written ≤ 3 ∧ (aPend 3 2 6).due = 3 ∧ ∃ b ∈ (aPend 3 1 0).banks, b ∈ (aPend 3 2 6).banks) := by
  decide +kernel

theorem witness_ResultRegisters : rising 0 vWarp.v = true ∧ (aPend 3 1 0).dst = .reg 0 1 ∧ rising 0 vWarp.p = true ∧
    rising 0 (scalarRegs fMach (.front 0 0)) = true ∧ UnitId.kind (.front 0 0) ≠ .vector := by decide +kernel

theorem witness_LanesTrap :
    let s := withCtx vMach trapCtx
    let t := tWith (fun x => x)
    (∀ op ∈ [0x29, 0x2A], isIntT (vWord op).ty.toNat = true ∧ vReady s op (vWord op) = true ∧ (fptrap s vWarp.ctx).getLsbD 3 = true ∧
      (vAct s op (vWord op)).getLsbD 31 = true ∧ value 2 (vB s op (vWord op) 31) = 0) ∧
    (∀ op ∈ [0x29, 0x2A], sReady (withCtx fMach trapCtx) (.front 0 0) op (sWord op) = true ∧
      value 2 (sopB (withCtx fMach trapCtx) (.front 0 0) (viewFull op (sWord op) .core (theRun sHdr))) = 0) ∧
    (trapEnables (withCtx fMach trapCtx) (.front 0 0)).getLsbD 3 = true ∧ getRun t (.thread 2) = some (theRun sHdr) := by decide +kernel

/-- A paired word whose half 1 moves v2 to v3. -/
def pairWord (pop : Nat) : Pair :=
  let h1 : Half := { pop := 12, d := 3, src := 2, pty := 3, mbz := 0, h := false }
  if pop = 0 then { pred := 7, d := 0, src := 0, pty := 0, mbz := 0, h := false, h1 := h1 }
  else { pred := 7, d := 6, src := 1, pty := if pop < 7 then 2 else if pop < 10 || pop = 12 then 3 else 1, mbz := 0, h := false, h1 := h1 }

theorem witness_PairedWords : ∀ pop < 13, readyB vMach 0 0 vWarp (theRun vHdr) (viewPair pop (pairWord pop) .vector (theRun vHdr)) = true ∧
    pop ≠ 13 := by decide +kernel

/-- Lane 0's v6 is a signalling NaN; every trap is enabled. -/
def nanMach : State := withCtx (vWith (fun w => { w with v := [(6, 0x7F800001)] })) trapCtx

/-- Half 0 traps lane 0 and no other; half 1 traps none. -/
theorem witness_PairTraps :
    let v := viewPair 1 (pairWord 1) .vector (theRun vHdr)
    let w := getWarp nanMach 0 0
    let x := fun l => (halfResult 1 2 (lane (look 0 (due w (theRun vHdr) v).1.v 6) l).toNat (opB w (theRun vHdr) v l)).flags
    readyB nanMach 0 0 w (theRun vHdr) v = true ∧ w.sheaf = none ∧ (∀ l < 32, (1#32).getLsbD l = true ↔
      (active w (theRun vHdr) v).getLsbD l = true ∧ fpCause (fptrap nanMach w.ctx) (x l) ≠ none) ∧
    (∀ l < 32, fpCause (fptrap nanMach w.ctx) (halfResult 12 3 0 (opC w (theRun vHdr) v l)).flags = none) := by decide +kernel

theorem witness_NopWord : vReady vMach 0 (vWord 0) = true ∧ sReady fMach (.front 0 0) 0 (sWord 0) = true ∧ sReady tMach (.thread 2) 0 (sWord 0) = true := by
  decide +kernel

/-! ### Witnesses: control -/

/-- Scalar machines whose s8 holds `x`. -/
def fHas (x : W64) : State := fWith (fun f => { f with s := [(8, x)] })
def tHas (x : W64) : State := tWith (fun t => { t with s := [(8, x)] })

theorem witness_ScalarTransfers :
    (∀ op ∈ [1, 2, 3, 4], sReady fMach (.front 0 0) op (sWord op) = true ∧ sReady tMach (.thread 2) op (sWord op) = true) ∧
    (∀ op ∈ [1, 2, 3], sReady (fHas 4) (.front 0 0) op (sWord op) = true ∧
      (targetOf 0x1000 (sopA (fHas 4) (.front 0 0) (viewFull op (sWord op) .core (theRun sHdr)))).toNat % 8 ≠ 0) ∧
    (targetOf 0x1000 (sopA fMach (.front 0 0) (viewFull 1 (sWord 1) .core (theRun sHdr)))).toNat % 8 = 0 ∧
    decide (sopB fMach (.front 0 0) (viewFull 2 (sWord 2) .core (theRun sHdr)) = 0) ≠ modB (sWord 2) 1 ∧
    (unitStack (fWith (fun f => { f with stack := List.replicate 15 0 })) (.front 0 0)).length < 16 ∧
    ¬ (unitStack (fWith (fun f => { f with stack := List.replicate 16 0 })) (.front 0 0)).length < 16 ∧
    unitStack (fWith (fun f => { f with stack := [8] })) (.front 0 0) ≠ [] ∧ (getFront fMach 0 0).stack = [] ∧ (getThread tMach 2).stack = [] := by
  decide +kernel

/-- A machine whose v8 holds `x` in every lane, one bit pattern a register. -/
def vHas (x : Nat) : State := vWith (fun w => { w with v := [(8, BitVec.ofNat 1024 (x * ((2 ^ 1024 - 1) / (2 ^ 32 - 1))))] })

theorem witness_VectorTransfers :
    (∀ op ∈ [6, 7, 8], vReady vMach op (vWord op) = true) ∧
    (∀ l < 32, (vAct vMach 6 (vWord 6)).getLsbD l = true → (targetOf 0x1000 (vA vMach 6 (vWord 6) l)).toNat % 8 = 0) ∧
    vReady (vHas 4) 6 (vWord 6) = true ∧ (vAct (vHas 4) 6 (vWord 6)).getLsbD 31 = true ∧ (targetOf 0x1000 (vA (vHas 4) 6 (vWord 6) 31)).toNat % 8 ≠ 0 := by
  decide +kernel

theorem witness_TrapWord : vReady vMach 9 (vWord 9) = true ∧ vWarp.sheaf = none ∧ sReady fMach (.front 0 0) 9 (sWord 9) = true ∧
    sReady tMach (.thread 2) 9 (sWord 9) = true := by decide +kernel

/-- A front-end context beside one live warp of its team, its queue holding `n` entries, s8 the control word. -/
def dqMach (n : Nat) (ctl : W64) : State :=
  let e : DqEntry := { mask := 1, target := none, vbase := 0, vals := [] }
  let f := { fUnit with dq := List.replicate n e, s := [(8, ctl)] }
  { fMach with cores := [(0, { Core.reset with fronts := [(0, f)], warps := [(3, { Warp.reset with live := true, handle := 1, num := 0 })] })] }

theorem witness_DecisionPush :
    let w := sWord 5
    (∀ x ∈ [(0, 0), (0, 1), (31, 1), (32, 1)], sReady (dqMach x.1 x.2) (.front 0 0) 5 w = true) ∧
    sopC (dqMach 31 1) (.front 0 0) (viewFull 5 w .core (theRun sHdr)) = 1 ∧
    (∃ p ∈ (getCore (dqMach 31 1) 0).warps, p.2.live = true ∧ p.2.handle = (getFront (dqMach 31 1) 0 0).handle ∧ p.2.sheaf = none ∧
      p.2.num / teamCores (dqMach 31 1) p.2.handle = 0) ∧
    (getFront (dqMach 31 1) 0 0).dq.length < 32 ∧ 32 ≤ (getFront (dqMach 32 1) 0 0).dq.length ∧
    sReady (dqMach 0 (1#64 <<< 56)) (.front 0 0) 5 w = true ∧
    sopC (dqMach 0 (1#64 <<< 56)) (.front 0 0) (viewFull 5 w .core (theRun sHdr)) / 2 ^ 56 ≠ 0 := by decide +kernel

/-- A word of SREAD or SWRITE that names register `n`. -/
def sysWord (op n : Nat) (sc : Bool) : Full :=
  let f := fitWord op sc 7 (BitVec.ofNat 8 (n / 512))
  { f with sb := BitVec.ofNat 9 n }

theorem witness_SystemReads :
    vReady vMach 0x0C (sysWord 0x0C 0x002 false) = true ∧ sysReadOk (sysNum (sysWord 0x0C 0x002 false)) .vector = true ∧
    vReady vMach 0x0C (sysWord 0x0C 0x018 false) = true ∧ sysReadOk (sysNum (sysWord 0x0C 0x018 false)) .vector = false ∧
    sReady tMach (.thread 2) 0x0C (sysWord 0x0C 0x20F true) = true ∧ sysReadOk (sysNum (sysWord 0x0C 0x20F true)) .sp = true ∧
    sReady fMach (.front 0 0) 0x0C (sysWord 0x0C 0x018 true) = true ∧ sysReadOk (sysNum (sysWord 0x0C 0x018 true)) .core = false := by decide +kernel

/-- A front-end context of the other die, the die link down. -/
def farMach : State := { State.reset with cur := some (.front 160 0), cores := [(160, { Core.reset with fronts := [(0, fUnit)] })] }

theorem witness_NearRegisters : Near vMach (.warp 0 0) 0x002 ∧ Near tMach (.thread 2) 0x20F ∧ ¬ Near farMach (.front 160 0) 0x022 ∧
    sReady farMach (.front 160 0) 0x0C (sysWord 0x0C 0x022 true) = true ∧ sysReadOk (sysNum (sysWord 0x0C 0x022 true)) .core = true := by
  unfold Near; decide +kernel

theorem witness_SystemWrites :
    vReady vMach 0x0D (sysWord 0x0D 0x011 false) = true ∧ sysNum (sysWord 0x0D 0x011 false) = 0x011 ∧
    (vAct vMach 0x0D (sysWord 0x0D 0x011 false)).getLsbD 0 = true ∧
    vReady vMach 0x0D (sysWord 0x0D 0x013 false) = true ∧ sysNum (sysWord 0x0D 0x013 false) ≠ 0x011 ∧
    sReady fMach (.front 0 0) 0x0D (sysWord 0x0D 0x022 true) = true ∧ sysWriteOk 0x022 .core = false ∧
    (∀ n ∈ [0x022, 0x023, 0x024, 0x027, 0x028, 0x02E, 0x080, 0x09F, 0x100, 0x13F, 0x00C, 0x018, 0x01E, 0x020, 0x021, 0x040, 0x06F, 0x0C0, 0x0FF, 0x1C0, 0x20F],
      sReady tMach (.thread 2) 0x0D (sysWord 0x0D n true) = true ∧ sysNum (sysWord 0x0D n true) = n) ∧
    (let s := { tMach with regs := { Regs.reset with dlstat := 1 } }
     s.regs.dlstat.getLsbD 0 = true ∧ ∀ n ∈ [0x024, 0x040, 0x06F, 0x080, 0x09F, 0x0A0, 0x0BF, 0x0C0, 0x0FF], sReady s (.thread 2) 0x0D (sysWord 0x0D n true) = true) ∧
    tMach.regs.dlstat.getLsbD 0 = false := by decide +kernel

/-! ### Witnesses: long-latency words -/

/-- The line of `pa` in its home slice, all its sectors valid, holding `v` from `pa` on. -/
def cached (s : State) (pa v : Nat) : State :=
  let die := homeDie s pa 0
  setL2 s ((waysOf die (pa / 128)).headD 0) { L2Line.reset with
    used := true, line := pa / 128, data := BitVec.ofNat 1024 (v * 2 ^ (8 * (pa % 128))), valid := 15, home := die }

/-- Page tables for context 0: the root at 0x10000, one 4 GiB page of DRAM at address 0, writable and counted, mapped to itself; slices hold them. -/
def paged (s : State) : State :=
  cached (cached (withCtx s { id := 0, desc := [0x10000, 0, 0], htab := [] }) 0x10000 0x12001) 0x12000 0x8000000000000007
def treed (s : State) : State := { s with regs := { s.regs with treebase := 0x100000001 } }

/-- The conditions of `Reaches`, decided, of an address that no TLB of the unit holds. -/
def reachesB (i : Instr) (s : State) (u : UnitId) (va : W64) : Bool :=
  decide (va.toNat < 2 ^ 52) && decide (va.toNat % accessBytes i = 0) && (tlbsFor s (unitX s u)).isEmpty

theorem reachesB_reaches {i : Instr} {s : State} {u : UnitId} {va : W64} (h : reachesB i s u va = true) : Reaches i s u va := by
  simp only [reachesB, Bool.and_eq_true, decide_eq_true_eq, List.isEmpty_iff] at h
  obtain ⟨⟨h1, h2⟩, h3⟩ := h
  exact ⟨h1, h2, fun e he => by rw [h3] at he; cases he⟩

/-- Those of `ScalarReaches`. -/
def scalarReachesB (i : Instr) (b : State) (u : UnitId) (va : W64) : Bool :=
  decide (va.toNat < 2 ^ 52) && decide (va.toNat % accessBytes i = 0) &&
  match translate b (unitX b u) va (accessWrites i) with
  | (t, .ok pa leaf) => decide (t.holds = []) && (scalarPrecheck t (unitX b u) i pa leaf).isNone &&
    (enrolLeaf t (unitX b u).phys i pa leaf (leafAt t (unitX b u) va).1 (leafAt t (unitX b u) va).2).isNone &&
    (queueLeaf i leaf (leafAt t (unitX b u) va).1 (leafAt t (unitX b u) va).2).isNone
  | (_, .bad _) => false

theorem scalarReachesB_reaches {i : Instr} {b : State} {u : UnitId} {va : W64} (h : scalarReachesB i b u va = true) : ScalarReaches i b u va := by
  simp only [scalarReachesB, Bool.and_eq_true, decide_eq_true_eq] at h
  obtain ⟨⟨h1, h2⟩, h3⟩ := h
  refine ⟨h1, h2, ?_⟩
  split at h3
  · rename_i t pa leaf he
    simp only [Bool.and_eq_true, Option.isNone_iff_eq_none, decide_eq_true_eq] at h3
    rw [he]
    exact ⟨h3.1.1.1, pa, leaf, rfl, h3.1.1.2, h3.1.2, h3.2⟩
  · cases h3

/-- The long-latency words that name an address in operand A. -/
def addressWords (op : Nat) (f : Full) : Instr := match op with
  | 0x0B => .join f
  | 0x19 => .tenrol f
  | 0x1B => .tsettle f
  | 0x1C => .tread f
  | 0x1D => .tcmp f
  | 0x1E => .tdrop f
  | 0x58 => .ld f
  | 0x59 => .st f
  | 0x5A => .lds f
  | 0x5B => .sts f
  | 0x5C => .ldd f
  | 0x5D => .std f
  | 0x5E => .ldacq f
  | 0x5F => .strel f
  | 0x60 => .atom f
  | 0x61 => .atoms f
  | 0x62 => .cas f
  | 0x64 => .waitc f
  | 0x67 => .pref f
  | 0x78 => .tqinit f
  | 0x79 => .tqkill f
  | 0x7A => .tqacq f
  | 0x7B => .tqput f
  | 0x7C => .tqget f
  | _ => .tqret f

/-- A warp's word passes at the address it names; a scalar unit's does. -/
def vReaches (s : State) (op : Nat) (f : Full) : Bool :=
  vReady s op f && (List.range 32).all (fun l => reachesB (addressWords op f) s (.warp 0 0) (BitVec.ofNat 64 (vA s op f l)))
def sReaches (s : State) (u : UnitId) (op : Nat) (f : Full) : Bool :=
  sReady s u op f && scalarReachesB (addressWords op f) (scalarStep s u (theRun sHdr)) u (BitVec.ofNat 64 (sopA s u (viewFull op f u.kind (theRun sHdr))))

/-- A warp whose v8, v9 hold an address below 2^52 whose low word is `lo` and high word `hi`. -/
def vAt (hi lo : Nat) : State :=
  let all := (2 ^ 1024 - 1) / (2 ^ 32 - 1)
  vWith (fun w => { w with v := [(8, BitVec.ofNat 1024 (lo * all)), (9, BitVec.ofNat 1024 (hi * all))] })

theorem witness_MemoryWordsIssue :
    (∀ op ∈ [0x58, 0x59, 0x5C, 0x5D, 0x5E, 0x5F, 0x60, 0x62, 0x67], vReaches vMach op (vWord op) = true ∧ vReaches (vAt 0xFFFFF 0xFFFFFF80) op (vWord op) = true) ∧
    (∀ o ∈ vMach.ops, o.id < vMach.nextOp) ∧
    (∀ op ∈ [0x58, 0x59, 0x5E, 0x5F, 0x60, 0x62, 0x67], sReaches (paged fMach) (.front 0 0) op (sWord op) = true ∧ sReaches tMach (.thread 2) op (sWord op) = true) := by
  decide +kernel

theorem witness_QueueAndBareWordsIssue :
    (∀ op ∈ [0x63, 0x68, 0x69, 0x65, 0x66], vReady vMach op (vWord op) = true ∧ isSheaf vMach (.warp 0 0) = false) ∧
    (∀ op ∈ [0x63, 0x68, 0x69], sReady fMach (.front 0 0) op (sWord op) = true ∧ sReady tMach (.thread 2) op (sWord op) = true) ∧
    (∀ op ∈ [0x64, 0x78, 0x79, 0x7A, 0x7B, 0x7C, 0x7D], vReaches vMach op (vWord op) = true ∧ (vAct vMach op (vWord op)).getLsbD 0 = true) ∧
    (∀ op ∈ [0x78, 0x79, 0x7A, 0x7B, 0x7C, 0x7D], sReaches (paged fMach) (.front 0 0) op (sWord op) = true ∧ sReaches tMach (.thread 2) op (sWord op) = true) := by
  decide +kernel

/-- A team of one core whose stash grant is 256 bytes at 0x100, whose tiles are 2 and 3, and which has one warp. -/
def aTeam : Team :=
  { handle := 1, slice := 0, tid := 0, start := 0,
    shape := { addr := 0, roles := [{ entry := 0x1000, warps := 1, budget := 320 }], fentry := 0x1000, cores := 1, tiles := 2, stash := 256 },
    stashBase := 0x100, stashLen := 0x100, tileBase := 2, tileLen := 2, queues := [], barriers := [], sum := ExitSum.reset, ended := 0, param := 0, taskj := 0,
    isTask := false, stage := none, handoff := false, st := .running, closed := false, why := none, saved := false, pool := none, imgLen := 0, readyAgain := false,
    issued := false, ctx := 0, world := 0, sid := 0, wctmax := 0, rejoins := [], frontRes := [], pops := [], marks := [], parts := [], divs := [], killed := false, imgTime := 0 }
def teamed (s : State) : State := { s with launch := { s.launch with teams := [aTeam] } }

/-- The first and the last slot of the grant, and an offset that no access size but one divides. -/
theorem witness_StashWordsIssue : ∀ op ∈ [0x5A, 0x5B, 0x61],
    (∀ a ∈ [0x100, 0x1F8], vReady (teamed (vAt 0 a)) op (vWord op) = true ∧ ∀ l < 32,
      vA (teamed (vAt 0 a)) op (vWord op) l % 2 ^ 32 % accessBytes (addressWords op (vWord op)) = 0 ∧
      0x100 ≤ vA (teamed (vAt 0 a)) op (vWord op) l % 2 ^ 32 ∧ vA (teamed (vAt 0 a)) op (vWord op) l % 2 ^ 32 + accessBytes (addressWords op (vWord op)) ≤ 0x200) ∧
    findTeam (teamed vMach) vWarp.handle = some aTeam ∧ vWarp.sheaf = none ∧ vReady (vAt 0 0x101) op (vWord op) = true ∧
    ∀ l < 32, vA (vAt 0 0x101) op (vWord op) l % 2 ^ 32 % accessBytes (addressWords op (vWord op)) ≠ 0 := by decide +kernel

/-- The f32 numbers 1 and 2, as they are read. -/
theorem reads_one (ftz : Bool) : Reads f32 ftz 0x3F800000 1 := by
  have h : fdec f32 0x3F800000 = .fin false (2 ^ 23) (-23) := by decide
  refine ⟨1, ⟨false, 2 ^ 23, -23, h, by norm_num⟩, fun h => ?_, fun _ => rfl⟩
  have : leastNormal f32 = (2 : ℝ) ^ (-126 : ℤ) := by norm_num [leastNormal, f32]
  rw [this] at h
  exact absurd h.2 (by norm_num)

theorem reads_two (ftz : Bool) : Reads f32 ftz 0x40000000 2 := by
  have h : fdec f32 0x40000000 = .fin false (2 ^ 23) (-22) := by decide
  refine ⟨2, ⟨false, 2 ^ 23, -22, h, by norm_num⟩, fun h => ?_, fun _ => rfl⟩
  have : leastNormal f32 = (2 : ℝ) ^ (-126 : ℤ) := by norm_num [leastNormal, f32]
  rw [this] at h
  exact absurd h.2 (by norm_num)

/-- Every exact result of these two is not zero; 2 is an integer and a power of two. -/
theorem witness_FloatingResultsRoundOnce : (∀ ftz, Reads f32 ftz 0x3F800000 1 ∧ Reads f32 ftz 0x40000000 2) ∧ (1 : ℝ) + 2 ≠ 0 ∧ (1 : ℝ) - 2 ≠ 0 ∧
    (1 : ℝ) * 2 ≠ 0 ∧ (1 * 2 : ℝ) + 1 ≠ 0 ∧ (0 : ℝ) < 2 ∧ (2 : ℝ) = ((2 : ℤ) : ℝ) ∧ (2 : ℝ) = (2 : ℝ) ^ (1 : ℤ) ∧ f32 = fmtOf 10 ∧ cvtInt 2 1 ≠ 0 :=
  ⟨fun ftz => ⟨reads_one ftz, reads_two ftz⟩, by norm_num, by norm_num, by norm_num, by norm_num, by norm_num, by norm_num, by norm_num, rfl, by decide⟩

/-- The lowest address with a bit of [63:52] set; the highest misaligned one below it. -/
theorem witness_AddressTraps : ∀ op ∈ [0x58, 0x59, 0x5E, 0x5F, 0x60, 0x62, 0x5C, 0x5D],
    vReady (vAt 0x100000 0) op (vWord op) = true ∧ (∀ l < 32, 2 ^ 52 ≤ vA (vAt 0x100000 0) op (vWord op) l % 2 ^ 64) ∧
    vReady (vAt 0xFFFFF 0xFFFFFFFF) op (vWord op) = true ∧ (∀ l < 32, vA (vAt 0xFFFFF 0xFFFFFFFF) op (vWord op) l % 2 ^ 64 < 2 ^ 52 ∧
      vA (vAt 0xFFFFF 0xFFFFFFFF) op (vWord op) l % 2 ^ 64 % accessBytes (addressWords op (vWord op)) ≠ 0) := by decide +kernel

/-- Lane 3's address has bit 52 set, lane 4's is misaligned. -/
def vMixed : State := vWith (fun w => { w with v := [(8, BitVec.ofNat 1024 (2 ^ (32 * 4))), (9, BitVec.ofNat 1024 (2 ^ (32 * 3 + 20)))] })

def mixedLane (i : Instr) (va : W64) (bad : Bool) : Bool := bad == (decide (2 ^ 52 ≤ va.toNat) || decide (va.toNat % accessBytes i ≠ 0)) &&
  (bad || reachesB i vMixed (.warp 0 0) va)

/-- Two lanes of 32 are bad, and the others' addresses reach. -/
theorem witness_MixedAddresses : ∀ op ∈ [0x58, 0x59, 0x5E, 0x5F, 0x60, 0x62, 0x5C, 0x5D],
    vReady vMixed op (vWord op) = true ∧ vAct vMixed op (vWord op) = 0xFFFFFFFF ∧
    (List.range 32).all (fun l => mixedLane (addressWords op (vWord op)) (BitVec.ofNat 64 (vA vMixed op (vWord op) l)) (l = 3 || l = 4)) = true := by
  decide +kernel

/-- A front-end context and a thread whose address is misaligned, or has bit 52 set. -/
def scalarAddressB (a : Nat) (op : Nat) : Bool :=
  let f := fWith (fun f => { f with s := [(8, BitVec.ofNat 64 a)] })
  let t := tWith (fun t => { t with s := [(8, BitVec.ofNat 64 a)] })
  sReady f (.front 0 0) op (sWord op) && sReady t (.thread 2) op (sWord op) && sopA t (.thread 2) (viewFull op (sWord op) .sp (theRun sHdr)) == a
theorem witness_ScalarAddresses : [0x58, 0x59, 0x5E, 0x5F, 0x60, 0x62].all (scalarAddressB (2 ^ 52 - 1)) = true ∧
    [0x58, 0x59, 0x5E, 0x5F, 0x60, 0x62].all (scalarAddressB (2 ^ 52)) = true := by decide +kernel

/-- BAR with w4 holding the count: 1, the team's warps; 2, above them. -/
def barMach (n : W32) (t : Team) : State :=
  let s := vWith (fun w => { w with w := [(4, n)] })
  { s with launch := { s.launch with teams := [t] } }

theorem witness_BarrierWord :
    let b : Barrier := { expect := some 1, arrived := [], gen := 0 }
    (∀ s ∈ [barMach 1 aTeam, barMach 1 { aTeam with barriers := [(0, b)] }, barMach 2 aTeam, barMach 1 { aTeam with barriers := [(0, { b with arrived := [(0, 5)] })] },
        barMach 0 { aTeam with barriers := [(0, b)] }], vReady s 0x7E (vWord 0x7E) = true) ∧
    vA (barMach 1 aTeam) 0x7E (vWord 0x7E) 0 % 2 ^ 32 = 1 ∧ shapeWarps aTeam = 1 ∧ vA (barMach 2 aTeam) 0x7E (vWord 0x7E) 0 % 2 ^ 32 = 2 ∧
    modF (vWord 0x7E) 8 5 = 0 ∧ (∀ e ∈ vWarp.frontier, e.mask = 0) ∧ (vAct (barMach 1 aTeam) 0x7E (vWord 0x7E)).getLsbD 0 = true := by decide +kernel

/-- A tree word by address. -/
def byAddress (op : Nat) (sc : Bool) : Full := fitWord op sc 7 1

theorem witness_TreeWordsIssue :
    (∀ op ∈ [0x18, 0x1A, 0x1B, 0x1C, 0x1D, 0x1E], vReady (treed vMach) op (vWord op) = true ∧ sReady (treed tMach) (.thread 2) op (sWord op) = true ∧
      modB (vWord op) 1 = false) ∧
    (treed vMach).regs.treebase.getLsbD 0 = true ∧ vMach.regs.treebase.getLsbD 0 = false ∧
    vReaches (treed vMach) 0x19 (vWord 0x19) = true ∧ sReaches (treed (paged fMach)) (.front 0 0) 0x19 (sWord 0x19) = true ∧
    sReaches (treed tMach) (.thread 2) 0x19 (sWord 0x19) = true ∧
    (∀ op ∈ [0x1B, 0x1C, 0x1D, 0x1E], vReaches (treed vMach) op (byAddress op false) = true ∧
      sReaches (treed (paged fMach)) (.front 0 0) op (byAddress op true) = true ∧ modB (byAddress op false) 1 = true) ∧
    (∀ op ∈ [0x18, 0x19, 0x1A, 0x1B, 0x1C, 0x1D, 0x1E], vReady vMach op (vWord op) = true ∧ sReady tMach (.thread 2) op (sWord op) = true) := by decide +kernel

theorem witness_SystemWordsIssue : (∀ op ∈ [0x0F, 0x10, 0x11, 0x12], sReady tMach (.thread 2) op (sWord op) = true) ∧
    sReady fMach (.front 0 0) 0x0A (sWord 0x0A) = true ∧ sReaches (paged fMach) (.front 0 0) 0x0B (sWord 0x0B) = true := by decide +kernel

/-- SLEEP with s8 as its deadline: a wake bit; a deadline at the present time; one a count later; none. -/
theorem witness_SleepWord :
    let at_ (x : W64) (wk : BitVec 6) : State := { tWith (fun t => { t with s := [(8, x)], wakest := wk }) with time := 5 }
    (∀ s ∈ [at_ 0 1, at_ 5 0, at_ 6 0, at_ 0 0], sReady s (.thread 2) 0x0E (sWord 0x0E) = true) ∧
    (getThread (at_ 0 1) 2).wakest ≠ 0 ∧ (getThread (at_ 5 0) 2).wakest = 0 ∧ sopA (at_ 5 0) (.thread 2) (viewFull 0x0E (sWord 0x0E) .sp (theRun sHdr)) = 5 ∧
    sopA (at_ 6 0) (.thread 2) (viewFull 0x0E (sWord 0x0E) .sp (theRun sHdr)) = 6 ∧ (at_ 6 0).time = 5 := by decide +kernel

/-- KEYBIND's operands: s8 is A, s10 is B. -/
def keyWord (m : Nat) : Full := { fitWord 0x13 true 7 (BitVec.ofNat 8 m) with sb := 10 }
def keyMach (a b : W64) (keys : SMap KeySlot) (handles : SMap (Option Nat)) : State :=
  let s := tWith (fun t => { t with s := [(8, a), (10, b)] })
  { s with host := { s.host with keys := keys, handles := handles } }

theorem witness_KeyWords :
    (∀ m < 3, ∀ s ∈ [keyMach 0x10 0 [] [], keyMach 1 255 [] [], keyMach 1 0 [(0, some (2, 0))] [], keyMach 1 0 [(0, some (1, 0))] [(16, some 3)],
      keyMach 1 0 [(0, some (1, 0))] [], keyMach 0 255 [] [], keyMach 0 256 [] []], sReady s (.thread 2) 0x13 (keyWord m) = true) ∧
    sopA (keyMach 1 255 [] []) (.thread 2) (viewFull 0x13 (keyWord 0) .sp (theRun sHdr)) = 1 ∧
    sopB (keyMach 1 255 [] []) (.thread 2) (viewFull 0x13 (keyWord 0) .sp (theRun sHdr)) = 255 ∧ (∀ o ∈ tMach.ops, o.id < tMach.nextOp) ∧
    (∀ p ∈ tMach.cores, p.2.tags = []) ∧
    (let s := keyMach 0 0 [(0, some (1, 0))] [(16, some 0)]
     sReady s (.thread 2) 0x13 (keyWord 2) = true ∧ look none s.host.keys 0 = some (1, (0 : BitVec 768)) ∧ rising 0 s.mem.l2 = true ∧
     rising 0 s.host.keys = true ∧ rising 0 s.host.handles = true ∧ sopA s (.thread 2) (viewFull 0x13 (keyWord 2) .sp (theRun sHdr)) = 0) := by decide +kernel

/-! ### Witnesses: records, copies, the matrix array -/

/-- A record of lane 5 of warp 0 of core 1, and one that stopped thread 9. -/
def laneRecord : TrapRec :=
  { kind := .lane, unit := .warp 1 0, lane := 5, handle := 1, num := 4, slice := 0, count := 1, pc := 0x1000, wordv := 0, srca := 0, srcb := 0, srcc := 0,
    cause := 8, prio := 0, widx := 0, half := false, didx := 0x1FF, world := 0, ctx := 0, detail := 0, addr := 0, mask := 0, filed := 0, wait := 0, direct := false }
def threadRecord : TrapRec := { laneRecord with kind := .thread, unit := .thread 9, cause := 0x20, num := 0 }

/-- A sheaf lane serving that record, its origin's warp beside it; a thread whose current record it is. -/
def sheafMach : State :=
  let w := { vWarp with handle := 0, sheaf := some { recs := [laneRecord], done := 0, slice := 0, die := 0 }, run := some { theRun vHdr with mask := 1 } }
  { vMach with time := 1, cores := [(0, { Core.reset with warps := [(0, w)] }), (1, { Core.reset with warps := [(0, { Warp.reset with live := true, handle := 1, num := 4 })] })] }
def recordMach (x : TrapRec) (n : Nat) : State := { tWith (fun t => { t with pending := [x] }) with time := n }

def sheafReady (op : Nat) (f : Full) : Bool :=
  readyB sheafMach 0 0 (getWarp sheafMach 0 0) { theRun vHdr with mask := 1 } (viewFull op f .vector { theRun vHdr with mask := 1 })

theorem witness_GleaningWords :
    (∀ op ∈ [0x14, 0x15, 0x16], sheafReady op (vWord op) = true ∧ sReady (recordMach laneRecord 1) (.thread 2) op (sWord op) = true) ∧
    (getWarp sheafMach 0 0).sheaf ≠ none ∧ (getThread (recordMach laneRecord 1) 2).pending = [laneRecord] ∧
    (∀ op ∈ [0x14, 0x15, 0x16, 0x17], vReady vMach op (vWord op) = true ∧ sReady tMach (.thread 2) op (sWord op) = true) ∧
    laneRecord.kind ≠ .slice ∧ recOrigin laneRecord < 2 ^ 32 := by decide +kernel

theorem witness_ResolveWord :
    sheafReady 0x17 (vWord 0x17) = true ∧ (getWarp sheafMach 0 0).sheaf = some { recs := [laneRecord], done := 0, slice := 0, die := 0 } ∧
    sReady (recordMach threadRecord 1) (.thread 2) 0x17 (sWord 0x17) = true ∧ (getThread (recordMach threadRecord 1) 2).pending = threadRecord :: [] := by
  decide +kernel

/-- A running copy of the command block at address 0. -/
def aCopy : Copy :=
  { id := 0, handle := 1, ctx := 0, world := 0, sid := 0, core := 0, ccb := 0, replay := false, residue := 0, parts := 1, dsp := false, coresel := 0, eng := 0,
    arrivals := [], ready := true, readyAt := 0, started := true, cancelled := false, stopped := false, noStat := false, words := [], data := [], index := [],
    total := 0, todo := [], missing := [], doneBefore := 0, moved := 0, fatal := 0, refTaken := false, replays := 0, firstVa := 0, firstSet := false, wct := 0,
    unit := .warp 0 0, faulted := [], refWaits := false, sec := 0 }

theorem witness_CopyWords :
    (∀ op ∈ [0x6A, 0x6B, 0x6C], vReady vMach op (vWord op) = true ∧ vReady { vMach with copies := [aCopy] } op (vWord op) = true) ∧
    (∀ op ∈ [0x6B, 0x6C], sReady fMach (.front 0 0) op (sWord op) = true ∧ sReady tMach (.thread 2) op (sWord op) = true) ∧
    (∀ o ∈ vMach.ops, o.id < vMach.nextOp) ∧ (vAct vMach 0x6B (vWord 0x6B)).getLsbD 0 = true ∧ vWarp.sheaf = none ∧
    vA { vMach with copies := [aCopy] } 0x6C (vWord 0x6C) 0 = aCopy.ccb.toNat ∧ aCopy.ctx = vWarp.ctx ∧
    sheafReady 0x6A (vWord 0x6A) = true ∧ (theRun vHdr).idx < 15 ∧ (getWarp sheafMach 0 0).sheaf ≠ none := by decide +kernel

theorem witness_MatrixWords :
    let s := teamed (vWith (fun w => { w with rdy := true }))
    (∀ op ∈ [0x70, 0x71, 0x73, 0x74, 0x75], ∀ t ∈ [2, 3], vReady s op { vWord op with dst := t } = true) ∧
    (∀ op ∈ [0x70, 0x71, 0x73, 0x74, 0x75], ∀ t ∈ [1, 4], vReady s op { vWord op with dst := t } = true) ∧
    (∀ op ∈ [0x70, 0x71, 0x73], vReady (teamed vMach) op (vWord op) = true) ∧ vReady vMach 0x72 (vWord 0x72) = true ∧
    findTeam s vWarp.handle = some aTeam ∧ ((List.range 8).map (groupRows (groupZ vWarp (.mgrp (vWord 0x73))))).sum ≤ 64 ∧
    (∀ i ∈ [Instr.mma (vWord 0x70), .mmaj (vWord 0x71), .mgrp (vWord 0x73), .mzero (vWord 0x74), .mdrain (vWord 0x75)],
      ∀ p ∈ matSpans i (groupZ vWarp i), p.1 + p.2 ≤ 320 ∧ p.1 + p.2 ≤ vWarp.budget) ∧
    sheafReady 0x72 (vWord 0x72) = true ∧ (getPair s 0).unmatched = [] ∧ partCount (.mma (vWord 0x70)) = 1 ∧ partIndex (.mma (vWord 0x70)) = 0 ∧ 1 < partCount (.mmaj (vWord 0x71)) := by
  decide +kernel

/-- The two parts of an MMAJ of two warps of a team, the second issued in the first's cycle or later. -/
theorem witness_MatrixSets : ∀ n ∈ [0, 4],
    let f := fun i => { vWord 0x71 with md := BitVec.ofNat 8 i }
    let u : MPart := { op := 1, core := 0, slot := 0, handle := 1, num := 0, instr := .mmaj (f 0x40), z := 0, rdySeq := 0, wrAt := 0, lost := false, issueAt := 0, world := 0 }
    let p : MPart := { u with op := 2, slot := 1, num := 1, instr := .mmaj (f 0x50), issueAt := n }
    partCount p.instr = 2 ∧ partsMatch u p = true ∧ u.op ≠ p.op ∧ (partIndex u.instr, partIndex p.instr) ∈ [(0, 1), (1, 0)] := by decide +kernel

/-! ### Witnesses: registers with rows of their own -/

/-- A machine in which thread 2 has posted a write of `v` to register `n`, its registers as `g` makes them; and the same without the write. -/
def rowMach (g : Regs → Regs) (n : Nat) (v : W64) : State :=
  setThread { State.reset with regs := g Regs.reset } 2 { Thread.reset with halt := false, posted := some (n, v) }
def rowDone (g : Regs → Regs) (n : Nat) (v : W64) : State :=
  setThread (rowMach g n v) 2 { getThread (rowMach g n v) 2 with posted := none }

theorem taken_row (g : Regs → Regs) (n : Nat) (v : W64) : Taken (rowMach g n v) (.unit (.thread 2)) n v (rowDone g n v) := ⟨rfl, rfl⟩

/-- A write of the host. -/
theorem taken_host (n : Nat) (v : W64) :
    Taken { State.reset with host := { HostIf.reset with regq := [(n, v)] } } .host n v State.reset := ⟨[], rfl, rfl⟩

/-- A format window's registers: FWCTL `c`, limit `l`. -/
def windowed (c l : W64) (g : Regs) : Regs := { g with fwctl := [(15, c)], fwlim := [(15, l)] }

def enableMach (l c : W64) : State := rowDone (fun r => { windowed 0 l r with dlstat := 1, fwscale := [(15, 0x100000#64)], fwctl := [(3, c)], fwlim := [(3, 0x8000#64), (15, l)] }) 0x4F 0

/-- The conditions of `Enables`, decided. -/
def apertureB (s : State) (p : Nat × Nat) : Bool := (rangeOf s p.1).isDram && decide (rangeOf s p.1 = rangeOf s (p.2 - 1))
def apartB (a b : Nat × Nat) : Bool := decide (a.2 ≤ b.1 ∨ b.2 ≤ a.1)
def scaledB (x : W64) : Bool := decide (fld x 3 2 = 1 ∨ fld x 3 2 = 2)
def enablesB (s : State) (i : Nat) (v : W64) : Bool :=
  decide (fld v 3 2 ≠ 3) && decide ((windowAt s i v).1 < (windowAt s i v).2) && apertureB s (windowAt s i v) &&
  (!scaledB v || (apertureB s (scaleAt s i v) && apartB (windowAt s i v) (scaleAt s i v))) &&
  (List.range 16).all (fun j => j == i || !(fwctlOf s j).getLsbD 0 || (apartB (windowAt s i v) (windowAt s j (fwctlOf s j)) &&
    (!scaledB (fwctlOf s j) || apartB (windowAt s i v) (scaleAt s j (fwctlOf s j)))))

theorem apertureB_iff (s : State) (p : Nat × Nat) : apertureB s p = true ↔ InAperture s p := by simp [apertureB, InAperture]
theorem apartB_iff (a b : Nat × Nat) : apartB a b = true ↔ Apart a b := by simp [apartB, Apart]
theorem scaledB_iff (x : W64) : scaledB x = true ↔ fld x 3 2 = 1 ∨ fld x 3 2 = 2 := by simp [scaledB]
theorem guard_iff {a b : Bool} {p q : Prop} (ha : a = true ↔ p) (hb : b = true ↔ q) : (!a || b) = true ↔ (p → q) := by
  cases a <;> simp_all

theorem enablesB_iff (s : State) (i : Nat) (v : W64) : enablesB s i v = true ↔ Enables s i v := by
  have h1 : (!scaledB v || (apertureB s (scaleAt s i v) && apartB (windowAt s i v) (scaleAt s i v))) = true ↔
      ((fld v 3 2 = 1 ∨ fld v 3 2 = 2) → InAperture s (scaleAt s i v) ∧ Apart (windowAt s i v) (scaleAt s i v)) :=
    guard_iff (scaledB_iff v) (by rw [Bool.and_eq_true, apertureB_iff, apartB_iff])
  have h2 : ∀ j, (j == i || !(fwctlOf s j).getLsbD 0 || (apartB (windowAt s i v) (windowAt s j (fwctlOf s j)) &&
      (!scaledB (fwctlOf s j) || apartB (windowAt s i v) (scaleAt s j (fwctlOf s j))))) = true ↔
      (j ≠ i → (fwctlOf s j).getLsbD 0 = true → Apart (windowAt s i v) (windowAt s j (fwctlOf s j)) ∧
        ((fld (fwctlOf s j) 3 2 = 1 ∨ fld (fwctlOf s j) 3 2 = 2) → Apart (windowAt s i v) (scaleAt s j (fwctlOf s j)))) := fun j => by
    have g := guard_iff (scaledB_iff (fwctlOf s j)) (apartB_iff (windowAt s i v) (scaleAt s j (fwctlOf s j)))
    have k := guard_iff (a := (fwctlOf s j).getLsbD 0) Iff.rfl
      (iff_of_eq (Bool.and_eq_true (apartB (windowAt s i v) (windowAt s j (fwctlOf s j))) _) |>.trans (and_congr (apartB_iff _ _) g))
    rw [Bool.or_assoc, Bool.or_eq_true, k, beq_iff_eq]
    exact ⟨fun h hn => h.resolve_left hn, fun h => (eq_or_ne j i).imp id h⟩
  simp only [enablesB, Bool.and_eq_true, h1, List.all_eq_true, List.mem_range, h2, apertureB_iff, decide_eq_true_eq, and_assoc]
  exact Iff.rfl

/-- Window 15 from 0x1000: in BF16, D8 and D4 with its scale region at 0x100000, another window beside it; in the reserved format, with a limit below its base, over another
window, over its own scale region, and in no DRAM. -/
theorem witness_Enables :
    (enablesB (enableMach 0x1000 0x8001#64) 15 0x1001#64 = true ∧ enablesB (enableMach 0x1000 0x8001#64) 15 0x1005#64 = true ∧
      enablesB (enableMach 0x1000 0x8001#64) 15 0x1009#64 = true) ∧
    enablesB (enableMach 0x1000 0x8001#64) 15 0x100D#64 = false ∧ enablesB (enableMach 0 0x8001#64) 15 0x1001#64 = false ∧
    enablesB (enableMach 0x1000 0x1001#64) 15 0x1001#64 = false ∧ enablesB (enableMach 0x100000 0x8001#64) 15 0xFF009#64 = false ∧
    enablesB (enableMach 0xFFFFFFFFFF000 0x8001#64) 15 0xFFFFFFFFFF001#64 = false :=
  ⟨⟨by decide +kernel, by decide +kernel, by decide +kernel⟩, by decide +kernel, by decide +kernel, by decide +kernel, by decide +kernel, by decide +kernel⟩

theorem witness_WindowRows :
    (let s := fun c => rowDone (fun r => { windowed c 0x1000#64 r with dlstat := 1 }) 0x4F 0
     (s 0).regs.dlstat.getLsbD 0 = true ∧ (fwctlOf (s 0) 15).getLsbD 0 = false ∧ (fwctlOf (s 0) 15).getLsbD 1 = false ∧ (fwctlOf (s 1) 15).getLsbD 0 = true ∧
     (fwctlOf (s 2) 15).getLsbD 1 = true) ∧
    (0x1000#64 &&& 0xFFFFFFFFFF00C#64 = fwctlOf (rowDone (windowed 0x1001 0x1000#64) 0x4F 0x1000) 15 &&& 0xFFFFFFFFFF00C#64) ∧
    (let s := rowDone (fun r => { windowed 2 0 r with dlstat := 1 }) 0x4F 0
     rising 0 s.mem.l2 = true ∧ (fwctlOf s 15).getLsbD 1 = true ∧ s.regs.dlstat.getLsbD 0 = true) := by decide +kernel

/-- A retention range's registers. -/
def retained (c b l : W64) (g : Regs) : Regs := { g with retctl := [(15, c)], retbase := [(15, b)], retlim := [(15, l)] }

/-- Enabling at the greatest first way and at the most ways; with no way, with too many, past way 15, with a limit below the base; releasing. -/
theorem witness_RetentionRows :
    [0xF101#64, 0x4C01#64].all (fun v => v.getLsbD 0 && decide (1 ≤ fld v 11 8 ∧ fld v 11 8 ≤ 12 ∧ fld v 15 12 + fld v 11 8 ≤ 16)) = true ∧
    [0x0001#64, 0x0D01#64, 0xF201#64].all (fun v => v.getLsbD 0 && decide (fld v 11 8 = 0 ∨ 12 < fld v 11 8 ∨ 16 < fld v 15 12 + fld v 11 8)) = true ∧
    (let s := rowDone (fun r => { retained 0 0x1000#64 0x1000#64 r with dlstat := 1 }) 0xEF 0xF101
     s.regs.dlstat.getLsbD 0 = true ∧ (retctlOf s 15).getLsbD 0 = false ∧ (retctlOf s 15).getLsbD 1 = false ∧ fld (look 0 s.regs.retbase 15) 51 12 ≤ fld (look 0 s.regs.retlim 15) 51 12 ∧
     ∀ j < 16, j ≠ 15 → (retctlOf s j).getLsbD 0 = false) ∧
    (let s := rowDone (retained 0 0x2000#64 0x1000#64) 0xEF 0xF101
     fld (look 0 s.regs.retlim 15) 51 12 < fld (look 0 s.regs.retbase 15) 51 12) ∧
    (let s := rowDone (retained 0x101 0 0) 0xEF 0x100
     (retctlOf s 15).getLsbD 0 = true ∧ 0x100#64 &&& 0x1FFF00#64 = retctlOf s 15 &&& 0x1FFF00#64) ∧
    (let s := fun c => rowDone (fun r => { retained c 0 0 r with dlstat := 1 }) 0xEF 0
     (retctlOf (s 0x103) 15).getLsbD 0 = true ∧ (retctlOf (s 0x103) 15).getLsbD 1 = true ∧ rising 0 (s 0x103).mem.l2 = true ∧
     (s 0x103).regs.dlstat.getLsbD 0 = true ∧ (retctlOf (s 0x102) 15).getLsbD 0 = false ∧ (retctlOf (s 0x102) 15).getLsbD 1 = true) := by
  decide +kernel

theorem witness_ThreadRows :
    [0x00010001#64, 0x00010101#64, 0x00010201#64].all (fun v => decide ((getThread (rowMach id 0x1B v) 2).posted = some (0x1B, v) ∧
      (getThread (rowMach id 0x1B v) 2).tlbicmd.getLsbD 1 = false ∧ v.getLsbD 0 = true ∧ fld v 9 8 ≤ 2)) = true ∧
    (let s : Option Nat → State := fun n => { tWith (fun t => { t with tlbicmd := 2, tlbiTime := n }) with regs := { Regs.reset with dlstat := 1 } }
     (getThread (s none) 2).tlbicmd.getLsbD 1 = true ∧ (getThread (s none) 2).tlbiTime = none ∧ (s none).regs.dlstat.getLsbD 0 = true ∧
     (getThread (s (some 3)) 2).tlbiTime = some 3 ∧ (s none).ops = []) ∧
    -- an access that used a removed translation: of the page, of the context, of any; performed, and no wait of its operation stands; or not
    ([0x3#64, 0x103#64, 0x203#64].all (fun cmd => [true, false].all (fun done =>
      let a : LaneAcc := { lane := 0, va := 0x80, pa := some 0x80, leaf := 7, xlatAt := 0, size := 12, done := done, res := 0 }
      let op : Op := { id := 1, unit := .warp 0 0, handle := 1, num := 0, ctx := 0, world := 0, sid := 0, slice := 0, instr := .ld (vWord 0x58), word := 0, pc := 0x1000, hdr := vHdr, widx := 0, lanes := 1, a := [0], b := [5], c := [6], flag := 0, accs := [a], granted := [1], bufs := [], phase := 0, held := false, res := [7], wrote := 0, writesReg := true, issued := 0, wct := 0, arg := 0 }
      let s := { tWith (fun t => { t with tlbicmd := 2, tlbiTime := some 3, tlbiGoCmd := cmd, tlbiGoVa := 0xFFF }) with ops := [op] }
      decide ((getThread s 2).tlbicmd.getLsbD 1 = true ∧ s.mem.waiters = [] ∧ a.xlatAt ≤ 3 ∧ op.ctx = fld cmd 31 16 ∧ fld cmd 9 8 ≤ 2 ∧
        a.va.toNat / 2 ^ a.size = (getThread s 2).tlbiGoVa.toNat / 2 ^ a.size)))) = true ∧
    (let s := setThread (rowDone id 0x1C0 1) 0 { Thread.reset with trapped := true }
     (getThread s 0).halt = true ∧ (getThread s 0).trapped = true ∧ (1 : W64).getLsbD 0 = true) ∧ (getThread (rowDone id 0x1C0 1) 0).trapped = false ∧
    (getThread (rowDone id 0x1C0 1) 0).halt = true ∧ (getThread (rowDone id 0x1C2 1) 2).halt = false ∧ (getThread (rowDone id 0x1C2 0) 2).run = none ∧
    (getThread (rowDone id 0x1C2 0) 2).posted = none ∧ (getThread tMach 2).run ≠ none ∧ (getThread (rowMach id 0x18 0x3F) 2).posted = some (0x18, 0x3F) := by
  decide +kernel

/-- MEMSPLIT at the greatest size; TREEBASE at the start of DRAM and outside it; a queue of 4 entries, PROD at its greatest and beyond. -/
theorem witness_ModuleRows :
    (rowDone id 0x20 0).regs.memsplit.getLsbD 63 = false ∧ fld 0x8000000000000120#64 8 0 ≤ 288 ∧
    (rowDone (fun r => { r with memsplit := 0x8000000000000000 }) 0x20 0).regs.memsplit.getLsbD 63 = true ∧
    (let s := rowDone id 0x21 1
     s.regs.treebase.getLsbD 0 = false ∧ (rangeOf s 0).isDram = true ∧ rangeOf s 0 = rangeOf s (0 + (2 ^ 22 - 1)) ∧
     (rangeOf s (2 ^ 22 * fld 0x8000000000001#64 51 22)).isDram = false) ∧
    (let ctl := look 0x0000040000000300#64 [(63, 0x101#64)] 63
     ctl.getLsbD 0 = true ∧ fld ctl 10 7 = 2 ∧ (4 + 2 ^ 32 - fld 0#64 63 32) % 2 ^ 32 ≤ 2 ^ fld ctl 10 7 ∧ 2 ^ fld ctl 10 7 < (5 + 2 ^ 32 - fld 0#64 63 32) % 2 ^ 32) ∧
    fld 0x500#64 15 8 = 5 ∧ fld 0x700#64 15 8 = 7 ∧ fld (rowDone id 0x0C 0x500).regs.bootstat 15 8 < 5 ∧
    (let q := 0x0000000000000000#64
     fld q 31 8 = 0 ∧ ∀ p ∈ (rowDone id 0x2B 1).mem.quar, p.1 ≠ 0) := by decide +kernel

/-- The first line of port 0's fabric memory is quarantined in slot 1, which memory holds; the port is UP, or in state `st`. -/
def quarMach (st : Nat) : State :=
  let s : State := { State.reset with
    mem := { Mem.reset with quar := [(1, 3 * 2 ^ 43)] }, regs := { Regs.reset with portctl := [(0, BitVec.ofNat 64 (2 * st + 1))], dlstat := 1 } }
  cached (cached s 0x100 5) 0x180 0

theorem witness_QuarantineRows : ∀ st ∈ [3, 4], let t := quarMach st
    t.mem.quar.find? (fun p => p.1 = fld 0x101#64 31 8) = some (fld 0x101#64 31 8, 3 * 2 ^ 43) ∧ (∀ p ∈ t.mem.l2, p.2.quarantined = false) ∧
    (0x101#64).getLsbD 0 = true ∧ (0x101#64).getLsbD 1 = false ∧ (0x103#64).getLsbD 1 = true ∧ fld (look 0 t.regs.portctl (3 * 2 ^ 43 / 2 ^ 39 % 16)) 4 1 = st ∧
    (match devGet t poolX (BitVec.ofNat 64 (4096 * fld t.regs.qrcfg 51 12 + 256 * fld 0x103#64 31 8)) 256 with
      | (y, .inr d) => decide (d = 5) && decide (∀ p ∈ y.mem.l2, p.2.quarantined = false)
      | _ => false) = true := by decide +kernel

/-- A boot image of one byte that passes every check, but for what `g` changes in it. -/
def anImage (g : BootInput → BootInput) : BootInput :=
  g { keyDigest := Config.fusedKey, sigOk := true, version := Config.fusedMin, image := [1], entry := 0x100000, badStack := none, linkOk := true }

theorem witness_ResetAndBoot : State.reset.host.booted = false ∧ (getThread State.reset 0).halt = true ∧
    (anImage id).keyDigest = Config.fusedKey ∧ (anImage id).sigOk = true ∧ (anImage id).image.length ≤ 63 * 2 ^ 20 ∧
    Config.fusedMin.toNat ≤ (anImage id).version.toNat ∧ (anImage (fun i => { i with sigOk := false })).sigOk = false ∧
    (anImage (fun i => { i with badStack := some 11 })).badStack = some 11 ∧ (anImage (fun i => { i with linkOk := false })).linkOk = false ∧
    State.reset.host.linkUp = false ∧ MemoryOk State.reset ∧ State.reset.regs.memsplit = 0 :=
  ⟨rfl, rfl, rfl, rfl, by decide, Nat.le_refl _, rfl, rfl, rfl, rfl, ⟨rfl, rfl⟩, rfl⟩

/-- A part that is up, with its host link up. -/
def upMach : State := { State.reset with regs := { Regs.reset with bootstat := 0x700 }, host := { HostIf.reset with linkUp := true } }

theorem witness_ConfigurationRequests : upMach.host.linkUp = true ∧ fld upMach.regs.bootstat 15 8 = 7 ∧
    fld { upMach with regs := Regs.reset }.regs.bootstat 15 8 ≠ 7 := by decide

/-- Port 15 in state `st` since time 0, the time now `n`. -/
def portMach (st n : Nat) : State :=
  { State.reset with time := n, regs := { Regs.reset with portctl := [(15, BitVec.ofNat 64 (2 * st + 1))], dlstat := 1 } }

theorem witness_PortEvents :
    (∀ st < 7, fld (look 0 (portMach st 0).regs.portctl 15) 4 1 = st) ∧ (∀ n ∈ [0, 12000000], (portMach 1 n).time - look 0 (portMach 1 n).regs.portAt 15 ≤ 12000000) ∧
    12000000 ≤ (portMach 1 12000000).time - look 0 (portMach 1 12000000).regs.portAt 15 ∧
    100000000 ≤ (portMach 3 100000000).time - look 0 (portMach 3 100000000).regs.portAt 15 ∧ rising 0 (portMach 4 0).mem.l2 = true ∧
    (portMach 4 0).mem.l2 = [] ∧ (portMach 4 0).regs.dlstat.getLsbD 0 = true ∧ (portMach 4 0).launch.slices = [] ∧ State.reset.regs.dlstat.getLsbD 0 = false := by
  decide +kernel

/-! ### Witnesses: the host and the tenants -/

/-- A request of requester 7 for `len` bytes at `addr`, carrying `bytes`. -/
def aReq (addr len : Nat) (bytes : List Byte) : HostReq :=
  { requester := 7, port := 15, addr := addr, len := len, bytes := bytes, relaxed := false, tee := false }

/-- The host has a write of requester 7 whose WCT has not passed. -/
def busyHost : State := { upMach with host := { upMach.host with lastWct := [(14, 9)] } }

/-- A line of fabric memory at port 0's lowest address, held by die A's slice with grant `g`; port 0 is UP. -/
def fabLine : Nat := 3 * 2 ^ 43
def gripped (g : Nat) : State :=
  let k := (waysOf 0 fabLine).headD 0
  let s : State := { State.reset with time := 1, regs := { Regs.reset with portctl := [(0, 9), (15, 9)] } }
  setL2 s k { L2Line.reset with used := true, line := fabLine, valid := 15, dirty := 1, grant := g }

theorem witness_HostEvents :
    (∀ r ∈ [aReq 0x7FF8 8 [], aReq 0 8 []], r.tee = false ∧ (∀ a ∈ upMach.host.attrs, a.1 ≠ r.addr / 4096) ∧ r.addr + r.len ≤ 0x8000 ∧ r.len = 8 ∧ r.addr % 8 = 0) ∧
    (∀ n ∈ [0, 0x180, 0x1BF, 0x1C0, 0xFFF], let r := aReq (8 * n) 0 (List.replicate 8 0)
      r.bytes.length = 8 ∧ r.addr = 8 * n ∧ n < 0x1000) ∧
    (upMach.host.posted = [] ∧ upMach.host.lastWct = [] ∧ upMach.holds = []) ∧
    (∃ p ∈ [({ req := aReq 0 0 [], way := 0 } : Posted)], p.way = 0 ∧ ¬ 0x8000 ≤ p.req.addr) ∧
    (let w := fun pa => hostWrite 0 (pageWorld upMach (64 + pa / 4096)) (8 / 128 + 2) (cached upMach pa 0) pa 8 5
     (w 0).1.holds = [] ∧ (w 0x1000).1.holds ≠ [] ∧ bar2Span upMach (aReq 0 8 []) 8 = some 0 ∧ bar2Span upMach (aReq 0x1000 8 []) 8 = some 0x1000) ∧
    (let w := fun pa => hostWrite (15 / 8) 0 (8 / 128 + 2) (cached (gripped 0) pa 0) pa 8 5
     (w 0).1.holds ≠ [] ∧ (w 0x1000).1.holds = [] ∧ (rangeOf (gripped 0) 0x1000).isDram = true) ∧ (∃ e ∈ busyHost.host.lastWct, e.1 = 2 * (aReq 0 0 []).requester ∧ ¬ e.2 < busyHost.time) ∧
    (let s := cached (cached upMach 0 0) 128 0
     bar2Span s (aReq 0 256 []) 256 = some 0 ∧ (hostRead 0 (pageWorld s 64) (256 / 128 + 2) s 0 256).2.isSome = true) ∧
    bar2Span upMach (aReq (2 ^ 52) 1 []) 1 = none ∧
    (let s := cached (gripped 0) 0 0
     fld (look 0 s.regs.portctl (aReq 0 4 []).port) 4 1 = 4 ∧ (rangeOf s 0).isDram = true ∧ rangeOf s (0 + max 1 4 - 1) = rangeOf s 0 ∧
     (hostRead (15 / 8) 0 3 s 0 4).2 = some 0) ∧
    (let s := gripped 1
     (3 * 2 ^ 43 ≤ fabLine ∧ fabLine < 2 ^ 45) ∧ fld (look 0 s.regs.portctl (fabLine / 2 ^ 39 % 16)) 4 1 = 4 ∧ quarantinedLine s fabLine = false ∧
     s.mem.snoops = [] ∧ heldAt s fabLine = some ((waysOf 0 fabLine).headD 0) ∧ (getL2 s ((waysOf 0 fabLine).headD 0)).quarantined = false ∧
     look false s.mem.gated (sliceOf (getL2 s ((waysOf 0 fabLine).headD 0)).home (128 * fabLine)) = false ∧ heldAt s (fabLine + 1) = none) ∧
    (let s := { gripped 2 with mem := { (gripped 2).mem with snoops := [fabLine] } }
     fabLine ∈ s.mem.snoops ∧ heldAt s fabLine = some ((waysOf 0 fabLine).headD 0) ∧ rising 0 s.mem.l2 = true ∧
     lmaxOf s (getL2 s ((waysOf 0 fabLine).headD 0)).home fabLine < s.time) ∧
    State.reset.mem.l2 = [] := by decide +kernel

theorem witness_PostedWrites :
    let p : Posted := { req := aReq 0 0 [1], way := 2 }
    let s := { upMach with host := { upMach.host with posted := [p] } }
    s.host.posted = [p] ∧ 2 * p.req.requester + 1 = 15 ∧ s.host.lastWct = [] ∧ p.way = 2 := by decide

/-- A table of worlds at 0x400 whose world 1 has key slots 8 and 9 and requester digest 5, its line in L2, and a message of its tenant. -/
def worlds : State :=
  let s : State := { State.reset with regs := { Regs.reset with worldtab := 0x401, dlstat := 1, bootstat := 0x700 }, host := { HostIf.reset with linkUp := true } }
  cached s (0x400 + 64) (5 + 2 ^ 256 * 8 + 2 ^ 264 * 2)
def aMsg (kop slot : Nat) (len : Nat) : KeyMsg :=
  { digest := 5, len := len, kop := BitVec.ofNat 8 kop, slot := BitVec.ofNat 8 slot, world := 1, zero := 0, keys := 3 }

/-- The lowest and the highest slot of the world and those beside them; an unknown tenant; a wrong length; loading off; no operation. -/
theorem witness_SecurityEvents :
    State.reset.host.tdisp = .unlocked ∧
    (let z := (worldEntry worlds 1).1
     let e := (worldEntry worlds 1).2
     (∀ n ∈ [7, 8, 9, 10], keyAllowed (aMsg 1 n 100) e = true ∧ (aMsg 1 n 100).zero = 0 ∧ (aMsg 1 n 100).world = 1) ∧ getB e 32 1 = 8 ∧ getB e 33 1 = 2 ∧ z.holds = [] ∧
     look none z.host.keys 8 = none ∧ keyAllowed { aMsg 1 8 100 with digest := 4 } e = false ∧ keyAllowed (aMsg 1 8 99) e = true ∧ keyAllowed (aMsg 2 8 4) e = true ∧
     keyAllowed (aMsg 3 8 4) e = true) ∧
    (∀ w ∈ [1, 2], let s : State := { worlds with host := { worlds.host with keys := [(8, some (w, 0))] } }
     let z := (worldEntry s 1).1
     rising 0 z.host.keys = true ∧ look none z.host.keys 8 = some (w, 0) ∧ keyAllowed (aMsg 2 8 4) (worldEntry s 1).2 = true) ∧
    worlds.host.linkUp = true ∧ fld worlds.regs.bootstat 15 8 = 7 ∧ upMach.host.linkUp = true ∧ fld upMach.regs.bootstat 15 8 = 7 ∧
    upMach.regs.worldtab.getLsbD 0 = false ∧ (aMsg 0 8 4).kop = 0 ∧ 3 < (aMsg 4 8 4).kop.toNat ∧ State.reset.host.linkUp = false ∧
    fld { upMach with regs := Regs.reset }.regs.bootstat 15 8 ≠ 7 := by decide +kernel

/-! ### Witnesses: operations in flight -/

/-- An operation of `u`, lane 0 its one lane, operand values 5 and 6. -/
def anOp (i : Instr) (u : UnitId) (accs : List LaneAcc) : Op :=
  { id := 1, unit := u, handle := 1, num := 0, ctx := 0, world := 0, sid := 0, slice := 0, instr := i, word := 0, pc := 0x1000, hdr := vHdr, widx := 0,
    lanes := 1, a := [0], b := [5], c := [6], flag := 0, accs := accs, granted := [1], bufs := [], phase := 0, held := false, res := [7], wrote := 0,
    writesReg := true, issued := 0, wct := 0, arg := 0 }

/-- Its access to address 0x80, of the open world, or on a page of world 1 with key index 2. -/
def anAcc (leaf : W64) : LaneAcc := { lane := 0, va := 0x80, pa := some 0x80, leaf := leaf, xlatAt := 0, size := if leaf = 0 then 0 else 12, done := false, res := 0 }
def openLeaf : W64 := 0x7#64
def keyLeaf : W64 := 0x0010000000000207#64

/-- Thread 2 with one operation; the line it names in its home slice, all its sectors valid, its metadata `side`. -/
def opMach (o : Op) : State := { State.reset with threads := [(2, Thread.reset)], ops := [o], nextOp := 2 }
def heldMach (o : Op) (side : W128) : State :=
  setL2 (opMach o) ((waysOf 0 1).headD 0) { L2Line.reset with used := true, line := 1, data := 0x1234, valid := 15, side := side }

theorem flight (o : Op) (p : Nat) (q : UnitId) (hu : o.unit = q) (h : q = .thread 2) (hp : o.phase = p) : InFlight (opMach o) o p :=
  ⟨List.mem_singleton.mpr rfl, fun _ hx => Or.inl (List.mem_singleton.mp hx), hp, by simp [ownerHere, hu, h]⟩

/-- The conditions of `OneAccess` and `Held` of the held machine, decided. -/
def accessB (s : State) (o : Op) (a : LaneAcc) (pa : Nat) (e : Option Nat) : Bool :=
  decide (s.ops = [o]) && decide (o.phase = 0) && ownerHere s o && decide (o.accs = [a]) && decide (a.pa = some pa) && !a.done &&
  decide (o.lanes = BitVec.ofNat 32 (2 ^ a.lane)) && decide (a.lane < 32) && decide (o.wrote = 0) && decide (o.bufs = []) && decide (leafEntry a.leaf = e) &&
  decide (pa % accessBytes o.instr = 0) && decide (pa / 128 ∈ o.granted) && (sliceRefuses s (opReq s o a)).isNone && !poisoned s (pa / 128)

theorem accessB_one {s : State} {o : Op} {a : LaneAcc} {pa : Nat} {e : Option Nat} (h : accessB s o a pa e = true) : OneAccess s o a pa e := by
  simp only [accessB, Bool.and_eq_true, decide_eq_true_eq, Bool.not_eq_true', Option.isNone_iff_eq_none] at h
  obtain ⟨⟨⟨⟨⟨⟨⟨⟨⟨⟨⟨⟨⟨⟨h1, h2⟩, h3⟩, h4⟩, h5⟩, h6⟩, h7⟩, h8⟩, h9⟩, h10⟩, h11⟩, h12⟩, h13⟩, h14⟩, h15⟩ := h
  exact ⟨⟨by rw [h1]; exact List.mem_singleton.mpr rfl, fun x hx => by rw [h1] at hx; exact Or.inl (List.mem_singleton.mp hx), h2, h3⟩,
    h4, h5, h6, h7, h8, h9, h10, h11, h12, h13, h14, h15⟩

def heldB (s : State) (o : Op) (a : LaneAcc) (pa k : Nat) : Bool :=
  decide (findL2 s (opReq s o a).die (pa / 128) = some k) && (getL2 s k).valid.getLsbD (pa % 128 / 32) && !(getGranule s (pa / 4096)).v

theorem heldB_held {s : State} {o : Op} {a : LaneAcc} {pa k : Nat} (h : heldB s o a pa k = true) : Held s o a pa k := by
  simp only [heldB, Bool.and_eq_true, decide_eq_true_eq, Bool.not_eq_true'] at h
  exact ⟨h.1.1, h.1.2, h.2⟩

/-- The words of memory whose operations the memory statements perform. -/
def memOps : List Instr := [.ld (sWord 0x58), .st (sWord 0x59), .atom (sWord 0x60), .cas (sWord 0x62)]

theorem witness_MemoryAccess :
    (∀ i ∈ memOps, accessB (heldMach (anOp i (.thread 2) [anAcc openLeaf]) 0) (anOp i (.thread 2) [anAcc openLeaf]) (anAcc openLeaf) 0x80 none = true ∧
      heldB (heldMach (anOp i (.thread 2) [anAcc openLeaf]) 0) (anOp i (.thread 2) [anAcc openLeaf]) (anAcc openLeaf) 0x80 ((waysOf 0 1).headD 0) = true ∧
      sliceHolds (heldMach (anOp i (.thread 2) [anAcc openLeaf]) 0) (opReq (heldMach (anOp i (.thread 2) [anAcc openLeaf]) 0)
        (anOp i (.thread 2) [anAcc openLeaf]) (anAcc openLeaf)) true = false) ∧
    (let o := anOp (.ld (sWord 0x58)) (.thread 2) [anAcc openLeaf]
     (∀ k ∈ waysOf 0 1, (getL2 (opMach o) k).used = true → (getL2 (opMach o) k).line = 1 ∨ (getL2 (opMach o) k).dirty = 0) ∧
     sliceHolds (opMach o) (opReq (opMach o) o (anAcc openLeaf)) false = false) := by decide +kernel

/-- A protected line whose tag is right, in a machine whose entry 18 (world 1, index 2) is bound to slot 3. -/
def keyedMach (o : Op) : State :=
  let s := heldMach o ((lineTag 9 1 0x1234).setWidth 128)
  { s with host := { s.host with keys := [(3, some (1, 9))], handles := [(18, some 3)] } }

theorem witness_ProtectedAtomic :
    let o := anOp (.atom (sWord 0x60)) (.thread 2) [anAcc keyLeaf]
    let s := keyedMach o
    keyOf s 18 = some 9 ∧ accessB s o (anAcc keyLeaf) 0x80 (some 18) = true ∧ heldB s o (anAcc keyLeaf) 0x80 ((waysOf 0 1).headD 0) = true ∧
    (getL2 s ((waysOf 0 1).headD 0)).valid = 15 ∧
    lineTag 9 1 (getL2 s ((waysOf 0 1).headD 0)).data = (getL2 s ((waysOf 0 1).headD 0)).side.setWidth 64 := by decide +kernel

/-- A warp's operation that is done, or a fence, or an access whose page has to be walked. -/
def warpOp (o : Op) (ph : Nat) : State :=
  { paged { vMach with cores := [(0, { Core.reset with warps := [(0, vWarp)] })] } with ops := [{ o with phase := ph }], nextOp := 2 }

/-- The walk for an operation's access gives a leaf that passes. -/
def walkPasses (s : State) (o : Op) (a : LaneAcc) : Bool := match walkNow s (opX s o) a.va with
  | (z, _, .leaf e ea level) => decide (z.ops = s.ops) && pagePlaced z e level && (wordLeafCheck z (opX z o) o.instr e ea level).isNone
  | (_, _, .bad _) => false

/-- The one operation in flight is `o`, in phase `p`. -/
def inFlightB (s : State) (o : Op) (p : Nat) : Bool := decide (s.ops = [o]) && decide (o.phase = p) && ownerHere s o

theorem inFlightB_flight {s : State} {o : Op} {p : Nat} (h : inFlightB s o p = true) : InFlight s o p := by
  simp only [inFlightB, Bool.and_eq_true, decide_eq_true_eq] at h
  exact ⟨by rw [h.1.1]; exact List.mem_singleton.mpr rfl, fun x hx => by rw [h.1.1] at hx; exact Or.inl (List.mem_singleton.mp hx), h.1.2, h.2⟩

theorem witness_MemoryEvents :
    (let o := { anOp (.ld (vWord 0x58)) (.warp 0 0) [] with phase := 1 }
     inFlightB (warpOp o 1) o 1 = true ∧ teamHolds (warpOp o 1) o.handle = false ∧ instrDst o.instr = some ((8 : BitVec 9), 2) ∧
     o.lanes &&& 1 = o.lanes ∧ o.lanes &&& ~~~0 ≠ 0) ∧
    (inFlightB (warpOp (anOp (.fence (vWord 0x63)) (.warp 0 0) []) 0) (anOp (.fence (vWord 0x63)) (.warp 0 0) []) 0 = true ∧ modF (vWord 0x63) 5 3 < 2) ∧
    (let a := { anAcc 0 with va := 0x1080, pa := none }
     let o := anOp (.ld (vWord 0x58)) (.warp 0 0) [a]
     let s := warpOp o 0
     inFlightB s o 0 = true ∧ isScalar o.unit = false ∧ walkTargets s (spaceOf o) (a.va.toNat / 4096) = [(o.id, a)] ∧
     missRoom s (unitDie o.unit) (spaceOf o, a.va.toNat / 4096) = true ∧ walkPasses s o a = true) ∧
    (let w : Waiter := { op := 1, pa := 0x80, slice := sliceOf 0 0x80, entry := false, queue := false, since := 0, hit := none, vm := 0 }
     let o := anOp (.waitc (vWord 0x64)) (.warp 0 0) [anAcc openLeaf]
     let s : Option W64 → State := fun m => { warpOp o 0 with sclk := 256, mem := { (warpOp o 0).mem with waiters := [{ w with hit := m }] } }
     inFlightB (s none) o 0 = true ∧ (s none).mem.waiters = [w] ∧ (s (some 7)).mem.waiters = [{ w with hit := some 7 }] ∧ w.op = o.id ∧
     w.since + 256 ≤ (s none).sclk) := by
  decide +kernel

/-- 4,097 pages missed by one die: the last waits at its requester. -/
def fullAccs : List LaneAcc := (List.range 4097).map (fun i => { anAcc 0 with va := BitVec.ofNat 64 (4096 * i), pa := none })

theorem eraseDups_nodup {α : Type} [BEq α] [LawfulBEq α] : ∀ {l : List α}, l.Nodup → l.eraseDups = l
  | [], _ => rfl
  | a :: l, h => by
    have hl := List.nodup_cons.mp h
    rw [List.eraseDups_cons, List.filter_eq_self.mpr (fun b hb => by simpa using fun e : b = a => hl.1 (e ▸ hb)), eraseDups_nodup hl.2]

theorem fullAccs_page {i : Nat} (h : i < 4097) : (BitVec.ofNat 64 (4096 * i)).toNat / 4096 = i := by
  rw [BitVec.toNat_ofNat, Nat.mod_eq_of_lt (by omega)]; omega

/-- A load of one warp that misses the pages of `l`. -/
def missOp (l : List LaneAcc) : Op := anOp (.ld (vWord 0x58)) (.warp 0 0) l

theorem missOp_misses (l : List LaneAcc) : misses (warpOp (missOp l) 0) 0 =
    ((l.filter (fun a => a.pa.isNone)).map (fun a => (((none, 0, 0) : Option Nat × Nat × Nat), a.va.toNat / 4096))).eraseDups := by
  unfold misses
  rw [show (warpOp (missOp l) 0).ops = [missOp l] from rfl, List.flatMap_singleton, if_pos (show unitDie (missOp l).unit = 0 from rfl)]
  rfl

theorem missOp_targets {l : List LaneAcc} {a : LaneAcc} (h : a ∈ l) (hp : a.pa.isNone = true) :
    walkTargets (warpOp (missOp l) 0) (none, 0, 0) (a.va.toNat / 4096) ≠ [] := by
  unfold walkTargets
  rw [show (warpOp (missOp l) 0).ops = [missOp l] from rfl, List.flatMap_singleton, if_pos (show spaceOf (missOp l) = (none, 0, 0) from rfl)]
  exact List.ne_nil_of_mem (List.mem_map_of_mem (List.mem_filter.mpr ⟨h, by simp [hp]⟩))

theorem missOp_found (l : List LaneAcc) : findOp (warpOp (missOp l) 0) 1 = some (missOp l) := rfl

theorem witness_MissesFull :
    findOp (warpOp (missOp fullAccs) 0) 1 = some (missOp fullAccs) ∧ walkTargets (warpOp (missOp fullAccs) 0) (none, 0, 0) 4096 ≠ [] ∧
    missRoom (warpOp (missOp fullAccs) 0) 0 ((none, 0, 0), 4096) = false := by
  refine ⟨missOp_found _, ?_, ?_⟩
  · have h : ({ anAcc 0 with va := BitVec.ofNat 64 (4096 * 4096), pa := none } : LaneAcc) ∈ fullAccs :=
      List.mem_map.mpr ⟨4096, List.mem_range.mpr (by omega), rfl⟩
    have := missOp_targets h rfl
    rwa [fullAccs_page (i := 4096) (by omega)] at this
  · have h1 : (fullAccs.filter (fun a => a.pa.isNone)).map (fun a => (((none, 0, 0) : Option Nat × Nat × Nat), a.va.toNat / 4096)) =
        (List.range 4097).map (fun i => ((none, 0, 0), i)) := by
      rw [List.filter_eq_self.mpr (fun a ha => by obtain ⟨i, -, rfl⟩ := List.mem_map.mp ha; rfl), fullAccs, List.map_map]
      exact List.map_congr_left (fun i hi => by simp only [Function.comp, fullAccs_page (List.mem_range.mp hi)])
    have h2 : ((List.range 4097).map (fun i => (((none, 0, 0) : Option Nat × Nat × Nat), i))).Nodup :=
      List.Nodup.map (fun i j e => (Prod.mk.inj e).2) List.nodup_range
    rw [missRoom, missOp_misses, h1, eraseDups_nodup h2, ← List.map_take, List.take_range, Bool.eq_false_iff, ne_eq, List.contains_iff_mem]
    intro h
    obtain ⟨i, hi, he⟩ := List.mem_map.mp h
    have := List.mem_range.mp hi
    have := (Prod.mk.inj he).2
    omega

/-- A store's line asks for 32 bytes of a slice that has granted none in this clock, or all it can; its SID lends from others or is held to its bucket. -/
def askMach (used : Nat) (bw : W64) : State :=
  let o := { anOp (.st (sWord 0x59)) (.thread 2) [anAcc openLeaf] with granted := [] }
  let s := opMach o
  { s with mem := { s.mem with clkBytes := [(sliceOf 0 0x80, (0, used))], lastSid := [] }, regs := { s.regs with sidbw := [(0, bw)], dlstat := 1 } }

theorem witness_BandwidthGrant :
    let a := anAcc openLeaf
    let o := { anOp (.st (sWord 0x59)) (.thread 2) [a] with granted := [] }
    [(0, 0x10000#64), (992, 0x10000#64), (993, 0x10000#64), (0, 0#64)].map (fun p =>
      let s := askMach p.1 p.2
      (inFlightB s o 0, decide (s.mem.waits = []), sentBefore s o a, (grantNow s (accSlice s a) o.sid 2 (fun x => x.op = o.id && x.line = 1)).isSome)) =
      [(true, true, false, true), (true, true, false, true), (true, true, false, false), (true, true, false, true)] ∧
    (grantNow (askMach 0 0x8#64) (accSlice (askMach 0 0x8#64) a) o.sid 2 (fun x => x.op = o.id && x.line = 1)).isSome = false ∧ accSlice (askMach 0 0) a = sliceOf 0 0x80 ∧
    (askMach 0 0).regs.dlstat.getLsbD 0 = true ∧ look 0 (askMach 0 0).mem.bucketAt (accSlice (askMach 0 0) a * 32 + o.sid) ≤ (askMach 0 0).sclk := by
  decide +kernel

/-- GRES of thread 2 is over once its earlier events are and time has passed its WCTMAX; the record it holds is a lane's, or a thread's. -/
def resolveMach (q : TrapRec) (time : Nat) (before : List Op) : State :=
  let o := anOp (.gres (sWord 0x17)) (.thread 2) []
  { sheafMach with
    time := time, threads := [(2, Thread.reset)], ops := before ++ [o], nextOp := 3, gleaners := [(0, { Gleaner.reset with resolving := [(1, q)] })] }

theorem witness_RecordResolved :
    let o := anOp (.gres (sWord 0x17)) (.thread 2) []
    (∀ q ∈ [laneRecord, threadRecord], inFlightB (resolveMach q 1 []) o 0 = true ∧ o.wct < 1 ∧ resolved (resolveMach q 1 []) o.id = [q]) ∧
    laneRecord.kind = .lane ∧ originWarp (resolveMach laneRecord 1 []) laneRecord = some (1, 0) ∧ threadRecord.kind = .thread ∧ threadRecord.unit = .thread 9 ∧
    (resolveMach laneRecord 0 []).time ≤ o.wct ∧
    (let p := { anOp (.st (sWord 0x59)) (.thread 2) [] with id := 0 }
     p ∈ (resolveMach laneRecord 1 [p]).ops ∧ p.id < o.id ∧ sameIssuer p o = true ∧ p.phase = 0 ∧ isMemoryEvent p.instr = true) := by decide +kernel

/-- Context 0 with a fault ring of 64 slots at 0x3000, `p` records ahead of its reader, and a record that waits. -/
def ringMach (size p : Nat) (r : FaultRec) : State :=
  let s := paged State.reset
  let s := { s with launch := { s.launch with ctxs := [{ id := 0, desc := [0x10000, 0x3000, 0], htab := [] }] } }
  let s := cached (cached (cached s 0x3000 (0x4000 + 2 ^ 64 * size + 2 ^ 128 * p)) 0x4000 0) 0x4F80 0
  { s with mem := { s.mem with faults := [(0, [r])] } }
def aFault : FaultRec := { ctx := 0, words := List.replicate 8 0, counted := false, unusable := false, retryAt := 0 }
def ringOutcome (s : State) (r : FaultRec) : Nat := match findCtx s 0 with
  | none => 9
  | some c => match ringTry s 0 c r with
    | .written _ => 0
    | .full _ => 1
    | .unusable _ => 2

/-- The descriptor of a ring of 64 slots is well formed, one of 32 is not. (Whether a record finds a slot is decided after translations whose keeping is
free, log 7.) -/
theorem witness_FaultRing : ringOutcome (ringMach 5 0 aFault) aFault = 2 ∧ ringBad [0x4000, 6, 63, 0, 0, 0, 0, 0] = false ∧
    look [] (ringMach 6 63 aFault).mem.faults 0 = [aFault] := by decide +kernel

/-- A live queue of four slots with `p` permits and `t` tokens. -/
def aQueue (p t : Nat) : QObj :=
  { bytes := 0, flags := 0, status := 1, cap := 4, refs := 0, waiters := 0, permits := p, tokens := t, pix := 0, fix := 0, cix := 0, rix := 0, owner := 0,
    dropcnt := 0, droptok := 0, dropbytes := 0, mbz := false }

/-- Exactly enough permits, one too few; exactly enough tokens; exactly room, and one too many. -/
theorem witness_QueueOperations : (aQueue 4 0).bad = false ∧ (aQueue 4 0).status = 1 ∧ 4 ≤ (aQueue 4 0).permits ∧ (aQueue 3 0).permits < 4 ∧
    4 ≤ (aQueue 0 4).tokens ∧ (aQueue 0 0).permits + (aQueue 0 0).tokens + 4 ≤ (aQueue 0 0).cap ∧ (aQueue 1 0).cap < (aQueue 1 0).permits + (aQueue 1 0).tokens + 4 := by
  decide

/-- A TQGET that waits at a queue in memory that has since got its token. -/
def waitMach (q : QObj) : State :=
  let a := { anAcc openLeaf with va := 0x100, pa := some 0x100 }
  let o := { anOp (.tqget (sWord 0x7C)) (.thread 2) [a] with b := [1] }
  let s := cached (opMach o) 0x100 (packQ q).toNat
  { s with mem := { s.mem with waiters := [{ op := 1, pa := 0x100, slice := sliceOf (homeDie s 0x100 0) 0x100, entry := true, queue := true, since := 0, hit := none, vm := 0 }] } }

/-- The waiter's request on the object as it stands: what is left of the queue. -/
def served (s : State) : Option (List Waiter × QKind × Nat) := match s.ops with
  | [o] => match o.accs with
    | [a] => match qread s (LReq.again s (opReq s o a)) 0x100 with
      | (z, .inr (q, _)) => match qwaiters z 0x100 with
        | [w] => match waiterReq z w with
          | some (p, r) => if z.ops = s.ops ∧ p = o then match qapply q r false false with
            | .word v (some _) => some ([w], r.kind, v)
            | _ => none
            else none
          | none => none
        | _ => none
      | _ => none
    | _ => none
  | _ => none

theorem witness_WaiterServed : (served (waitMach (aQueue 0 1))).map (fun x => (x.2.1, x.2.2)) = some (.get, 0) := by decide +kernel

/-- The tree at 4 GiB, its entries in their home slices: node 1 is live below node `parent`, node 2 is a root, both of context 0. -/
def treeMach (i : Instr) (parent : Nat) : State :=
  let s := treed { warpOp (anOp i (.warp 0 0) []) 0 with regs := { Regs.reset with dlstat := 1 } }
  let s := cached s (2 ^ 32) (2 ^ 512 * (3 + 2 ^ 64 * (1 + 2 ^ 48 * parent) + 2 ^ 192 * 5))
  cached s (2 ^ 32 + 128) (2 ^ 64)

theorem witness_TreeEvents :
    let s := treeMach (.tsettle (vWord 0x1B)) 2
    treeOn s = true ∧ nodeLive s 1 = true ∧ s.regs.dlstat.getLsbD 0 = true ∧ modB (vWord 0x1B) 1 = false ∧
    (let z := readNodes s (rollupNodes s 1)
     nodeWord z 1 3 = 5 ∧ nodeParent z 1 = 2 ∧ nodeLive z 2 = true) ∧
    (let t := treeMach (.tsettle (vWord 0x1B)) 3
     nodeLive (readNodes t (rollupNodes t 1)) 3 = false ∧ nodeLive t 1 = true) := by decide +kernel

/-- A node of another context is named by a structural word; a table with an entry to spare. -/
theorem witness_TreeOps : [0, 1, 3].all (fun p => let o := { anOp (.tnode (vWord 0x18)) (.warp 0 0) [] with a := [BitVec.ofNat 128 p], ctx := 7 }
      let s := { treeMach (.tnode (vWord 0x18)) 2 with ops := [o] }
      let z := readNodes (payNodes s o) (dedup (nodesRead s o 0))
      inFlightB s o 0 && (nth o.a 0).toNat % 2 ^ 16 == p && (nodesRead z o 0).all (fun k => !poisoned z (nodeLine z k)) &&
        (p == 0 || nodeLive z p == (p == 1)) && (p != 1 || nodeCtx z 1 != o.ctx)) = true ∧
    (∀ q, (anOp (.tnode (vWord 0x18)) (.warp 0 0) []).unit ≠ .thread q) := ⟨by decide +kernel, fun _ h => nomatch h⟩

theorem memBytes_nil (n : Nat) : ∀ b, memBytes [] b n = 0 := by
  induction n with
  | zero => exact fun _ => rfl
  | succ n ih => intro b; simp [memBytes, ih, look, unlistedByte]

theorem look_mem {α : Type} (d : α) : ∀ (m : SMap α) (k : Nat), look d m k = d ∨ ∃ p ∈ m, p.2 = look d m k
  | [], _ => .inl rfl
  | (j, v) :: t, k => by
    by_cases h : j = k
    · exact .inr ⟨(j, v), List.mem_cons_self, by simp [look, h]⟩
    · rcases look_mem d t k with e | ⟨p, hp, e⟩
      · exact .inl (by simp [look, h, e])
      · exact .inr ⟨p, List.mem_cons_of_mem _ hp, by simp [look, h, e]⟩

/-- In a tree at 4 GiB of which nothing is in memory and slices hold no line past the second, a live node is below 4. -/
theorem live_low {s : State} {k : Nat} (hd : s.mem.dram = []) (hf : s.mem.fabric = []) (hb : fld s.regs.treebase 51 22 = 1024)
    (hl : ∀ p ∈ s.mem.l2, p.2.line ≤ 2 ^ 25 + 1) (h : nodeLive s k = true) : k < 4 := by
  have hn : nodeAddr s k + 8 * 1 = 2 ^ 32 + 64 * k + 8 := by simp [nodeAddr, hb]
  cases hw : findL2 s (homeDie s (nodeAddr s k + 8 * 1) 0) ((nodeAddr s k + 8 * 1) / 128) with
  | none =>
    have hm : memRead s (128 * ((nodeAddr s k + 8 * 1) / 128)) 128 = 0 := by unfold memRead; split <;> simp [hd, hf, memBytes_nil]
    simp [nodeLive, nodeWord, cohRead, lineNow, hw, memLine, hm, bit, -Nat.reducePow] at h
  | some j =>
    have hj := List.find?_some hw
    simp only [Bool.and_eq_true, decide_eq_true_eq] at hj
    rcases look_mem L2Line.reset s.mem.l2 j with e | ⟨p, hp, e⟩
    · rw [getL2, e] at hj; exact absurd hj.1 (by decide)
    · have := hl p hp; rw [e] at this; have h2 := hj.2; rw [getL2] at h2; omega

theorem readNodes_held {s : State} {l : List Nat} (h : ∀ la ∈ dedup (l.map (nodeLine s)), (findL2 s (homeDie s (128 * la) 0) la).isSome = true) :
    readNodes s l = s := by
  unfold readNodes
  generalize dedup (l.map (nodeLine s)) = m at *
  induction m with
  | nil => rfl
  | cons a m ih => rw [List.foldl_cons, if_pos (h a List.mem_cons_self)]; exact ih (fun x hx => h x (List.mem_cons_of_mem _ hx))

theorem mem_dedup {x : Nat} : ∀ {l : List Nat}, x ∈ dedup l → x ∈ l
  | [], h => h
  | a :: t, h => by
    unfold dedup at h
    split at h
    · exact List.mem_cons_of_mem _ (mem_dedup h)
    · rcases List.mem_cons.mp h with e | e
      · exact e ▸ List.mem_cons_self
      · exact List.mem_cons_of_mem _ (mem_dedup e)

def settleOp : Op := { anOp (.tsettle (vWord 0x1B)) (.warp 0 0) [] with a := [1] }
def settleMach : State := { treeMach (.tsettle (vWord 0x1B)) 2 with ops := [settleOp] }
def settlePaid : State := payNodes settleMach settleOp

theorem settle_facts : settlePaid.mem.dram = [] ∧ settlePaid.mem.fabric = [] ∧ fld settlePaid.regs.treebase 51 22 = 1024 ∧
    settlePaid.mem.l2.all (fun p => decide (p.2.line ≤ 2 ^ 25 + 1)) = true ∧ nodeLive settlePaid 3 = false ∧
    [1, 2].all (fun k => nodeLine settlePaid k == 2 ^ 25 + k / 2 && (findL2 settlePaid (homeDie settlePaid (128 * nodeLine settlePaid k) 0) (nodeLine settlePaid k)).isSome &&
      !poisoned settlePaid (nodeLine settlePaid k)) = true ∧
    inFlightB settleMach settleOp 0 = true ∧ nodeLive settlePaid 1 = true ∧ nodeCtx settlePaid 1 = 0 ∧ nodeWorld settlePaid 1 = 0 ∧
    treeOn settleMach = true ∧ settleMach.regs.dlstat.getLsbD 0 = true ∧ namedNodes settlePaid settleOp 0 = [1] := by decide +kernel

theorem settle_read {k : Nat} (h : k ∈ nodesRead settlePaid settleOp 0) : k = 1 ∨ k = 2 := by
  obtain ⟨hd, hf, hb, hl, h3, -, -, -, -, -, -, -, hn⟩ := settle_facts
  have hs : nodesRead settlePaid settleOp 0 = dedup ([1] ++ [1].flatMap (subtree settlePaid)) := by
    rw [← hn]; simp only [nodesRead, settleOp, anOp, show modB (vWord 0x1B) 1 = false from by decide +kernel]; simp
  rw [hs] at h
  rcases List.mem_append.mp (mem_dedup h) with h | h
  · exact .inl (List.mem_singleton.mp h)
  · obtain ⟨x, -, hx⟩ := List.mem_flatMap.mp h
    have hk : nodeLive settlePaid k = true := (Bool.and_eq_true_iff.mp (List.mem_filter.mp hx).2).1
    have hm := live_low hd hf hb (fun p hp => of_decide_eq_true (List.all_eq_true.mp hl p hp)) hk
    have h0 : k ≠ 0 := fun e => by simp [nodeLive, e] at hk
    have h3' : k ≠ 3 := fun e => by rw [e, h3] at hk; cases hk
    omega

/-- TSETTLE of node 1: the lines of the nodes it reads are held, and none is poisoned; node 0 is not live. -/
theorem witness_Settle : (∀ k ∈ nodesRead settlePaid settleOp 0, poisoned settlePaid (nodeLine settlePaid k) = false) ∧
    readNodes settlePaid (dedup (nodesRead settlePaid settleOp 0)) = settlePaid ∧ inFlightB settleMach settleOp 0 = true ∧
    nodeLive settlePaid 1 = true ∧ nodeCtx settlePaid 1 = 0 ∧ nodeWorld settlePaid 1 = 0 ∧
    nodesRead settlePaid { settleOp with a := [] } 0 = [] ∧ nodeLive settlePaid 0 = false := by
  obtain ⟨-, -, -, -, -, h, hi, h1, hc, hw, -, -, -⟩ := settle_facts
  simp only [List.all_cons, List.all_nil, Bool.and_true, Bool.and_eq_true, Bool.not_eq_true'] at h
  refine ⟨fun k hk => ?_, readNodes_held fun la hla => ?_, hi, h1, hc, hw, by decide +kernel, by simp [nodeLive]⟩
  · rcases settle_read hk with e | e <;> subst e
    · exact h.1.2
    · exact h.2.2
  · obtain ⟨k, hk, e⟩ := List.mem_map.mp (mem_dedup hla)
    subst e
    rcases settle_read (mem_dedup hk) with e | e <;> subst e
    · exact h.1.1.2
    · exact h.2.1.2

/-- Some entry of the table is free: entry 3 is. -/
theorem witness_FreeNode : ∃ h, freeNode (treeMach (.tnode (vWord 0x18)) 2) = some h :=
  Option.isSome_iff_exists.mp (List.find?_isSome.mpr ⟨3, List.mem_map.mpr ⟨2, List.mem_range.mpr (by omega), rfl⟩, by decide +kernel⟩)

/-! ### Witnesses: the engines -/

/-- Words packed low first. -/
def packed (ws : List Nat) : Nat := ws.foldr (fun w n => w + 2 ^ 64 * n) 0

/-- A copy of thread 2 that is ready, its command block at 0x1000 and its record at 0x1080: a box of 8 by 1 words of n32, one part; or zeros. -/
def readyCopy : Copy := { aCopy with started := false, ccb := 0x1000, unit := .thread 2 }
def copyMach (good : Bool) : State :=
  let s : State := { State.reset with threads := [(2, Thread.reset)], copies := [readyCopy] }
  cached (cached (cached s 0 0) 0x1000 (if good then packed [0x1080, 0, 0, 0, 0, 0, 2 ^ 56, 0] else 0)) 0x1080
    (packed [0, 2 ^ 32 * 8 + 2 ^ 29 * 2 + 2 ^ 25 * 6 + 8, 1, 0, 2 ^ 48 + 32, 0, 0, 0])

theorem witness_CopyStart :
    (let d := (startChecks (copyMach false) readyCopy).2
     d.fatal ≠ 0) ∧
    (let d := (startChecks (copyMach true) readyCopy).2
     d.fatal = 0 ∧ (parseCcb d.ccb d.dsp d.parts d.coresel d.words).queue = 0 ∧ d.residue = 0) ∧
    findCopy (copyMach true) 0 = some readyCopy ∧ readyCopy.ready = true ∧ readyCopy.stopped = false ∧ engineLoad (copyMach true) 0 0 < 8 ∧
    engineQueue (copyMach true) readyCopy = false ∧ stashHeld (copyMach true) readyCopy = false := by decide +kernel

theorem witness_CopyComplete :
    let o := anOp (.xcopy (vWord 0x6A)) (.thread 2) []
    let c := { aCopy with arrivals := [(1, 0, 1)] }
    let s := { opMach o with copies := [c], time := 1 }
    findCopy s 0 = some c ∧ c.todo = [] ∧ c.missing = [] ∧ c.wct < s.time ∧ (copyGeo c).ccb.queue = 0 ∧ ownerHere s o = true ∧ o.phase = 0 ∧
    teamHolds s o.handle = false := by decide +kernel

/-- A front-end context that has posted a load: of no units, one, 1024 and 1025; and a core whose slot 0 is loading. -/
theorem witness_OverlayLoad :
    let p : W64 → State := fun v => fWith (fun f => { f with posted := some (0x14, v) })
    [0x0#64, 0x10#64, 0x4000#64, 0x4010#64].map (fun v => decide (1 ≤ fld v 14 4 ∧ fld v 14 4 ≤ 1024)) = [false, true, true, false] ∧
    (getFront (p 0x10) 0 0).posted = some (0x14, 0x10#64) ∧ ovlBusy (p 0x10) 0 = false ∧
    ovlBusy (setSlot (p 0x10) 0 0 { OvlSlot.reset with loading := some { front := 0, handle := 1, cmd := 0x10, ctx := 0, world := 0, sid := 0 } }) 0 = true := by decide +kernel

/-- The load of slot 0 by context 0: 64 bytes at address 0, which its slice holds. -/
def loadMach : State := setSlot (cached (paged fMach) 0 0x1234) 0 0 { OvlSlot.reset with loading := some { front := 0, handle := 1, cmd := 0x10, ctx := 0, world := 0, sid := 0 } }

theorem witness_OverlayLoadDone : (getSlot loadMach 0 0).loading = some { front := 0, handle := 1, cmd := 0x10#64, ctx := 0, world := 0, sid := 0 } ∧ (getFront loadMach 0 0).live = true ∧
    (match (devRead (ctxX loadMach 0 0 0 0) 0 (64 * fld 0x10#64 14 4 / 128 + 2) loadMach (BitVec.ofNat 64 (2 ^ 16 * fld 0x10#64 51 16)) 64).2 with
      | .inr d => decide (d = 0x1234)
      | .inl _ => false) = true ∧
    decide (getFront (devRead (ctxX loadMach 0 0 0 0) 0 (64 * fld 0x10#64 14 4 / 128 + 2) loadMach (BitVec.ofNat 64 (2 ^ 16 * fld 0x10#64 51 16)) 64).1 0 0 =
      getFront loadMach 0 0) = true := by decide +kernel

/-- A request for tile 2 from `core`, issued at cycle 0, that brings the word `i` as operation 1. -/
def aPart (i : Instr) (core : Nat) : MPart := { op := 1 + core, core := core, slot := 0, handle := 1, num := 0, instr := i, z := 0, rdySeq := 0, wrAt := 0, lost := false, issueAt := 0, world := 0 }
def aRequest (i : Instr) (core : Nat) : MReq := { tile := 2, parts := [aPart i core], issueAt := 0, core := core, world := 0, perform := true }
def pairMach (p : PairSt) (o : Op) : State := { opMach o with cyc := 1, pairs := [(0, p)], cores := [(0, vCore)] }

theorem witness_Matrix :
    let r := aRequest (.mzero (vWord 0x74)) 0
    let q := aRequest (.mzero (vWord 0x74)) 1
    let o := anOp (.mma { vWord 0x70 with ty := 0 }) (.thread 2) []
    let m := aRequest (.mma { vWord 0x70 with ty := 0 }) 0
    let s := { pairMach { PairSt.reset with reqs := [r] } o with cores := [] }
    (getPair s 0).reqs = [r] ∧ r.issueAt < s.cyc ∧ issuesBefore s 0 r.issueAt = false ∧ (getPair s 0).freeAt ≤ s.cyc ∧ (getCore s 0).latch = r.world ∧ (getCore s 1).latch = r.world ∧
    isDrainReq r = false ∧ sameReq r q = false ∧ r.core % 2 = 0 ∧ q.core % 2 = 1 ∧ q.issueAt = r.issueAt ∧
    (getPair (pairMach { PairSt.reset with granted := [m] } o) 0).granted = [m] ∧ partTainted (pairMach { PairSt.reset with granted := [m] } o) (aPart (.mma { vWord 0x70 with ty := 0 }) 0) = false ∧
    teamHolds s o.handle = false := by decide +kernel

/-- A drain of tile 2 whose descriptor is at 0x1000: register output of row 0 with a program of one word, END at 0x1080; or of no row, which R253 calls bad. -/
def aDrain : Drain :=
  { part := aPart (.mdrain (vWord 0x75)) 0, tile := 2, desc := 0x1000, started := false, fatal := 0, refTaken := false, words := [], written := 0,
    faulted := false, bytes := 0, flags := 0, regs := [], wct := 0 }
def drainMach (d : Drain) (good : Bool) : State :=
  let o := anOp (.mdrain (vWord 0x75)) (.thread 2) []
  let s := pairMach { PairSt.reset with drains := [d], granted := [aRequest (.mdrain (vWord 0x75)) 0] } o
  cached (cached s 0x1000 (if good then packed [0x1080, 8, 0, 0, 0, 256, 0, 0] else 0x1080)) 0x1080 0

def drainDesc (good : Bool) : Option DrainDesc :=
  let o := anOp (.mdrain (vWord 0x75)) (.thread 2) []
  let s := drainMach aDrain good
  match devWords (releaseStep s o 0).1 (opX (releaseStep s o 0).1 o) aDrain.desc 8 with
  | (z, .inr ws) => match devGet z (opX (releaseStep s o 0).1 o) (parseDrain ws).prog (4 * (parseDrain ws).plen) with
    | (_, .inr _) => some (parseDrain ws)
    | _ => none
  | _ => none

theorem witness_Drain :
    (drainDesc false).map (fun g => g.bad) = some true ∧ (drainDesc true).map (fun g => (g.bad, g.queue, g.kind, g.plen)) = some (false, 0, 0, 1) ∧
    epiBad 0 = false ∧ (drainDesc true).map (fun g => decide (g.dest.toNat % 4 = 0 ∧ g.dest.toNat + drainSpan g.ofmt ≤ 320)) = some true ∧
    (drainDesc true).map (fun g => (drainRanges g [0]).length) = some 0 ∧ (getWarp (drainMach aDrain true) 0 0).budget = 320 := by decide +kernel

theorem witness_DrainComplete :
    let o := anOp (.mdrain (vWord 0x75)) (.warp 0 0) []
    let d := { aDrain with started := true }
    let s := { pairMach { PairSt.reset with drains := [d], granted := [aRequest (.mdrain (vWord 0x75)) 0] } o with time := 1 }
    (getPair s 0).drains = [d] ∧ ownerHere s o = true ∧ o.unit = .warp d.part.core d.part.slot ∧ d.wct < s.time ∧ (parseDrain d.words).queue = 0 ∧
    instrDst o.instr = none ∧ o.id = d.part.op := by decide +kernel

/-- A slice of kind `k`, and one with a pipeline of one stage whose one furrow is moved by an engine end that has moved a slot. -/
def aSlice (k : Nat) : Slice :=
  { num := 0, thread := 2, st := .ready, deadline := 0, queue := 2, sid := 0, abslim := 0, budget := none, seq := 1, ctx := 0, world := 0, kind := k, diepol := 0,
    ordered := false, teams := 2, crec := 0x800, param := 0, cmd := [], shape := aTeam.shape, next := 0, root := [], spill := 0, splog := 0, sum := ExitSum.reset,
    pipe := none, killed := false, loss := none, retired := 0, formOps := 0 }
def aFurrow (src dst stage : Nat) : Furrow :=
  { queue := 0x200, ring := 0x400, ccb := 0x600, size := 1, slots := 1, src := src, dst := dst, moved := 0, overrun := 0, faults := 0, prodend := false,
    closed := false, unit := 0, slot := some 0, lack := [], stage := stage, words := [], stopped := false, wct := 0 }
def aStage : Stage :=
  { shape := aTeam.shape, min := 0, init := 1, max := 1, weight := 1, cur := 1, pend := 0, peer := 0, occ := 0, movesIn := 0, movesOut := 0, runs := 0,
    stalls := 0, ended := false, sum := ExitSum.reset }
def aPipe (fs : List Furrow) : Pipe :=
  { decl := 0, interval := 1, range := 1, stages := [aStage], furrows := fs, pool := [(0, some 0, none)], inited := true, t0 := some 0, samples := 0 }
def pipeMach (fs : List Furrow) (n : Nat) : State :=
  { State.reset with time := n, launch := { Launch.reset with slices := [{ aSlice 2 with pipe := some (aPipe fs), st := .resident }] } }

theorem witness_EngineEnds : ∀ p ∈ [(15, 0), (0, 15)],
    let o := { anOp (.tqput (sWord 0x7B)) (endUnit 0 0) [] with phase := 1, res := [0] }
    let s := { pipeMach [aFurrow p.1 p.2 4] 0 with ops := [o] }
    (findEnd s 0 0).isSome = true ∧ s.ops.find? (fun q => q.unit = endUnit 0 0) = some o ∧ o.phase ≠ 0 ∧ (nth o.res 0).toNat / 2 ^ 28 = 0 := by decide +kernel

/-! ### Witnesses: the ends of clauses and of warps -/

theorem one_first {s : State} {c i : Nat} {w : Warp} {e : FEntry} (h : w.frontier = [e]) (hc : codeSlots s c e.pc = [i]) : First s c w e i :=
  ⟨by simp [h], by simp [h], by simp [h], hc⟩

/-- The conditions of `Boundary`, decided. -/
def boundaryB (s : State) (c k : Nat) (w : Warp) : Bool :=
  decide (getWarp s c k = w) && w.live && decide (w.run = none) && !w.stopped && !w.parked && !w.frontier.isEmpty && decide (w.rejoins = []) &&
  (w.sheaf.isSome || (match findTeam s w.handle with
    | some m => decide (m.st = .running) && !m.saved
    | none => false)) && !bufferFull s c &&
  (getCore s c).warps.all (fun p => p.1 % 4 != k % 4 || p.1 == k || !p.2.live || (decide (p.2.run = none) && (p.2.parked || p.2.stopped)))

theorem boundaryB_boundary {s : State} {c k : Nat} {w : Warp} (h : boundaryB s c k w = true) : Boundary s c k w := by
  simp only [boundaryB, Bool.and_eq_true, decide_eq_true_eq, List.all_eq_true] at h
  obtain ⟨⟨⟨⟨⟨⟨⟨⟨⟨h1, h2⟩, h3⟩, h4⟩, h5⟩, h6⟩, h7⟩, h8⟩, h9⟩, h10⟩ := h
  refine ⟨h1, ⟨h2, h3, ⟨by simpa using h4, by simpa using h5⟩, by simpa using h6, ?_⟩, h7, by simpa using h9, fun p hp hq hn => ?_⟩
  · rw [Bool.or_eq_true] at h8
    refine h8.imp id fun h8 => ?_
    split at h8
    · rename_i m hm
      simp only [Bool.and_eq_true, decide_eq_true_eq, Bool.not_eq_true'] at h8
      exact ⟨m, hm, h8⟩
    · cases h8
  · have := h10 p hp
    simp only [Bool.or_eq_true, bne_iff_ne, ne_eq, beq_iff_eq, Bool.not_eq_true', Bool.and_eq_true, decide_eq_true_eq] at this
    rcases this with ((h | h) | h) | h
    · exact absurd hq h
    · exact absurd h hn
    · exact .inl h
    · exact .inr h

/-- Overlay 0 holding, at 0x1000, the header `hdr` and the word 0; at 0x2000 the header of a scalar clause. -/
def anOvl (hdr : W64) : OvlSlot :=
  { OvlSlot.reset with valid := true, len := 0x10000, code := memPut (memPut [] 0x1000 0xFFFF hdr.toNat 16) 0x2000 0xFFFF sHdr.toNat 16 }

/-- A warp of `aTeam` at 0x1000, in no clause. -/
def anEntry : FEntry := { key := 0, pc := 0x1000, word := 0, mask := 0xFFFFFFFF }
def idleWarp : Warp := { vWarp with run := none, frontier := [anEntry] }

/-- It stands before the clause `hdr` of overlay slot 0 or, without `some`, before an overlay that no slot holds. -/
def beginMach (w : Warp) (hdr : Option W64) : State :=
  let s := teamed { State.reset with cores := [(0, { Core.reset with warps := [(0, w)], fronts := [(0, { fUnit with run := none, pc := 0x2000 })] })] }
  match hdr with
  | some h => setSlot s 0 0 (anOvl h)
  | none => s

/-- The header's clause pops a decision; and one has been pushed for warp 0, then one for warps 0 and 1. -/
def popHdr : W64 := vHdr ||| 2 ^ 27
def popMach (w : Warp) (q : List DqEntry) : State := setFront (beginMach w (some popHdr)) 0 0 { fUnit with run := none, dq := q }
def dqOne : DqEntry := { mask := 3, target := some 0x3000, vbase := 4, vals := [7, 8] }

theorem badHeader_zero : BadHeader 0 0x1000 false := .inr (.inl (by decide))

/-- A header that a unit of this kind may begin, decided. -/
def goodB (hdr : W64) (pc : Addr) (sc : Bool) : Bool :=
  fld hdr 63 37 == 0 && fld hdr 25 22 != 0 && !(hdr.getLsbD 16 && decide (11 < fld hdr 15 12)) && !(hdr.getLsbD 21 && decide (11 < fld hdr 20 17)) &&
  (hdr.getLsbD 16 || fld hdr 15 12 == 0) && (hdr.getLsbD 21 || fld hdr 20 17 == 0) &&
  !(hdr.getLsbD 16 && hdr.getLsbD 21 && fld hdr 15 12 == fld hdr 20 17) && !(hdr.getLsbD 26 && hdr.getLsbD 27) && hdr.getLsbD 26 == sc &&
  decide (pc.toNat % 2 ^ 16 + 8 * fld hdr 25 22 < 2 ^ 16)

theorem goodB_good {hdr : W64} {pc : Addr} {sc : Bool} (h : goodB hdr pc sc = true) : ¬ BadHeader hdr pc sc := by
  simp only [goodB, Bool.and_eq_true, Bool.or_eq_true, Bool.not_eq_true', beq_iff_eq, bne_iff_ne, ne_eq, decide_eq_true_eq, Bool.and_eq_false_iff,
    decide_eq_false_iff_not] at h
  obtain ⟨⟨⟨⟨⟨⟨⟨⟨⟨h1, h2⟩, h3⟩, h4⟩, h5⟩, h6⟩, h7⟩, h8⟩, h9⟩, h10⟩ := h
  unfold BadHeader
  rintro (h | h | ⟨ha, hb⟩ | ⟨ha, hb⟩ | ⟨ha, hb⟩ | ⟨ha, hb⟩ | ⟨ha, hb, hc⟩ | ⟨ha, hb⟩ | h | h)
  · exact h h1
  · exact h2 h
  · simp_all
  · simp_all
  · simp_all
  · simp_all
  · simp_all
  · simp_all
  · exact h h9
  · omega

theorem waitClear_none : ∀ hdr, WaitClear [] hdr := fun _ _ _ _ => rfl

/-- Flag 0 is not clear. -/
theorem waits_flag : ¬ WaitClear [(0, 1)] (vHdr ||| 1) := fun h => absurd (h 0 (by decide) (by decide)) (by decide)

/-- Warp `w` stands alone before the clause `hdr`, which is good. -/
def beginB (w : Warp) (hdr : W64) : Bool :=
  boundaryB (beginMach w (some hdr)) 0 0 w && decide (w.frontier = [anEntry]) && decide (codeSlots (beginMach w (some hdr)) 0 anEntry.pc = [0]) &&
  decide (slotWord (beginMach w (some hdr)) 0 0 anEntry.pc = hdr) && goodB hdr anEntry.pc false

/-- A bad header is a word 0; a good one waits for flag 0 or for none; the warp lacks a lane and its clause has a word of the whole warp. -/
def wordOvl (hdr w : W64) : OvlSlot := { anOvl hdr with code := memPut [] 0x1000 0xFFFF (packed [hdr.toNat, w.toNat]) 16 }
def shflMach (w : Warp) : State := setSlot (beginMach w (some vHdr)) 0 0 (wordOvl vHdr 0x5200000000000000)

theorem witness_BadHeader : boundaryB (beginMach idleWarp (some 0)) 0 0 idleWarp = true ∧ codeSlots (beginMach idleWarp (some 0)) 0 anEntry.pc = [0] ∧
    slotWord (beginMach idleWarp (some 0)) 0 0 anEntry.pc = 0 ∧ idleWarp.sheaf = none := by decide +kernel

theorem witness_ClauseGoes : beginB idleWarp vHdr = true ∧ beginB idleWarp (vHdr ||| 1) = true ∧ vHdr.getLsbD 27 = false ∧ (vHdr ||| 1).getLsbD 27 = false ∧
    idleWarp.absent = 0 ∧ beginB { idleWarp with flags := [(0, 1)] } (vHdr ||| 1) = true := by decide +kernel

theorem witness_ClauseBlocked :
    (let w := { idleWarp with absent := 1 }
     boundaryB (shflMach w) 0 0 w = true ∧ codeSlots (shflMach w) 0 anEntry.pc = [0] ∧ slotWord (shflMach w) 0 0 anEntry.pc = vHdr ∧
     (clauseWords (shflMach w) 0 0 anEntry.pc vHdr).any wholeWarp = true ∧ w.absent ≠ 0) := by decide +kernel

/-- The clause pops: no decision names the warp, or the second does. -/
theorem witness_DecisionPop : goodB popHdr anEntry.pc false = true ∧ popHdr.getLsbD 27 = true ∧ anEntry.pc ∉ idleWarp.popFor ∧ rising 0 idleWarp.w = true ∧
    idleWarp.absent = 0 ∧ idleWarp.sheaf = none ∧
    (let q : List DqEntry := [{ dqOne with mask := 2 }]
     let s := popMach idleWarp q
     boundaryB s 0 0 idleWarp = true ∧ codeSlots s 0 anEntry.pc = [0] ∧ slotWord s 0 0 anEntry.pc = popHdr ∧ frontOf s 0 idleWarp.handle = some 0 ∧
     (getFront s 0 0).dq.all (fun d => !d.mask.getLsbD (localIndex s idleWarp)) = true) ∧
    (let s := popMach idleWarp [{ dqOne with mask := 2 }, dqOne]
     boundaryB s 0 0 idleWarp = true ∧ codeSlots s 0 anEntry.pc = [0] ∧ slotWord s 0 0 anEntry.pc = popHdr ∧ frontOf s 0 idleWarp.handle = some 0 ∧
     (getFront s 0 0).dq = [{ dqOne with mask := 2 }] ++ dqOne :: [] ∧ dqOne.mask.getLsbD (localIndex s idleWarp) = true ∧
     (2#48).getLsbD (localIndex s idleWarp) = false ∧ localIndex s idleWarp < 48) := by decide +kernel

theorem witness_Miss : boundaryB (beginMach idleWarp none) 0 0 idleWarp = true ∧ codeSlots (beginMach idleWarp none) 0 anEntry.pc = [] ∧
    idleWarp.frontier = [anEntry] := by decide +kernel

/-- Warps 0 and 4 share an issue slot: warp 4 is in a clause, or has been admitted earlier. -/
def duoMach (p : Warp) : State :=
  teamed { State.reset with cores := [(0, { Core.reset with warps := [(0, { idleWarp with admitted := 2 }), (4, p)] })] }

theorem witness_Urgent :
    (let p := vWarp
     getWarp (duoMach p) 0 0 = { idleWarp with admitted := 2 } ∧ (4, p) ∈ (getCore (duoMach p) 0).warps ∧ p.live = true ∧ p.run.isSome = true) ∧
    WarpReady (duoMach { idleWarp with admitted := 1 }) { idleWarp with admitted := 2 } ∧ WarpReady (duoMach { idleWarp with admitted := 1 }) { idleWarp with admitted := 1 } ∧
    Urgent (duoMach { idleWarp with admitted := 1 }) { idleWarp with admitted := 1 } { idleWarp with admitted := 2 } := by
  refine ⟨by decide +kernel, ?_, ?_, .inr ⟨by decide, by decide, ?_⟩⟩
  · exact ⟨rfl, rfl, ⟨rfl, rfl⟩, by decide, .inr ⟨aTeam, by decide +kernel, rfl, rfl⟩⟩
  · exact ⟨rfl, rfl, ⟨rfl, rfl⟩, by decide, .inr ⟨aTeam, by decide +kernel, rfl, rfl⟩⟩
  · exact .cons (.cons (.cons (.rel (by decide))))

/-- A front-end context before its clause at 0x2000; before an overlay that its core does not hold, with the stub at 0x2000 and without. -/
def stubMach (f : Front) : State := setFront (beginMach { idleWarp with parked := true } (some vHdr)) 0 0 f
def awayFront (n : Nat) (stub : W64) : Front := { fUnit with run := none, pc := 0x100000, ovlstub := stub, stack := List.replicate n 0 }

theorem witness_FrontBegin : (let f := { fUnit with run := none, pc := 0x2000 }
     let s := beginMach { idleWarp with parked := true } (some vHdr)
     getFront s 0 0 = f ∧ f.live = true ∧ f.stopped = false ∧ f.halted = false ∧ f.posted = none ∧ f.ovlpc.getLsbD 1 = false ∧ findTeam s f.handle = some aTeam ∧
     aTeam.st = .running ∧ aTeam.saved = false ∧ ((getCore s 0).warps.all (fun p => p.2.parked)) = true ∧ codeSlots s 0 f.pc = [0] ∧ slotWord s 0 0 f.pc = sHdr ∧
     goodB sHdr f.pc true = true ∧ f.flags = []) ∧
    [(15, 0x2000#64), (16, 0x2000), (0, 0), (0, 7)].map (fun a =>
      let f := awayFront a.1 a.2
      (decide (getFront (stubMach f) 0 0 = f), codeSlots (stubMach f) 0 f.pc, slotLoading (stubMach f) 0 f.pc, 8 * fld f.ovlstub 51 3 == 0, decide (f.stack.length < 16))) =
      [(true, [], false, false, true), (true, [], false, false, false), (true, [], false, true, true), (true, [], false, true, true)] ∧
    codeSlots (stubMach (awayFront 0 0x2000)) 0 0x2000 = [0] := by decide +kernel

/-- A halted context with no stub, whose warp stands before an overlay that its core does not hold. -/
def haltedMach : State := setFront (beginMach { idleWarp with parked := true } none) 0 0 { fUnit with run := none, pc := 0x2000, halted := true }

theorem witness_HaltedMiss : (let f := { fUnit with run := none, pc := 0x2000, halted := true }
     getFront haltedMach 0 0 = f ∧ f.live = true ∧ f.run = none ∧ f.stopped = false ∧ f.posted = none ∧ f.ovlpc.getLsbD 1 = false ∧ f.word = 0 ∧
     findTeam haltedMach f.handle = some aTeam ∧ aTeam.st = .running ∧ aTeam.saved = false ∧ fld f.ovlstub 51 3 = 0) ∧
    (let p := { idleWarp with parked := true }
     (getCore haltedMach 0).warps = [(0, p)] ∧ p.live = true ∧ p.handle = 1 ∧ p.sheaf = none ∧ p.frontier = [anEntry]) ∧
    codeSlots haltedMach 0 anEntry.pc = [] ∧ slotLoading haltedMach 0 anEntry.pc = false := by decide +kernel

/-- Thread 2 before its clause at 0x2000, whose line its home slice holds. -/
def goThread : Thread := { tUnit with run := none, pc := 0x2000 }
def threadMach : State := cached { State.reset with threads := [(2, goThread)] } 0x2000 sHdr.toNat

theorem witness_ThreadBegin : getThread threadMach 2 = goThread ∧ goThread.halt = false ∧ goThread.sleeping = none ∧ goThread.posted = none ∧
    goThread.stopReq = false ∧ goodB sHdr 0x2000 true = true ∧ goThread.flags = [] ∧
    (match threadWord threadMach 2 0x2000 with
      | (a, .inr hdr) => decide (hdr = sHdr) && decide (getThread a 2 = goThread) && (match threadWords 2 0x2000 (fld sHdr 25 22) 0 a with
        | (b, .inr ws) => decide (ws.length = 1) && decide (getThread b 2 = goThread)
        | _ => false)
      | _ => false) = true := by decide +kernel

theorem witness_Unpark : (let w := { idleWarp with parked := true }
     getWarp (beginMach w (some (vHdr ||| 1))) 0 0 = w ∧ w.frontier = [anEntry] ∧ codeSlots (beginMach w (some (vHdr ||| 1))) 0 anEntry.pc = [0] ∧
     slotWord (beginMach w (some (vHdr ||| 1))) 0 0 anEntry.pc = vHdr ||| 1 ∧ w.flags = [] ∧ w.absent = 0) ∧
    (let w := { idleWarp with parked := true, flags := [(0, 1)] }
     getWarp (beginMach w (some (vHdr ||| 1))) 0 0 = w ∧ codeSlots (beginMach w (some (vHdr ||| 1))) 0 anEntry.pc = [0]) := by decide +kernel

/-- Every unit at its clause's end; a stack without a diversion's return. -/
def overRun (hdr : W64) : ClauseRun := { theRun hdr with idx := 1, branches := [(0x3000, 1)], exits := 2, exitSt := [0, 5] }

theorem witness_ClauseEnds : (let w := { vWarp with run := some (overRun vHdr), frontier := [{ anEntry with pc := 0x3000 }] }
     let s := teamed { State.reset with cores := [(0, { Core.reset with warps := [(0, w)] })] }
     getWarp s 0 0 = w ∧ (overRun vHdr).words.length ≤ (overRun vHdr).idx ∧ w.sheaf = none ∧ findTeam s w.handle = some aTeam) ∧
    (let f := { fUnit with run := some (overRun sHdr), stack := [0x2000] }
     getFront (setFront fMach 0 0 f) 0 0 = f ∧ (∀ n ∈ [((3, 1) : Nat × Nat)], n.1 ≠ f.stack.length - 1) ∧ f.divRet = []) ∧ tUnit.run = some (theRun sHdr) ∧ (theRun sHdr).idx < (theRun sHdr).words.length ∧
    getThread (setThread tMach 2 { tUnit with run := some (overRun sHdr) }) 2 = { tUnit with run := some (overRun sHdr) } := by decide +kernel

/-- A warp whose lanes have all exited, of a team of one warp or of two, running, ending or held; and a sheaf. -/
def endWarp : Warp := { idleWarp with frontier := [], exited := 0xFFFFFFFF, wctmax := 3 }
def endMach (w : Warp) (m : Team) : State :=
  { State.reset with time := 1, cores := [(0, { Core.reset with warps := [(0, w)] })], launch := { Launch.reset with teams := [m], slices := [aSlice 1] } }
def duoTeam : Team := { aTeam with shape := { aTeam.shape with roles := [{ entry := 0x1000, warps := 2, budget := 320 }] } }

theorem witness_WarpEnds : endWarp.live = true ∧ endWarp.run = none ∧ endWarp.flags = [] ∧ endWarp.rejoins = [] ∧ endWarp.sheaf = none ∧
    getWarp (endMach endWarp aTeam) 0 0 = endWarp ∧ findTeam (endMach endWarp aTeam) 1 = some aTeam ∧ findTeam (endMach endWarp duoTeam) 1 = some duoTeam ∧
    duoTeam.ended + 1 < (duoTeam.shape.roles.map (fun r => r.warps)).foldl (· + ·) 0 ∧
    (aTeam.shape.roles.map (fun r => r.warps)).foldl (· + ·) 0 ≤ aTeam.ended + 1 ∧ aTeam.stage = none ∧ aTeam.isTask = false ∧ aTeam.wctmax < 1 ∧
    findSlice (endMach endWarp { aTeam with st := .ending }) 0 = some (aSlice 1) ∧ (aSlice 1).kind = 1 ∧
    findTeam (endMach endWarp { aTeam with st := .held }) 1 = some { aTeam with st := .held } ∧ (aSlice 1).killed = false ∧
    (let m := { aTeam with st := .ending, closed := true }
     findTeam (endMach endWarp m) 1 = some m ∧ (endMach endWarp m).time ≤ { m with wctmax := 1 }.wctmax) ∧
    (let w := { endWarp with handle := 0, sheaf := some { recs := [], done := 0, slice := 0, die := 0 } }
     let o := { anOp (.gres (vWord 0x17)) (.warp 0 0) [] with handle := 0 }
     w.sheaf.isSome = true ∧ (endMach w aTeam).ops = [] ∧ o.unit = .warp 0 0 ∧ ownerHere { endMach w aTeam with ops := [o] } o = true) := by decide +kernel

theorem witness_Rejoin : (let w := { idleWarp with absent := 1, rejoins := [({ anEntry with mask := 0 }, 1)] }
     getWarp (beginMach w none) 0 0 = w ∧ w.live = true ∧ w.run = none ∧ findTeam (beginMach w none) w.handle = some aTeam ∧ aTeam.st ≠ .held ∧
     1#32 &&& w.absent ≠ 0) := by decide +kernel

/-! ### Witnesses: launching -/

/-- The reads of a FORM all succeed. -/
def formB (s : State) (q : Nat) (va : W64) : Bool :=
  match formWords s (threadX s q) va 8 with
  | (s1, some cmd) => !cmdBad cmd && (match readCtx s1 q (fld (hqctl s q) 15 11) (parseCmd cmd).ctxd with
    | (s2, some cx) => match readShape s2 (descX cx.desc (fld (hqctl s q) 15 11)) (parseCmd cmd).shape with
      | (s3, some sh) => (if (parseCmd cmd).kind = 3 then shapeFits (workerShape sh) else shapeFits sh) &&
        (match readLink s3 (descX cx.desc (fld (hqctl s q) 15 11)) (parseCmd cmd) sh with
          | (s4, some _) => (List.range 256).any (fun n => (findSlice s4 n).isNone)
          | _ => false)
      | _ => false
    | _ => false)
  | _ => false

theorem freeSlice_some {s : State} (h : (List.range 256).any (fun n => (findSlice s n).isNone) = true) : ∃ n, freeSlice s = some n := by
  obtain ⟨n, hn, hf⟩ := List.any_eq_true.mp h
  have hm : n ∈ (List.range 256).filter (fun n => (findSlice s n).isNone) := List.mem_filter.mpr ⟨hn, hf⟩
  have hp := List.length_pos_of_mem hm
  have hk : Config.pick s.freeNo % Nat.max 1 ((List.range 256).filter (fun n => (findSlice s n).isNone)).length <
      ((List.range 256).filter (fun n => (findSlice s n).isNone)).length := by
    have h1 := Nat.mod_lt (Config.pick s.freeNo) (y := Nat.max 1 ((List.range 256).filter (fun n => (findSlice s n).isNone)).length) (by
      exact Nat.lt_of_lt_of_le Nat.one_pos (Nat.le_max_left 1 _))
    have h2 : Nat.max 1 ((List.range 256).filter (fun n => (findSlice s n).isNone)).length =
        ((List.range 256).filter (fun n => (findSlice s n).isNone)).length := Nat.max_eq_right hp
    rw [h2] at h1 ⊢
    exact h1
  exact ⟨_, List.getElem?_eq_getElem hk⟩

theorem formB_forms {s : State} {q : Nat} {va : W64} (h : formB s q va = true) : ∃ z x cx, readForm s q va = (z, some (x, cx)) := by
  unfold formB at h
  split at h
  · rename_i s1 cmd h1
    rw [Bool.and_eq_true, Bool.not_eq_true'] at h
    obtain ⟨hc, h⟩ := h
    split at h
    · rename_i s2 cx h2
      split at h
      · rename_i s3 sh h3
        rw [Bool.and_eq_true] at h
        obtain ⟨hf, h⟩ := h
        split at h
        · rename_i s4 l h4
          obtain ⟨n, hn⟩ := freeSlice_some h
          refine ⟨bumpFree s4, mkSlice s4 q n (parseCmd cmd) cmd (descX cx.desc (fld (hqctl s q) 15 11)) sh l, cx, ?_⟩
          simp only [readForm, formThen, h1, h2, h3, h4, hc, hf, hn]
          rfl
        · cases h
      · cases h
    · cases h
  · cases h

/-- Thread 2 has written SLICECMD; its command is in the lines of 0x1000. -/
def goV (op : Nat) : W64 := BitVec.ofNat 64 (0x1000 + 2 * op + 1)
def cmdMach (op : Nat) (xs : List Slice) : State :=
  { State.reset with threads := [(2, { Thread.reset with posted := some (0x1C, goV op) })], launch := { Launch.reset with slices := xs } }
/-- The GO has been taken and is to be performed. -/
def goMach (op : Nat) (xs : List Slice) : State := setThread (cmdMach op xs) 2 { Thread.reset with sliceGo := some (goV op), slicestat := 2 }

/-- A GO, while none is performed and while one is. -/
theorem witness_SliceGo : ∀ op ∈ [1, 2, 3], (goV op).getLsbD 0 = true ∧ fld (goV op) 2 1 = op ∧
    (getThread (cmdMach op []) 2).posted = some (0x1C, goV op) ∧ (getThread (cmdMach op []) 2).sliceGo = none ∧
    (getThread (setThread (cmdMach op []) 2 { getThread (cmdMach op []) 2 with sliceGo := some (goV 1) }) 2).sliceGo ≠ none ∧
    (getThread (goMach op []) 2).posted = none ∧ (getThread (goMach op []) 2).sliceGo = some (goV op) := by decide

/-- A grid of two teams in context 0, its descriptor at 0x1080 and its shape at 0x3000: one warp on one core. -/
def gridCmd (kind : Nat) : Nat := packed [0x1080, 0x3000, 0x800, 0, 2 + 2 ^ 56 * kind, 0, 0, 0]
def formMach (kind : Nat) (s : State) : State :=
  cached (cached (cached { paged s with launch := s.launch } 0x1000 (gridCmd kind)) 0x1080 (packed [0x10000, 0, 0, 0, 0, 0, 0, 0])) 0x3000
    (packed [0x1000, 0, 0, 0, 2 ^ 16 * 4 + 1, 0, 0x1000, 2 ^ 16 + 1])

theorem witness_SliceForm : formB (formMach 1 (goMach 1 [])) 2 0x1000 = true ∧
    BitVec.ofNat 64 (64 * fld (goV 1) 51 6) = 0x1000#64 := by decide +kernel

theorem witness_SliceFormRefused : (readForm (formMach 0 (goMach 1 [])) 2 0x1000).2.isNone = true := by decide +kernel

/-- The command's KIND is 1, 2 or 3; the first values outside; a grid of no team; 160 and 161 workers; DIEPOL 3; a CREC of 16. -/
theorem witness_FormFields : [gridCmd 1, gridCmd 0, gridCmd 4, packed [0, 0, 0, 0, 2 ^ 56], packed [0, 0, 0, 0, 161 + 3 * 2 ^ 56], packed [0, 0, 0, 0, 160 + 3 * 2 ^ 56],
    packed [0, 0, 0, 0, 1 + 6 * 2 ^ 32 + 2 ^ 56], packed [0, 0, 16, 0, 1 + 2 ^ 56]].map (fun n =>
      match formWords (cached (goMach 1 []) 0x1000 n) (threadX (cached (goMach 1 []) 0x1000 n) 2) 0x1000 8 with
      | (_, some ws) => decide (fld (ws.getD 4 0) 63 56 ∉ [1, 2, 3] ∨ fld (ws.getD 4 0) 34 33 = 3 ∨ (ws.getD 2 0).toNat % 32 ≠ 0 ∨ fld (ws.getD 4 0) 55 35 ≠ 0 ∨
        (fld (ws.getD 4 0) 63 56 = 1 ∧ fld (ws.getD 4 0) 31 0 = 0) ∨ (fld (ws.getD 4 0) 63 56 = 3 ∧ 160 < fld (ws.getD 4 0) 31 0))
      | _ => false) = [false, true, true, true, true, false, true, true] := by decide +kernel

/-- A slice that is stopped, and a word 5 at 0x1000, the budget it is resumed with. -/
theorem witness_SliceResume : findSlice (goMach 2 []) (fld (goV 2) 63 56) = none ∧
    (let x := { aSlice 1 with st := .stopped }
     let s := cached (goMach 2 [x]) 0x1000 5
     findSlice s (fld (goV 2) 63 56) = some x ∧ x.killed = false ∧ x.loss = none ∧
     (match devWords s (threadX s 2) 0x1000 1 with
       | (_, .inr ws) => ws
       | _ => []) = [5#64]) := by decide +kernel

/-- A slice without teams, one with a team, and one that is being killed, whose team is over. -/
theorem witness_SliceKill : findSlice (goMach 3 []) (fld (goV 3) 63 56) = none ∧
    findSlice (goMach 3 [aSlice 1]) (fld (goV 3) 63 56) = some (aSlice 1) ∧ (aSlice 1).pipe = none ∧ (aSlice 1).loss = none ∧ (aSlice 1).killed = false ∧
    (goMach 3 [aSlice 1]).launch.teams = [] ∧ (goMach 3 [aSlice 1]).ops = [] ∧ ((teamed (goMach 3 [aSlice 1])).launch.teams.map (fun m => m.handle)).Nodup ∧
    (let x := { aSlice 1 with killed := true, st := .stopped }
     let m := { aTeam with st := .ending, closed := true }
     let s := { goMach 3 [x] with time := 1, launch := { (goMach 3 [x]).launch with teams := [m] } }
     findSlice s (fld (goV 3) 63 56) = some x ∧ ∀ m ∈ s.launch.teams, m.closed = true ∧ m.wctmax < s.time) := by decide +kernel

/-- Two slices: the second has the earlier deadline. -/
def schedMach (xs : List Slice) : State := { State.reset with launch := { Launch.reset with slices := xs } }

theorem witness_HeadSlice : (let s := schedMach [{ aSlice 1 with deadline := 5 }, { aSlice 1 with num := 1 }]
     (headSlice s).map (fun p => (p.1.num, p.2)) = some (1, .team 0) ∧ sheavesFirst s = false ∧ (headItem s { aSlice 1 with deadline := 5 }).isSome = true ∧
     orderedWait s { aSlice 1 with deadline := 5 } = false) := by decide +kernel

/-- A team that no run holds (9 tiles), and one of one core of each world; a worker. -/
def oneShape : Shape := { aTeam.shape with tiles := 1, stash := 1 }
theorem witness_PlaceTeam :
    (let x := { aSlice 1 with shape := { oneShape with tiles := 9 } }
     headSlice (schedMach [x]) = some (x, .team 0) ∧ (findRun (schedMach [x]) (teamWant x x.shape)).isNone = true) ∧
    (let x := { aSlice 1 with shape := oneShape, world := 3 }
     headSlice (schedMach [x]) = some (x, .team 0) ∧ sheavesFirst (schedMach [x]) = false ∧ (schedMach [x]).launch.teams = [] ∧
     (match findRun (schedMach [x]) (teamWant x x.shape) with
       | some p => runReady (schedMach [x]) (teamWant x x.shape) p
       | none => false) = true) ∧
    (let x := { aSlice 3 with shape := oneShape }
     let s := { schedMach [x] with time := 1 }
     headSlice s = some (x, .worker) ∧ (match findRun s (teamWant x (workerShape x.shape)) with
       | some p => runReady s (teamWant x (workerShape x.shape)) p && decide (p.run.length = 1)
       | none => false) = true) := by decide +kernel

/-- Core 0 works for the task slice 0, its deque as given, its LFSR about to name core 2, which works for it too, or itself. -/
def workMach (dq : List DqRec) (task cyc : Nat) (st : SliceSt) (l : W16) : State :=
  { State.reset with
    cyc := cyc, cores := [(0, { Core.reset with worker := some 0, task := task, deque := dq, lfsr := l }), (2, { Core.reset with worker := some 0, deque := [.held [1], .held [2], .held [3]] })]
    launch := { Launch.reset with slices := [{ aSlice 3 with st := st }] } }

theorem witness_Tasks : (∀ p ∈ [(1, SliceSt.ready), (0, .stopped), (0, .ready)], let s := workMach [.held [0], .held [1]] p.1 64 p.2 1
     (getCore s 0).worker = some 0 ∧ (findSlice s 0).isSome = true ∧ (getCore s 0).deque = [.held [0]] ++ [.held [1]] ∧ s.launch.teams = []) ∧
    (∀ n ∈ [63, 64], let s := workMach [] 0 n .ready 1
     (getCore s 0).worker = some 0 ∧ (getCore s 0).task = 0 ∧ (getCore s 0).deque = [] ∧ (getCore s 0).probeAt + 64 = 64) ∧
    (∀ p ∈ [(1#16, 2), (0#16, 0)], let l := (getCore (workMach [] 0 64 .ready p.1) 0).lfsr
     160 * (0 / 160) + ((l <<< 1) ||| BitVec.ofNat 16 ((l.getLsbD 15 ^^ l.getLsbD 13) ^^ (l.getLsbD 12 ^^ l.getLsbD 10)).toNat).toNat % 160 = p.2) ∧
    (getCore (workMach [] 0 64 .ready 1) 2).worker = some 0 := by decide +kernel

/-- A record that stands in slot 1 of core 0's spill area is read back; where the area has no legal address, it is not. -/
theorem witness_SpilledRecords :
    (let x := { aSlice 3 with spill := 0x4000 }
     let s := cached (paged (workMach [.held [0], .spilled 1] 0 64 .ready 1)) 0x4020 (packed [0x1000, 7, 0, 0])
     (readRec s x 0 (.spilled 1)).2 = some [0x1000, 7, 0, 0] ∧ s.launch.teams = [] ∧ (getCore s 0).deque = [.held [0]] ++ [.spilled 1] ∧
     (readRecs x 0 [.held [1], .spilled 1] s).2 = some [[1], [0x1000, 7, 0, 0]]) ∧
    (let x := { aSlice 3 with spill := 2 ^ 52 }
     (readRec (workMach [] 0 64 .ready 1) x 0 (.spilled 1)).2 = none ∧ (readRecs x 2 [.held [1], .spilled 1] (workMach [] 0 64 .ready 1)).2 = none) := by decide +kernel

theorem witness_Budget : (let x := { aSlice 1 with budget := some 0 }
     findSlice (schedMach [x]) 0 = some x ∧ x.st ≠ .stopped ∧ pendingFrom (schedMach [x]) 0 < 4096) := by decide

/-- A team of no units that stops, or runs. -/
theorem witness_TeamHeld : (let m := { aTeam with st := .stopping }
     findTeam (endMach Warp.reset m) 1 = some m ∧ teamQuiet (endMach Warp.reset m) m = true) ∧ aTeam.st ≠ .stopping ∧
    findTeam (endMach Warp.reset aTeam) 1 = some aTeam := by decide +kernel

/-- A warp parked on flag 0, which a queue word that waits at its queue will clear, since time 0; SWAPCFG 20000 and a pool of 1 MiB. -/
def boundWarp : Warp := { idleWarp with parked := true, flags := [(0, 1)], boundSince := some 0 }
def boundMach (cfg : W64) : State :=
  let o := { anOp (.tqget (vWord 0x7A)) (.warp 0 0) [] with held := true }
  let s := beginMach boundWarp (some (vHdr ||| 1))
  { s with
    time := 20000, ops := [o], nextOp := 2, regs := { s.regs with swapcfg := cfg, imgpool := 0x10014 }
    launch := { s.launch with teams := [{ aTeam with shape := oneShape, stashLen := 0x100, tileLen := 1 }] }
    mem := { s.mem with waiters := [{ op := 1, pa := 0x80, slice := 0, entry := true, queue := false, since := 0, hit := none, vm := 0 }] } }

theorem one_slot {s : State} {c i : Nat} {pc : Addr} (h : codeSlots s c pc = [i]) : codeSlot s c pc = some i := by
  simp only [codeSlot, h, List.length_singleton, Nat.mod_one]
  rfl

theorem bound {s : State} {c k i : Nat} {e : FEntry} {l : List FEntry} (hp : ((getWarp s c k).parked && (getWarp s c k).blocked.isNone) = true)
    (hf : freshFrontier s c (getWarp s c k).frontier = e :: l) (hc : codeSlots s c e.pc = [i])
    (hw : (!flagsClear (getWarp s c k).flags (fld (slotWord s c i e.pc) 11 0) && (s.ops.filter (fun o => o.unit = .warp c k && ownerHere s o &&
      (fld (slotWord s c i e.pc) 11 0).testBit o.flag)).all (isMonitorWait s)) = true) : monitorBound s c k = true := by
  simp only [monitorBound, waitsOnly, hp, hf, one_slot hc, Bool.true_and]
  exact hw

theorem boundMach_bound : monitorBound (boundMach 20000) 0 0 = true :=
  bound (e := { anEntry with key := entryKey (boundMach 20000) 0 0x1000 }) (l := []) (i := 0) (by decide +kernel) rfl (by decide +kernel) (by decide +kernel)

theorem witness_SwapOut : (let s := boundMach 20000
     ∃ m, findTeam s 1 = some m ∧ m.saved = false ∧ m.st = .running ∧ fld s.regs.swapcfg 31 0 ≠ 0 ∧ fld (boundMach 0).regs.swapcfg 31 0 = 0 ∧
     teamWarps s 1 = [(0, 0)] ∧ monitorBound s 0 0 = true ∧ (getWarp s 0 0).boundSince = some 0 ∧ fld s.regs.swapcfg 31 0 ≤ s.time - 0 ∧ rising 0 s.cores = true ∧
     rising 0 (getCore s 0).warps = true ∧ (poolFor s m).isSome = true) ∧
    (let m := { aTeam with st := .held, why := some .swap }
     findTeam (endMach Warp.reset m) 1 = some m ∧ m.imgLen = 0 ∧ poolFor (endMach Warp.reset m) m = none) ∧
    (let m := { aTeam with st := .held, why := some .swap, imgLen := 272 }
     findTeam (endMach Warp.reset m) 1 = some m ∧ m.imgLen ≠ 0 ∧ m.wctmax < (endMach Warp.reset m).time ∧ m.stage = none) := by
  refine ⟨⟨{ aTeam with shape := oneShape, stashLen := 0x100, tileLen := 1 }, ?_⟩, by decide +kernel, by decide +kernel⟩
  exact ⟨by decide +kernel, rfl, rfl, by decide +kernel, by decide +kernel, by decide +kernel, boundMach_bound, by decide +kernel, by decide +kernel,
    by decide +kernel, by decide +kernel, by decide +kernel⟩

/-- The image of a team of one core with one warp of 32 registers and no tile, in the pool, its lines held by their home slices; or zeros. -/
def poolTeam : Team :=
  { aTeam with
    shape := { aTeam.shape with roles := [{ entry := 0x1000, warps := 1, budget := 32 }], tiles := 0, stash := 1 }, stashLen := 0x100, tileLen := 0, tileBase := 0
    saved := true, st := .held, pool := some 0x10000, readyAgain := true, imgLen := 1 }
def poolSliceOf : Slice := { aSlice 1 with shape := poolTeam.shape, next := 2 }
def poolMach : State :=
  { withCtx State.reset { id := 0, desc := [0x10000, 0, 0], htab := [] } with
    launch := { (withCtx State.reset { id := 0, desc := [0x10000, 0, 0], htab := [] }).launch with slices := [poolSliceOf], teams := [poolTeam] } }
def poolImage : Nat × Nat := imageNat poolMach { poolTeam with saved := false } none 0
def poolLines (s : State) : State :=
  (List.range ((poolImage.2 + 127) / 128)).foldl (fun s i => cached s (0x10000 + 128 * i) (getB poolImage.1 (128 * i) 128)) s

theorem witness_PoolRestoreRefused : (let s := cached (cached poolMach 0x10000 0) 0x10080 0
     headSlice s = some (poolSliceOf, .saved 1) ∧ sheavesFirst s = false ∧ findTeam s 1 = some poolTeam ∧
     (match (readImage s poolX 0x10000).2 with
       | .inl c => c == 5
       | .inr _ => false) = true) := by decide +kernel

theorem witness_PoolRestore : (let s := poolLines poolMach
     (match readImage s poolX 0x10000 with
       | (z, .inr (k, img)) => decide (k.old = findTeam s k.hdr.handle) && decide (k.hdr.world = 0) && (match restorePlace z k img with
         | .placed p start => rising 0 p.host.savectr && (rebuild p k start img).2
         | _ => false)
       | _ => false) = true) := by decide +kernel

/-- No worker's core takes the team of a slice of tasks. -/
theorem witness_PoolRestoreNowhere : (let x := { poolSliceOf with kind := 3 }
     let s := { poolLines poolMach with launch := { (poolLines poolMach).launch with slices := [x] } }
     headSlice s = some (x, .saved 1) ∧ sheavesFirst s = false ∧ findTeam s 1 = some poolTeam ∧ (match readImage s poolX 0x10000 with
       | (z, .inr (k, img)) => (match restorePlace z k img with
         | .none => true
         | _ => false)
       | _ => false) = true) := by decide +kernel

/-- A pipeline of one stage with one furrow into it, whose queue object the slice's tables reach, sampled at time 0 and now at `n`. -/
def tillMach (ctl : W64) (st : SliceSt) (n : Nat) : State :=
  let q : QObj := { QObj.zero with cap := 4, tokens := 1, permits := 3 }
  let s := cached (paged (pipeMach [{ aFurrow 15 0 0 with queue := 0x200 }] n)) 0x200 (packQ q).toNat
  { s with
    regs := { s.regs with tilctl := ctl }
    launch := { s.launch with slices := s.launch.slices.map (fun x => { x with st := st }) } }

theorem witness_TillerSample : (∀ p ∈ [(0, SliceSt.resident, 999), (0, .resident, 1000), (1, .stopped, 1000), (3, .resident, 1000)],
     let s := tillMach (BitVec.ofNat 64 p.1) p.2.1 p.2.2
     ∃ x ∈ s.launch.slices, findSlice s 0 = some x ∧ x.st = p.2.1 ∧ (x.pipe.map (fun r => (r.samples, r.t0, r.interval))) = some (0, some 0, 1)) ∧
    (let s := tillMach 3 .resident 1000
     (match findSlice s 0 with
       | some x => match x.pipe with
         | some p => decide (p.stages ≠ []) && p.stages.all (fun g => !g.ended) && p.furrows.all (fun f => !f.prodend && !f.closed && f.stage != 2) &&
           (List.range p.stages.length).all (fun j => p.furrows.any (fun f => f.dst = j)) &&
           decide (((sampleQueues (setSlice s { x with pipe := some { p with samples := 1 } }) x (poolCore p) p.furrows).2.map (fun q => (q.tokens, q.cap))) = [(1, 4)])
         | none => false
       | none => false) = true ∧ s.regs.tilctl.getLsbD 0 = true ∧ s.regs.tilctl.getLsbD 1 = true) := by decide +kernel

/-- The host asks for context 0's end: there is no such context, it has a slice, one is being destroyed, or nothing of it is left. -/
def destroyMach (s : State) : State := { s with host := { s.host with regq := [(0x2D, 3)] } }
def destroying (s : State) : State := { s with regs := { s.regs with ctxGo := some 0 } }

theorem witness_ContextDestroy : fld (3 : W64) 31 16 = 0 ∧ (destroyMach State.reset).host.regq = [(0x2D, 3)] ∧ findCtx State.reset 0 = none ∧
    (∃ x ∈ (schedMach [aSlice 1]).launch.slices, x.ctx = 0) ∧ (findCtx (paged State.reset) 0).isSome = true ∧ (paged State.reset).launch.slices = [] ∧
    (paged State.reset).launch.teams = [] ∧ (paged State.reset).regs.ctxGo = none ∧ (destroying State.reset).regs.ctxGo.isSome = true := by decide +kernel

theorem witness_ContextDestroyed : (∀ v t, ¬ Taken (destroying (paged State.reset)) .host 0x2D v t) ∧
    ctxBusy (destroying (paged State.reset)) 0 = false ∧ (destroying (paged State.reset)).launch.slices = [] ∧
    ctxBusy { destroying (paged State.reset) with ops := [anOp (.st (vWord 0x59)) (.warp 0 0) []] } 0 = true :=
  ⟨fun _ _ h => absurd h.choose_spec.1 (by simp [destroying, paged, cached, setL2, withCtx, State.reset, HostIf.reset]), by decide +kernel, rfl, by decide +kernel⟩

/-! ### Witnesses: the Gleaner -/

/-- A lane's record of cause `c` from core 0, its writes over at time 5; a whole warp's. -/
def aRec (k : RecKind) (c : Nat) : TrapRec :=
  { kind := k, unit := .warp 0 0, lane := 0, handle := 1, num := 0, slice := 0, count := 0, pc := 0x1000, wordv := 0, srca := 0, srcb := 0, srcc := 0,
    cause := BitVec.ofNat 8 c, prio := 0, widx := 0, half := false, didx := 0, world := 0, ctx := 0, detail := 0, addr := 0, mask := 1, filed := 0, wait := 5, direct := false }

/-- Core 0 has filed nothing yet of `rs`; context 0 handles cause 1 in a warp of 32 registers at 0x8000, or no cause; `g` are its die's cribs and sheaves. -/
def filedMach (handled : Bool) (rs : List TrapRec) (g : Gleaner) (time : Nat) : State :=
  let s := withCtx { State.reset with time := time, cores := [(0, { Core.reset with trapBuf := rs })], gleaners := [(0, g)] }
    { id := 0, desc := [0x10000, 0, 0], htab := if handled then [0, 0x0400000000008000] else [] }
  { s with launch := { s.launch with slices := [aSlice 1] } }
def aCrib (n : Nat) : Crib := { cause := 1, world := 0, ctx := 0, recs := List.replicate n (aRec .lane 1) }
def otherCribs (n : Nat) : List Crib := List.replicate n { aCrib 1 with cause := 2 }
def countOf (g : Gleaner) : Nat := ((g.cribs ++ g.waiting).map (fun x => x.recs.length)).foldr (· + ·) 0

theorem witness_Filing :
    (getCore State.reset 0).trapBuf = [] ∧
    (∀ p ∈ [(RecKind.lane, 1, 5), (.lane, 1, 6), (.warp, 32, 0), (.front, 5, 0), (.lane, 5, 6)],
      let s := filedMach true [aRec p.1 p.2.1] Gleaner.reset p.2.2
      (getCore s 0).trapBuf = aRec p.1 p.2.1 :: [] ∧ s.holds = [] ∧ awaitsRing s (aRec p.1 p.2.1) = false ∧ pendingFrom s 0 < 4096) ∧
    ctxHtab (filedMach true [] Gleaner.reset 6) 0 1 ≠ 0 ∧ ctxHtab (filedMach false [] Gleaner.reset 6) 0 1 = 0 ∧ (aRec .lane 1).cause ≠ 5 ∧
    (aRec .warp 0x20).kind ≠ .lane ∧ (aRec .lane 1).wait < 6 ∧ ¬ (aRec .lane 1).wait < 5 ∧ ({ aRec .warp 0x21 with direct := true } : TrapRec).wait < 6 ∧
    4096 ≤ pendingFrom { filedMach false [aRec .lane 1] Gleaner.reset 6 with threads := [(2, { Thread.reset with pending := List.replicate 4096 (aRec .lane 1) })] } 0 := by
  decide +kernel

/-- A fault record of context 0, cause 5 and page 0 waits for the ring. -/
def waitsRing : FaultRec := { aFault with words := [0, 0, 0, 0, 0, 5 * 2 ^ 24, 0, 0] }

/-- A translation fault's record: its own fault record has still to be written; or its context's ring descriptor, which a slice holds, names thread 9. -/
theorem witness_FilingByRing :
    (let s := filedMach true [aRec .front 5] Gleaner.reset 6
     awaitsRing { s with mem := { s.mem with faults := [(0, [waitsRing])] } } (aRec .front 5) = true) ∧
    (let s := filedMach true [aRec .front 5] Gleaner.reset 6
     let p := ringThread s (aRec .front 5)
     p.2 = none ∧ p.1.holds = [] ∧ pendingFrom p.1 0 < 4096) ∧
    (let s := paged (filedMach true [aRec .front 5] Gleaner.reset 6)
     let s := { s with launch := { s.launch with ctxs := [{ id := 0, desc := [0x10000, 0x3000, 0], htab := [] }] }, regs := { s.regs with dlstat := 1 } }
     let p := ringThread (cached s 0x3000 (packed [0x4000, 6 + 2 ^ 32 * 9, 0, 0])) (aRec .front 5)
     p.2 = some 9 ∧ p.1.holds = [] ∧ pendingFrom p.1 0 < 4096) := by decide +kernel

theorem witness_Cribs :
    (let g : Gleaner := { cribs := otherCribs 63, waiting := [], resolving := [] }
     countOf g < 2048 ∧ g.cribs.length < 64 ∧ g.cribs.all (fun x => x.cause != 1) = true) ∧
    (∀ n ∈ [30, 31], let g : Gleaner := { cribs := otherCribs 1 ++ aCrib n :: otherCribs 1, waiting := [], resolving := [] }
     countOf g < 2048 ∧ g.cribs = otherCribs 1 ++ aCrib n :: otherCribs 1 ∧ (otherCribs 1).all (fun x => x.cause != 1) = true ∧ (aCrib n).recs.length = n) ∧
    2048 ≤ countOf { cribs := [], waiting := List.replicate 64 (aCrib 32), resolving := [] } := by decide +kernel

/-- A record of core 3, filed in this cycle, goes before one of core 0 that is still to come. -/
theorem witness_LaterInCycle : (let r := aRec .lane 1
     let p := { r with unit := .warp 3 0, filed := 9 }
     p.filed = 9 ∧ fileRank r = [0, 0, 0] ∧ fileRank p = [3, 0, 0]) ∧ List.Lex (· < ·) (fileRank (aRec .lane 1)) [3, 0, 0] :=
  ⟨by decide, .rel (by decide)⟩

/-- A record of core 0 whose writes are over goes before one of core 1; a sheaf in its place holds a later one. -/
theorem witness_EarlierInCycle : (let r := { aRec .lane 1 with unit := .warp 1 0 }
     let s := { filedMach true [aRec .lane 1] Gleaner.reset 6 with
       cores := [(0, { Core.reset with trapBuf := [aRec .lane 1] }), (1, { Core.reset with trapBuf := [r] })] }
     dieOf 0 = 0 ∧ recDie (aRec .lane 1) = 0 ∧ (aRec .lane 1).direct = false ∧ (aRec .lane 1).wait < s.time ∧ fileRank (aRec .lane 1) = [0, 0, 0] ∧
     fileRank r = [1, 0, 0] ∧ (getCore s 1).trapBuf = [r] ∧ (0, { Core.reset with trapBuf := [aRec .lane 1] }) ∈ s.cores) ∧
    (formedCribs (filedMach true [] { Gleaner.reset with waiting := [aCrib 32] } 6) 0 = [aCrib 32]) := by decide +kernel

/-- A warp that waits at its clause's header for absent lanes is blocked now. -/
theorem blocked_now {s : State} {c k i : Nat} {e : FEntry} {l : List FEntry}
    (hw : ((getWarp s c k).live && (getWarp s c k).run.isNone && !(getWarp s c k).stopped && (getWarp s c k).rejoins.isEmpty && warpMayRun s (getWarp s c k) &&
      (getWarp s c k).blocked.isSome) = true)
    (hf : freshFrontier s c (getWarp s c k).frontier = e :: l) (hc : codeSlots s c e.pc = [i])
    (hh : (headerOk (slotWord s c i e.pc) e.pc false && !bit (slotWord s c i e.pc) 27 && flagsClear (getWarp s c k).flags (fld (slotWord s c i e.pc) 11 0) &&
      decide ((getWarp s c k).absent ≠ 0) && ((List.range (hdrCount (slotWord s c i e.pc))).map (fun j => slotWord s c i (e.pc + BitVec.ofNat 52 (8 * (j + 1))))).any wholeWarp) =
      true) : blockedNow s c k = true := by
  simp only [Bool.and_eq_true, Bool.not_eq_true', decide_eq_true_eq] at hw hh
  obtain ⟨⟨⟨⟨h1, h2⟩, h3⟩, h4⟩, h5⟩ := hh
  obtain ⟨⟨⟨⟨⟨g1, g2⟩, g3⟩, g5⟩, g6⟩, g4⟩ := hw
  have hb : (boundary s c (getWarp s c k)).isBlocked = true := by
    simp only [boundary, hf, one_slot hc, h1, h2, h3, h5, decide_eq_true h4, Bool.and_self, Bool.not_true, Bool.not_false, Bool.true_or, Bool.false_and,
      Bool.false_eq_true, if_false, if_true]
    rfl
  simp [blockedNow, g1, g2, g3, g4, g5, g6, hb]

/-- Warp 0 of the record's team waits for lane 0, whose record its die's one crib holds, since time 0. -/
def blockedWarp : Warp := { idleWarp with absent := 1, blocked := some 0, parked := true }
def blockedMach (cyc time lim : Nat) : State :=
  let s := shflMach blockedWarp
  { s with
    cyc := cyc, time := time, gleaners := [(0, { cribs := [aCrib 1], waiting := [], resolving := [] })]
    launch := { s.launch with slices := [{ aSlice 1 with abslim := lim }] } }

theorem blockedMach_words (s : State) (h : s.cores = (shflMach blockedWarp).cores) : (headerOk (slotWord s 0 0 0x1000) 0x1000 false && !bit (slotWord s 0 0 0x1000) 27 &&
    flagsClear (getWarp s 0 0).flags (fld (slotWord s 0 0 0x1000) 11 0) && decide ((getWarp s 0 0).absent ≠ 0) &&
    ((List.range (hdrCount (slotWord s 0 0 0x1000))).map (fun j => slotWord s 0 0 (0x1000 + BitVec.ofNat 52 (8 * (j + 1))))).any wholeWarp) = true := by
  simp only [slotWord, getSlot, getWarp, getCore, h]
  decide +kernel

theorem blockedMach_slots (s : State) (h : s.cores = (shflMach blockedWarp).cores) : codeSlots s 0 0x1000 = [0] := by
  simp only [codeSlots, getSlot, getCore, h]
  decide +kernel

theorem blockedMach_blocked (cyc time lim : Nat) : blockedNow (blockedMach cyc time lim) 0 0 = true :=
  blocked_now (e := { anEntry with key := entryKey (blockedMach cyc time lim) 0 0x1000 }) (l := []) (i := 0) rfl rfl (blockedMach_slots (blockedMach cyc time lim) rfl)
    (blockedMach_words (blockedMach cyc time lim) rfl)

/-- Its window of 4096 cycles is over, or an eighth of it with a warp blocked on an absent lane. -/
theorem witness_CribWindow :
    (∀ n ∈ [511, 512], (getGleaner (blockedMach n 6 0) 0).cribs[0]? = some (aCrib 1) ∧ fld (ctxHtab (blockedMach n 6 0) 0 0) 31 0 = 0 ∧
      (aRec .lane 1).filed = 0 ∧ originWarp (blockedMach n 6 0) (aRec .lane 1) = some (0, 0) ∧ (blockedMach n 6 0).cyc = n) ∧
    (∀ n, blockedNow (blockedMach n 6 0) 0 0 = true) ∧
    (∀ n ∈ [4095, 4096], let s := { filedMach true [] { cribs := [aCrib 1], waiting := [], resolving := [] } 6 with
        cyc := n, cores := [(0, { Core.reset with warps := [(0, vWarp)] })] }
      (getGleaner s 0).cribs[0]? = some (aCrib 1) ∧ fld (ctxHtab s 0 0) 31 0 = 0 ∧ originWarp s (aRec .lane 1) = some (0, 0) ∧ blockedNow s 0 0 = false) :=
  ⟨by decide +kernel, fun n => blockedMach_blocked n 6 0, by decide +kernel⟩

/-- A crib of world 1, which no core latches yet: an idle core will. -/
theorem witness_SheafPlace : (let x := { aCrib 32 with world := 1 }
     let s := filedMach true [] { cribs := [], waiting := [x], resolving := [] } 6
     (getGleaner s 0).waiting = [x] ∧ (sheafCore s 0 x).isSome = true ∧ x.recs.length ≤ 32 ∧ x.cause.toNat = 1) ∧
    (getGleaner State.reset 0).waiting = [] := by decide +kernel

/-- A warp blocked since time 0 at its clause boundary; its slice has no limit on absence, or one of 1024 counts; and one whose lanes are back. -/
theorem witness_AbsentTimeout : (∀ p ∈ [(0, 5000), (1, 1023), (1, 1024)],
    let w := blockedWarp
    let s := blockedMach 0 p.2 p.1
    getWarp s 0 0 = w ∧ w.frontier = [anEntry] ∧ codeSlots s 0 anEntry.pc = [0] ∧ w.live = true ∧ w.run = none ∧ w.stopped = false ∧ w.sheaf = none ∧
      findSlice s w.slice = some { aSlice 1 with abslim := p.1 }) ∧ (∀ n, blockedNow (blockedMach 0 n 1) 0 0 = true) ∧
    (∃ w, getWarp (setWarp (blockedMach 0 1024 1) 0 0 { blockedWarp with absent := 0, live := false }) 0 0 = w ∧ w.blocked = some 0 ∧
      blockedNow (setWarp (blockedMach 0 1024 1) 0 0 { blockedWarp with absent := 0, live := false }) 0 0 = false) :=
  ⟨by decide +kernel, fun n => blockedMach_blocked 0 n 1, _, rfl, by decide +kernel, by decide +kernel⟩

/-- Thread 2 sleeps in the word SLEEP of a register it names, until time 5 or without end. -/
theorem witness_SleepWake : (∀ p ∈ [(0, 0), (5, 4), (5, 5)],
    let x := { tUnit with run := some { theRun sHdr with words := [0x0E70201400000E00], idx := 1 }, sleeping := some (BitVec.ofNat 64 p.1) }
    let s := { tMach with threads := [(2, x)], time := p.2 }
    (getThread s 2).sleeping = some (BitVec.ofNat 64 p.1) ∧ x.wakest = 0 ∧ rising 0 x.s = true ∧
    (x.run.map (fun r => r.words[r.idx - 1]?)) = some (some 0x0E70201400000E00#64)) ∧ fld 0x0E70201400000E00#64 51 43 < 64 ∧
    ({ tUnit with wakest := 8 }).wakest ≠ 0 := by decide +kernel

/-! ### Witnesses: the whole machine -/

/-- A word that its encoding can hold, a reserved word and a paired one with a reserved POP. -/
theorem witness_DecodeEncode : (Instr.add (vWord 0x20)).encodable = true ∧ (encode (.add (vWord 0x20))).isSome = true ∧
    (0x7700000000000000#64).getLsbD 63 = false ∧ (0xF000000000000000#64 ||| 13 * 2 ^ 54).getLsbD 63 = true := by decide +kernel

/-- `vMach` with a turn of its warp to come. -/
def turnMach : State := { vMach with sched := [{ dt := 1, dc := 1, ds := 0, act := .unit (.warp 0 0) }] }

theorem turnMach_core (c : Nat) : getCore turnMach c = vCore ∨ getCore turnMach c = Core.reset := by
  show look Core.reset [(0, vCore)] c = vCore ∨ look Core.reset [(0, vCore)] c = Core.reset
  by_cases h : 0 = c <;> simp [look, h]

theorem vCore_warp (k : Nat) : look Warp.reset vCore.warps k = vWarp ∨ look Warp.reset vCore.warps k = Warp.reset := by
  show look Warp.reset [(0, vWarp)] k = vWarp ∨ look Warp.reset [(0, vWarp)] k = Warp.reset
  by_cases h : 0 = k <;> simp [look, h]

theorem turnMach_warp (c k : Nat) : getWarp turnMach c k = vWarp ∨ getWarp turnMach c k = Warp.reset := by
  unfold getWarp
  rcases turnMach_core c with h | h
  · rw [h]; exact vCore_warp k
  · rw [h]; exact .inr rfl

theorem turnMach_inv : MachineInv turnMach where
  memory := ⟨rfl, rfl⟩
  stash c := by rcases turnMach_core c with h | h <;> (rw [h]; rfl)
  code c i := by unfold getSlot; rcases turnMach_core c with h | h <;> (rw [h]; rfl)
  numbered := fun o ho => absurd ho List.not_mem_nil
  maps := by decide
  units c := by rcases turnMach_core c with h | h <;> (rw [h]; exact ⟨rfl, rfl⟩)
  warps c k := by rcases turnMach_warp c k with h | h <;> (rw [h]; exact ⟨rfl, rfl, rfl, rfl⟩)
  scalars u := by
    cases u with
    | warp c k => rfl
    | front c k => show rising 0 (getFront turnMach c k).s = true; unfold getFront; rcases turnMach_core c with h | h <;> (rw [h]; rfl)
    | thread q => rfl
  reserved := ⟨by decide, by decide, by decide, by decide, by decide, by decide, by decide, by decide, by decide, fun _ =>
    (by decide : Thread.reset.slicestat &&& 0xFFFFFFFFFFFF00F9#64 = 0 ∧ Thread.reset.slicecmd &&& 0x00F0000000000039#64 = 0 ∧
      Thread.reset.tlbicmd &&& 0xFFFFFFFF0000FCF9#64 = 0)⟩

theorem witness_MachineInvariant : MachineInv turnMach ∧ ∃ t, step turnMach = .next t := by
  refine ⟨turnMach_inv, ?_⟩
  have h : (match step turnMach with
    | .next _ => true
    | _ => false) = true := by decide +kernel
  split at h
  · rename_i t ht; exact ⟨t, ht⟩
  · cases h

/-- The machine has a turn to come: of a warp in its clause, of one at its end, of one in none, of a front-end context, of a thread, of an event. -/
theorem witness_StepRunsDecodedInstruction :
    turnMach.sched = { dt := 1, dc := 1, ds := 0, act := .unit (.warp 0 0) } :: [] ∧ (getWarp turnMach 0 0).run = some (theRun vHdr) ∧
    (theRun vHdr).words[(theRun vHdr).idx]? = some 0 ∧ (overRun vHdr).words.length ≤ (overRun vHdr).idx ∧ (getWarp (beginMach idleWarp none) 0 0).run = none ∧
    (getFront fMach 0 0).posted = none ∧ (getFront fMach 0 0).run = some (theRun sHdr) ∧
    (let s := { tMach with sched := [{ dt := 1, dc := 1, ds := 0, act := .unit (.thread 2) }] }
     nextThread (turnStart s) 2 = 2 ∧ threadReady (turnStart s) 2 = true ∧ (getThread s 2).posted = none ∧
     (getThread s 2).run = some (theRun sHdr)) ∧ State.reset.cur = none ∧ tMach.cur = some (.thread 2) ∧ postedOf tMach (.thread 2) = none := by decide +kernel

/-! ### Ill-formed words: one for each check of `legalFull`, `legalImm` and `legalPair`, which refuses it (spec/02 R39) -/

/-- A word that breaks one check, and the word without the fault. -/
def refusedWith (op : Nat) (k : UKind) (g : Full → Full) : Bool :=
  let f := fitWord op (k != .vector) (fitType op) (fitMod op)
  legalFull op k f && !legalFull op k (g f)

/-- The unit (R42), the type and its modifiers, a MOD bit that the opcode does not define, every operand field, every hold bit, the flag selector. -/
theorem test_wf_full :
    refusedWith 0x20 .vector (fun f => { f with ty := 12 }) = true ∧ refusedWith 0x20 .vector (fun f => { f with ty := 15 }) = true ∧
    refusedWith 0x20 .vector (fun f => { f with md := 0x80 }) = true ∧ refusedWith 0x20 .vector (fun f => { f with dst := 320 }) = true ∧
    refusedWith 0x20 .vector (fun f => { f with sa := 338 }) = true ∧ refusedWith 0x20 .vector (fun f => { f with ty := 7, sb := 9 }) = true ∧
    refusedWith 0x20 .vector (fun f => { f with sc := 1 }) = true ∧ refusedWith 0x20 .vector (fun f => { f with hc := true }) = true ∧
    refusedWith 0x20 .vector (fun f => { f with fsel := true }) = true ∧ refusedWith 0x70 .vector (fun f => { f with dst := 8 }) = true ∧
    refusedWith 0x70 .vector (fun f => { f with sa := 66 }) = true ∧ refusedWith 0x70 .vector (fun f => { f with ha := true }) = true ∧
    refusedWith 0x53 .vector (fun f => { f with sb := 8 }) = true ∧ refusedWith 0x68 .vector (fun f => { f with sa := 8 }) = true ∧
    refusedWith 0x58 .vector (fun f => { f with sa := 337 }) = true ∧ refusedWith 0x58 .vector (fun f => { f with md := 3 }) = true := by decide +kernel

/-- In a scalar clause: registers beyond s63, no predicate, no hold; four registers from a multiple of 4; a register that R46 lists. -/
theorem test_wf_scalar :
    refusedWith 0x20 .core (fun f => { f with dst := 64 }) = true ∧ refusedWith 0x20 .sp (fun f => { f with pred := 2 }) = true ∧
    refusedWith 0x20 .core (fun f => { f with pneg := true }) = true ∧ refusedWith 0x20 .core (fun f => { f with ha := true }) = true ∧
    refusedWith 0x0A .core (fun f => { f with sb := 13 }) = true ∧ refusedWith 0x05 .core (fun f => { f with sb := 61 }) = true ∧
    refusedWith 0x0C .core (fun f => { f with sb := 0x2F }) = true ∧
    legalFull 0x14 .core (fitWord 0x14 true 7 0) = false ∧ legalFull 0x06 .sp (fitWord 0x06 true 7 0) = false ∧
    legalFull 0x0E .vector (fitWord 0x0E false 7 0) = false ∧ legalFull 0x0E .sp (fitWord 0x0E true 7 0) = true := by decide +kernel

theorem test_wf_imm : legalImm 0x38 .vector (immWord 0x38) = true ∧ legalImm 0x38 .vector { immWord 0x38 with mi := 1 } = false ∧
    legalImm 0x3F .vector { immWord 0x3F with sa := 1 } = false ∧ legalImm 0x38 .vector { immWord 0x38 with dst := 330 } = false ∧
    legalImm 0x38 .vector { immWord 0x38 with sa := 338 } = false ∧ legalImm 0x4D .core (immWord 0x4D) = false ∧
    legalImm 0x38 .core { immWord 0x38 with pred := 1 } = false ∧ legalImm 0x38 .core { immWord 0x38 with dst := 64 } = false := by decide

/-- POP, PTYPE, the bits that must be 0, a NOP half that holds something, and the banks (R37): 1 and 7 share one, as sources or as destinations. -/
def aPair : Pair := { pred := 7, d := 6, src := 13, pty := 2, mbz := 0, h := false, h1 := { pop := 4, d := 2, src := 9, pty := 2, mbz := 0, h := false } }
theorem test_wf_pair : legalPair 1 aPair = true ∧ legalPair 1 { aPair with pty := 3 } = false ∧ legalPair 1 { aPair with mbz := 1 } = false ∧
    legalPair 0 aPair = false ∧ legalPair 13 aPair = false ∧ legalPair 1 { aPair with h1 := { aPair.h1 with pop := 13 } } = false ∧
    legalPair 1 { aPair with src := 12 } = false ∧ legalPair 1 { aPair with h1 := { aPair.h1 with d := 12 } } = false ∧
    (Instr.pairAdd { aPair with h1 := { aPair.h1 with pop := 13 } }).encodable = false := by decide

/-- A word whose row is told by its MOD bits, and a word that is not reserved. -/
theorem test_wf_rows : (Instr.preempt { vWord 0x10 with md := 1 }).wf = false ∧ (Instr.preemptRel { vWord 0x10 with md := 0 }).wf = false ∧
    (Instr.keybindUnbind { vWord 0x13 with md := 2 }).wf = false ∧ (Instr.reservedOpcode 0x20A028180E001402).encodable = false ∧
    (Instr.reservedOpcode 0x7700000000000000).wf = false ∧ (Instr.reservedOpcode 0x7700000000000000).encodable = true := by decide

/-! ### Single steps whose results the spec works out -/

/-- The result of the last word issued, in lane `l`. -/
def resultOf (r : Host.Outcome State Fault Refusal) (l : Nat) : Option Nat := match r with
  | .next t => (getWarp t 0 0).run.bind (fun q => q.pend.getLast?.map (fun p => (nth p.vals l).toNat))
  | _ => none
def flagsOfLast (r : Host.Outcome State Fault Refusal) : Option Nat := match r with
  | .next t => (getWarp t 0 0).run.bind (fun q => q.pend.getLast?.map (fun p => p.flags.toNat))
  | _ => none

/-- A vector register that holds `f l` in lane `l`. -/
def vregOf (f : Nat → Nat) : VReg := BitVec.ofNat 1024 ((List.range 32).foldl (fun n l => n + f l * 2 ^ (32 * l)) 0)

/-- spec/11, "Common slips": SHL by 32 gives 0; SHR.s32 by 40 of a negative value gives -1 (R217). -/
theorem test_shift_counts :
    (let s := vWith (fun w => { w with v := [(8, vregOf fun _ => 0x80000005), (9, vregOf fun _ => 32), (10, vregOf fun _ => 40)] })
     resultOf (exec (.shl (fullWord 1 8 9 0 6 0)) s) 3 = some 0 ∧ resultOf (exec (.shr (fullWord 1 8 10 0 2 0)) s) 3 = some 0xFFFFFFFF) := by decide +kernel

/-- spec/11 R215: DIV truncates toward zero and REM takes the sign of the dividend: -7 by 2. -/
theorem test_division : (let s := vWith (fun w => { w with v := [(8, vregOf fun _ => 0xFFFFFFF9), (9, vregOf fun _ => 2)] })
     resultOf (exec (.div (fullWord 1 8 9 0 2 0)) s) 31 = some 0xFFFFFFFD ∧ resultOf (exec (.rem (fullWord 1 8 9 0 2 0)) s) 31 = some 0xFFFFFFFF) := by
  decide +kernel

/-- spec/11, "Worked example: a warp sum in f32": lanes 0-3 hold 2^24, 1, 1, x; with x = 0 the sum is 2^24, with x = 1 it is 16,777,218; NX both times. -/
def sumMach (x : Nat) : State :=
  vWith (fun w => { w with
    v := [(31, vregOf fun l => if l = 0 then 0x4B800000 else if l < 3 then 0x3F800000 else if l = 3 then x else 0)], exited := 0xFFFFFFF0
    run := some { theRun vHdr with mask := 0xF } })
theorem test_warp_sum :
    [0, 0x3F800000].map (fun x => (resultOf (exec (.redux (fullWord 30 31 0 0 10 0)) (sumMach x)) 0, resultOf (exec (.redux (fullWord 30 31 0 0 10 0)) (sumMach x)) 3)) =
      [(some 0x4B800000, some 0x4B800000), (some 0x4B800001, some 0x4B800001)] ∧
    flagsOfLast (exec (.redux (fullWord 30 31 0 0 10 0)) (sumMach 0)) = some fNX := by decide +kernel

/-- spec/01: core 173 reads COREID = 0x0000_0000_00AD_5603. spec/05: the line at 0x4_3280 homes on module slice 132, in set 67, from die B. -/
theorem test_places : coreIdOf (.warp 173 0) = 0x00AD5603 ∧ sliceOf 1 0x43280 = 132 ∧ setOf 0x43280 = 67 := by decide

/-- spec/19: worker 42 on die A seeds L with 0xACCB, advances it to 0x5997, and first probes core 55. -/
theorem test_steal : (let s := workMach [] 0 64 .ready 1
     let s := setCore s 42 { getCore s 0 with lfsr := 0xACE1#16 ^^^ BitVec.ofNat 16 42 }
     (getCore s 42).lfsr = 0xACCB ∧ (match exec (.stealProbe 42) s with
       | .next t => decide ((getCore t 42).lfsr = 0x5997) && (getCore t 42).lfsr.toNat % 160 == 55
       | _ => false) = true) := by decide +kernel

/-- spec/02 R23: a word's flag counts one more once it has issued; LD names flag 0 of its header. -/
theorem test_flag_counts : (match exec (.ld (fullWord 9 20 0 0 6 1)) (paged vMach) with
    | .next t => look 0 (getWarp t 0 0).flags 0
    | _ => 0) = 1 := by decide +kernel

/-! ### Words put together from the layouts of R26, R34 and R35, field by field from bit 63 down -/

/-- [63] 0, OP, PNEG, PRED, DST, SA, SB, SC, HA, HB, HC, TYPE, MOD, FSEL. -/
theorem test_decode_arithmetic :
    decodeWord (0#1 ++ 0x20#7 ++ 1#1 ++ 2#3 ++ 5#9 ++ 6#9 ++ 7#9 ++ 0#9 ++ 1#1 ++ 0#1 ++ 0#1 ++ 2#4 ++ 8#8 ++ 0#1) =
      .add { fullWord 5 6 7 0 2 8 with pneg := true, pred := 2, ha := true } ∧
    decodeWord (0#1 ++ 0x35#7 ++ 0#1 ++ 7#3 ++ 10#9 ++ 12#9 ++ 324#9 ++ 0#9 ++ 0#1 ++ 1#1 ++ 0#1 ++ 3#4 ++ 0#8 ++ 0#1) = .shr { fullWord 10 12 324 0 3 0 with hb := true } ∧
    decodeWord (0#1 ++ 0x40#7 ++ 0#1 ++ 7#3 ++ 1#9 ++ 2#9 ++ 3#9 ++ 4#9 ++ 0#1 ++ 0#1 ++ 1#1 ++ 10#4 ++ 3#8 ++ 0#1) = .fma { fullWord 1 2 3 4 10 3 with hc := true } ∧
    decodeWord (0#1 ++ 0x54#7 ++ 0#1 ++ 7#3 ++ 30#9 ++ 31#9 ++ 0#9 ++ 0#9 ++ 0#1 ++ 0#1 ++ 0#1 ++ 10#4 ++ 0#8 ++ 0#1) = .redux (fullWord 30 31 0 0 10 0) := by decide

theorem test_decode_units :
    decodeWord (0#1 ++ 0x01#7 ++ 0#1 ++ 7#3 ++ 0#9 ++ 5#9 ++ 0#9 ++ 0#9 ++ 0#1 ++ 0#1 ++ 0#1 ++ 7#4 ++ 0#8 ++ 0#1) = .bra (fullWord 0 5 0 0 7 0) ∧
    decodeWord (0#1 ++ 0x0C#7 ++ 0#1 ++ 7#3 ++ 4#9 ++ 0#9 ++ 0x40#9 ++ 0#9 ++ 0#1 ++ 0#1 ++ 0#1 ++ 7#4 ++ 0#8 ++ 0#1) = .sread (fullWord 4 0 0x40 0 7 0) ∧
    decodeWord (0#1 ++ 0x13#7 ++ 0#1 ++ 7#3 ++ 1#9 ++ 2#9 ++ 3#9 ++ 0#9 ++ 0#1 ++ 0#1 ++ 0#1 ++ 7#4 ++ 2#8 ++ 1#1) = .keybindRevoke { fullWord 1 2 3 0 7 2 with fsel := true } ∧
    decodeWord (0#1 ++ 0x15#7 ++ 0#1 ++ 7#3 ++ 1#9 ++ 2#9 ++ 0#9 ++ 0#9 ++ 0#1 ++ 0#1 ++ 0#1 ++ 7#4 ++ 0#8 ++ 0#1) = .glr (fullWord 1 2 0 0 7 0) ∧
    decodeWord (0#1 ++ 0x19#7 ++ 0#1 ++ 7#3 ++ 1#9 ++ 2#9 ++ 4#9 ++ 0#9 ++ 0#1 ++ 0#1 ++ 0#1 ++ 7#4 ++ 0#8 ++ 0#1) = .tenrol (fullWord 1 2 4 0 7 0) := by decide

theorem test_decode_memory :
    decodeWord (0#1 ++ 0x58#7 ++ 0#1 ++ 7#3 ++ 9#9 ++ 20#9 ++ 0#9 ++ 0#9 ++ 0#1 ++ 0#1 ++ 0#1 ++ 6#4 ++ 1#8 ++ 1#1) = .ld { fullWord 9 20 0 0 6 1 with fsel := true } ∧
    decodeWord (0#1 ++ 0x60#7 ++ 0#1 ++ 7#3 ++ 9#9 ++ 20#9 ++ 21#9 ++ 0#9 ++ 0#1 ++ 0#1 ++ 0#1 ++ 6#4 ++ 0x60#8 ++ 0#1) = .atom (fullWord 9 20 21 0 6 0x60) ∧
    decodeWord (0#1 ++ 0x6A#7 ++ 0#1 ++ 7#3 ++ 9#9 ++ 322#9 ++ 324#9 ++ 325#9 ++ 0#1 ++ 0#1 ++ 0#1 ++ 7#4 ++ 0#8 ++ 0#1) = .xcopy (fullWord 9 322 324 325 7 0) ∧
    decodeWord (0#1 ++ 0x70#7 ++ 0#1 ++ 7#3 ++ 2#9 ++ 64#9 ++ 96#9 ++ 0#9 ++ 0#1 ++ 0#1 ++ 0#1 ++ 9#4 ++ 0#8 ++ 0#1) = .mma (fullWord 2 64 96 0 9 0) ∧
    decodeWord (0#1 ++ 0x7B#7 ++ 0#1 ++ 7#3 ++ 9#9 ++ 322#9 ++ 326#9 ++ 327#9 ++ 0#1 ++ 0#1 ++ 0#1 ++ 7#4 ++ 9#8 ++ 0#1) = .tqput (fullWord 9 322 326 327 7 9) := by decide

/-- I-form: [63] 0, OP, PNEG, PRED, DST, SA, IMM32, MODI. Paired: [63] 1, then PRED and the two halves, POP, D, SRC, PTYPE, MBZ and H each. -/
theorem test_decode_other_forms :
    decodeWord (0#1 ++ 0x38#7 ++ 0#1 ++ 1#3 ++ 3#9 ++ 4#9 ++ 100#32 ++ 0#2) = .addImm { pneg := false, pred := 1, dst := 3, sa := 4, imm := 100, mi := 0 } ∧
    decodeWord 0xF041835004020940#64 = .pairAdd aPair ∧ decodeWord 0x7700000000000000#64 = .reservedOpcode 0x7700000000000000#64 := by decide

end Sys2Proof.Tests
end

section
/-!
PROOFS. The rows of registers with a row of their own (spec/02 R45): what a row event does with the write it takes, and the bits and fields that the writes keep.
-/
namespace Sys2Proof.Proofs

open Sys2Proof.Machine Sys2Proof.Claims

/-! ### Bits and fields -/

theorem fld_eq_toNat_extractLsb' {n : Nat} (x : BitVec n) (hi lo : Nat) : fld x hi lo = (x.extractLsb' lo (hi + 1 - lo)).toNat := by
  simp [fld, Nat.shiftRight_eq_div_pow]

/-- A mask with ones in a field keeps the field. -/
theorem fld_and_mask {n hi lo : Nat} {m : BitVec n} (x : BitVec n) (h : m.extractLsb' lo (hi + 1 - lo) = BitVec.allOnes (hi + 1 - lo)) :
    fld (x &&& m) hi lo = fld x hi lo := by
  rw [fld_eq_toNat_extractLsb', fld_eq_toNat_extractLsb', BitVec.extractLsb'_and, h, BitVec.and_allOnes]

theorem fld_lt {n : Nat} (x : BitVec n) (hi lo : Nat) : fld x hi lo < 2 ^ (hi + 1 - lo) := Nat.mod_lt _ (Nat.two_pow_pos _)

theorem setFld_bit_one {n : Nat} (x : BitVec n) (i : Nat) : setFld x i i 1 = x ||| BitVec.ofNat n (2 ^ i) := by
  simp only [setFld, Nat.add_sub_cancel_left, Nat.pow_one, Nat.add_one_sub_one, Nat.one_mul, Nat.mul_one]
  generalize BitVec.ofNat n (2 ^ i) = m
  ext j
  simp only [BitVec.getElem_or, BitVec.getElem_and, BitVec.getElem_not]
  cases m[j] <;> simp

theorem setFld_bit_zero {n : Nat} (x : BitVec n) (i : Nat) : setFld x i i 0 = x &&& ~~~BitVec.ofNat n (2 ^ i) := by
  simp [setFld]

theorem and_not_one_of_even {v : W64} (h : v.getLsbD 0 = false) : v &&& ~~~(1 : W64) = v := by
  show v &&& ~~~1#64 = v
  apply BitVec.eq_of_getLsbD_eq
  intro j hj
  cases j with
  | zero => rw [BitVec.getLsbD_and, h, Bool.false_and]
  | succ j =>
    have hone : (1#64).getLsbD (j + 1) = false := by simp [BitVec.getLsbD_one]
    rw [BitVec.getLsbD_and, BitVec.getLsbD_not, hone, decide_eq_true hj]
    simp

theorem fld_bit {n : Nat} (x : BitVec n) (i : Nat) : fld x i i = (x.getLsbD i).toNat := by
  simp [fld, BitVec.getLsbD, Nat.toNat_testBit]

theorem getLsbD_ones {hi lo j : Nat} (hj : j < 64) : (ones hi lo).getLsbD j = (decide (lo ≤ j) && decide (j - lo < hi + 1 - lo)) := by
  rw [ones, BitVec.getLsbD_ofNat, decide_eq_true hj, Bool.true_and, Nat.testBit_mul_two_pow, Nat.testBit_two_pow_sub_one]

/-- The bits of a field, in place. -/
theorem and_ones (v : W64) (hi lo : Nat) : v &&& ones hi lo = BitVec.ofNat 64 (2 ^ lo * fld v hi lo) := by
  apply BitVec.eq_of_getLsbD_eq
  intro j hj
  rw [BitVec.getLsbD_and, getLsbD_ones hj, BitVec.getLsbD_ofNat, decide_eq_true hj, Bool.true_and, Nat.testBit_two_pow_mul, fld_eq_toNat_extractLsb',
    BitVec.testBit_toNat, BitVec.getLsbD_extractLsb']
  by_cases h : lo ≤ j
  · simp [h, Bool.and_comm]
  · simp [h]

theorem fld_ofNat {hi lo w : Nat} (hhi : hi < 64) (hlo : lo ≤ hi) (hw : w < 2 ^ (hi + 1 - lo)) : fld (BitVec.ofNat 64 (2 ^ lo * w)) hi lo = w := by
  have hlt : 2 ^ lo * w < 2 ^ 64 := calc
    2 ^ lo * w < 2 ^ lo * 2 ^ (hi + 1 - lo) := (Nat.mul_lt_mul_left (Nat.two_pow_pos lo)).mpr hw
    _ = 2 ^ (hi + 1) := by rw [← Nat.pow_add]; congr 1; omega
    _ ≤ 2 ^ 64 := Nat.pow_le_pow_right (by decide) hhi
  rw [fld, BitVec.toNat_ofNat, Nat.mod_eq_of_lt hlt, Nat.mul_div_cancel_left _ (Nat.two_pow_pos lo), Nat.mod_eq_of_lt hw]

/-- A field set to a number that fits it. -/
theorem setFld_eq (x : W64) {hi lo w : Nat} (hhi : hi < 64) (hlo : lo ≤ hi) (hw : w < 2 ^ (hi + 1 - lo)) :
    setFld x hi lo w = (x &&& ~~~ones hi lo) ||| BitVec.ofNat 64 (2 ^ lo * w) := by
  have hfit : BitVec.ofNat 64 (2 ^ lo * w) &&& ones hi lo = BitVec.ofNat 64 (2 ^ lo * w) := by rw [and_ones, fld_ofNat hhi hlo hw]
  conv_rhs => rw [← hfit]
  rfl

theorem masked_disjoint (x y : W64) {a b : W64} (h : a &&& b = 0#64) : (x &&& a) &&& (y &&& b) = 0#64 := by
  rw [BitVec.and_assoc, BitVec.and_comm y, ← BitVec.and_assoc a, h, BitVec.zero_and, BitVec.and_zero]

/-- Disjoint fields stand in a word as their sum. -/
theorem and_or_of_disjoint (v : W64) {a b : W64} (h : a &&& b = 0#64) : v &&& (a ||| b) = (v &&& a) + (v &&& b) := by
  rw [BitVec.add_eq_or_of_and_eq_zero _ _ (masked_disjoint v v h), BitVec.and_or_distrib_left]

/-! ### Row events -/

theorem takeWrite_of_taken {s t : State} {src : WSrc} {n : Nat} {v : W64} (h : Taken s src n v t) : takeWrite s src = some (n, v, t) := by
  cases src with
  | host =>
    obtain ⟨rest, hq, rfl⟩ := h
    simp [takeWrite, hq]
  | unit u =>
    cases u with
    | warp c k => exact h.elim
    | front c k =>
      obtain ⟨hp, rfl⟩ := h
      simp [takeWrite, hp, setPosted]
    | thread q =>
      obtain ⟨hp, rfl⟩ := h
      simp [takeWrite, hp, setPosted]

theorem rowEvent_of_taken {s t : State} {src : WSrc} {lo hi i : Nat} {v : W64} (g : State → Nat → W64 → State)
    (h : Taken s src (lo + i) v t) (hi' : lo + i ≤ hi) : rowEvent s src lo hi g = .next (g t i v) := by
  simp [rowEvent, takeWrite_of_taken h, hi']

theorem opEvent_of_taken {s t : State} {src : WSrc} {n : Nat} {v : W64} {op : W64 → Bool} (g : State → W64 → State)
    (h : Taken s src n v t) (ho : op v = true) : opEvent s src n op g = .next (g t v) := by
  simp [opEvent, takeWrite_of_taken h, ho]

/-- A row whose event runs `g` makes the writes that `g` makes. -/
theorem rowWrite_of_rowEvent {mk : WSrc → Instr} {lo n hi : Nat} {ok : State → Nat → W64 → Prop} {g' : State → Nat → W64 → State}
    (g : WSrc → State → Nat → W64 → State) (hmk : ∀ src s, exec (mk src) s = rowEvent s src lo hi (g src)) (hn : lo + n = hi + 1)
    (h : ∀ src s i v, ok s i v → g src s i v = g' s i v) : RowWrite mk lo n ok g' := by
  intro s src i v t hi' ht hok
  rw [hmk, rowEvent_of_taken (g src) ht (by omega), h src t i v hok]

/-- The same of a row with copies on both dies, where the die link is up. -/
theorem rowWrite_of_copiedRow {mk : WSrc → Instr} {lo n hi : Nat} {ok : State → Nat → W64 → Prop} {g' : State → Nat → W64 → State}
    (g : State → Nat → W64 → State) (hmk : ∀ src s, exec (mk src) s = copiedRow s src lo hi g) (hn : lo + n = hi + 1)
    (hup : ∀ s i v, ok s i v → s.regs.dlstat.getLsbD 0 = true) (h : ∀ s i v, ok s i v → g s i v = g' s i v) : RowWrite mk lo n ok g' :=
  rowWrite_of_rowEvent (fun _ s i v => g (atLink s 0 1) i v) hmk hn (fun _ s i v hok => by
    rw [atLink_pass (.inl (hup s i v hok)), h s i v hok])

/-- The same of one of several rows over one command register. -/
theorem rowWrite_of_opEvent {mk : WSrc → Instr} {n : Nat} {op : W64 → Bool} {ok : State → Nat → W64 → Prop} {g' : State → Nat → W64 → State}
    (g : State → W64 → State) (hmk : ∀ src s, exec (mk src) s = opEvent s src n op g)
    (hop : ∀ s i v, ok s i v → op v = true) (h : ∀ s i v, ok s i v → g s v = g' s i v) : RowWrite mk n 1 ok g' := by
  intro s src i v t hi ht hok
  obtain rfl : i = 0 := by omega
  rw [hmk, opEvent_of_taken (n := n) g ht (hop t 0 v hok), h t 0 v hok]

theorem taken_thread {s : State} {q n : Nat} {v : W64} (h : (getThread s q).posted = some (n, v)) :
    Taken s (.unit (.thread q)) n v (setThread s q { getThread s q with posted := none }) := ⟨h, rfl⟩

theorem regs_of_taken_host {s t : State} {n : Nat} {v : W64} (h : Taken s .host n v t) : t.regs = s.regs := by
  obtain ⟨rest, -, rfl⟩ := h
  rfl

end Sys2Proof.Proofs
end

section
/-!
PROOFS. Lines that leave their slice (spec/05 R90): what a write-back and an eviction change, and the keys of a slice's lines.
-/
namespace Sys2Proof.Proofs

open Sys2Proof.Machine Sys2Proof.Claims

theorem memWrite_l2 (s : State) (pa k v n : Nat) : (memWrite s pa k v n).mem.l2 = s.mem.l2 := by
  obtain ⟨d, f, h⟩ := memWrite_frame s pa k v n
  rw [h]

theorem putMeta_frame (s : State) (la : Nat) (side : W128) (kslot : Nat) (win : Option Nat) :
    ∃ m, putMeta s la side kslot win = { s with mem := m } ∧ m.l2 = s.mem.l2 := by
  cases win with
  | none => exact ⟨_, rfl, rfl⟩
  | some i =>
    simp only [putMeta, splitSide]
    split
    · obtain ⟨d, f, h⟩ := memWrite_frame s (Machine.scaleAt s i la).1 (2 ^ (Machine.scaleAt s i la).2 - 1) side.toNat (Machine.scaleAt s i la).2
      exact ⟨_, h, rfl⟩
    · exact ⟨s.mem, rfl, rfl⟩

/-- A write-back changes memory and the line's dirty sectors. -/
theorem writeBack_frame (s : State) (k : Nat) : ∃ m, writeBack s k = { s with mem := m } ∧
    (m.l2 = s.mem.l2 ∨ m.l2 = putC L2Line.reset s.mem.l2 k { getL2 s k with dirty := 0 }) := by
  simp only [writeBack]
  split
  · exact ⟨s.mem, rfl, .inl rfl⟩
  · obtain ⟨d, f, hw⟩ := memWrite_frame s (128 * (getL2 s k).line) (sectorBytes (getL2 s k).dirty) (getL2 s k).data.toNat 128
    rw [hw]
    obtain ⟨m, hm, hl⟩ := putMeta_frame { s with mem := { s.mem with dram := d, fabric := f } } (getL2 s k).line (getL2 s k).side (getL2 s k).kslot
      (getL2 s k).win
    rw [hm]
    exact ⟨_, rfl, .inr (by simp only [hl])⟩

theorem forget_frame (s : State) (k : Nat) : ∃ r, forget s k = { s with mem := { s.mem with recency := r } } := ⟨_, rfl⟩

theorem dropLine_frame (s : State) (k : Nat) : ∃ m h, dropLine s k = { s with mem := m, host := h } ∧
    m.l2 = putC L2Line.reset s.mem.l2 k L2Line.reset := by
  obtain ⟨r, hr⟩ := forget_frame (setL2 s k L2Line.reset) k
  unfold dropLine
  dsimp only
  rw [hr]
  unfold setL2
  generalize putC L2Line.reset s.mem.l2 k L2Line.reset = l
  split
  · exact ⟨{ s.mem with l2 := l, recency := r }, (emit s (.released (getL2 s k).line)).host, rfl, rfl⟩
  · exact ⟨{ s.mem with l2 := l, recency := r }, s.host, rfl, rfl⟩

/-- An eviction changes memory, the host's side and the line alone. -/
theorem evict_frame (s : State) (k : Nat) : ∃ m h, evict s k = { s with mem := m, host := h } := by
  unfold evict
  split
  · obtain ⟨m, hm, _⟩ := writeBack_frame s k
    obtain ⟨m', h', hd, _⟩ := dropLine_frame (writeBack s k) k
    exact ⟨m', h', by rw [hd, hm]⟩
  · exact ⟨s.mem, s.host, rfl⟩

theorem evict_of_used {s : State} {k : Nat} (h : (getL2 s k).used = true) : evict s k = dropLine (writeBack s k) k := if_pos h

theorem rising_writeBack {s : State} (k : Nat) (h : rising 0 s.mem.l2 = true) : rising 0 (writeBack s k).mem.l2 = true := by
  obtain ⟨m, hm, hl | hl⟩ := writeBack_frame s k <;> simp only [hm, hl]
  · exact h
  · exact rising_putC _ _ h

theorem getL2_writeBack_other {s : State} {k j : Nat} (hj : j ≠ k) (h : rising 0 s.mem.l2 = true) : getL2 (writeBack s k) j = getL2 s j := by
  obtain ⟨m, hm, hl | hl⟩ := writeBack_frame s k <;> simp only [getL2, hm, hl]
  rw [look_putC _ _ _ _ h, if_neg hj]

theorem rising_dropLine {s : State} (k : Nat) (h : rising 0 s.mem.l2 = true) : rising 0 (dropLine s k).mem.l2 = true := by
  obtain ⟨m, x, hd, hl⟩ := dropLine_frame s k
  simp only [hd, hl]
  exact rising_putC _ _ h

theorem getL2_dropLine {s : State} (k j : Nat) (h : rising 0 s.mem.l2 = true) :
    getL2 (dropLine s k) j = if j = k then L2Line.reset else getL2 s j := by
  obtain ⟨m, x, hd, hl⟩ := dropLine_frame s k
  simp only [getL2, hd, hl]
  exact look_putC _ _ _ _ h

theorem rising_evict {s : State} (k : Nat) (h : rising 0 s.mem.l2 = true) : rising 0 (evict s k).mem.l2 = true := by
  unfold evict
  split
  · exact rising_dropLine k (rising_writeBack k h)
  · exact h

/-- An evicted line is unused; every other line stands. -/
theorem getL2_evict {s : State} (k j : Nat) (h : rising 0 s.mem.l2 = true) :
    getL2 (evict s k) j = if j = k ∧ (getL2 s j).used = true then L2Line.reset else getL2 s j := by
  by_cases hu : (getL2 s k).used = true
  · rw [evict_of_used hu, getL2_dropLine k j (rising_writeBack k h)]
    by_cases hj : j = k
    · subst hj; simp [hu]
    · simp [hj, getL2_writeBack_other hj h]
  · have hs : evict s k = s := if_neg hu
    rw [hs, if_neg]
    rintro ⟨rfl, hu'⟩
    exact hu hu'

theorem foldl_evict_frame (ks : List Nat) (s : State) : ∃ m h, ks.foldl evict s = { s with mem := m, host := h } := by
  induction ks generalizing s with
  | nil => exact ⟨s.mem, s.host, rfl⟩
  | cons k ks ih =>
    obtain ⟨m, h, he⟩ := evict_frame s k
    obtain ⟨m', h', hf⟩ := ih (evict s k)
    exact ⟨m', h', by rw [List.foldl_cons, hf, he]⟩

theorem getL2_foldl_evict (ks : List Nat) {s : State} (j : Nat) (h : rising 0 s.mem.l2 = true) :
    getL2 (ks.foldl evict s) j = if j ∈ ks ∧ (getL2 s j).used = true then L2Line.reset else getL2 s j := by
  induction ks generalizing s with
  | nil => simp
  | cons k ks ih =>
    have hreset : L2Line.reset.used = false := rfl
    rw [List.foldl_cons, ih (rising_evict k h), getL2_evict k j h]
    by_cases hj : j = k
    · subst hj
      by_cases hu : (getL2 s j).used = true <;> simp [hu, hreset]
    · simp [hj]

theorem le_of_mem_of_rising {α : Type} {m : SMap α} {lo k : Nat} {e : α} (h : rising lo m = true) (hm : (k, e) ∈ m) : lo ≤ k := by
  induction m generalizing lo with
  | nil => cases hm
  | cons p t ih =>
    simp only [rising, Bool.and_eq_true, decide_eq_true_eq] at h
    rcases List.mem_cons.mp hm with rfl | htail
    · exact h.1
    · exact Nat.le_of_succ_le (Nat.le_trans (Nat.succ_le_succ h.1) (ih h.2 htail))

/-- A listed entry is what its key reads as. -/
theorem look_of_mem {α : Type} (d : α) {m : SMap α} {lo k : Nat} {e : α} (h : rising lo m = true) (hm : (k, e) ∈ m) : look d m k = e := by
  induction m generalizing lo with
  | nil => cases hm
  | cons p t ih =>
    obtain ⟨a, b⟩ := p
    simp only [rising, Bool.and_eq_true, decide_eq_true_eq] at h
    rcases List.mem_cons.mp hm with heq | htail
    · obtain ⟨rfl, rfl⟩ := Prod.mk.inj heq
      simp [look]
    · have hlt : a + 1 ≤ k := le_of_mem_of_rising h.2 htail
      have hne : a ≠ k := by omega
      simp [look, hne, ih h.2 htail]

theorem mem_of_look_ne {α : Type} (d : α) {m : SMap α} {k : Nat} (h : look d m k ≠ d) : (k, look d m k) ∈ m := by
  induction m with
  | nil => exact absurd rfl h
  | cons p t ih =>
    obtain ⟨a, b⟩ := p
    simp only [look] at h ⊢
    split at h
    · rename_i ha; simp [ha]
    · rename_i ha; simp [ha, ih h]

/-- The keys of a slice's lines that satisfy `p`, which no unused line satisfies. -/
theorem mem_linesWhere {s : State} {p : Nat → L2Line → Bool} (k : Nat) (h : rising 0 s.mem.l2 = true) (hp : p k L2Line.reset = false) :
    k ∈ linesWhere s p ↔ p k (getL2 s k) = true := by
  simp only [linesWhere, List.mem_map, List.mem_filter, Prod.exists, exists_and_right, exists_eq_right]
  constructor
  · rintro ⟨e, hm, hpe⟩
    rwa [getL2, look_of_mem _ h hm]
  · intro hk
    refine ⟨getL2 s k, mem_of_look_ne _ fun he => ?_, hk⟩
    rw [getL2, he, hp] at hk
    exact absurd hk (by decide)

end Sys2Proof.Proofs
end

section
/-!
PROOFS. Format windows (spec/04 R73-R75): the checks on enabling a window, and what a write of its registers does. Settles WindowRows.
-/
namespace Sys2Proof.Proofs

open Sys2Proof.Machine Sys2Proof.Claims

/-! ### The checks on enabling a window -/

theorem oneAperture_iff (s : State) (p : Nat × Nat) : oneAperture s p = true ↔ InAperture s p := by simp [oneAperture, InAperture]

theorem spansMeet_eq_false_iff (a b : Nat × Nat) : spansMeet a b = false ↔ Apart a b := by
  simp only [spansMeet, Apart, Bool.and_eq_false_iff, decide_eq_false_iff_not, Nat.not_lt]
  exact Or.comm

theorem winPair_eq (s : State) (i : Nat) : (winBase s i, winEnd s i) = windowAt s i (fwctlOf s i) := by
  simp [windowAt, winBase, winEnd, fwctlOf, Nat.add_comm]

/-- The format of a window with a scale region (R74). -/
def Scaled (v : W64) : Prop := fld v 3 2 = 1 ∨ fld v 3 2 = 2

/-- What holds of a window's spans holds of its bytes and, in D8 and D4, of its scale region. -/
theorem forall_mem_fwSpans (s : State) (i : Nat) (P : Nat × Nat → Prop) : (∀ b ∈ fwSpans s i, P b) ↔
    P (windowAt s i (fwctlOf s i)) ∧ ∀ b ∈ (fwSpans s i).drop 1, P b := by
  simp [fwSpans, winPair_eq]

theorem forall_mem_drop_fwSpans (s : State) (i : Nat) (P : Nat × Nat → Prop) : (∀ b ∈ (fwSpans s i).drop 1, P b) ↔
    (Scaled (fwctlOf s i) → P (Claims.scaleAt s i (fwctlOf s i))) := by
  have hfmt : (winFmt s i = 1 || winFmt s i = 2) = true ↔ Scaled (fwctlOf s i) := by
    simp only [Bool.or_eq_true, decide_eq_true_eq]
    rfl
  have hscale : (winScale s i, winScale s i + scaleLen (winFmt s i) (winEnd s i - winBase s i)) = Claims.scaleAt s i (fwctlOf s i) := by
    simp only [Claims.scaleAt, ← winPair_eq, scaleLen, fmtBlock, Nat.mul_comm (_ / _) 2]
    rfl
  by_cases h : Scaled (fwctlOf s i)
  · simp [fwSpans, hscale, hfmt.mpr h, h]
  · simp [fwSpans, mt hfmt.mp h, h]

/-- The model's checks are R75's, of the control word that the window holds. -/
theorem fwBad_eq_false_iff (s : State) (i : Nat) : fwBad s i = false ↔ Enables s i (fwctlOf s i) := by
  have hlim : winEnd s i ≤ winBase s i ↔ ¬ (windowAt s i (fwctlOf s i)).1 < (windowAt s i (fwctlOf s i)).2 := by rw [← winPair_eq, Nat.not_lt]
  have hen : ∀ j, winEn s j = (fwctlOf s j).getLsbD 0 := fun _ => rfl
  have hfmt : winFmt s i = fld (fwctlOf s i) 3 2 := rfl
  simp only [fwBad, winPair_eq, hlim, hen, hfmt, Bool.or_eq_false_iff, Bool.not_eq_false', List.all_eq_true, List.any_eq_false, List.mem_range,
    Bool.and_eq_true, not_and, Bool.not_eq_true, decide_eq_true_eq, decide_eq_false_iff_not, not_not, oneAperture_iff, spansMeet_eq_false_iff,
    forall_mem_fwSpans, forall_mem_drop_fwSpans, Enables, ← Scaled.eq_1, imp_and, and_assoc, ne_eq]

/-- A window's registers, its own control word apart, decide nothing of its checks on a control word to be. -/
theorem enables_setFwctl {s : State} {i : Nat} {w : W64} (hw : w ≠ 0) : Enables (setFwctl s i w) i w ↔ Enables s i w := by
  have hother : ∀ j, j ≠ i → fwctlOf (setFwctl s i w) j = fwctlOf s j := fun j hj => by
    simp only [fwctlOf, setFwctl, putC, if_neg hw, look_put_other _ _ _ hj]
  have hwin : ∀ j x, windowAt (setFwctl s i w) j x = windowAt s j x := fun _ _ => rfl
  have hscale : ∀ j x, Claims.scaleAt (setFwctl s i w) j x = Claims.scaleAt s j x := fun _ _ => rfl
  have hap : ∀ p, InAperture (setFwctl s i w) p ↔ InAperture s p := fun _ => Iff.rfl
  simp +contextual only [Enables, hwin, hscale, hap, hother, ne_eq, not_false_eq_true]

theorem fwctlOf_setFwctl {s : State} {i : Nat} {w : W64} (hw : w ≠ 0) : fwctlOf (setFwctl s i w) i = w := by
  simp only [fwctlOf, setFwctl, putC, if_neg hw, look_put_same]

/-- The bits of FWCTL that a write sets (R73). -/
def fwctlBits : W64 := 0xFFFFFFFFFF00D#64

theorem ones_fwctlBits : ones 51 12 ||| ones 3 2 ||| ones 0 0 = fwctlBits := by decide

theorem enables_and_fwctlBits (s : State) (i : Nat) (v : W64) : Enables s i (v &&& fwctlBits) ↔ Enables s i v := by
  have hbase : fld (v &&& fwctlBits) 51 12 = fld v 51 12 := fld_and_mask v (by decide)
  have hfmt : fld (v &&& fwctlBits) 3 2 = fld v 3 2 := fld_and_mask v (by decide)
  simp only [Enables, windowAt, Claims.scaleAt, hbase, hfmt]

/-- A control word that sets EN passes the model's checks exactly where R75's hold. -/
theorem fwBad_setFwctl {s : State} {i : Nat} {v : W64} (hv : v.getLsbD 0 = true) :
    fwBad (setFwctl s i (v &&& fwctlBits)) i = false ↔ Enables s i v := by
  have hne : v &&& fwctlBits ≠ 0 := fun h => by
    have h0 : (v &&& fwctlBits).getLsbD 0 = true := by rw [BitVec.getLsbD_and, hv]; decide
    rw [h] at h0
    exact absurd h0 (by decide)
  rw [fwBad_eq_false_iff, fwctlOf_setFwctl hne, enables_setFwctl hne, enables_and_fwctlBits]

/-! ### What a write does -/

theorem fwRefuse_eq (s : State) (i : Nat) :
    fwRefuse s i = withRegs s (fun r => { r with fwctl := putC 0 r.fwctl i (fwctlOf s i ||| 16) }) := by
  simp only [fwRefuse, setFld_bit_one]
  rfl

/-- EN and BUSY are 0. -/
def Idle (s : State) (i : Nat) : Prop := (fwctlOf s i).getLsbD 0 = false ∧ (fwctlOf s i).getLsbD 1 = false

theorem not_idle_iff (s : State) (i : Nat) : ¬ Idle s i ↔ (bit (fwctl s i) 0 || bit (fwctl s i) 1) = true := by
  simp only [Idle, not_and_or, Bool.not_eq_false, Bool.or_eq_true]
  rfl

theorem idle_iff (s : State) (i : Nat) : Idle s i ↔ (bit (fwctl s i) 0 || bit (fwctl s i) 1) = false := by
  rw [← Bool.not_eq_true, ← not_idle_iff, not_not]

theorem fwWrite_idle {s : State} {i : Nat} (v : W64) (h : Idle s i) : fwWrite s i v =
    if v.getLsbD 0 then (if fwBad (setFwctl s i (v &&& fwctlBits)) i then fwRefuse s i else fwTurn s i (v &&& fwctlBits))
    else setFwctl s i (v &&& fwctlBits) := by
  simp only [fwWrite, (idle_iff s i).mp h, ones_fwctlBits]
  rfl

/-- While EN or BUSY is 1, a write of FWCTL is taken where it clears EN and keeps the other fields. -/
theorem fwWrite_not_idle {s : State} {i : Nat} (v : W64) (h : ¬ Idle s i) : fwWrite s i v =
    if (fwctlOf s i).getLsbD 0 = true ∧ v.getLsbD 0 = false ∧ v &&& 0xFFFFFFFFFF00C#64 = fwctlOf s i &&& 0xFFFFFFFFFF00C#64
    then fwTurn s i (v &&& fwctlBits) else fwRefuse s i := by
  have hbits : fwctlBits &&& ~~~(1 : W64) = 0xFFFFFFFFFF00C#64 := by decide
  have hkept : ones 51 12 ||| ones 3 2 = 0xFFFFFFFFFF00C#64 := by decide
  have hmask : v &&& fwctlBits &&& ~~~(1 : W64) = v &&& 0xFFFFFFFFFF00C#64 := by rw [BitVec.and_assoc, hbits]
  simp only [fwWrite, (not_idle_iff s i).mp h, ones_fwctlBits, hmask, if_true]
  simp only [hkept, Bool.and_eq_true, Bool.not_eq_true', decide_eq_true_eq, and_assoc]
  rfl

/-- The cases of a write of FWCTL while EN and BUSY are 0. -/
theorem fwWrite_idle_off {s : State} {i : Nat} {v : W64} (h : Idle s i) (hv : v.getLsbD 0 = false) :
    fwWrite s i v = setFwctl s i (v &&& fwctlBits) := by
  rw [fwWrite_idle v h, if_neg (by rw [hv]; decide)]

theorem fwWrite_idle_enables {s : State} {i : Nat} {v : W64} (h : Idle s i) (hv : v.getLsbD 0 = true) (he : Enables s i v) :
    fwWrite s i v = fwTurn s i (v &&& fwctlBits) := by
  have hbad : fwBad (setFwctl s i (v &&& fwctlBits)) i = false := (fwBad_setFwctl hv).mpr he
  rw [fwWrite_idle v h, if_pos hv, hbad, if_neg (by decide)]

theorem fwWrite_idle_not_enables {s : State} {i : Nat} {v : W64} (h : Idle s i) (hv : v.getLsbD 0 = true) (he : ¬ Enables s i v) :
    fwWrite s i v = fwRefuse s i := by
  rw [fwWrite_idle v h, if_pos hv, if_pos (by rwa [← fwBad_setFwctl hv, Bool.not_eq_false] at he)]

theorem fwOther_idle {s : State} {i : Nat} (g : Regs → Regs) (h : Idle s i) :
    fwOther s i g = setFwctl { s with regs := g s.regs } i (fwctlOf s i &&& ~~~16#64) := by
  simp only [fwOther, (idle_iff s i).mp h, setFld_bit_zero]
  rfl

theorem fwOther_not_idle {s : State} {i : Nat} (g : Regs → Regs) (h : ¬ Idle s i) : fwOther s i g = fwRefuse s i := by
  simp only [fwOther, (not_idle_iff s i).mp h, if_true]

/-! ### The end of a drain -/

theorem windowDrainDone_eq {s : State} {i : Nat} (hbusy : (fwctlOf s i).getLsbD 1 = true) (hup : s.regs.dlstat.getLsbD 0 = true) :
    exec (.windowDrainDone i) s = .next (setFwctl ((linesWhere s (fun _ e => drained s i e)).foldl evict s) i (fwctlOf s i &&& ~~~2#64)) := by
  obtain ⟨m, h, hf⟩ := foldl_evict_frame (linesWhere s (fun _ e => drained s i e)) s
  have hb : bit (fwctl s i) 1 = true := hbusy
  show execWindowDrainDone i s = _
  simp only [execWindowDrainDone, hb, atLink_pass (.inl hup), setFld_bit_zero, hf]
  rfl

theorem drained_reset (s : State) (i : Nat) : drained s i L2Line.reset = false := rfl

theorem drained_used {s : State} {i : Nat} {e : L2Line} (h : drained s i e = true) : e.used = true := by
  simp only [drained, Bool.and_eq_true] at h
  obtain ⟨⟨⟨hu, -⟩, -⟩, -⟩ := h
  exact hu

/-- A drain leaves the lines that it does not write back, and no other. -/
theorem getL2_drain {s : State} (i k : Nat) (h : rising 0 s.mem.l2 = true) :
    getL2 ((linesWhere s (fun _ e => drained s i e)).foldl evict s) k = if drained s i (getL2 s k) = true then L2Line.reset else getL2 s k := by
  have hmem := mem_linesWhere (p := fun _ e => drained s i e) k h (drained_reset s i)
  simp only [getL2_foldl_evict _ k h, hmem, and_iff_left_of_imp drained_used]

/-! ### The rows -/

/-- FWCTL's row, where the die link is up and `fwWrite` makes the write. -/
theorem rowWrite_fwctl {ok : State → Nat → W64 → Prop} {g : State → Nat → W64 → State}
    (hup : ∀ s i v, ok s i v → s.regs.dlstat.getLsbD 0 = true) (h : ∀ s i v, ok s i v → fwWrite s i v = g s i v) :
    RowWrite .fwctlWrite 0x40 16 ok g :=
  rowWrite_of_copiedRow fwWrite (fun _ _ => rfl) rfl hup h

/-- The rows of FWLIM and FWSCALE, which differ in the register that they set. -/
theorem rowWrite_fwlim {ok : State → Nat → W64 → Prop} {g : State → Nat → W64 → State} (hup : ∀ s i v, ok s i v → s.regs.dlstat.getLsbD 0 = true)
    (h : ∀ s i v, ok s i v → fwOther s i (fun r => { r with fwlim := putC 0 r.fwlim i (v &&& 0xFFFFFFFFFF000#64) }) = g s i v) :
    RowWrite .fwlimWrite 0x50 16 ok g := by
  have hones : ones 51 12 = 0xFFFFFFFFFF000#64 := by decide
  exact rowWrite_of_copiedRow _ (fun _ _ => rfl) rfl hup (by simpa only [hones] using h)

theorem rowWrite_fwscale {ok : State → Nat → W64 → Prop} {g : State → Nat → W64 → State} (hup : ∀ s i v, ok s i v → s.regs.dlstat.getLsbD 0 = true)
    (h : ∀ s i v, ok s i v → fwOther s i (fun r => { r with fwscale := putC 0 r.fwscale i (v &&& 0xFFFFFFFFFFF80#64) }) = g s i v) :
    RowWrite .fwscaleWrite 0x60 16 ok g := by
  have hones : ones 51 7 = 0xFFFFFFFFFFF80#64 := by decide
  exact rowWrite_of_copiedRow _ (fun _ _ => rfl) rfl hup (by simpa only [hones] using h)

/-- Settles O41: each write by the case of `fwWrite` or `fwOther` that its condition picks, the drain by the lines that it evicts. -/
theorem windowRows : Obligations.WindowRows := by
  unfold Obligations.WindowRows
  intro up idle turned refused
  refine ⟨?_, ?_, ?_, ?_, ?_, ?_, ?_, ?_, ?_⟩
  · refine rowWrite_fwctl (fun s i v h => h.1) ?_
    rintro s i v ⟨-, hidle, hv⟩
    exact fwWrite_idle_off hidle hv
  · refine rowWrite_fwctl (fun s i v h => h.1) ?_
    rintro s i v ⟨-, hidle, hv, he⟩
    exact fwWrite_idle_enables hidle hv he
  · refine rowWrite_fwctl (fun s i v h => h.1) ?_
    rintro s i v ⟨-, hidle, hv, he⟩
    rw [fwWrite_idle_not_enables hidle hv he, fwRefuse_eq]
  · refine rowWrite_fwctl (fun s i v h => h.1) ?_
    rintro s i v ⟨-, hen, hv, hkept⟩
    have hidle : ¬ Idle s i := fun ⟨hoff, _⟩ => absurd (hen.symm.trans hoff) (by decide)
    exact (fwWrite_not_idle v hidle).trans (if_pos ⟨hen, hv, hkept⟩)
  · refine rowWrite_fwctl (fun s i v h => h.1) ?_
    rintro s i v ⟨-, hidle, hbad⟩
    rw [fwWrite_not_idle v hidle, if_neg, fwRefuse_eq]
    rintro ⟨hen, hv, hkept⟩
    rcases hbad with hoff | hon | hother
    · exact absurd (hen.symm.trans hoff) (by decide)
    · exact absurd (hon.symm.trans hv) (by decide)
    · exact hother hkept
  · refine rowWrite_fwlim (fun s i v h => h.1) ?_
    rintro s i v ⟨-, hidle⟩
    exact fwOther_idle _ hidle
  · refine rowWrite_fwscale (fun s i v h => h.1) ?_
    rintro s i v ⟨-, hidle⟩
    exact fwOther_idle _ hidle
  · rintro mk lo (⟨rfl, rfl⟩ | ⟨rfl, rfl⟩)
    · refine rowWrite_fwlim (fun s i v h => h.1) ?_
      rintro s i v ⟨-, hidle⟩
      rw [fwOther_not_idle _ hidle, fwRefuse_eq]
    · refine rowWrite_fwscale (fun s i v h => h.1) ?_
      rintro s i v ⟨-, hidle⟩
      rw [fwOther_not_idle _ hidle, fwRefuse_eq]
  · intro s i hr hbusy hup
    obtain ⟨m, x, hf⟩ := foldl_evict_frame (linesWhere s (fun _ e => drained s i e)) s
    refine ⟨_, windowDrainDone_eq hbusy hup, ?_, fun k hd => ?_, fun k hd => ?_, ?_⟩
    · rw [hf]; rfl
    · exact (congrArg L2Line.used (getL2_drain i k hr)).trans (by rw [hd, if_pos rfl]; rfl)
    · exact (getL2_drain i k hr).trans (by rw [hd, if_neg (by decide)])
    · rw [hf]; exact ⟨rfl, rfl, rfl, rfl⟩

end Sys2Proof.Proofs
end

section
/-!
PROOFS. TLB invalidation (spec/04 R86, R87) and the threads' control registers (spec/24 R385-R387, R437). Settles ThreadRows.
-/
namespace Sys2Proof.Proofs

open Sys2Proof.Machine Sys2Proof.Claims

/-! ### Rows of a thread's own register -/

theorem threadRow_of_rowEvent {mk : WSrc → Instr} {n : Nat} {ok : Thread → W64 → Prop} {g : Thread → W64 → Thread}
    (hmk : ∀ q s, exec (mk (.unit (.thread q))) s = rowEvent s (.unit (.thread q)) n n (fun s _ v => setThread s q (g (getThread s q) v))) :
    ThreadRow mk n ok g := by
  intro s q v hp _
  rw [hmk, rowEvent_of_taken (lo := n) (i := 0) _ (taken_thread hp) (Nat.le_refl n), getThread_setThread]

/-! ### Removal of translations -/

theorem look_map_snd {α : Type} (d : α) (f : α → α) (m : SMap α) (k : Nat) : look (f d) (m.map (fun p => (p.1, f p.2))) k = f (look d m k) := by
  induction m with
  | nil => rfl
  | cons p t ih =>
    obtain ⟨a, b⟩ := p
    simp only [List.map_cons, look, ih]
    split <;> rfl

theorem getCore_dropTlbs (s : State) (p : TlbEnt → Bool) (w : WalkEnt → Bool) (c : Nat) :
    getCore (dropTlbs s p w) c = { getCore s c with tlb := (getCore s c).tlb.filter (fun e => !p e) } :=
  look_map_snd Core.reset (fun x => { x with tlb := x.tlb.filter (fun e => !p e) }) s.cores c

theorem not_picked_of_mem {α : Type} {p : α → Bool} {m : SMap (List α)} {d : Nat × List α} {e : α}
    (hd : d ∈ (m.map (fun x => (x.1, x.2.filter (fun t => !p t)))).filter (fun x => !x.2.isEmpty)) (he : e ∈ d.2) : p e = false := by
  obtain ⟨x, -, rfl⟩ := List.mem_map.mp (List.mem_filter.mp hd).1
  simpa using (List.mem_filter.mp he).2

/-- The threads' own TLBs after a removal: scope 2 empties them (R86). -/
theorem getThread_tlbiRemove (s : State) (cmd va : W64) (q : Nat) :
    getThread (tlbiRemove s cmd va) q = if fld cmd 9 8 = 2 then { getThread s q with tlb := [] } else getThread s q := by
  unfold tlbiRemove
  dsimp only
  split
  · exact look_map_snd Thread.reset (fun x => { x with tlb := [] }) s.threads q
  · rfl

/-- What thread `q`'s removal leaves, at its turn. -/
def afterRemoval (s : State) (q : Nat) (cmd va : W64) : State :=
  setThread (tlbiRemove s cmd va) q { getThread (tlbiRemove s cmd va) q with tlbiTime := some s.turnNo }

theorem afterRemoval_frame (s : State) (q : Nat) (cmd va : W64) : ∃ th, afterRemoval s q cmd va =
    { dropTlbs s (tlbiPicks (fld cmd 9 8) (fld cmd 31 16) va) (tlbiPaths (fld cmd 9 8) (fld cmd 31 16) va) with threads := th } := by
  unfold afterRemoval tlbiRemove
  dsimp only
  split <;> exact ⟨_, rfl⟩

theorem tlb_afterRemoval (s : State) (q p : Nat) (cmd va : W64) :
    (getThread (afterRemoval s q cmd va) p).tlb = (getThread (tlbiRemove s cmd va) p).tlb := by
  by_cases h : p = q
  · subst h; simp [afterRemoval]
  · simp [afterRemoval, getThread_setThread_other _ _ h]

theorem tlb_afterRemoval_kept {s : State} {q : Nat} {cmd va : W64} (h : fld cmd 9 8 ≠ 2) (p : Nat) :
    (getThread (afterRemoval s q cmd va) p).tlb = (getThread s p).tlb := by
  rw [tlb_afterRemoval, getThread_tlbiRemove, if_neg h]

theorem tlb_afterRemoval_emptied {s : State} {q : Nat} {cmd va : W64} (h : fld cmd 9 8 = 2) (p : Nat) :
    (getThread (afterRemoval s q cmd va) p).tlb = [] := by
  rw [tlb_afterRemoval, getThread_tlbiRemove, if_pos h]

theorem invalidated_afterRemoval (s : State) (q : Nat) (cmd va : W64) : Invalidated s (afterRemoval s q cmd va) q
    (tlbiPicks (fld cmd 9 8) (fld cmd 31 16) va) (tlbiPaths (fld cmd 9 8) (fld cmd 31 16) va) := by
  have hq : getThread (afterRemoval s q cmd va) q = { getThread (tlbiRemove s cmd va) q with tlbiTime := some s.turnNo } := getThread_setThread _ _ _
  obtain ⟨th, hth⟩ := afterRemoval_frame s q cmd va
  have hcore : ∀ c, getCore (afterRemoval s q cmd va) c = { getCore s c with
      tlb := (getCore s c).tlb.filter (fun e => !tlbiPicks (fld cmd 9 8) (fld cmd 31 16) va e) } := fun c => by
    rw [hth]; exact getCore_dropTlbs s _ (tlbiPaths (fld cmd 9 8) (fld cmd 31 16) va) c
  refine ⟨?_, ?_, ?_, ?_, fun c => ?_, fun d e hd he => ?_, fun d e hd he => ?_, ?_⟩
  · rw [hq, getThread_tlbiRemove]; split <;> rfl
  · rw [hq]
  · rw [hq, getThread_tlbiRemove]; split <;> rfl
  · rw [hq, getThread_tlbiRemove]; split <;> rfl
  · rw [hcore]; exact ⟨rfl, rfl, rfl, rfl⟩
  · rw [hth] at hd; exact not_picked_of_mem hd he
  · rw [hth] at hd; exact not_picked_of_mem hd he
  · rw [hth]; exact ⟨rfl, rfl, rfl, rfl, rfl, rfl, rfl⟩

theorem tlbiDone_removes {s : State} {q : Nat} (hbusy : (getThread s q).tlbicmd.getLsbD 1 = true) (hnone : (getThread s q).tlbiTime = none)
    (hup : s.regs.dlstat.getLsbD 0 = true) :
    exec (.tlbiDone q) s = .next (afterRemoval s q (getThread s q).tlbiGoCmd (getThread s q).tlbiGoVa) := by
  have hb : bit (getThread s q).tlbicmd 1 = true := hbusy
  show execTlbiDone q s = _
  simp only [execTlbiDone, hb, hnone, atLink_pass (.inl hup)]
  rfl

/-! ### The end of an invalidation -/

/-- After the removal, BUSY stands while an access in flight has used what was removed. -/
theorem tlbiDone_waits {s : State} {q n : Nat} (hbusy : (getThread s q).tlbicmd.getLsbD 1 = true) (hsome : (getThread s q).tlbiTime = some n) :
    exec (.tlbiDone q) s = if s.ops.any (fun o => o.phase = 0 && o.accs.any (usesRemoved s (getThread s q) n o)) then .next s
      else .next (setThread s q { getThread s q with tlbicmd := (getThread s q).tlbicmd &&& ~~~2#64 }) := by
  have hb : bit (getThread s q).tlbicmd 1 = true := hbusy
  show execTlbiDone q s = _
  simp only [execTlbiDone, hb, hsome, setFld_bit_zero]
  rfl

theorem stillAsks_iff (s : State) (o : Op) : stillAsks s o = true ↔ ∃ w ∈ s.mem.waiters, w.op = o.id ∧ w.hit = none := by
  simp [stillAsks]

/-- A performed access, or one without a translation, keeps no invalidation. -/
theorem usesRemoved_performed {s : State} {t : Thread} {n : Nat} {o : Op} {a : LaneAcc}
    (h : a.pa = none ∨ (a.done = true ∧ ∀ w ∈ s.mem.waiters, w.op ≠ o.id)) : usesRemoved s t n o a = false := by
  rcases h with hpa | ⟨hdone, hw⟩
  · simp [usesRemoved, hpa]
  · have hasks : stillAsks s o = false := by
      rw [← Bool.not_eq_true, stillAsks_iff]
      rintro ⟨w, hm, hop, -⟩
      exact hw w hm hop
    simp [usesRemoved, hdone, hasks]

/-- An access in the scope of the invalidation that has not been performed keeps it. -/
theorem usesRemoved_open {s : State} {t : Thread} {n : Nat} {o : Op} {a : LaneAcc} (hpa : a.pa.isSome = true) (hsize : a.size ≠ 0) (hat : a.xlatAt ≤ n)
    (hopen : a.done = false ∨ ∃ w ∈ s.mem.waiters, w.op = o.id ∧ w.hit = none)
    (hscope : fld t.tlbiGoCmd 9 8 = 2 ∨ ((∀ p, o.unit ≠ .thread p) ∧ o.ctx = fld t.tlbiGoCmd 31 16 ∧
      (fld t.tlbiGoCmd 9 8 = 1 ∨ (fld t.tlbiGoCmd 9 8 = 0 ∧ a.va.toNat / 2 ^ a.size = t.tlbiGoVa.toNat / 2 ^ a.size)))) :
    usesRemoved s t n o a = true := by
  rw [← stillAsks_iff] at hopen
  rcases hscope with h2 | ⟨hnot, hctx, h1 | ⟨h0, hpage⟩⟩
  · simp [usesRemoved, hpa, hsize, hat, hopen, h2]
  · simp [usesRemoved, hpa, hsize, hat, hopen, h1, hctx]
  · simp [usesRemoved, hpa, hsize, hat, hopen, h0, hctx, hpage]

/-! ### SPCTL -/

theorem spctlWrite_halted {s : State} {q : Nat} (v : W64) (h : (getThread s q).halt = true) : spctlWrite s q v = setThread s q { getThread s q with
    pc := BitVec.ofNat 52 (8 * fld v 51 3), word := 0, halt := !v.getLsbD 0, trapped := (getThread s q).trapped && !v.getLsbD 0, runBit := v.getLsbD 0,
    stopReq := false } := by
  simp only [spctlWrite, h, if_true, Nat.mul_comm _ 8]
  rfl

theorem spctlWrite_runs {s : State} {q : Nat} {v : W64} (h : (getThread s q).halt = false) (hv : v.getLsbD 0 = true) :
    spctlWrite s q v = setThread s q { getThread s q with runBit := true, stopReq := false } := by
  have hb : bit v 0 = true := hv
  simp [spctlWrite, h, hb]

theorem spctlWrite_stops_idle {s : State} {q : Nat} {v : W64} (h : (getThread s q).halt = false) (hv : v.getLsbD 0 = false)
    (hrun : (getThread s q).run = none) (hposted : (getThread s q).posted = none) :
    spctlWrite s q v = setThread s q { getThread s q with runBit := false, halt := true, stopReq := false } := by
  have hb : bit v 0 = false := hv
  simp [spctlWrite, h, hb, hrun, hposted]

theorem spctlWrite_stops_running {s : State} {q : Nat} {v : W64} (h : (getThread s q).halt = false) (hv : v.getLsbD 0 = false)
    (hrun : (getThread s q).run ≠ none) : spctlWrite s q v = setThread s q { getThread s q with runBit := false, stopReq := true } := by
  have hb : bit v 0 = false := hv
  have hr : (getThread s q).run.isNone = false := Option.isNone_eq_false_iff.mpr (Option.isSome_iff_ne_none.mpr hrun)
  simp [spctlWrite, h, hb, hr]

/-- The value of a write of SPCTL as its row takes it: no thread's write sets thread 0 going that a trap has stopped (R386). -/
def spctlValue (s : State) (src : WSrc) (q : Nat) (v : W64) : W64 := match src with
  | .unit _ => if q = 0 && (getThread s 0).trapped then v &&& ~~~(1 : W64) else v
  | .host => v

theorem spctlValue_of_off {s : State} {src : WSrc} {q : Nat} {v : W64} (h : q = 0 → (getThread s q).trapped = true → v.getLsbD 0 = false) :
    spctlValue s src q v = v := by
  cases src with
  | host => rfl
  | unit u =>
    simp only [spctlValue]
    split
    · rename_i hq
      simp only [Bool.and_eq_true, decide_eq_true_eq] at hq
      obtain ⟨rfl, htrapped⟩ := hq
      exact and_not_one_of_even (h rfl htrapped)
    · rfl

theorem exec_spctlWrite {s t : State} {src : WSrc} {q : Nat} {v : W64} (hq : q < 64) (h : Taken s src (0x1C0 + q) v t) :
    exec (.spctlWrite src) s = .next (spctlWrite t q (spctlValue t src q v)) := by
  show execSpctlWrite src s = _
  rw [execSpctlWrite, rowEvent_of_taken _ h (by omega)]
  cases src <;> rfl

/-- SPCTL's row, but where it would set thread 0 going that a trap has stopped. -/
theorem rowWrite_spctl {ok : State → Nat → W64 → Prop} {g : State → Nat → W64 → State}
    (hoff : ∀ s q v, ok s q v → q = 0 → (getThread s q).trapped = true → v.getLsbD 0 = false)
    (h : ∀ s q v, ok s q v → spctlWrite s q v = g s q v) : RowWrite .spctlWrite 0x1C0 64 ok g := by
  intro s src q v t hq ht hok
  rw [exec_spctlWrite hq ht, spctlValue_of_off (hoff t q v hok), h t q v hok]

theorem spctl_by_host {s t : State} {v : W64} (ht : Taken s .host 0x1C0 v t) (hhalt : (getThread t 0).halt = true) (hv : v.getLsbD 0 = true) :
    exec (.spctlWrite .host) s = .next (setThread t 0 { getThread t 0 with
      pc := BitVec.ofNat 52 (8 * fld v 51 3), word := 0, halt := false, trapped := false, runBit := true, stopReq := false }) := by
  rw [exec_spctlWrite (q := 0) (by decide) ht, spctlValue, spctlWrite_halted v hhalt]
  simp only [hv, Bool.not_true, Bool.and_false]

/-- A thread's write leaves thread 0 stopped that a trap has stopped (R386). -/
theorem spctl_by_thread {s t : State} {u : UnitId} {v : W64} (ht : Taken s (.unit u) 0x1C0 v t) (hhalt : (getThread t 0).halt = true)
    (htrapped : (getThread t 0).trapped = true) : exec (.spctlWrite (.unit u)) s = .next (setThread t 0 { getThread t 0 with
      pc := BitVec.ofNat 52 (8 * fld v 51 3), word := 0, runBit := false, stopReq := false }) := by
  have hvalue : spctlValue t (.unit u) 0 v = v &&& ~~~(1 : W64) := if_pos (by simp [htrapped])
  have hpc : fld (v &&& ~~~(1 : W64)) 51 3 = fld v 51 3 := fld_and_mask v (by decide)
  have hoff : (v &&& ~~~(1 : W64)).getLsbD 0 = false := by
    rw [BitVec.getLsbD_and]; simp
  rw [exec_spctlWrite (q := 0) (by decide) ht, hvalue, spctlWrite_halted _ hhalt, hpc, hoff, htrapped]
  simp only [hhalt, htrapped, Bool.not_false, Bool.and_true]

/-! ### The rows -/

/-- The rows of a TLBI's GO differ in the scope alone. -/
theorem exec_tlbi {mk : WSrc → Instr} {n : Nat} (h : (mk, n) = (Instr.tlbiPage, 0) ∨ (mk, n) = (Instr.tlbiContext, 1) ∨ (mk, n) = (Instr.tlbiAll, 2))
    (src : WSrc) (s : State) : exec (mk src) s = tlbiGo s src n := by
  rcases h with h | h | h <;> (obtain ⟨rfl, rfl⟩ := Prod.mk.inj h; rfl)

theorem tlbiGo_taken {s : State} {q n : Nat} {v : W64} (hp : (getThread s q).posted = some (0x1B, v)) (hgo : v.getLsbD 0 = true) (hscope : fld v 9 8 = n) :
    tlbiGo s (.unit (.thread q)) n = .next (
      let t := setThread s q { getThread s q with posted := none }
      let x := getThread t q
      setThread t q (if x.tlbicmd.getLsbD 1 then { x with tlbicmd := x.tlbicmd ||| 4 } else { x with
        tlbicmd := (v &&& 0xFFFF0300#64) ||| 2, tlbiTime := none, tlbiGoCmd := (v &&& 0xFFFF0300#64) ||| 2, tlbiGoVa := x.tlbiva })) := by
  have hones : ones 31 16 ||| ones 9 8 = 0xFFFF0300#64 := by decide
  have hop : (bit v 0 && fld v 9 8 = n) = true := by
    have hb : bit v 0 = true := hgo
    simp [hb, hscope]
  rw [tlbiGo, opEvent_of_taken _ (taken_thread hp) hop]
  simp only [hones, getThread_setThread, bit]
  split <;> rfl

/-- Settles O43: a GO's row by whether BUSY stands, TLBI_DONE by its two turns, SPCTL by the case of `spctlWrite`. -/
theorem threadRows : Obligations.ThreadRows := by
  unfold Obligations.ThreadRows
  refine ⟨?_, ?_, ?_, ?_, ?_, ?_, ?_, ?_, ?_, ?_, ?_, ?_⟩
  · rintro mk n hmk s q v hp ⟨hidle, hgo, hscope⟩
    rw [exec_tlbi hmk, tlbiGo_taken hp hgo hscope]
    simp only [getThread_setThread, hidle, Bool.false_eq_true, if_false]
  · rintro mk n hmk s q v hp ⟨hbusy, hgo, hscope⟩
    rw [exec_tlbi hmk, tlbiGo_taken hp hgo hscope]
    simp only [getThread_setThread, hbusy, if_true]
  · intro s q hbusy hnone hup cmd va
    have hdone := tlbiDone_removes hbusy hnone hup
    have hinv := invalidated_afterRemoval s q cmd va
    refine ⟨fun h0 => ⟨_, hdone, ?_, tlb_afterRemoval_kept (ne_of_eq_of_ne h0 (by decide))⟩,
      fun h1 => ⟨_, hdone, ?_, tlb_afterRemoval_kept (ne_of_eq_of_ne h1 (by decide))⟩, fun h2 => ⟨_, hdone, ?_, tlb_afterRemoval_emptied h2⟩⟩
    · rwa [h0] at hinv
    · rwa [h1] at hinv
    · rwa [h2] at hinv
  · intro s q n hbusy hsome
    refine ⟨fun hall => ?_, fun o ho a ha hphase hpa hsize hat hopen hscope => ?_⟩
    · rw [tlbiDone_waits hbusy hsome, if_neg]
      rw [Bool.not_eq_true, List.any_eq_false]
      rintro o ho hused
      simp only [Bool.and_eq_true, decide_eq_true_eq, List.any_eq_true] at hused
      obtain ⟨hphase, a, ha, hu⟩ := hused
      rw [usesRemoved_performed (hall o ho hphase a ha)] at hu
      exact absurd hu (by decide)
    · rw [tlbiDone_waits hbusy hsome, if_pos]
      exact List.any_eq_true.mpr ⟨o, ho, by
        simpa [hphase] using ⟨a, ha, usesRemoved_open hpa hsize hat hopen hscope⟩⟩
  · refine rowWrite_spctl (fun s q v h => h.2) ?_
    rintro s q v ⟨hhalt, -⟩
    exact spctlWrite_halted v hhalt
  · intro s v t ht hhalt hv
    exact spctl_by_host ht hhalt hv
  · intro s u v t ht hhalt htrapped
    exact spctl_by_thread ht hhalt htrapped
  · refine rowWrite_spctl (fun s q v h hq htrapped => absurd (htrapped.symm.trans (h.2.2 hq)) (by decide)) ?_
    rintro s q v ⟨hhalt, hv, -⟩
    exact spctlWrite_runs hhalt hv
  · refine rowWrite_spctl (fun s q v h _ _ => h.2.1) ?_
    rintro s q v ⟨hhalt, hv, hrun, hposted⟩
    exact spctlWrite_stops_idle hhalt hv hrun hposted
  · refine rowWrite_spctl (fun s q v h _ _ => h.2.1) ?_
    rintro s q v ⟨hhalt, hv, hrun⟩
    exact spctlWrite_stops_running hhalt hv hrun
  · refine threadRow_of_rowEvent fun q s => ?_
    show execWakestClear _ s = _
    simp only [execWakestClear, BitVec.ofNat_toNat]
  · have hones : ones 51 13 ||| ones 0 0 = 0xFFFFFFFFFE001#64 := by decide
    refine threadRow_of_rowEvent fun q s => ?_
    show execSprootWrite _ s = _
    simp only [execSprootWrite, hones]

end Sys2Proof.Proofs
end

section
/-!
PROOFS. The module's registers: MEMSPLIT (spec/04 R69), TREEBASE (spec/06 R113), PROD (spec/19 R321), BOOTSTAT (spec/28 R428)
and QRCMD (spec/24 R399). Settles ModuleRows.
-/
namespace Sys2Proof.Proofs

open Sys2Proof.Machine Sys2Proof.Claims

/-! ### MEMSPLIT -/

theorem memsplit_value (v : W64) : BitVec.ofNat 64 (2 ^ 63 * (v.getLsbD 63).toNat + fld v 8 0) = v &&& 0x80000000000001FF#64 := by
  have hmask : ones 63 63 ||| ones 8 0 = 0x80000000000001FF#64 := by decide
  rw [← hmask, and_or_of_disjoint v (by decide), and_ones, and_ones, fld_bit, ← BitVec.ofNat_add, Nat.pow_zero, Nat.one_mul]

/-- What the row of MEMSPLIT does. -/
def memsplitSet (s : State) (v : W64) : State :=
  if s.regs.memsplit.getLsbD 63 then s
  else withRegs s (fun r => { r with
    memsplit := BitVec.ofNat 64 (2 ^ 63 * (v.getLsbD 63).toNat + if fld v 8 0 ≤ 288 then fld v 8 0 else fld r.memsplit 8 0) })

theorem exec_memsplitWrite (src : WSrc) (s : State) : exec (.memsplitWrite src) s = rowEvent s src 0x20 0x20 (fun s _ v => memsplitSet s v) := rfl

theorem memsplitSet_unlocked {s : State} {v : W64} (hlock : s.regs.memsplit.getLsbD 63 = false) (hsize : fld v 8 0 ≤ 288) :
    memsplitSet s v = withRegs s (fun r => { r with memsplit := v &&& 0x80000000000001FF#64 }) := by
  simp only [memsplitSet, hlock, Bool.false_eq_true, if_false, if_pos hsize, memsplit_value]

theorem memsplitSet_locked {s : State} {v : W64} (hlock : s.regs.memsplit.getLsbD 63 = true) : memsplitSet s v = s := if_pos hlock

/-! ### TREEBASE -/

/-- What the row of TREEBASE does. -/
def treebaseSet (s : State) (v : W64) : State :=
  let base := 2 ^ 22 * fld v 51 22
  let inside := (rangeOf s base).isDram && rangeOf s base = rangeOf s (base + (2 ^ 22 - 1))
  if s.regs.treebase.getLsbD 0 || (v.getLsbD 0 && !inside) then withRegs s (fun r => { r with treebase := r.treebase ||| 2 })
  else withRegs s (fun r => { r with treebase := v &&& 0xFFFFFFFC00001#64 })

theorem exec_treebaseWrite (src : WSrc) (s : State) : exec (.treebaseWrite src) s = rowEvent s src 0x21 0x21 (fun s _ v => treebaseSet s v) := by
  have hones : ones 51 22 ||| 1 = 0xFFFFFFFC00001#64 := by decide
  have hlast : ∀ base, base + 2 ^ 22 - 1 = base + (2 ^ 22 - 1) := fun base => Nat.add_sub_assoc (by decide) base
  show execTreebaseWrite src s = _
  simp only [execTreebaseWrite, hones, hlast]
  rfl

theorem treebaseSet_accepted {s : State} {v : W64} (hoff : s.regs.treebase.getLsbD 0 = false)
    (hin : v.getLsbD 0 = true → (rangeOf s (2 ^ 22 * fld v 51 22)).isDram = true ∧
      rangeOf s (2 ^ 22 * fld v 51 22) = rangeOf s (2 ^ 22 * fld v 51 22 + (2 ^ 22 - 1))) :
    treebaseSet s v = withRegs s (fun r => { r with treebase := v &&& 0xFFFFFFFC00001#64 }) := by
  refine if_neg ?_
  rw [hoff, Bool.false_or, Bool.and_eq_true, not_and]
  intro hv
  obtain ⟨hd, hr⟩ := hin hv
  rw [hd, decide_eq_true hr]
  decide

theorem treebaseSet_refused {s : State} {v : W64}
    (hbad : s.regs.treebase.getLsbD 0 = true ∨ (v.getLsbD 0 = true ∧ (rangeOf s (2 ^ 22 * fld v 51 22)).isDram = false)) :
    treebaseSet s v = withRegs s (fun r => { r with treebase := r.treebase ||| 2 }) := by
  refine if_pos ?_
  rcases hbad with hon | ⟨hv, hd⟩
  · rw [hon, Bool.true_or]
  · rw [hv, hd, Bool.false_and, Bool.not_false, Bool.and_self, Bool.or_true]

/-! ### PROD -/

/-- A queue's entries from CONS to `p`, modulo 2^32 (R321). -/
def ahead (old : W64) (p : Nat) : Nat := (p + 2 ^ 32 - fld old 63 32) % 2 ^ 32

theorem setFld_prod (old : W64) (v : W64) : setFld old 31 0 (fld v 31 0) = BitVec.ofNat 64 (2 ^ 32 * fld old 63 32 + fld v 31 0) := by
  have hhigh : ~~~ones 31 0 = ones 63 32 := by decide
  have hlow : BitVec.ofNat 64 (fld v 31 0) = v &&& ones 31 0 := by rw [and_ones, Nat.pow_zero, Nat.one_mul]
  have hzero : (old &&& ones 63 32) &&& (v &&& ones 31 0) = 0#64 := masked_disjoint old v (by decide)
  rw [setFld_eq old (by decide) (by decide) (fld_lt v 31 0), hhigh, Nat.pow_zero, Nat.one_mul, hlow, ← BitVec.add_eq_or_of_and_eq_zero _ _ hzero, ← hlow,
    and_ones, BitVec.ofNat_add]

/-- A PROD write is refused where its queue is off, or PROD would pass the queue's end or move back (R321). -/
def prodRefused (s : State) (q : Nat) (v : W64) : Bool :=
  let old := look 0 s.regs.hqnotify q
  !(hqctl s q).getLsbD 0 || 2 ^ fld (hqctl s q) 10 7 < ahead old (fld v 31 0) || ahead old (fld v 31 0) < ahead old (fld old 31 0)

theorem prodRefused_iff (s : State) (q : Nat) (v : W64) : prodRefused s q v = true ↔ (hqctl s q).getLsbD 0 = false ∨
    2 ^ fld (hqctl s q) 10 7 < ahead (look 0 s.regs.hqnotify q) (fld v 31 0) ∨
    ahead (look 0 s.regs.hqnotify q) (fld v 31 0) < ahead (look 0 s.regs.hqnotify q) (fld (look 0 s.regs.hqnotify q) 31 0) := by
  simp only [prodRefused, Bool.or_eq_true, Bool.not_eq_true', decide_eq_true_eq, or_assoc]

theorem prodRefused_eq_false_iff (s : State) (q : Nat) (v : W64) : prodRefused s q v = false ↔ (hqctl s q).getLsbD 0 = true ∧
    ahead (look 0 s.regs.hqnotify q) (fld v 31 0) ≤ 2 ^ fld (hqctl s q) 10 7 ∧
    ahead (look 0 s.regs.hqnotify q) (fld (look 0 s.regs.hqnotify q) 31 0) ≤ ahead (look 0 s.regs.hqnotify q) (fld v 31 0) := by
  rw [← Bool.not_eq_true, prodRefused_iff, not_or, not_or, Bool.not_eq_false, Nat.not_lt, Nat.not_lt]

theorem prodWrite_eq (s : State) (q : Nat) (v : W64) : prodWrite s q v =
    let t := withRegs s (fun r => { r with hqctl := putC 0x0000040000000300#64 r.hqctl q (setFld (hqctl s q) 1 1 (prodRefused s q v).toNat) })
    if prodRefused s q v then t
    else wake (withRegs t (fun r => { r with hqnotify := putC 0 r.hqnotify q (setFld (look 0 s.regs.hqnotify q) 31 0 (fld v 31 0)) })) q 1 := rfl

theorem prodWrite_refused {s : State} {q : Nat} {v : W64} (h : prodRefused s q v = true) :
    prodWrite s q v = withRegs s (fun r => { r with hqctl := putC 0x0000040000000300#64 r.hqctl q (hqctl s q ||| 2) }) := by
  simp only [prodWrite_eq, h, if_true, Bool.toNat_true, setFld_bit_one]
  rfl

theorem prodWrite_taken {s : State} {q : Nat} {v : W64} (h : prodRefused s q v = false) :
    prodWrite s q v = setThread (withRegs s (fun r => { r with
      hqctl := putC 0x0000040000000300#64 r.hqctl q (hqctl s q &&& ~~~2#64)
      hqnotify := putC 0 r.hqnotify q (BitVec.ofNat 64 (2 ^ 32 * fld (look 0 s.regs.hqnotify q) 63 32 + fld v 31 0)) }))
      q { getThread s q with wakest := (getThread s q).wakest ||| 2 } := by
  simp only [prodWrite_eq, h, Bool.false_eq_true, if_false, Bool.toNat_false, setFld_bit_zero, setFld_prod]
  rfl

theorem exec_hqProdWrite {s t : State} {q : Nat} {v : W64} (hq : q < 64) (h : Taken s .host (0x180 + q) v t) :
    exec (.hqProdWrite .host) s = .next (prodWrite t q v) := by
  show execHqProdWrite .host s = _
  rw [execHqProdWrite, rowEvent_of_taken _ h (by omega)]

/-! ### BOOTSTAT -/

/-- What the row of BOOTSTAT does. -/
theorem exec_bootstatWrite (src : WSrc) (s : State) : exec (.bootstatWrite src) s = rowEvent s src 0x0C 0x0C (fun s _ v =>
    if (fld v 15 8 = 5 ∨ fld v 15 8 = 7) ∧ fld s.regs.bootstat 15 8 < fld v 15 8 then withRegs s (fun r => { r with
      bootstat := (r.bootstat &&& ~~~0xFF00#64) ||| BitVec.ofNat 64 (256 * fld v 15 8) }) else s) := by
  have hones : ones 15 8 = 0xFF00#64 := by decide
  have hset : ∀ x v : W64, setFld x 15 8 (fld v 15 8) = (x &&& ~~~0xFF00#64) ||| BitVec.ofNat 64 (256 * fld v 15 8) := fun x v => by
    rw [setFld_eq x (by decide) (by decide) (fld_lt v 15 8), hones]
    rfl
  show execBootstatWrite src s = _
  simp only [execBootstatWrite, hset, Bool.and_eq_true, Bool.or_eq_true, decide_eq_true_eq]
  rfl

/-! ### QRCMD -/

/-- What a GO leaves in QRCMD (R399): INDEX and OP, and ERR where it is refused. -/
theorem quarGo_unused {s : State} {v : W64} (wb : Bool) (h : ∀ p ∈ s.mem.quar, p.1 ≠ fld v 31 8) :
    quarGo s v wb = withRegs s (fun r => { r with qrcmd := (v &&& 0xFFFFFF02#64) ||| 4 }) := by
  have hones : ones 31 8 ||| ones 1 1 = 0xFFFFFF02#64 := by decide
  have hfind : s.mem.quar.find? (fun p => p.1 = fld v 31 8) = none := by simpa using h
  simp only [quarGo, hfind, hones, setFld_bit_one]
  rfl

/-- The port of a host line, by the line's number (spec/24 R393). -/
theorem portOf_line (la : Nat) : portOf (128 * la) = la / 2 ^ 39 % 16 := by
  rw [portOf]; omega

theorem quarGo_port_down {s : State} {v : W64} {slot la : Nat} (hfind : s.mem.quar.find? (fun p => p.1 = fld v 31 8) = some (slot, la))
    (hport : fld (look 0 s.regs.portctl (la / 2 ^ 39 % 16)) 4 1 ≠ 4) :
    quarGo s v true = withRegs s (fun r => { r with qrcmd := (v &&& 0xFFFFFF02#64) ||| 4 }) := by
  have hones : ones 31 8 ||| ones 1 1 = 0xFFFFFF02#64 := by decide
  have hup : portUp s (portOf (128 * la)) = false := by
    rw [portOf_line]; exact decide_eq_false hport
  simp only [quarGo, hfind, hup, hones, setFld_bit_one]
  rfl

/-- A slot that is freed while no line waits for one. -/
theorem freeSlotLine_none_waits {s : State} (slot : Nat) (h : ∀ p ∈ s.mem.l2, p.2.quarantined = false) : freeSlotLine s slot =
    { s with
      regs := { s.regs with qrstat := BitVec.ofNat 64 (2 ^ 32 * fld s.regs.qrstat 63 32 + (fld s.regs.qrstat 31 0 - 1)) }
      mem := { s.mem with quar := dropKey s.mem.quar slot } } := by
  have hheld : fld s.regs.qrstat 63 32 % 2 ^ 32 = fld s.regs.qrstat 63 32 := Nat.mod_eq_of_lt (fld_lt _ 63 32)
  have hcount : (fld s.regs.qrstat 31 0 - 1) % 2 ^ 32 = fld s.regs.qrstat 31 0 - 1 :=
    Nat.mod_eq_of_lt (Nat.lt_of_le_of_lt (Nat.sub_le _ _) (fld_lt _ 31 0))
  have hlines : ∀ t : State, t.mem.l2 = s.mem.l2 → linesWhere t (fun _ e => e.used && e.quarantined) = [] := fun t ht => by
    simp only [linesWhere, ht, List.map_eq_nil_iff, List.filter_eq_nil_iff]
    intro p hp
    simp [h p hp]
  have hempty := hlines (quarCount { s with mem := { s.mem with quar := dropKey s.mem.quar slot } } (· - 1) id) rfl
  simp only [freeSlotLine, hempty]
  simp only [quarCount, hheld, hcount, id]

/-- The slot that a GO names is free (R399). -/
def slotFreed (s : State) (v : W64) : State := { s with
  regs := { s.regs with qrstat := BitVec.ofNat 64 (2 ^ 32 * fld s.regs.qrstat 63 32 + (fld s.regs.qrstat 31 0 - 1)), qrcmd := v &&& 0xFFFFFF02#64 }
  mem := { s.mem with quar := dropKey s.mem.quar (fld v 31 8) } }

theorem setFld_qrcmd (v : W64) : setFld (v &&& (ones 31 8 ||| ones 1 1)) 2 2 0 = v &&& 0xFFFFFF02#64 := by
  have hones : (ones 31 8 ||| ones 1 1) &&& ~~~BitVec.ofNat 64 (2 ^ 2) = 0xFFFFFF02#64 := by decide
  rw [setFld_bit_zero, BitVec.and_assoc, hones]

theorem quarGo_release {s : State} {v : W64} {slot la : Nat} (hfind : s.mem.quar.find? (fun p => p.1 = fld v 31 8) = some (slot, la))
    (h : ∀ p ∈ s.mem.l2, p.2.quarantined = false) : quarGo s v false = slotFreed s v := by
  simp only [quarGo, hfind, Bool.false_and, Bool.false_eq_true, if_false, freeSlotLine_none_waits _ h, setFld_qrcmd]
  rfl

theorem quarToHost_eq {s y : State} {slot la d : Nat}
    (h : devGet s poolX (BitVec.ofNat 64 (4096 * fld s.regs.qrcfg 51 12 + 256 * slot)) 256 = (y, .inr d)) :
    quarToHost s slot la = memWrite y (128 * la) (sectorBytes (BitVec.ofNat 4 (d / 2 ^ 64))) (d / 2 ^ 1024) 128 := by
  simp only [quarToHost, quarVa, h]

theorem quarGo_writeback {s : State} {v : W64} {slot la : Nat} (hfind : s.mem.quar.find? (fun p => p.1 = fld v 31 8) = some (slot, la))
    (hport : fld (look 0 s.regs.portctl (la / 2 ^ 39 % 16)) 4 1 = 4) (h : ∀ p ∈ (quarToHost s (fld v 31 8) la).mem.l2, p.2.quarantined = false) :
    quarGo s v true = slotFreed (quarToHost s (fld v 31 8) la) v := by
  have hup : portUp s (portOf (128 * la)) = true := by
    rw [portOf_line]; exact decide_eq_true hport
  simp only [quarGo, hfind, hup, Bool.not_true, Bool.and_false, Bool.false_eq_true, if_false, if_true, freeSlotLine_none_waits _ h, setFld_qrcmd]
  rfl

/-! ### The rows -/

/-- Settles O44: each register by the lemma of its row's case; a slot of QRCMD is freed at once, for no line waits for it. -/
theorem moduleRows : Obligations.ModuleRows := by
  unfold Obligations.ModuleRows
  refine ⟨?_, ?_, ?_, ?_, ?_, ?_, ?_, ?_, ?_⟩
  · refine rowWrite_of_rowEvent _ exec_memsplitWrite rfl ?_
    rintro src s i v ⟨hlock, hsize⟩
    exact memsplitSet_unlocked hlock hsize
  · refine rowWrite_of_rowEvent _ exec_memsplitWrite rfl ?_
    intro src s i v hlock
    exact memsplitSet_locked hlock
  · refine rowWrite_of_rowEvent _ exec_treebaseWrite rfl ?_
    rintro src s i v ⟨hoff, hin⟩
    exact treebaseSet_accepted hoff hin
  · refine rowWrite_of_rowEvent _ exec_treebaseWrite rfl ?_
    intro src s i v hbad
    exact treebaseSet_refused hbad
  · intro s t q v hq ht
    rw [← regs_of_taken_host ht, exec_hqProdWrite hq ht]
    refine ⟨fun hon hend hback => ?_, fun hbad => ?_⟩
    · exact congrArg _ (prodWrite_taken ((prodRefused_eq_false_iff t q v).mpr ⟨hon, hend, hback⟩))
    · exact congrArg _ (prodWrite_refused ((prodRefused_iff t q v).mpr hbad))
  · refine rowWrite_of_rowEvent _ exec_bootstatWrite rfl ?_
    intro src s i v hok
    exact if_pos hok
  · refine rowWrite_of_rowEvent _ exec_bootstatWrite rfl ?_
    intro src s i v hbad
    refine if_neg ?_
    rintro ⟨hstage, hup⟩
    omega
  · rintro mk b (hmk | hmk) <;> obtain ⟨rfl, rfl⟩ := Prod.mk.inj hmk
    · refine rowWrite_of_opEvent (fun s v => quarGo s v false) (fun _ _ => rfl) ?_ ?_
      · rintro s i v ⟨hgo, hop, -⟩
        simp only [bit, hgo, hop]
        rfl
      · rintro s i v ⟨-, -, hunused⟩
        exact quarGo_unused false hunused
    · refine rowWrite_of_opEvent (fun s v => quarGo s v true) (fun _ _ => rfl) ?_ ?_
      · rintro s i v ⟨hgo, hop, -⟩
        simp only [bit, hgo, hop]
        rfl
      · rintro s i v ⟨-, -, hunused⟩
        exact quarGo_unused true hunused
  · intro s src v t la ht hfind hgo left none_
    have hrel : v.getLsbD 1 = false → exec (.qrRelease src) s = .next (quarGo t v false) := fun hop =>
      opEvent_of_taken (fun s v => quarGo s v false) ht (by simp only [bit, hgo, hop]; decide)
    have hwb : v.getLsbD 1 = true → exec (.qrWriteback src) s = .next (quarGo t v true) := fun hop =>
      opEvent_of_taken (fun s v => quarGo s v true) ht (by simp only [bit, hgo, hop]; decide)
    refine ⟨fun hnone hop => ?_, fun hport hop y d hnone hd => ?_, fun hport hop => ?_⟩
    · rw [hrel hop, quarGo_release hfind hnone]
      rfl
    · have hhost := quarToHost_eq (la := la) hd
      rw [hwb hop, quarGo_writeback hfind hport (by rwa [hhost, memWrite_l2]), hhost]
      rfl
    · rw [hwb hop, quarGo_port_down hfind hport]

end Sys2Proof.Proofs
end

section
/-!
PROOFS. Retention ranges (spec/05 R101-R105): what a write of their registers does, and the ends of enabling and releasing. Settles RetentionRows.
-/
namespace Sys2Proof.Proofs

open Sys2Proof.Machine Sys2Proof.Claims

/-! ### The checks on enabling a range -/

/-- R102's checks of a control word by itself: 1 to 12 ways, up to way 15, and a limit not below the base. -/
def RangeFits (s : State) (i : Nat) (v : W64) : Prop :=
  1 ≤ fld v 11 8 ∧ fld v 11 8 ≤ 12 ∧ fld v 15 12 + fld v 11 8 ≤ 16 ∧ fld (look 0 s.regs.retbase i) 51 12 ≤ fld (look 0 s.regs.retlim i) 51 12

theorem retSpan_empty_iff (s : State) (i : Nat) :
    (retSpan s i).2 ≤ (retSpan s i).1 ↔ fld (look 0 s.regs.retlim i) 51 12 < fld (look 0 s.regs.retbase i) 51 12 := by
  simp only [retSpan]
  omega

theorem retBad_of_not_fits {s : State} {i : Nat} {v : W64} (h : ¬ RangeFits s i v) : retBad s i v = true := by
  have hcase : fld v 11 8 = 0 ∨ 12 < fld v 11 8 ∨ 16 < fld v 15 12 + fld v 11 8 ∨ (retSpan s i).2 ≤ (retSpan s i).1 := by
    rw [retSpan_empty_iff]
    unfold RangeFits at h
    omega
  simp only [retBad, Bool.or_eq_true, decide_eq_true_eq]
  tauto

/-- With no other range enabled, the checks of the word by itself are all. -/
theorem retBad_alone {s : State} {i : Nat} {v : W64} (h : RangeFits s i v) (halone : ∀ j < 16, j ≠ i → (retctlOf s j).getLsbD 0 = false) :
    retBad s i v = false := by
  have hothers : (List.range 16).filter (fun j => j ≠ i && bit (retCtl s j) 0) = [] := by
    rw [List.filter_eq_nil_iff]
    intro j hj hon
    simp only [Bool.and_eq_true, decide_eq_true_eq] at hon
    obtain ⟨hji, hen⟩ := hon
    exact absurd (hen.symm.trans (halone j (List.mem_range.mp hj) hji)) (by decide)
  obtain ⟨hone, hmost, hlast, hspan⟩ := h
  simp only [retBad, hothers, retSpan_empty_iff, List.any_nil, List.map_nil, sumL, List.foldl_nil, Bool.or_eq_false_iff, decide_eq_false_iff_not, and_true]
  omega

/-! ### What a write does -/

theorem retRefuse_eq (s : State) (i : Nat) :
    retRefuse s i = withRegs s (fun r => { r with retctl := putC 0 r.retctl i (retctlOf s i ||| 4) }) := by
  simp only [retRefuse, setFld_bit_one]
  rfl

/-- The range is enabled, or being enabled or released. -/
def InUse (s : State) (i : Nat) : Prop := (retctlOf s i).getLsbD 0 = true ∨ (retctlOf s i).getLsbD 1 = true

theorem inUse_iff (s : State) (i : Nat) : InUse s i ↔ (bit (retCtl s i) 0 || bit (retCtl s i) 1) = true := (Bool.or_eq_true _ _).symm.to_iff

theorem retctl_bits_of_free {s : State} {i : Nat} (hen : (retctlOf s i).getLsbD 0 = false) (hbusy : (retctlOf s i).getLsbD 1 = false) :
    (bit (retCtl s i) 0 || bit (retCtl s i) 1) = false := (Bool.or_eq_false_iff).mpr ⟨hen, hbusy⟩

theorem ones_retctl : ones 20 8 ||| ones 0 0 = 0x1FFF01#64 := by decide

theorem retWrite_free {s : State} {i : Nat} (v : W64) (hen : (retctlOf s i).getLsbD 0 = false) (hbusy : (retctlOf s i).getLsbD 1 = false) :
    retWrite s i v =
      if v.getLsbD 0 then (if retBad s i v then retRefuse s i else setRetctl s i ((v &&& 0x1FFF01#64) ||| 2)) else setRetctl s i (v &&& 0x1FFF01#64) := by
  simp only [retWrite, retctl_bits_of_free hen hbusy, ones_retctl]
  rfl

/-- While EN or BUSY is 1, a write of RETCTL is taken where it clears EN and keeps the other fields. -/
theorem retWrite_inUse {s : State} {i : Nat} (v : W64) (h : InUse s i) : retWrite s i v =
    if (retctlOf s i).getLsbD 0 = true ∧ v.getLsbD 0 = false ∧ v &&& 0x1FFF00#64 = retctlOf s i &&& 0x1FFF00#64
    then setRetctl s i ((v &&& 0x1FFF01#64) ||| 2) else retRefuse s i := by
  have hkept : ones 20 8 = 0x1FFF00#64 := by decide
  have hoff : v.getLsbD 0 = false → v &&& 0x1FFF01#64 = v &&& 0x1FFF00#64 := fun hv => calc
    v &&& 0x1FFF01#64 = (v &&& ~~~(1 : W64)) &&& 0x1FFF01#64 := by rw [and_not_one_of_even hv]
    _ = v &&& 0x1FFF00#64 := by rw [BitVec.and_assoc]; rfl
  have hcond : (bit (retCtl s i) 0 && !bit v 0 && decide (v &&& 0x1FFF01#64 = retCtl s i &&& 0x1FFF00#64)) = true ↔
      (retctlOf s i).getLsbD 0 = true ∧ v.getLsbD 0 = false ∧ v &&& 0x1FFF00#64 = retctlOf s i &&& 0x1FFF00#64 := by
    simp only [Bool.and_eq_true, Bool.not_eq_true', decide_eq_true_eq, and_assoc]
    exact and_congr_right fun _ => and_congr_right fun hv => by rw [hoff hv]; rfl
  simp only [retWrite, (inUse_iff s i).mp h, ones_retctl, if_true]
  simp only [hkept, hcond]

theorem retOther_free {s : State} {i : Nat} (g : Regs → Regs) (hen : (retctlOf s i).getLsbD 0 = false) (hbusy : (retctlOf s i).getLsbD 1 = false) :
    retOther s i g = setRetctl { s with regs := g s.regs } i (retctlOf s i &&& ~~~4#64) := by
  simp only [retOther, retctl_bits_of_free hen hbusy, setFld_bit_zero]
  rfl

theorem retOther_inUse {s : State} {i : Nat} (g : Regs → Regs) (h : InUse s i) : retOther s i g = retRefuse s i :=
  if_pos ((inUse_iff s i).mp h)

/-! ### The end of enabling -/

theorem mem_retWays (c : W64) (w : Nat) : w ∈ retWays c ↔ fld c 15 12 ≤ w ∧ w < fld c 15 12 + fld c 11 8 := by
  simp only [retWays, List.mem_map, List.mem_range]
  constructor
  · rintro ⟨j, hj, rfl⟩
    omega
  · rintro ⟨hlo, hhi⟩
    exact ⟨w - fld c 15 12, by omega, by omega⟩

/-- A line in a way that control word `c` reserves, not quarantined. -/
def inReserved (c : W64) (k : Nat) (e : L2Line) : Bool := e.used && !e.quarantined && (retWays c).contains (k % 16)

theorem inReserved_iff (c : W64) (k : Nat) (e : L2Line) : inReserved c k e = true ↔
    e.used = true ∧ e.quarantined = false ∧ fld c 15 12 ≤ k % 16 ∧ k % 16 < fld c 15 12 + fld c 11 8 := by
  simp only [inReserved, Bool.and_eq_true, Bool.not_eq_true', List.contains_iff_mem, mem_retWays, and_assoc]

theorem retentionEnableDone_eq {s : State} {i : Nat} (hen : (retctlOf s i).getLsbD 0 = true) (hbusy : (retctlOf s i).getLsbD 1 = true)
    (hup : s.regs.dlstat.getLsbD 0 = true) : exec (.retentionEnableDone i) s =
      .next (setRetctl ((linesWhere s (inReserved (retctlOf s i))).foldl evict s) i (retctlOf s i &&& ~~~2#64)) := by
  have he : bit (retCtl s i) 0 = true := hen
  have hb : bit (retCtl s i) 1 = true := hbusy
  show execRetentionEnableDone i s = _
  simp only [execRetentionEnableDone, he, hb, atLink_pass (.inl hup), setFld_bit_zero]
  rfl

/-- Enabling empties the reserved ways, but for quarantined lines, and leaves every other line. -/
theorem getL2_clearReserved {s : State} (c : W64) (k : Nat) (h : rising 0 s.mem.l2 = true) :
    getL2 ((linesWhere s (inReserved c)).foldl evict s) k = if inReserved c k (getL2 s k) = true then L2Line.reset else getL2 s k := by
  have hused : inReserved c k (getL2 s k) = true → (getL2 s k).used = true := fun hr => ((inReserved_iff c k _).mp hr).1
  simp only [getL2_foldl_evict _ k h, mem_linesWhere (p := inReserved c) k h rfl, and_iff_left_of_imp hused]

/-! ### The end of releasing -/

/-- Unmarking changes the slices' lines and recency alone. -/
theorem unmark_frame (s : State) (k : Nat) : ∃ r, unmark s k = { s with mem := { s.mem with
    l2 := putC L2Line.reset s.mem.l2 k { getL2 s k with range := none }, recency := r } } := ⟨_, rfl⟩

theorem rising_unmark {s : State} (k : Nat) (h : rising 0 s.mem.l2 = true) : rising 0 (unmark s k).mem.l2 = true := rising_putC _ _ h

theorem getL2_unmark {s : State} (k j : Nat) (h : rising 0 s.mem.l2 = true) :
    getL2 (unmark s k) j = if j = k then { getL2 s j with range := none } else getL2 s j := by
  refine (look_putC L2Line.reset k j _ h).trans ?_
  split
  · next hj => rw [hj]
  · rfl

theorem foldl_unmark_frame (ks : List Nat) (s : State) :
    ∃ l r, ks.foldl unmark s = { s with mem := { s.mem with l2 := l, recency := r } } := by
  induction ks generalizing s with
  | nil => exact ⟨s.mem.l2, s.mem.recency, rfl⟩
  | cons k ks ih =>
    obtain ⟨r, hu⟩ := unmark_frame s k
    obtain ⟨l, r', hf⟩ := ih (unmark s k)
    exact ⟨l, r', by rw [List.foldl_cons, hf, hu]⟩

theorem getL2_foldl_unmark (ks : List Nat) {s : State} (j : Nat) (h : rising 0 s.mem.l2 = true) :
    getL2 (ks.foldl unmark s) j = if j ∈ ks then { getL2 s j with range := none } else getL2 s j := by
  induction ks generalizing s with
  | nil => rfl
  | cons k ks ih =>
    rw [List.foldl_cons, ih (rising_unmark k h), getL2_unmark k j h]
    by_cases hj : j = k <;> simp [hj]

/-- The lines that range `i` retains, in the order in which its release unmarks them. -/
def retainedLines (s : State) (i : Nat) : List Nat := (linesWhere s (fun _ e => e.used && e.range = some i)).reverse

theorem mem_retainedLines {s : State} (i k : Nat) (h : rising 0 s.mem.l2 = true) :
    k ∈ retainedLines s i ↔ (getL2 s k).used = true ∧ (getL2 s k).range = some i := by
  rw [retainedLines, List.mem_reverse, mem_linesWhere k h rfl, Bool.and_eq_true, decide_eq_true_eq]

theorem retentionReleaseDone_eq {s : State} {i : Nat} (hen : (retctlOf s i).getLsbD 0 = false) (hbusy : (retctlOf s i).getLsbD 1 = true)
    (hup : s.regs.dlstat.getLsbD 0 = true) :
    exec (.retentionReleaseDone i) s = .next (setRetctl ((retainedLines s i).foldl unmark s) i (retctlOf s i &&& ~~~2#64)) := by
  have he : bit (retCtl s i) 0 = false := hen
  have hb : bit (retCtl s i) 1 = true := hbusy
  show execRetentionReleaseDone i s = _
  simp only [execRetentionReleaseDone, he, hb, atLink_pass (.inl hup), setFld_bit_zero]
  rfl

/-! ### The rows -/

/-- RETCTL's row, where the die link is up and `retWrite` makes the write. -/
theorem rowWrite_retctl {ok : State → Nat → W64 → Prop} {g : State → Nat → W64 → State}
    (hup : ∀ s i v, ok s i v → s.regs.dlstat.getLsbD 0 = true) (h : ∀ s i v, ok s i v → retWrite s i v = g s i v) :
    RowWrite .retctlWrite 0xE0 16 ok g :=
  rowWrite_of_copiedRow retWrite (fun _ _ => rfl) rfl hup h

theorem ones_page : ones 51 12 = 0xFFFFFFFFFF000#64 := by decide

/-- The rows of RETBASE and RETLIM, which differ in the register that they set. -/
theorem rowWrite_retbase {ok : State → Nat → W64 → Prop} {g : State → Nat → W64 → State} (hup : ∀ s i v, ok s i v → s.regs.dlstat.getLsbD 0 = true)
    (h : ∀ s i v, ok s i v → retOther s i (fun r => { r with retbase := putC 0 r.retbase i (v &&& 0xFFFFFFFFFF000#64) }) = g s i v) :
    RowWrite .retbaseWrite 0xC0 16 ok g :=
  rowWrite_of_copiedRow _ (fun _ _ => rfl) rfl hup (by simpa only [ones_page] using h)

theorem rowWrite_retlim {ok : State → Nat → W64 → Prop} {g : State → Nat → W64 → State} (hup : ∀ s i v, ok s i v → s.regs.dlstat.getLsbD 0 = true)
    (h : ∀ s i v, ok s i v → retOther s i (fun r => { r with retlim := putC 0 r.retlim i (v &&& 0xFFFFFFFFFF000#64) }) = g s i v) :
    RowWrite .retlimWrite 0xD0 16 ok g :=
  rowWrite_of_copiedRow _ (fun _ _ => rfl) rfl hup (by simpa only [ones_page] using h)

/-- Settles O42: each write by the case of `retWrite` or `retOther` that its condition picks, the completions by the lines that they evict or unmark. -/
theorem retentionRows : Obligations.RetentionRows := by
  unfold Obligations.RetentionRows
  intro up
  refine ⟨?_, ?_, ?_, ?_, ?_, ?_, ?_, ?_, ?_, ?_, ?_⟩
  · refine rowWrite_retctl (fun s i v h => h.1) ?_
    rintro s i v ⟨-, hen, hbusy, hv⟩
    exact (retWrite_free v hen hbusy).trans (if_neg (by rw [hv]; decide))
  · refine rowWrite_retctl (fun s i v h => h.1) ?_
    rintro s i v ⟨-, hen, hbusy, hv, hone, hmost, hlast, hspan, halone⟩
    have hbad : retBad s i v = false := retBad_alone ⟨hone, hmost, hlast, hspan⟩ halone
    rw [retWrite_free v hen hbusy, if_pos hv, hbad]
    rfl
  · refine rowWrite_retctl (fun s i v h => h.1) ?_
    rintro s i v ⟨-, hen, hbusy, hv, hunfit⟩
    have hbad : retBad s i v = true := retBad_of_not_fits fun ⟨hone, hmost, hlast, hspan⟩ => by omega
    rw [retWrite_free v hen hbusy, if_pos hv, if_pos hbad, retRefuse_eq]
  · refine rowWrite_retctl (fun s i v h => h.1) ?_
    rintro s i v ⟨-, hen, hv, hkept⟩
    exact (retWrite_inUse v (.inl hen)).trans (if_pos ⟨hen, hv, hkept⟩)
  · refine rowWrite_retctl (fun s i v h => h.1) ?_
    rintro s i v ⟨-, huse, hbad⟩
    rw [retWrite_inUse v huse, if_neg, retRefuse_eq]
    rintro ⟨hen, hv, hkept⟩
    rcases hbad with hoff | hon | hother
    · exact absurd (hen.symm.trans hoff) (by decide)
    · exact absurd (hon.symm.trans hv) (by decide)
    · exact hother hkept
  · refine rowWrite_retbase (fun s i v h => h.1) ?_
    rintro s i v ⟨-, hen, hbusy⟩
    exact retOther_free _ hen hbusy
  · refine rowWrite_retlim (fun s i v h => h.1) ?_
    rintro s i v ⟨-, hen, hbusy⟩
    exact retOther_free _ hen hbusy
  · rintro mk lo (⟨rfl, rfl⟩ | ⟨rfl, rfl⟩)
    · refine rowWrite_retbase (fun s i v h => h.1) ?_
      rintro s i v ⟨-, huse⟩
      rw [retOther_inUse _ huse, retRefuse_eq]
    · refine rowWrite_retlim (fun s i v h => h.1) ?_
      rintro s i v ⟨-, huse⟩
      rw [retOther_inUse _ huse, retRefuse_eq]
  · have hones : ones 63 32 = 0xFFFFFFFF00000000#64 := by decide
    refine rowWrite_of_copiedRow (fun s i v => withRegs s (fun r => { r with retstat := putC 0 r.retstat i (v &&& ones 63 32) }))
      (fun _ _ => rfl) rfl (fun s i v h => h) ?_
    intro s i v _
    rw [hones]
  · intro s i hr hen hbusy hup
    obtain ⟨m, x, hf⟩ := foldl_evict_frame (linesWhere s (inReserved (retctlOf s i))) s
    refine ⟨_, retentionEnableDone_eq hen hbusy hup, ?_, fun k hq hlo hhi => ?_, fun k hout => ?_, ?_⟩
    · rw [hf]; rfl
    · refine (congrArg L2Line.used (getL2_clearReserved (retctlOf s i) k hr)).trans ?_
      split
      · rfl
      · next hnot => exact Bool.eq_false_iff.mpr fun hu => hnot ((inReserved_iff _ _ _).mpr ⟨hu, hq, hlo, hhi⟩)
    · refine (getL2_clearReserved (retctlOf s i) k hr).trans (if_neg fun hin => ?_)
      obtain ⟨-, -, hlo, hhi⟩ := (inReserved_iff _ _ _).mp hin
      omega
    · rw [hf]; exact ⟨rfl, rfl, rfl, rfl⟩
  · intro s i hr hen hbusy hup
    obtain ⟨l, r, hf⟩ := foldl_unmark_frame (retainedLines s i) s
    refine ⟨_, retentionReleaseDone_eq hen hbusy hup, ?_, fun k => ?_, ?_⟩
    · rw [hf]; rfl
    · refine (getL2_foldl_unmark (retainedLines s i) k hr).trans ?_
      simp only [mem_retainedLines i k hr]
    · rw [hf]; exact ⟨rfl, rfl, rfl, rfl, rfl, rfl⟩

end Sys2Proof.Proofs
end

section
/-!
PROOFS. Issue of a ready word (spec/02 R33, R38, R39; spec/09 R182, R186): the state in which its meaning runs, and what the meaning is given.
-/
namespace Sys2Proof.Proofs

open Sys2Proof.Machine Sys2Proof.Claims

/-- What the meaning of a ready vector word is given. -/
def warpWord (c k : Nat) (w : Warp) (r : ClauseRun) (v : WView) : Issued :=
  { u := .warp c k, kind := .vector, word := v.word, pc := r.pc, hdr := r.hdr, widx := r.idx, didx := v.didx, flag := v.flag.getD 0,
    t := issueCycle r v, act := active w r v, a := supplied w r v r.la v.a, b := supplied w r v r.lb v.b, c := supplied w r v r.lc v.c }

/-- What the meaning of a ready scalar word is given. -/
def scalarWord (s : State) (u : UnitId) (r : ClauseRun) (v : WView) : Issued :=
  { u := u, kind := u.kind, word := v.word, pc := r.pc, hdr := r.hdr, widx := r.idx, didx := v.didx, flag := v.flag.getD 0, t := r.cyc,
    act := 1, a := scalarVals (scalarRegs s u) v.a, b := scalarVals (scalarRegs s u) v.b, c := scalarVals (scalarRegs s u) v.c }

theorem flagFull_of_room {s : State} {u : UnitId} {v : WView} (h : ∀ f, v.flag = some f → flagCount s u f < 63) : flagFull s u v = false := by
  unfold flagFull
  cases hv : v.flag with
  | none => rfl
  | some f => simpa using h f hv

theorem active_eq (w : Warp) (r : ClauseRun) (v : WView) :
    active w r v = if r.idx < r.skip then 0 else r.mask &&& (if v.pneg then ~~~readPred (due w r v).1 v.pred else readPred (due w r v).1 v.pred) := by
  unfold active
  split
  · rfl
  · split <;> rfl

/-- Only lanes of the clause are active. -/
theorem mask_ne_zero_of_active {w : Warp} {r : ClauseRun} {v : WView} (h : active w r v ≠ 0) : r.mask ≠ 0 := by
  intro hm
  have hzero : active w r v = 0 := by simp [active_eq, hm]
  exact h hzero

theorem prepWarp_of_ready {s : State} {c k : Nat} {w : Warp} {r : ClauseRun} {v : WView} (h : Ready s c k w r v) :
    prepWarp s c k r v = .go (issued s c k w r v) (warpWord c k w r v) := by
  obtain ⟨-, rfl, -, hlegal, hlanes, hbudget, hflag⟩ := h
  refine prepWarp_go (active_eq _ r v) hlanes hlegal ?_ (flagFull_of_room hflag)
  rw [List.any_eq_false]
  intro g hg
  simpa using hbudget g hg

/-- A ready vector word runs its meaning on what the warp supplies. -/
theorem issue_of_ready {s : State} {c k : Nat} {w : Warp} {r : ClauseRun} {view : UKind → ClauseRun → WView}
    (h : Ready s c k w r (view .vector r)) (body : State → Issued → State) :
    issue s view body = .next (body (issued s c k w r (view .vector r)) (warpWord c k w r (view .vector r))) := by
  have hrun : (getWarp s c k).run = some r := by rw [h.warp, h.run]
  rw [issue, prep_warp view h.cur hrun, prepWarp_of_ready h]

/-- A ready scalar word runs its meaning on what its unit's registers supply. -/
theorem issue_of_scalarReady {s : State} {u : UnitId} {r : ClauseRun} {view : UKind → ClauseRun → WView}
    (h : ScalarReady s u r (view u.kind r)) (body : State → Issued → State) :
    issue s view body = .next (body (scalarStep s u r) (scalarWord s u r (view u.kind r))) := by
  have hgo := prepScalar_go (r := r) h.legal (flagFull_of_room h.flag)
  cases u with
  | warp c k => exact absurd rfl (h.scalar c k)
  | front c k =>
    rw [issue, prep_front view h.cur h.run]
    simp only [UnitId.kind] at hgo
    rw [hgo]
    rfl
  | thread q =>
    rw [issue, prep_thread view h.cur h.run]
    simp only [UnitId.kind] at hgo
    rw [hgo]
    rfl

/-! ### What the issue leaves alone -/

@[simp] theorem issued_regs (s : State) (c k : Nat) (w : Warp) (r : ClauseRun) (v : WView) : (issued s c k w r v).regs = s.regs := rfl

@[simp] theorem scalarStep_regs (s : State) (u : UnitId) (r : ClauseRun) : (scalarStep s u r).regs = s.regs := by
  cases u <;> rfl

theorem unitX_issued {s : State} {c k : Nat} {w : Warp} (r : ClauseRun) (v : WView) (hw : getWarp s c k = w) :
    unitX (issued s c k w r v) (.warp c k) = unitX s (.warp c k) := by
  obtain ⟨x, g, p, f, hdue⟩ := drainTo_frame (issueCycle r v) w r
  simp only [unitX, whoIs, issued, getWarp_setWarp, due, hdue, hw]
  rfl

theorem tlbsFor_setWarp (s : State) (c k : Nat) (w : Warp) (x : XCtx) : tlbsFor (setWarp s c k w) x = tlbsFor s x := by
  unfold tlbsFor
  cases x.thread with
  | some q => rfl
  | none =>
    by_cases hc : x.core = c
    · subst hc; simp [setWarp]
    · simp [setWarp, getCore_setCore_other s _ hc]

@[simp] theorem whoIs_scalarStep (s : State) (u : UnitId) (r : ClauseRun) : whoIs (scalarStep s u r) u = whoIs s u := by
  cases u <;> simp [whoIs, scalarStep, setRun]

@[simp] theorem unitX_scalarStep (s : State) (u : UnitId) (r : ClauseRun) : unitX (scalarStep s u r) u = unitX s u := by
  cases u with
  | warp c k => simp only [unitX, whoIs_scalarStep]; rfl
  | front c k => simp only [unitX, whoIs_scalarStep]; rfl
  | thread q => simp [unitX, scalarStep, setRun, threadX]

end Sys2Proof.Proofs
end

section
/-!
PROOFS. A long-latency word's operation (spec/02 R25; spec/08 R163, R164): what is in flight once the word has issued, and the accesses that it makes.
-/
namespace Sys2Proof.Proofs

open Sys2Proof.Machine Sys2Proof.Claims

/-- A field of a warp that a write of one warp keeps is kept in every warp. -/
theorem getWarp_setWarp_keeps {α : Type} (g : Warp → α) {s : State} {c k : Nat} {w : Warp} (h : g w = g (getWarp s c k)) (d j : Nat) :
    g (getWarp (setWarp s c k w) d j) = g (getWarp s d j) := by
  by_cases hd : d = c
  · subst hd
    by_cases hj : j = k
    · subst hj; rw [getWarp_setWarp, h]
    · rw [getWarp_setWarp_slot s d w hj]
  · rw [getWarp_setWarp_core s k j w hd]

/-- Flag counts are apart from everything else of a warp. -/
theorem getWarp_setUnitFlags_keeps {α : Type} (g : Warp → α) (hg : ∀ w m, g { w with flags := m } = g w) (s : State) (u : UnitId) (m : SMap Nat)
    (d j : Nat) : g (getWarp (setUnitFlags s u m) d j) = g (getWarp s d j) := by
  cases u with
  | warp c k => exact getWarp_setWarp_keeps g (hg _ m) d j
  | front c k => simp [setUnitFlags]
  | thread q => simp [setUnitFlags]

@[simp] theorem scalarRegs_setUnitFlags (s : State) (u : UnitId) (m : SMap Nat) : scalarRegs (setUnitFlags s u m) u = scalarRegs s u := by
  cases u <;> simp [scalarRegs, setUnitFlags]

/-- `x` is the word of `v` at its place in the clause `r`. -/
structure Carries (x : Issued) (r : ClauseRun) (v : WView) : Prop where
  word : x.word = v.word
  pc : x.pc = r.pc
  widx : x.widx = r.idx
  flag : x.flag = v.flag.getD 0

theorem warpWord_carries (c k : Nat) (w : Warp) (r : ClauseRun) (v : WView) : Carries (warpWord c k w r v) r v := ⟨rfl, rfl, rfl, rfl⟩

theorem scalarWord_carries (s : State) (u : UnitId) (r : ClauseRun) (v : WView) : Carries (scalarWord s u r v) r v := ⟨rfl, rfl, rfl, rfl⟩

/-- What a write of a unit's flag counts leaves alone, beside the units. -/
theorem setUnitFlags_frame (s : State) (u : UnitId) (m : SMap Nat) :
    (setUnitFlags s u m).ops = s.ops ∧ (setUnitFlags s u m).nextOp = s.nextOp ∧ (setUnitFlags s u m).mem = s.mem ∧
    (setUnitFlags s u m).regs = s.regs ∧ (setUnitFlags s u m).pairs = s.pairs ∧ (setUnitFlags s u m).copies = s.copies ∧
    (setUnitFlags s u m).host = s.host ∧ (setUnitFlags s u m).gleaners = s.gleaners ∧ (setUnitFlags s u m).time = s.time ∧
    (setUnitFlags s u m).launch = s.launch := by
  cases u <;> exact ⟨rfl, rfl, rfl, rfl, rfl, rfl, rfl, rfl, rfl, rfl⟩

/-- The operation joins those in flight, and the flag counts one more: nothing else happens. -/
theorem newOp_eq (b : State) (x : Issued) (i : Instr) (lanes : Mask) (accs : List LaneAcc) (arg : Nat) :
    newOp b x i lanes accs arg = setUnitFlags { b with ops := b.ops ++ [mkOp b x i lanes accs arg], nextOp := b.nextOp + 1 } x.u
      (putC 0 (unitFlags b x.u) x.flag (look 0 (unitFlags b x.u) x.flag + 1)) := by
  unfold newOp raiseFlag flagCount
  cases x.u <;> rfl

/-- The units' state is apart from the operations in flight. -/
theorem units_withOps (b : State) (u : UnitId) (os : List Op) (n : Nat) :
    getRun { b with ops := os, nextOp := n } u = getRun b u ∧ scalarRegs { b with ops := os, nextOp := n } u = scalarRegs b u := by
  cases u <;> exact ⟨rfl, rfl⟩

/-- A new operation is launched, with the accesses that it is given. -/
theorem launched_newOp (b : State) {x : Issued} {r : ClauseRun} {v : WView} (i : Instr) (lanes accd : Mask) {accs : List LaneAcc} (arg : Nat)
    {va : Nat → W64} (hx : Carries x r v) (hlanes : accs.map LaneAcc.lane = lanesIn accd) (haccs : ∀ a ∈ accs, a.va = va a.lane ∧ a.done = false) :
    Launched b (newOp b x i lanes accs arg) x.u i r v lanes accd va x.a x.b x.c := by
  obtain ⟨hword, hpc, hwidx, hflag⟩ := hx
  obtain ⟨hrun, hscalars⟩ := units_withOps b x.u (b.ops ++ [mkOp b x i lanes accs arg]) (b.nextOp + 1)
  rw [newOp_eq]
  obtain ⟨hops, hnext, hmem, hregs, hpairs, hcopies, hhost, hgleaners, htime, hlaunch⟩ :=
    setUnitFlags_frame { b with ops := b.ops ++ [mkOp b x i lanes accs arg], nextOp := b.nextOp + 1 } x.u
      (putC 0 (unitFlags b x.u) x.flag (look 0 (unitFlags b x.u) x.flag + 1))
  constructor
  case op => exact ⟨_, hops, rfl, rfl, rfl, hword, hpc, hwidx, rfl, rfl, rfl, hflag, rfl, rfl, rfl, rfl, rfl, rfl, rfl, hlanes, haccs⟩
  case next => exact hnext
  case flags => rw [unitFlags_setUnitFlags, hflag]
  case clause => rw [getRun_setUnitFlags, hrun]
  case scalars => rw [scalarRegs_setUnitFlags, hscalars]
  case vectors =>
    intro d j
    have hkeep := fun {α : Type} (g : Warp → α) (hg : ∀ w m, g { w with flags := m } = g w) => getWarp_setUnitFlags_keeps g hg
      { b with ops := b.ops ++ [mkOp b x i lanes accs arg], nextOp := b.nextOp + 1 } x.u
      (putC 0 (unitFlags b x.u) x.flag (look 0 (unitFlags b x.u) x.flag + 1)) d j
    exact ⟨hkeep Warp.v fun _ _ => rfl, hkeep Warp.p fun _ _ => rfl, hkeep Warp.w fun _ _ => rfl, hkeep Warp.frontier fun _ _ => rfl,
      hkeep Warp.absent fun _ _ => rfl⟩
  case memory => exact hmem
  case rest => exact ⟨hregs, hpairs, hcopies, hhost, hgleaners, htime, by rw [hlaunch], by rw [hlaunch]⟩

/-- What is in flight does not depend on which free values have been drawn (log 7). -/
theorem launched_of_freeNo {b t : State} {n c k : Nat} {i : Instr} {r : ClauseRun} {v : WView} {lanes accd : Mask} {va : Nat → W64}
    {xa xb xc : List W128} (h : Launched { b with freeNo := n } t (.warp c k) i r v lanes accd va xa xb xc) :
    Launched b t (.warp c k) i r v lanes accd va xa xb xc :=
  ⟨h.op, h.next, h.flags, h.clause, h.scalars, h.vectors, h.memory, h.rest⟩

/-! ### A vector word's accesses -/

/-- The access is of the lane and at the address, and it has not been performed. -/
structure Fresh (a : LaneAcc) (l : Nat) (va : W64) : Prop where
  lane : a.lane = l
  addr : a.va = va
  todo : a.done = false

theorem addrCheck_none {i : Instr} {va : W64} (hlt : va.toNat < 2 ^ 52) (halign : va.toNat % accessBytes i = 0) : addrCheck i va (accessBytes i) = none := by
  have hfld : fld va 63 52 = 0 := by simp [fld]; omega
  unfold addrCheck
  rw [if_neg (by simpa using hfld)]
  cases i <;> simp [halign]

/-- A translation taken from a TLB is one of its entries for the page; taking it draws a free value at most (log 7). -/
theorem tlbLookup_cases (s : State) (x : XCtx) (va : W64) : ∃ n, (tlbLookup s x va).1 = { s with freeNo := n } ∧
    ∀ e, (tlbLookup s x va).2 = some e → e ∈ tlbsFor s x ∧ tlbMatch x.ctx va e = true := by
  unfold tlbLookup
  split
  · next t hfind =>
    refine ⟨s.freeNo + 1, rfl, fun e he => ?_⟩
    simp only [Option.ite_none_right_eq_some, Option.some.injEq] at he
    obtain ⟨-, rfl⟩ := he
    exact ⟨List.mem_of_find?_eq_some hfind, List.find?_some hfind⟩
  · exact ⟨s.freeNo, rfl, fun e he => nomatch he⟩

/-- A lane whose address passes R164's checks makes its access. -/
theorem laneAccess_of_reaches {s : State} {x : Issued} {i : Instr} {c k : Nat} {va : W64} (l : Nat) (hu : x.u = .warp c k)
    (h : Reaches i s (.warp c k) va) : ∃ n a, laneAccess s x i l va = ({ s with freeNo := n }, .inr a) ∧ Fresh a l va := by
  obtain ⟨hlt, halign, hleaf⟩ := h
  obtain ⟨n, hstate, hentry⟩ := tlbLookup_cases s (unitX s (.warp c k)) va
  simp only [laneAccess, addrCheck_none hlt halign, hu]
  cases hfound : (tlbLookup s (unitX s (.warp c k)) va).2 with
  | none => exact ⟨n, _, by rw [← hstate], rfl, rfl, rfl⟩
  | some e =>
    obtain ⟨hmem, hmatch⟩ := hentry e hfound
    have hcheck : wordLeafCheck (tlbLookup s (unitX s (.warp c k)) va).1 (unitX s (.warp c k)) i e.leaf e.eaddr e.level = none := by
      rw [hstate]; exact hleaf e hmem hmatch
    simp only [hcheck]
    exact ⟨n, _, by rw [← hstate], rfl, rfl, rfl⟩

/-- One lane's turn in the issue of a word's accesses: its access joins the others, or the lane traps. -/
def gather (x : Issued) (i : Instr) (p : State × List LaneAcc × Mask) (q : Nat × W64) : State × List LaneAcc × Mask :=
  match (laneAccess p.1 x i q.1 q.2).2 with
  | .inl f => (issueTrap (issueRing (laneAccess p.1 x i q.1 q.2).1 x i q.2 f q.1) x q.1 q.2 f (accessCode i), p.2.1, p.2.2)
  | .inr a => ((laneAccess p.1 x i q.1 q.2).1, p.2.1 ++ [a], p.2.2 ||| laneBit q.1)

theorem issueAccess_warp {x : Issued} {c k : Nat} (hu : x.u = .warp c k) (s : State) (i : Instr) (addrs : List (Nat × W64)) (arg : Nat) :
    issueAccess s x i addrs arg = if (addrs.foldl (gather x i) (s, [], 0)).2.2 = 0 then (addrs.foldl (gather x i) (s, [], 0)).1
      else newOp (addrs.foldl (gather x i) (s, [], 0)).1 x i (addrs.foldl (gather x i) (s, [], 0)).2.2
        (addrs.foldl (gather x i) (s, [], 0)).2.1 arg := by
  unfold issueAccess
  simp only [hu]
  rfl

/-- The lanes of a list, added to a mask. -/
def withLanes (m : Mask) (ls : List Nat) : Mask := ls.foldl (fun m l => m ||| laneBit l) m

/-- Lanes that all pass the checks gather their accesses, in order. -/
theorem foldl_gather_of_reaches {x : Issued} {i : Instr} {c k : Nat} (hu : x.u = .warp c k) (addrs : List (Nat × W64)) :
    ∀ (s : State) (accs : List LaneAcc) (m : Mask), (∀ q ∈ addrs, Reaches i s (.warp c k) q.2) →
      ∃ n as, addrs.foldl (gather x i) (s, accs, m) = ({ s with freeNo := n }, accs ++ as, withLanes m (addrs.map Prod.fst)) ∧
        List.Forall₂ (fun a q => Fresh a q.1 q.2) as addrs := by
  induction addrs with
  | nil => exact fun s accs m _ => ⟨s.freeNo, [], by simp [withLanes], .nil⟩
  | cons q addrs ih =>
    intro s accs m h
    obtain ⟨n, a, hacc, hfresh⟩ := laneAccess_of_reaches q.1 hu (h q List.mem_cons_self)
    obtain ⟨n', as, hfold, hall⟩ := ih { s with freeNo := n } (accs ++ [a]) (m ||| laneBit q.1) fun p hp => h p (List.mem_cons_of_mem q hp)
    refine ⟨n', a :: as, ?_, .cons hfresh hall⟩
    rw [List.foldl_cons, gather, hacc, hfold, List.append_assoc]
    rfl

theorem getLsbD_laneBit {l : Nat} (hl : l < 32) (j : Nat) : (laneBit l).getLsbD j = decide (l = j) := by
  rw [laneBit, BitVec.getLsbD_ofNat, Nat.testBit_two_pow]
  by_cases h : l = j
  · subst h; simp [hl]
  · simp [h]

theorem getLsbD_withLanes (ls : List Nat) (j : Nat) : ∀ m : Mask, (∀ l ∈ ls, l < 32) →
    (withLanes m ls).getLsbD j = (m.getLsbD j || decide (j ∈ ls)) := by
  induction ls with
  | nil => simp [withLanes]
  | cons l ls ih =>
    intro m h
    rw [withLanes, List.foldl_cons]
    refine (ih (m ||| laneBit l) fun a ha => h a (List.mem_cons_of_mem l ha)).trans ?_
    rw [BitVec.getLsbD_or, getLsbD_laneBit (h l List.mem_cons_self), Bool.or_assoc]
    simp only [List.mem_cons, Bool.decide_or, eq_comm]

theorem mem_lanesIn {m : Mask} {l : Nat} : l ∈ lanesIn m ↔ l < 32 ∧ m.getLsbD l = true := by
  simp [lanesIn]

/-- A mask is made of its lanes. -/
theorem withLanes_lanesIn (m : Mask) : withLanes 0 (lanesIn m) = m := by
  apply BitVec.eq_of_getLsbD_eq
  intro j hj
  rw [getLsbD_withLanes _ j 0 fun l hl => (mem_lanesIn.mp hl).1]
  simp [mem_lanesIn, hj]

theorem map_lane_of_fresh {as : List LaneAcc} {addrs : List (Nat × W64)} (h : List.Forall₂ (fun a q => Fresh a q.1 q.2) as addrs) :
    as.map LaneAcc.lane = addrs.map Prod.fst := by
  induction h with
  | nil => rfl
  | cons hfresh _ ih => rw [List.map_cons, List.map_cons, hfresh.lane, ih]

/-- Accesses at addresses that `va` gives by lane. -/
theorem va_of_fresh {as : List LaneAcc} {addrs : List (Nat × W64)} {va : Nat → W64} (h : List.Forall₂ (fun a q => Fresh a q.1 q.2) as addrs)
    (hva : ∀ q ∈ addrs, q.2 = va q.1) : ∀ a ∈ as, a.va = va a.lane ∧ a.done = false := by
  induction h with
  | nil => exact fun a ha => nomatch ha
  | @cons a q as addrs hfresh _ ih =>
    rw [List.forall_mem_cons] at hva ⊢
    exact ⟨⟨by rw [hfresh.addr, hfresh.lane, hva.1], hfresh.todo⟩, ih hva.2⟩

/-- A vector word all of whose active lanes' addresses pass the checks launches one operation over them. -/
theorem launched_issueAccess {b : State} {x : Issued} {c k : Nat} {i : Instr} {r : ClauseRun} {v : WView} {va : Nat → W64} (arg : Nat)
    (hu : x.u = .warp c k) (hx : Carries x r v) (hact : x.act ≠ 0) (hva : ∀ l, va l = (nth x.a l).setWidth 64)
    (h : ∀ l < 32, x.act.getLsbD l = true → Reaches i b (.warp c k) (va l)) :
    Launched b (issueAccess b x i (laneAddrs x) arg) (.warp c k) i r v x.act x.act va x.a x.b x.c := by
  have haddrs : laneAddrs x = (lanesIn x.act).map fun l => (l, va l) := by simp only [laneAddrs, hu, hva]
  have hreach : ∀ q ∈ laneAddrs x, Reaches i b (.warp c k) q.2 := by
    rw [haddrs, List.forall_mem_map]
    exact fun l hl => h l (mem_lanesIn.mp hl).1 (mem_lanesIn.mp hl).2
  have hlanes : (laneAddrs x).map Prod.fst = lanesIn x.act := by simp [haddrs, Function.comp_def]
  obtain ⟨n, as, hfold, hall⟩ := foldl_gather_of_reaches hu (laneAddrs x) b [] 0 hreach
  rw [List.nil_append, hlanes, withLanes_lanesIn] at hfold
  rw [issueAccess_warp hu, hfold, if_neg hact]
  refine launched_of_freeNo (n := n) ?_
  rw [← hu]
  exact launched_newOp _ i x.act x.act arg hx ((map_lane_of_fresh hall).trans hlanes) (va_of_fresh hall (by simp [haddrs]))

/-- R164's checks read nothing that issuing the word has changed. -/
theorem reaches_issued {i : Instr} {s : State} {c k : Nat} {w : Warp} {r : ClauseRun} {v : WView} {va : W64} (hw : getWarp s c k = w)
    (h : Reaches i s (.warp c k) va) : Reaches i (issued s c k w r v) (.warp c k) va := by
  obtain ⟨hlt, halign, hleaf⟩ := h
  refine ⟨hlt, halign, ?_⟩
  rw [unitX_issued r v hw]
  intro e he
  rw [issued, tlbsFor_setWarp] at he
  exact hleaf e he

/-! ### A scalar unit's access -/

/-- A scalar unit's address that translates with every check passed is accessed. -/
theorem scalarAccess_of_reaches {b : State} {x : Issued} {i : Instr} {u : UnitId} {va : W64} (hu : x.u = u) (h : ScalarReaches i b u va) :
    ∃ a, scalarAccess b x i va = ((translate b (unitX b u) va (accessWrites i)).1, .inr a) ∧ Fresh a 0 va := by
  obtain ⟨hlt, halign, hholds, pa, leaf, hok, hslice, henrol, hqueue⟩ := h
  simp only [scalarAccess, addrCheck_none hlt halign, hu, hok, hholds, hslice, henrol, hqueue, List.isEmpty_nil, Bool.not_true, Bool.and_false,
    Bool.false_eq_true, if_false]
  exact ⟨_, rfl, rfl, rfl, rfl⟩

/-- A scalar word whose address is accessed launches one operation. -/
theorem launched_scalarAccess {b : State} {x : Issued} {i : Instr} {u : UnitId} {r : ClauseRun} {v : WView} {va : W64} (arg : Nat)
    (hscalar : ∀ c k, u ≠ .warp c k) (hu : x.u = u) (hx : Carries x r v) (hva : va = (nth x.a 0).setWidth 64) (h : ScalarReaches i b u va) :
    Launched (translate b (unitX b u) va (accessWrites i)).1 (issueAccess b x i (laneAddrs x) arg) u i r v 1 1 (fun _ => va) x.a x.b x.c := by
  obtain ⟨a, hacc, hfresh⟩ := scalarAccess_of_reaches hu h
  have hissue : issueAccess b x i (laneAddrs x) arg = newOp (translate b (unitX b u) va (accessWrites i)).1 x i 1 [a] arg := by
    cases u with
    | warp c k => exact absurd rfl (hscalar c k)
    | front c k => simp only [laneAddrs, issueAccess, hu, ← hva, hacc]
    | thread q => simp only [laneAddrs, issueAccess, hu, ← hva, hacc]
  rw [hissue, ← hu]
  refine launched_newOp _ i 1 1 arg hx ?_ fun a' ha' => ?_
  · rw [List.map_singleton, hfresh.lane]; decide
  · obtain rfl := List.mem_singleton.mp ha'
    exact ⟨hfresh.addr, hfresh.todo⟩

/-! ### Words by what their meaning does -/

/-- A word whose meaning starts an operation without an access. -/
theorem bareWord_of_newOp {mk : Full → Instr} {op : Nat} {ok : State → UnitId → Full → Prop} (body : Full → State → Issued → State) (arg : Nat)
    (hexec : ∀ f s, exec (mk f) s = issueFull op f s (body f))
    (hbody : ∀ s u f b x, ok s u f → b.regs = s.regs → body f b x = newOp b x (mk f) x.act [] arg) : BareWord mk op ok := by
  refine ⟨fun s c k w r f hready hok => ⟨_, (hexec f s).trans (issue_of_ready hready (body f)), ?_⟩,
    fun s u r f hready hok => ⟨_, (hexec f s).trans (issue_of_scalarReady hready (body f)), ?_⟩⟩
  · rw [hbody s (.warp c k) f _ _ hok (issued_regs s c k w r _)]
    exact launched_newOp _ (mk f) (active w r (viewFull op f .vector r)) 0 arg (warpWord_carries c k w r _) (by decide) fun a ha => nomatch ha
  · rw [hbody s u f _ _ hok (scalarStep_regs s u r)]
    exact launched_newOp _ (mk f) 1 0 arg (scalarWord_carries s u r _) (by decide) fun a ha => nomatch ha

/-- A vector word whose meaning makes an access for each active lane. -/
theorem laneWordIf_of_issueAccess {mk : Full → Instr} {op : Nat} {ok : State → Full → Prop} (body : Full → State → Issued → State) (arg : Nat)
    (hexec : ∀ f s, exec (mk f) s = issueFull op f s (body f))
    (hbody : ∀ s f b x, ok s f → b.regs = s.regs → body f b x = issueAccess b x (mk f) (laneAddrs x) arg) : LaneWordIf mk op ok := by
  intro s c k w r f hready hok hreach
  refine ⟨_, (hexec f s).trans (issue_of_ready hready (body f)), ?_⟩
  rw [hbody s f _ _ hok (issued_regs s c k w r _)]
  exact launched_issueAccess arg rfl (warpWord_carries c k w r _) hready.lanes (fun l => rfl)
    fun l hl hact => reaches_issued hready.warp (hreach l hl hact)

/-- A scalar word whose meaning makes one access. -/
theorem scalarLaneWordIf_of_issueAccess {mk : Full → Instr} {op : Nat} {ok : State → Full → Prop} (body : Full → State → Issued → State) (arg : Nat)
    (hexec : ∀ f s, exec (mk f) s = issueFull op f s (body f))
    (hbody : ∀ s f b x, ok s f → b.regs = s.regs → body f b x = issueAccess b x (mk f) (laneAddrs x) arg) : ScalarLaneWordIf mk op ok := by
  intro s u r f hready hok hreach
  refine ⟨_, (hexec f s).trans (issue_of_scalarReady hready (body f)), ?_⟩
  rw [hbody s f _ _ hok (scalarStep_regs s u r), ← unitX_scalarStep s u r]
  exact launched_scalarAccess arg hready.scalar rfl (scalarWord_carries s u r _) rfl hreach

end Sys2Proof.Proofs
end

section
/-!
PROOFS. A unit that stops at its word (spec/02 R40; spec/22 R362, R365, R377; spec/24 R386): its state, and the record that it leaves.
-/
namespace Sys2Proof.Proofs

open Sys2Proof.Machine Sys2Proof.Claims

/-! ### A warp whose clause ends -/

theorem applyPend_withRun (w : Warp) (p : Pend) (run : Option ClauseRun) : applyPend { w with run := run } p = { applyPend w p with run := run } := by
  unfold applyPend
  cases p.dst with
  | reg x n => simp only [writeRegs]; split <;> rfl
  | pred q => simp only [writePred]; split <;> rfl
  | discard => rfl

theorem drainCycle_withRun (c : Nat) (run : Option ClauseRun) (ps : List Pend) : ∀ (used : List Nat) (w : Warp),
    drainCycle c used { w with run := run } ps = ({ (drainCycle c used w ps).1 with run := run }, (drainCycle c used w ps).2) := by
  induction ps with
  | nil => exact fun used w => rfl
  | cons p ps ih =>
    intro used w
    simp only [drainCycle]
    split
    · rw [applyPend_withRun, ih]
    · simp only [ih]

theorem drainFor_withRun (run : Option ClauseRun) (n : Nat) : ∀ (c : Nat) (w : Warp) (ps : List Pend),
    drainFor n c { w with run := run } ps = ({ (drainFor n c w ps).1 with run := run }, (drainFor n c w ps).2) := by
  induction n with
  | zero => exact fun c w ps => rfl
  | succ n ih =>
    intro c w ps
    simp only [drainFor]
    split
    · rfl
    · rw [drainCycle_withRun, ih]

/-- Writing the results due does not depend on the clause that the warp is in. -/
theorem drainTo_withRun (c : Nat) (w : Warp) (r : ClauseRun) (run : Option ClauseRun) :
    (drainTo c { w with run := run } r).1 = { (drainTo c w r).1 with run := run } := by
  simp only [drainTo, drainFor_withRun]

/-- The issuing warp once every result of its clause is written (spec/09 R192). -/
def drained (w : Warp) (r : ClauseRun) (v : WView) : Warp := (drainTo (drainBound (due w r v).2) (due w r v).1 (due w r v).2).1

theorem drained_frame (w : Warp) (r : ClauseRun) (v : WView) : ∃ x g p f, drained w r v = { w with v := x, wrLog := g, p := p, fpstat := f } := by
  obtain ⟨x, g, p, f, hdue⟩ := drainTo_frame (issueCycle r v) w r
  obtain ⟨x', g', p', f', hall⟩ := drainTo_frame (drainBound (due w r v).2) (due w r v).1 (due w r v).2
  refine ⟨x', g', p', f', ?_⟩
  rw [drained, hall, due, hdue]

theorem drainAll_issued (w : Warp) (r : ClauseRun) (v : WView) : ∃ q : ClauseRun, q.mask = r.mask ∧
    drainAll { (due w r v).1 with run := some (stepped w r v) } = { drained w r v with run := some q } := by
  refine ⟨(drainTo (drainBound (due w r v).2) (due w r v).1 (stepped w r v)).2, rfl, ?_⟩
  simp only [drainAll]
  rw [drainTo_withRun]
  simp only [drainTo, drainFor_withRun]
  rfl

/-! ### The frontier -/

theorem mem_sortEntry (e : FEntry) (l : List FEntry) : e ∈ sortEntry e l := by
  induction l with
  | nil => exact List.mem_singleton_self e
  | cons x l ih =>
    rw [sortEntry]
    split
    · exact List.mem_cons_self
    · exact List.mem_cons_of_mem x ih

/-- A group of lanes that joins the frontier lies in one of its entries, at the group's word (R307). -/
theorem addEntry_holds (fr : List FEntry) {e : FEntry} (h : e.mask ≠ 0) :
    ∃ x ∈ addEntry fr e, x.pc = e.pc ∧ x.word = e.word ∧ e.mask &&& x.mask = e.mask := by
  rw [addEntry, if_neg h]
  split
  · next hany =>
    obtain ⟨x, hx, hat⟩ := List.any_eq_true.mp hany
    obtain ⟨hpc, hword⟩ : x.pc = e.pc ∧ x.word = e.word := by simpa using hat
    refine ⟨{ x with mask := x.mask ||| e.mask }, List.mem_map.mpr ⟨x, hx, if_pos hat⟩, hpc, hword, ?_⟩
    ext j
    simp only [BitVec.getElem_and, BitVec.getElem_or]
    cases e.mask[j] <;> simp
  · exact ⟨e, mem_sortEntry e fr, rfl, rfl, BitVec.and_self⟩

/-! ### Traps -/

@[simp] theorem getWarp_bufferRec (s : State) (core : Nat) (q : TrapRec) (c k : Nat) : getWarp (bufferRec s core q) c k = getWarp s c k := by
  by_cases h : c = core
  · subst h; simp [getWarp, bufferRec]
  · simp [getWarp, bufferRec, getCore_setCore_other s _ h]

@[simp] theorem getFront_bufferRec (s : State) (core : Nat) (q : TrapRec) (c k : Nat) : getFront (bufferRec s core q) c k = getFront s c k := by
  by_cases h : c = core
  · subst h; simp [getFront, bufferRec]
  · simp [getFront, bufferRec, getCore_setCore_other s _ h]

@[simp] theorem trapBuf_bufferRec (s : State) (c : Nat) (q : TrapRec) : (getCore (bufferRec s c q) c).trapBuf = (getCore s c).trapBuf ++ [q] := by
  simp [bufferRec]

/-- The state in which a warp that is in a clause at a word has stopped there: the warp, its entry and its record. -/
theorem takeTrap_warp {s : State} {c k : Nat} {q : ClauseRun} (hrun : (getWarp s c k).run = some q) (hsheaf : (getWarp s c k).sheaf = none)
    (pc : Addr) (hdr word : W64) {widx : Nat} (hidx : widx < 15) (didx : BitVec 9) (i : TrapInfo) :
    takeTrap s (.warp c k) pc hdr word widx didx i =
      bufferRec (setWarp s c k { getWarp s c k with
          run := none, stopped := true, waiting := Nat.max s.cyc q.cyc
          frontier := addEntry (getWarp s c k).frontier { key := fld hdr 35 28, pc := pc, word := widx, mask := q.mask } }) c
        (mkRec s .warp (.warp c k) (lowLane q.mask) pc hdr word widx didx i q.mask) := by
  have hne : widx ≠ 15 := by omega
  simp only [takeTrap, hrun, hsheaf, if_neg hne]
  rfl

/-- Where a ready word's trap leaves its warp, and the record. -/
theorem trapWord_warpWord {s : State} {c k : Nat} {w : Warp} {r : ClauseRun} {v : WView} (hidx : r.idx < 15)
    (hsheaf : w.sheaf = none) (i : TrapInfo) : ∃ y z q, trapWord (issued s c k w r v) (warpWord c k w r v) i = bufferRec (setWarp s c k y) c q ∧
      y = { drained w r v with
        run := none, stopped := true, waiting := z
        frontier := addEntry w.frontier { key := fld r.hdr 35 28, pc := r.pc, word := r.idx, mask := r.mask } } ∧
      q.kind = .warp ∧ q.cause = i.cause ∧ q.detail = i.detail ∧ q.pc = r.pc.setWidth 64 ∧ q.wordv = v.word ∧ q.widx = r.idx ∧ q.srca = 0 ∧ q.srcb = 0 ∧
      q.srcc = 0 ∧ q.world = w.world ∧ q.ctx = w.ctx := by
  obtain ⟨n, hmask, hdrain⟩ := drainAll_issued w r v
  obtain ⟨x, g, p, f, hframe⟩ := drained_frame w r v
  have htrap : trapWord (issued s c k w r v) (warpWord c k w r v) i =
      takeTrap (setWarp (issued s c k w r v) c k (drainAll (getWarp (issued s c k w r v) c k))) (.warp c k) r.pc r.hdr v.word r.idx v.didx i := rfl
  rw [htrap, issued, getWarp_setWarp, setWarp_setWarp, hdrain,
    takeTrap_warp (q := n) (by rw [getWarp_setWarp]) (by rw [getWarp_setWarp, hframe]; exact hsheaf) r.pc r.hdr v.word hidx]
  rw [setWarp_setWarp, getWarp_setWarp, hmask]
  refine ⟨_, _, _, rfl, by rw [hframe], rfl, rfl, rfl, rfl, rfl, rfl, rfl, rfl, rfl, ?_, ?_⟩
  · simp only [mkRec, whoIs, getWarp_setWarp, hframe]
  · simp only [mkRec, whoIs, getWarp_setWarp, hframe]

/-- A ready word that traps as a whole stops its warp at the word. -/
theorem stopped_trapWord {s : State} {c k : Nat} {w : Warp} {r : ClauseRun} {v : WView} (h : Ready s c k w r v) (hidx : r.idx < 15)
    (hsheaf : w.sheaf = none) (i : TrapInfo) : Stopped s (trapWord (issued s c k w r v) (warpWord c k w r v) i) c k w r v i.cause i.detail := by
  obtain ⟨y, z, q, htrap, hy, hq⟩ := trapWord_warpWord (s := s) (c := c) (k := k) (v := v) hidx hsheaf i
  obtain ⟨x, g, p, f, hframe⟩ := drained_frame w r v
  have hat : getWarp (bufferRec (setWarp s c k y) c q) c k = y := by rw [getWarp_bufferRec, getWarp_setWarp]
  rw [htrap]
  constructor
  case run => rw [hat, hy]
  case stopped => rw [hat, hy]
  case entry =>
    rw [hat, hy]
    exact addEntry_holds w.frontier (e := { key := _, pc := r.pc, word := r.idx, mask := r.mask }) (mask_ne_zero_of_active h.lanes)
  case regs => rw [hat, hy]; rfl
  case preds => rw [hat, hy]; rfl
  case flags => rw [hat, hy, hframe]
  case record => exact ⟨q, by rw [trapBuf_bufferRec]; simp [setWarp], hq⟩
  case others => exact fun j hj => by rw [getWarp_bufferRec, getWarp_setWarp_slot s c y hj]
  case cores => exact fun d hd => by rw [bufferRec, getCore_setCore_other _ _ hd, setWarp, getCore_setCore_other _ _ hd]
  case rest => exact ⟨rfl, rfl, rfl, rfl, rfl, rfl, rfl, rfl, rfl, rfl⟩

/-- A record joins a thread's pending list and wakes it; nothing else of the thread changes. -/
theorem getThread_addPending (s : State) (p q : Nat) (x : TrapRec) : getThread (addPending s p x) q =
    if q = p then { getThread s p with pending := (getThread s p).pending ++ [x], wakest := (getThread s p).wakest ||| 8#6 } else getThread s q := by
  split
  · next h => subst h; simp [addPending, wake]
  · next h => simp [addPending, wake, getThread_setThread_other _ _ h]

/-- A scalar word that traps stops its unit at the word. -/
theorem stoppedScalar_trapWord {b : State} {x : Issued} {u : UnitId} {r : ClauseRun} {v : WView} (hscalar : ∀ c k, u ≠ .warp c k) (hu : x.u = u)
    (hx : Carries x r v) (i : TrapInfo) : StoppedScalar b (trapWord b x i) u r v i.cause i.detail := by
  obtain ⟨hword, hpc, hwidx, -⟩ := hx
  cases u with
  | warp c k => exact (hscalar c k rfl).elim
  | front c k =>
    simp only [trapWord, trapUnit, takeTrap, hu, hpc, hword, hwidx]
    refine ⟨by rw [getFront_bufferRec, getFront_setFront], ⟨mkRec b .front (.front c k) 0 r.pc x.hdr v.word r.idx x.didx i 0, ?_,
      rfl, rfl, rfl, rfl, rfl, rfl, rfl, rfl, rfl⟩, ?_, fun d hd => ?_, rfl, rfl, rfl⟩
    · rw [trapBuf_bufferRec]; simp [setFront]
    · simp [bufferRec, setFront]
    · rw [bufferRec, getCore_setCore_other _ _ hd, setFront, getCore_setCore_other _ _ hd]
  | thread q =>
    simp only [trapWord, trapUnit, takeTrap, hu, hpc, hword, hwidx]
    by_cases hq : q = 0
    · subst hq
      simp [StoppedScalar, getThread_addPending, mkRec]
    · simp [StoppedScalar, getThread_addPending, mkRec, hq, getThread_setThread_other, Ne.symm hq]

end Sys2Proof.Proofs
end

section
/-!
PROOFS. The tree words (spec/06 R113, R128, R131): while TREEBASE enables the tree they issue their operation, by handle or by address; while it does not, they trap.
Settles TreeWordsIssue.
-/
namespace Sys2Proof.Proofs

open Sys2Proof.Machine Sys2Proof.Claims

/-- The meaning of a tree word that is by address, or by handle. -/
def treeForm (byAddr : Bool) (s : State) (x : Issued) (i : Instr) : State := if byAddr then treeAddrIssue s x i else treeIssue s x i

theorem treeForm_byHandle {s : State} (hon : s.regs.treebase.getLsbD 0 = true) (x : Issued) (i : Instr) :
    treeForm false s x i = newOp s x i x.act [] 0 := by
  have htree : treeOn s = true := hon
  simp [treeForm, treeIssue, htree]

theorem treeForm_byAddress {s : State} (hon : s.regs.treebase.getLsbD 0 = true) (x : Issued) (i : Instr) :
    treeForm true s x i = issueAccess s x i (laneAddrs x) 0 := by
  have htree : treeOn s = true := hon
  simp [treeForm, treeAddrIssue, htree]

/-- With the tree disabled both forms take ILLSTATE. -/
theorem treeForm_off (byAddr : Bool) {s : State} (hoff : s.regs.treebase.getLsbD 0 = false) (x : Issued) (i : Instr) :
    treeForm byAddr s x i = trapWord s x (illstate 0) := by
  have htree : treeOn s = false := hoff
  cases byAddr <;> simp [treeForm, treeIssue, treeAddrIssue, htree]

/-- A tree word: by address where `byAddr` says so of the word, else by handle. -/
def TreeWord (mk : Full → Instr) (op : Nat) (byAddr : Full → Bool) : Prop :=
  ∀ f s, exec (mk f) s = issueFull op f s fun s x => treeForm (byAddr f) s x (mk f)

theorem treeWord_tnode : TreeWord .tnode 0x18 fun _ => false := fun _ _ => rfl
theorem treeWord_tenrol : TreeWord .tenrol 0x19 fun _ => true := fun _ _ => rfl
theorem treeWord_trep : TreeWord .trep 0x1A fun _ => false := fun _ _ => rfl
theorem treeWord_tsettle : TreeWord .tsettle 0x1B fun f => modB f 1 := fun _ _ => rfl
theorem treeWord_tread : TreeWord .tread 0x1C fun f => modB f 1 := fun _ _ => rfl
theorem treeWord_tcmp : TreeWord .tcmp 0x1D fun f => modB f 1 := fun _ _ => rfl
theorem treeWord_tdrop : TreeWord .tdrop 0x1E fun f => modB f 1 := fun _ _ => rfl

section

variable {mk : Full → Instr} {op : Nat} {byAddr : Full → Bool} (hword : TreeWord mk op byAddr)
include hword

/-- By handle, a tree word makes no access. -/
theorem TreeWord.bareWord {ok : State → UnitId → Full → Prop} (hok : ∀ s u f, ok s u f → s.regs.treebase.getLsbD 0 = true ∧ byAddr f = false) :
    BareWord mk op ok := by
  refine bareWord_of_newOp _ 0 hword fun s u f b x h hregs => ?_
  obtain ⟨hon, hform⟩ := hok s u f h
  rw [hform, treeForm_byHandle (hregs ▸ hon)]

/-- By address, each active lane of a tree word makes an access. -/
theorem TreeWord.laneWordIf {ok : State → Full → Prop} (hok : ∀ s f, ok s f → s.regs.treebase.getLsbD 0 = true ∧ byAddr f = true) :
    LaneWordIf mk op ok := by
  refine laneWordIf_of_issueAccess _ 0 hword fun s f b x h hregs => ?_
  obtain ⟨hon, hform⟩ := hok s f h
  rw [hform, treeForm_byAddress (hregs ▸ hon)]

theorem TreeWord.scalarLaneWordIf {ok : State → Full → Prop} (hok : ∀ s f, ok s f → s.regs.treebase.getLsbD 0 = true ∧ byAddr f = true) :
    ScalarLaneWordIf mk op ok := by
  refine scalarLaneWordIf_of_issueAccess _ 0 hword fun s f b x h hregs => ?_
  obtain ⟨hon, hform⟩ := hok s f h
  rw [hform, treeForm_byAddress (hregs ▸ hon)]

/-- With the tree disabled, a tree word stops its warp or its scalar unit with ILLSTATE. -/
theorem TreeWord.stops (f : Full) :
    (∀ s c k w r, Ready s c k w r (viewFull op f .vector r) → r.idx < 15 → w.sheaf = none → s.regs.treebase.getLsbD 0 = false →
      ∃ t, exec (mk f) s = .next t ∧ Stopped s t c k w r (viewFull op f .vector r) 0x21 0) ∧
    (∀ s u r, ScalarReady s u r (viewFull op f u.kind r) → s.regs.treebase.getLsbD 0 = false →
      ∃ t, exec (mk f) s = .next t ∧ StoppedScalar (scalarStep s u r) t u r (viewFull op f u.kind r) 0x21 0) := by
  refine ⟨fun s c k w r hready hidx hsheaf hoff => ⟨_, (hword f s).trans (issue_of_ready hready _), ?_⟩,
    fun s u r hready hoff => ⟨_, (hword f s).trans (issue_of_scalarReady hready _), ?_⟩⟩
  · rw [treeForm_off _ (by rwa [issued_regs])]
    exact stopped_trapWord hready hidx hsheaf (illstate 0)
  · rw [treeForm_off _ (by rwa [scalarStep_regs])]
    exact stoppedScalar_trapWord hready.scalar rfl (scalarWord_carries s u r _) (illstate 0)

end

/-- Settles O33: each word by its form, through the operation that it issues with the tree enabled and the trap that it takes with the tree disabled. -/
theorem treeWordsIssue : Obligations.TreeWordsIssue := by
  unfold Obligations.TreeWordsIssue
  refine ⟨treeWord_tnode.bareWord fun s u f h => ⟨h, rfl⟩, treeWord_trep.bareWord fun s u f h => ⟨h, rfl⟩,
    treeWord_tenrol.laneWordIf fun s f h => ⟨h, rfl⟩, treeWord_tenrol.scalarLaneWordIf fun s f h => ⟨h, rfl⟩,
    treeWord_tsettle.bareWord fun s u f h => h, treeWord_tread.bareWord fun s u f h => h,
    treeWord_tcmp.bareWord fun s u f h => h, treeWord_tdrop.bareWord fun s u f h => h,
    treeWord_tsettle.laneWordIf fun s f h => h, treeWord_tread.laneWordIf fun s f h => h,
    treeWord_tcmp.laneWordIf fun s f h => h, treeWord_tdrop.laneWordIf fun s f h => h,
    treeWord_tsettle.scalarLaneWordIf fun s f h => h, treeWord_tread.scalarLaneWordIf fun s f h => h,
    treeWord_tcmp.scalarLaneWordIf fun s f h => h, treeWord_tdrop.scalarLaneWordIf fun s f h => h, ?_⟩
  rintro i op f (⟨rfl, rfl⟩ | ⟨rfl, rfl⟩ | ⟨rfl, rfl⟩ | ⟨rfl, rfl⟩ | ⟨rfl, rfl⟩ | ⟨rfl, rfl⟩ | ⟨rfl, rfl⟩)
  · exact treeWord_tnode.stops f
  · exact treeWord_tenrol.stops f
  · exact treeWord_trep.stops f
  · exact treeWord_tsettle.stops f
  · exact treeWord_tread.stops f
  · exact treeWord_tcmp.stops f
  · exact treeWord_tdrop.stops f

end Sys2Proof.Proofs
end

section
/-!
PROOFS. The copy words (spec/07 R140, R146; spec/22 R371): a warp-level trap that ends a sheaf, the operation that a word has just issued, and the copies that
a replay opens and a cancel marks. Settles CopyWords.
-/
namespace Sys2Proof.Proofs

open Sys2Proof.Machine Sys2Proof.Claims

/-! ### A sheaf that a trap ends -/

@[simp] theorem sheaf_issued (s : State) (c k : Nat) (w : Warp) (r : ClauseRun) (v : WView) : (getWarp (issued s c k w r v) c k).sheaf = w.sheaf := by
  obtain ⟨x, g, p, f, hdue⟩ := drainTo_frame (issueCycle r v) w r
  rw [issued, getWarp_setWarp, due, hdue]

theorem isSheaf_issued (s : State) (c k : Nat) (w : Warp) (r : ClauseRun) (v : WView) : isSheaf (issued s c k w r v) (.warp c k) = w.sheaf.isSome := by
  rw [isSheaf, sheaf_issued]

/-- Forwarding a sheaf's records leaves every warp, and every record that waits at the core already. -/
theorem sheafForward_keeps (c : Nat) (done : Mask) (recs : List (Nat × TrapRec)) : ∀ s : State,
    (∀ d j, getWarp (sheafForward s c recs done) d j = getWarp s d j) ∧
    ∀ q ∈ (getCore s c).trapBuf, q ∈ (getCore (sheafForward s c recs done) c).trapBuf := by
  induction recs with
  | nil => exact fun s => ⟨fun _ _ => rfl, fun _ h => h⟩
  | cons x recs ih =>
    intro s
    rw [sheafForward, List.foldl_cons]
    split
    · exact ih s
    · obtain ⟨hwarps, hrecs⟩ := ih (forwardRec s c x.2.slice x.2)
      refine ⟨fun d j => (hwarps d j).trans (getWarp_bufferRec s c _ d j), fun q hq => hrecs q ?_⟩
      rw [forwardRec, trapBuf_bufferRec]
      exact List.mem_append_left _ hq

/-- A warp-level trap resets a sheaf's warp and leaves the trap's own record, addressed to its slice's thread. -/
theorem takeTrap_sheaf {s : State} {c k : Nat} {h : Sheaf} (hsheaf : (getWarp s c k).sheaf = some h) (pc : Addr) (hdr word : W64) (widx : Nat)
    (didx : BitVec 9) (i : TrapInfo) :
    getWarp (takeTrap s (.warp c k) pc hdr word widx didx i) c k = Warp.reset ∧
    (∀ j, j ≠ k → getWarp (takeTrap s (.warp c k) pc hdr word widx didx i) c j = getWarp s c j) ∧
    ∃ q ∈ (getCore (takeTrap s (.warp c k) pc hdr word widx didx i) c).trapBuf, q.kind = .warp ∧ q.cause = i.cause ∧ q.direct = true ∧
      q.pc = pc.setWidth 64 ∧ q.wordv = word ∧ q.widx = widx := by
  obtain ⟨q, hq, hrec⟩ : ∃ q, takeTrap s (.warp c k) pc hdr word widx didx i =
      sheafForward (bufferRec (setWarp s c k Warp.reset) c q) c (h.recs.zipIdx.map fun p => (p.2, p.1)) h.done ∧
      q.kind = .warp ∧ q.cause = i.cause ∧ q.direct = true ∧ q.pc = pc.setWidth 64 ∧ q.wordv = word ∧ q.widx = widx := by
    simp only [takeTrap, hsheaf]
    exact ⟨_, rfl, rfl, rfl, rfl, rfl, rfl, rfl⟩
  obtain ⟨hwarps, hrecs⟩ := sheafForward_keeps c h.done (h.recs.zipIdx.map fun p => (p.2, p.1)) (bufferRec (setWarp s c k Warp.reset) c q)
  rw [hq]
  refine ⟨?_, fun j hj => ?_, q, hrecs q ?_, hrec⟩
  · rw [hwarps, getWarp_bufferRec, getWarp_setWarp]
  · rw [hwarps, getWarp_bufferRec, getWarp_setWarp_slot s c _ hj]
  · rw [trapBuf_bufferRec]
    exact List.mem_append_right _ (List.mem_singleton_self q)

/-- A ready word of a sheaf that traps as a whole ends the sheaf. -/
theorem sheafEnds_trapWord {s : State} {c k : Nat} {w : Warp} {r : ClauseRun} {v : WView} (hsheaf : w.sheaf ≠ none) (i : TrapInfo) :
    SheafEnds s (trapWord (issued s c k w r v) (warpWord c k w r v) i) c k r v i.cause := by
  obtain ⟨h, hh⟩ := Option.ne_none_iff_exists'.mp hsheaf
  obtain ⟨q, -, hdrain⟩ := drainAll_issued w r v
  obtain ⟨x, g, p, f, hframe⟩ := drained_frame w r v
  have htrap : trapWord (issued s c k w r v) (warpWord c k w r v) i =
      takeTrap (setWarp (issued s c k w r v) c k (drainAll (getWarp (issued s c k w r v) c k))) (.warp c k) r.pc r.hdr v.word r.idx v.didx i := rfl
  have hstill : (getWarp (setWarp s c k { drained w r v with run := some q }) c k).sheaf = some h := by rw [getWarp_setWarp, hframe, hh]
  rw [htrap, issued, getWarp_setWarp, setWarp_setWarp, hdrain]
  obtain ⟨hfree, hothers, hrec⟩ := takeTrap_sheaf hstill r.pc r.hdr v.word r.idx v.didx i
  exact ⟨hfree, fun j hj => (hothers j hj).trans (getWarp_setWarp_slot s c _ hj), hrec⟩

/-! ### The operation that a word has just issued -/

/-- What issuing an operation leaves alone beside its unit's flags. -/
theorem newOp_frame (b : State) (x : Issued) (i : Instr) (lanes : Mask) (accs : List LaneAcc) (arg : Nat) :
    (newOp b x i lanes accs arg).ops = b.ops ++ [mkOp b x i lanes accs arg] ∧ (newOp b x i lanes accs arg).copies = b.copies ∧
    (newOp b x i lanes accs arg).mem = b.mem := by
  rw [newOp_eq]
  obtain ⟨hops, -, hmem, -, -, hcopies, -⟩ := setUnitFlags_frame { b with ops := b.ops ++ [mkOp b x i lanes accs arg], nextOp := b.nextOp + 1 } x.u
    (putC 0 (unitFlags b x.u) x.flag (look 0 (unitFlags b x.u) x.flag + 1))
  exact ⟨hops, hcopies, hmem⟩

/-- The operation last issued is found, where those before it are numbered below it. -/
theorem findOp_last {s : State} {l : List Op} {o : Op} (hops : s.ops = l ++ [o]) (hl : ∀ p ∈ l, p.id < o.id) : findOp s o.id = some o := by
  have hnone : l.find? (fun p => decide (p.id = o.id)) = none := by
    rw [List.find?_eq_none]
    intro p hp
    have := hl p hp
    simp only [decide_eq_true_eq]
    omega
  rw [findOp, hops, List.find?_append, hnone, Option.none_or, List.find?_singleton, if_pos (decide_eq_true rfl)]

/-- Performing it leaves the operations before it. -/
theorem performed_last {s : State} {l : List Op} {o : Op} (hops : s.ops = l ++ [o]) (hl : ∀ p ∈ l, p.id < o.id) (res : List W128) :
    performed s o.id res = { s with ops := l ++ [{ o with phase := 1, res := res }] } := by
  have hmap : l.map (fun p => if p.id = o.id then { o with phase := 1, res := res } else p) = l := by
    exact (List.map_congr_left fun p hp => if_neg (Nat.ne_of_lt (hl p hp))).trans (List.map_id' l)
  simp only [performed, findOp_last hops hl, setOp, hops, List.map_append, hmap, List.map_cons, List.map_nil, if_true]

theorem findOp_newOp {b : State} (hb : OpsNumbered b) (x : Issued) (i : Instr) (lanes : Mask) (accs : List LaneAcc) (arg : Nat) :
    findOp (newOp b x i lanes accs arg) b.nextOp = some (mkOp b x i lanes accs arg) :=
  findOp_last (o := mkOp b x i lanes accs arg) (newOp_frame b x i lanes accs arg).1 hb

/-- The lowest lane of a mask. -/
theorem lowLane_eq {m : Mask} {l : Nat} (hl : m.getLsbD l = true) (hlow : ∀ j < l, m.getLsbD j = false) : lowLane m = l := by
  have hlt : l < 32 := BitVec.lt_of_getLsbD hl
  have hfind : (List.range 32).find? (fun j => m.getLsbD j) = some l := by
    rw [List.find?_range_eq_some]
    exact ⟨hl, List.mem_range.mpr hlt, fun j hj => by simp [hlow j hj]⟩
  rw [lowLane, lanesIn, List.headD_eq_head?_getD, List.head?_filter, hfind, Option.getD_some]

theorem wordAddr_mkOp (b : State) (x : Issued) (i : Instr) {lanes : Mask} (accs : List LaneAcc) (arg : Nat) {l : Nat} (hl : lanes.getLsbD l = true)
    (hlow : ∀ j < l, lanes.getLsbD j = false) : wordAddr (mkOp b x i lanes accs arg) = BitVec.ofNat 64 (nth x.a l).toNat := by
  rw [BitVec.ofNat_toNat, ← lowLane_eq hl hlow]
  rfl

/-- The address that a scalar word names. -/
theorem wordAddr_scalarWord (s : State) (u : UnitId) (r : ClauseRun) (v : WView) (i : Instr) (accs : List LaneAcc) :
    wordAddr (mkOp (scalarStep s u r) (scalarWord s u r v) i (scalarWord s u r v).act accs 0) = BitVec.ofNat 64 (sopA s u v) :=
  wordAddr_mkOp _ _ _ (lanes := 1) _ _ (l := 0) (by decide) fun j hj => absurd hj (Nat.not_lt_zero j)

theorem whoIs_issued {s : State} {c k : Nat} {w : Warp} (r : ClauseRun) (v : WView) (hw : getWarp s c k = w) :
    whoIs (issued s c k w r v) (.warp c k) = whoIs s (.warp c k) := by
  obtain ⟨x, g, p, f, hdue⟩ := drainTo_frame (issueCycle r v) w r
  simp only [whoIs, issued, getWarp_setWarp, due, hdue, hw]

theorem scalarStep_frame (s : State) (u : UnitId) (r : ClauseRun) :
    (scalarStep s u r).ops = s.ops ∧ (scalarStep s u r).nextOp = s.nextOp ∧ (scalarStep s u r).copies = s.copies ∧ (scalarStep s u r).mem = s.mem := by
  cases u <;> exact ⟨rfl, rfl, rfl, rfl⟩

theorem opsNumbered_scalarStep {s : State} (h : OpsNumbered s) (u : UnitId) (r : ClauseRun) : OpsNumbered (scalarStep s u r) := by
  obtain ⟨hops, hnext, -⟩ := scalarStep_frame s u r
  rwa [OpsNumbered, hops, hnext]

/-! ### Replay and cancel -/

/-- The copy that a replay opens (R146): ready at once, its one arrival its own word. -/
def replayCopy (b : State) (x : Issued) (i : Instr) : Copy :=
  { newCopy (newOp b x i x.act [] 0) (mkOp b x i x.act [] 0) 0 with
    replay := true, residue := wordAddr (mkOp b x i x.act [] 0), arrivals := [(b.nextOp, 0, 0)], ready := true
    readyAt := (newOp b x i x.act [] 0).turnNo }

theorem exec_xreplay_of_issue {f : Full} {s b : State} {x : Issued} (hissue : ∀ body, issueFull 0x6B f s body = .next (body b x))
    (hb : OpsNumbered b) : exec (.xreplay f) s = .next { newOp b x (.xreplay f) x.act [] 0 with
      copies := b.copies ++ [replayCopy b x (.xreplay f)], nextOp := (newOp b x (.xreplay f) x.act [] 0).nextOp + 1 } := by
  obtain ⟨-, hcopies, -⟩ := newOp_frame b x (.xreplay f) x.act [] 0
  show execXreplay f s = _
  simp only [execXreplay, hissue, findOp_newOp hb, hcopies]
  rfl

/-- The copies that a cancel may name: of its context, of its command block, not cancelled. -/
def cancels (cs : List Copy) (o : Op) : List Copy :=
  cs.filter fun c => sameContext c o && c.ccb = wordAddr o && !c.cancelled && (!c.replay || c.started || c.ccb ≠ 0)

theorem cancels_eq_nil {cs : List Copy} {o : Op} (h : ∀ c ∈ cs, c.ccb ≠ wordAddr o) : cancels cs o = [] := by
  rw [cancels, List.filter_eq_nil_iff]
  intro c hc
  simp [h c hc]

theorem ccb_of_mem_cancels {cs : List Copy} {o : Op} {c : Copy} (h : c ∈ cancels cs o) : c ∈ cs ∧ c.ccb = wordAddr o := by
  simp only [cancels, List.mem_filter, Bool.and_eq_true, decide_eq_true_eq] at h
  exact ⟨h.1, h.2.1.1.2⟩

/-- Off the service processor, a copy and a word of one context belong together. -/
theorem sameContext_of_ctx {c : Copy} {o : Op} (hc : ∀ q, c.unit ≠ .thread q) (ho : ∀ q, o.unit ≠ .thread q) (h : c.ctx = o.ctx) :
    sameContext c o = true := by
  unfold sameContext
  split
  · next q _ hq _ => exact absurd hq (hc q)
  · next q hq _ => exact absurd hq (hc q)
  · next q hq _ => exact absurd hq (ho q)
  · exact decide_eq_true h

/-- A running copy of the word's context and command block can be cancelled. -/
theorem mem_cancels_of_running {cs : List Copy} {o : Op} {c : Copy} (hc : c ∈ cs) (hctx : sameContext c o = true) (hccb : c.ccb = wordAddr o)
    (hcan : c.cancelled = false) (hstarted : c.started = true) : c ∈ cancels cs o := by
  simp [cancels, hc, hctx, hccb, hcan, hstarted]

/-- A cancel has answered `v` in every lane, and its copies are `cs`. -/
def CancelAnswers (b t : State) (i : Instr) (v : Nat) (cs : List Copy) : Prop :=
  ∃ o, t.ops = b.ops ++ [o] ∧ o.id = b.nextOp ∧ o.instr = i ∧ o.phase = 1 ∧ (∀ l < 32, nth o.res l = BitVec.ofNat 128 v) ∧ t.copies = cs ∧ t.mem = b.mem

theorem nth_everyLane (v : Nat) {l : Nat} (hl : l < 32) : nth (everyLane v) l = BitVec.ofNat 128 v := List.getD_replicate _ hl

theorem cancelAnswers_performed {b t : State} {x : Issued} {i : Instr} {cs : List Copy} (hb : OpsNumbered b)
    (hops : t.ops = b.ops ++ [mkOp b x i x.act [] 0]) (hcopies : t.copies = cs) (hmem : t.mem = b.mem) (v : Nat) :
    CancelAnswers b (performed t b.nextOp (everyLane v)) i v cs := by
  have hperf : performed t b.nextOp (everyLane v) = _ := performed_last hops hb (everyLane v)
  rw [hperf]
  exact ⟨_, rfl, rfl, rfl, rfl, fun l hl => nth_everyLane v hl, hcopies, hmem⟩

/-- A cancel of no copy answers 1. -/
theorem exec_xcancel_none {f : Full} {s b : State} {x : Issued} (hissue : ∀ body, issueFull 0x6C f s body = .next (body b x))
    (hb : OpsNumbered b) (hnone : cancels b.copies (mkOp b x (.xcancel f) x.act [] 0) = []) :
    ∃ t, exec (.xcancel f) s = .next t ∧ CancelAnswers b t (.xcancel f) (2 ^ 28) b.copies := by
  obtain ⟨hops, hcopies, hmem⟩ := newOp_frame b x (.xcancel f) x.act [] 0
  refine ⟨_, ?_, cancelAnswers_performed hb hops hcopies hmem (2 ^ 28)⟩
  simp only [cancels] at hnone
  show execXcancel f s = _
  simp only [execXcancel, hissue, findOp_newOp hb, hcopies, hnone, List.getElem?_nil]

/-- A cancel that can name one running copy alone marks it cancelled and answers 0. -/
theorem exec_xcancel_running {f : Full} {s b : State} {x : Issued} {y : Copy} (hissue : ∀ body, issueFull 0x6C f s body = .next (body b x))
    (hb : OpsNumbered b) (hsome : cancels b.copies (mkOp b x (.xcancel f) x.act [] 0) ≠ [])
    (hall : ∀ z ∈ cancels b.copies (mkOp b x (.xcancel f) x.act [] 0), z = y) (hready : y.ready = true) :
    ∃ t, exec (.xcancel f) s = .next t ∧
      CancelAnswers b t (.xcancel f) 0 (b.copies.map fun z => if z.id = y.id then { y with cancelled := true } else z) := by
  obtain ⟨hops, hcopies, hmem⟩ := newOp_frame b x (.xcancel f) x.act [] 0
  refine ⟨performed (setCopy (bumpFree (newOp b x (.xcancel f) x.act [] 0)) { y with cancelled := true }) b.nextOp (everyLane 0), ?_,
    cancelAnswers_performed (t := setCopy (bumpFree (newOp b x (.xcancel f) x.act [] 0)) { y with cancelled := true }) hb hops (by simp only [setCopy, bumpFree, hcopies]) hmem 0⟩
  have hpick : ∀ n, (cancels b.copies (mkOp b x (.xcancel f) x.act [] 0))[n % Nat.max 1 (cancels b.copies (mkOp b x (.xcancel f) x.act [] 0)).length]? =
      some y := by
    intro n
    have hpos := List.length_pos_iff.mpr hsome
    have hlt : n % Nat.max 1 (cancels b.copies (mkOp b x (.xcancel f) x.act [] 0)).length <
        (cancels b.copies (mkOp b x (.xcancel f) x.act [] 0)).length := by
      rw [show Nat.max 1 _ = _ from Nat.max_eq_right hpos]
      exact Nat.mod_lt _ hpos
    rw [List.getElem?_eq_getElem hlt, hall _ (List.getElem_mem hlt)]
  simp only [cancels] at hpick
  show execXcancel f s = _
  simp only [execXcancel, hissue, findOp_newOp hb, hcopies, hpick, cancelCopy, hready, Bool.not_true, Bool.false_eq_true, if_false]

/-! ### The words -/

theorem launches_xcopy {s : State} {c k : Nat} {w : Warp} {r : ClauseRun} {f : Full} (hready : Ready s c k w r (viewFull 0x6A f .vector r))
    (hsheaf : w.sheaf = none) : Launches (.xcopy f) s c k w r (viewFull 0x6A f .vector r) 0 (fun _ => 0) := by
  have hno : isSheaf (issued s c k w r (viewFull 0x6A f .vector r)) (warpWord c k w r (viewFull 0x6A f .vector r)).u = false := by
    rw [warpWord, isSheaf_issued, hsheaf]
    rfl
  refine ⟨_, issue_of_ready hready _, ?_⟩
  rw [hno]
  exact launched_newOp _ (.xcopy f) (active w r (viewFull 0x6A f .vector r)) 0 0 (warpWord_carries c k w r _) (by decide) fun a ha => nomatch ha

theorem sheafEnds_xcopy {s : State} {c k : Nat} {w : Warp} {r : ClauseRun} {f : Full} (hready : Ready s c k w r (viewFull 0x6A f .vector r))
    (hsheaf : w.sheaf ≠ none) : ∃ t, exec (.xcopy f) s = .next t ∧ SheafEnds s t c k r (viewFull 0x6A f .vector r) 0x21 := by
  have hyes : isSheaf (issued s c k w r (viewFull 0x6A f .vector r)) (warpWord c k w r (viewFull 0x6A f .vector r)).u = true := by
    rw [warpWord, isSheaf_issued, Option.isSome_iff_ne_none]
    exact hsheaf
  refine ⟨_, issue_of_ready hready _, ?_⟩
  rw [if_pos hyes]
  exact sheafEnds_trapWord hsheaf (illstate 0)

/-- A replay issues its operation and opens its copy. -/
theorem launched_xreplay {f : Full} {s b : State} {x : Issued} {r : ClauseRun} {v : WView}
    (hissue : ∀ body, issueFull 0x6B f s body = .next (body b x)) (hb : OpsNumbered b) (hx : Carries x r v) :
    ∃ t, Launched b t x.u (.xreplay f) r v x.act 0 (fun _ => 0) x.a x.b x.c ∧ exec (.xreplay f) s = .next { t with
      copies := b.copies ++ [replayCopy b x (.xreplay f)], nextOp := t.nextOp + 1 } :=
  ⟨newOp b x (.xreplay f) x.act [] 0, launched_newOp b (.xreplay f) x.act 0 0 hx (by decide) (fun _ ha => nomatch ha),
    exec_xreplay_of_issue hissue hb⟩

/-- A scalar cancel of no copy. -/
theorem exec_xcancel_scalar {s : State} {u : UnitId} {r : ClauseRun} {f : Full} (hready : ScalarReady s u r (viewFull 0x6C f u.kind r))
    (hnum : OpsNumbered s) (hnone : ∀ x ∈ s.copies, x.ccb ≠ BitVec.ofNat 64 (sopA s u (viewFull 0x6C f u.kind r))) :
    ∃ t, exec (.xcancel f) s = .next t ∧ CancelAnswers (scalarStep s u r) t (.xcancel f) (2 ^ 28) s.copies := by
  obtain ⟨-, -, hcopies, -⟩ := scalarStep_frame s u r
  have haddr : wordAddr (mkOp (scalarStep s u r) (scalarWord s u r (viewFull 0x6C f u.kind r)) (.xcancel f)
      (scalarWord s u r (viewFull 0x6C f u.kind r)).act [] 0) = BitVec.ofNat 64 (sopA s u (viewFull 0x6C f u.kind r)) :=
    wordAddr_scalarWord s u r _ _ _
  rw [← hcopies]
  refine exec_xcancel_none (fun body => issue_of_scalarReady hready body) (opsNumbered_scalarStep hnum u r) (cancels_eq_nil ?_)
  rwa [hcopies, haddr]

/-- A warp's cancel of the one running copy of a command block. -/
theorem exec_xcancel_warp {s : State} {c k : Nat} {w : Warp} {r : ClauseRun} {f : Full} {l : Nat} {x : Copy}
    (hready : Ready s c k w r (viewFull 0x6C f .vector r)) (hnum : OpsNumbered s)
    (hl : (active w r (viewFull 0x6C f .vector r)).getLsbD l = true) (hlow : ∀ j < l, (active w r (viewFull 0x6C f .vector r)).getLsbD j = false)
    (hx : x ∈ s.copies) (hctx : x.ctx = w.ctx) (hunit : ∀ q, x.unit ≠ .thread q) (hrdy : x.ready = true) (hstarted : x.started = true)
    (hcan : x.cancelled = false) (hccb : x.ccb = BitVec.ofNat 64 (opA w r (viewFull 0x6C f .vector r) l))
    (honly : ∀ y ∈ s.copies, y = x ∨ y.ccb ≠ x.ccb) :
    ∃ t, exec (.xcancel f) s = .next t ∧ CancelAnswers (issued s c k w r (viewFull 0x6C f .vector r)) t (.xcancel f) 0
      (s.copies.map fun y => if y.id = x.id then { x with cancelled := true } else y) := by
  have haddr : wordAddr (mkOp (issued s c k w r (viewFull 0x6C f .vector r)) (warpWord c k w r (viewFull 0x6C f .vector r)) (.xcancel f)
      (warpWord c k w r (viewFull 0x6C f .vector r)).act [] 0) = x.ccb := (wordAddr_mkOp _ _ _ _ _ hl hlow).trans hccb.symm
  have hsame : sameContext x (mkOp (issued s c k w r (viewFull 0x6C f .vector r)) (warpWord c k w r (viewFull 0x6C f .vector r)) (.xcancel f)
      (warpWord c k w r (viewFull 0x6C f .vector r)).act [] 0) = true := by
    have hwho : x.ctx = (whoIs (issued s c k w r (viewFull 0x6C f .vector r)) (.warp c k)).ctx := by
      rw [whoIs_issued r _ hready.warp, hctx, whoIs, hready.warp]
    exact sameContext_of_ctx hunit (fun q hq => nomatch hq) hwho
  refine exec_xcancel_running (fun body => issue_of_ready hready body) hnum
    (List.ne_nil_of_mem (mem_cancels_of_running hx hsame haddr.symm hcan hstarted)) (fun z hz => ?_) hrdy
  obtain ⟨hmem, hz⟩ := ccb_of_mem_cancels hz
  exact (honly z hmem).resolve_right (not_not_intro (hz.trans haddr))

/-- Settles O39: each word by the operation that it issues; a replay by the copy that it opens with it, a cancel by the copies that it may name. -/
theorem copyWords : Obligations.CopyWords := by
  unfold Obligations.CopyWords
  refine ⟨fun s c k w r f hready hsheaf => launches_xcopy hready hsheaf, fun s c k w r f hready _ hsheaf => sheafEnds_xcopy hready hsheaf,
    fun s c k w r f l hready hnum hl hlow => ?_, fun s u r f hready hnum => ?_, fun s u r f hready hnum hnone => ?_,
    fun s c k w r f l x hready hnum hl hlow hx hctx hunit hrdy hstarted hcan hccb honly => ?_⟩
  · obtain ⟨t, hlaunched, hexec⟩ := launched_xreplay (fun body => issue_of_ready hready body) hnum (warpWord_carries c k w r _)
    have hwho := whoIs_issued r (viewFull 0x6B f .vector r) hready.warp
    refine ⟨t, _, hlaunched, hexec, rfl, rfl, rfl, wordAddr_mkOp _ _ _ _ _ hl hlow, rfl, (congrArg Who.ctx hwho).trans ?_,
      (congrArg Who.handle hwho).trans ?_⟩ <;> rw [whoIs, hready.warp]
  · obtain ⟨-, hnext, hcopies, -⟩ := scalarStep_frame s u r
    obtain ⟨t, hlaunched, hexec⟩ := launched_xreplay (fun body => issue_of_scalarReady hready body) (opsNumbered_scalarStep hnum u r)
      (scalarWord_carries s u r _)
    rw [hcopies] at hexec
    refine ⟨t, _, hlaunched, hexec, rfl, rfl, rfl, wordAddr_scalarWord s u r _ _ _, ?_⟩
    rw [replayCopy, hnext]
  · obtain ⟨hops, hnext, -, hmem⟩ := scalarStep_frame s u r
    obtain ⟨t, hexec, o, hdone⟩ := exec_xcancel_scalar hready hnum hnone
    rw [hops, hnext, hmem] at hdone
    exact ⟨t, o, hexec, hdone⟩
  · obtain ⟨t, hexec, o, hdone⟩ := exec_xcancel_warp hready hnum hl hlow hx hctx hunit hrdy hstarted hcan hccb honly
    exact ⟨t, o, hexec, hdone⟩

end Sys2Proof.Proofs
end

section
/-!
PROOFS. What a device's access of memory leaves alone (spec/04 R72, R83-R85, R439; spec/05 R90-R100): a request at a home slice changes the memory system, and what the
host and the registers note of it; a translation caches its leaf besides.
-/
namespace Sys2Proof.Proofs

open Sys2Proof.Machine Sys2Proof.Claims

/-! ### A request at a slice -/

/-- From `s` to `t` only the memory system has moved, with what it sends the host, the registers that count its events, the free values it has drawn and the waits it
has met. -/
def SliceFrame (s t : State) : Prop := t = { s with mem := t.mem, host := t.host, regs := t.regs, freeNo := t.freeNo, holds := t.holds }

theorem SliceFrame.refl (s : State) : SliceFrame s s := rfl

theorem SliceFrame.trans {s t u : State} (hst : SliceFrame s t) (htu : SliceFrame t u) : SliceFrame s u :=
  Eq.trans htu (congrArg (fun x : State => { x with mem := u.mem, host := u.host, regs := u.regs, freeNo := u.freeNo, holds := u.holds }) hst)

theorem sliceFrame_memWrite (s : State) (pa k v n : Nat) : SliceFrame s (memWrite s pa k v n) := by
  obtain ⟨d, f, h⟩ := memWrite_frame s pa k v n
  rw [h]
  exact rfl

theorem sliceFrame_putMeta (s : State) (la : Nat) (side : W128) (kslot : Nat) (win : Option Nat) : SliceFrame s (putMeta s la side kslot win) := by
  obtain ⟨m, h, -⟩ := putMeta_frame s la side kslot win
  rw [h]
  exact rfl

theorem sliceFrame_evict (s : State) (k : Nat) : SliceFrame s (evict s k) := by
  obtain ⟨m, x, h⟩ := evict_frame s k
  rw [h]
  exact rfl

theorem sliceFrame_countOvf (s : State) (i : Option Nat) : SliceFrame s (countOvf s i) := by
  cases i <;> exact rfl

theorem sliceFrame_dramError (s : State) (la : Nat) : SliceFrame s (dramError s la) := by
  unfold dramError
  split
  · dsimp only
    split <;> exact rfl
  · exact rfl

theorem sliceFrame_fillMeta (s : State) (r : LReq) : SliceFrame s (fillMeta s r).1 := by
  unfold fillMeta
  split
  · next i _ =>
    split
    · refine (sliceFrame_dramError s ((Machine.scaleAt s i r.la).1 / 128)).trans ?_
      dsimp only
      split <;> exact rfl
    · exact rfl
  · exact rfl

theorem sliceFrame_dropPass (s : State) (la : Nat) : SliceFrame s (dropPass s la) := by
  unfold dropPass
  split <;> exact rfl

theorem sliceFrame_allocate (s : State) (r : LReq) : SliceFrame s (allocate s r).1 := by
  unfold allocate
  split
  · exact rfl
  · have hovf := sliceFrame_countOvf s (chooseWay s r).2
    dsimp only
    split
    · exact hovf
    · next k range _ =>
      have hfill := (hovf.trans (sliceFrame_evict _ k)).trans (sliceFrame_fillMeta _ r)
      have hline := fun t (ht : SliceFrame s t) (e : L2Line) => (ht.trans (rfl : SliceFrame t (setL2 t k e))).trans (sliceFrame_dropPass _ r.la)
      split
      · exact (hline _ hfill _).trans rfl
      · exact hline _ hfill _

theorem sliceFrame_fillSectors (s : State) (k : Nat) (need : BitVec 4) : SliceFrame s (fillSectors s k need) := by
  simp only [fillSectors]
  split
  · exact rfl
  · exact (sliceFrame_dramError s _).trans rfl

theorem sliceFrame_reachLine (s : State) (r : LReq) : SliceFrame s (reachLine s r).1 := by
  unfold reachLine
  split
  · unfold hitLine
    split <;> exact rfl
  · exact sliceFrame_allocate s r

theorem sliceFrame_fetchRaw (s : State) (r : LReq) (need : BitVec 4) : SliceFrame s (fetchRaw s r need).1 := by
  unfold fetchRaw
  dsimp only
  split
  · exact (sliceFrame_reachLine s r).trans (sliceFrame_fillSectors _ _ _)
  · exact ((sliceFrame_reachLine s r).trans (sliceFrame_dramError _ _)).trans (sliceFrame_fillMeta _ r)

theorem sliceFrame_storeRaw (s : State) (r : LReq) (k : Nat) (data : Line) (side : W128 → W128) (kslot : Option Nat) :
    SliceFrame s (storeRaw s r k data side kslot) := by
  unfold storeRaw
  dsimp only
  split
  · exact ((sliceFrame_reachLine s r).trans (sliceFrame_fillSectors _ _ _)).trans rfl
  · exact ((sliceFrame_reachLine s r).trans (sliceFrame_memWrite _ _ _ _ _)).trans (sliceFrame_putMeta _ _ _ _ _)

theorem sliceFrame_healPoison (s : State) (la k : Nat) : SliceFrame s (healPoison s la k) := by
  unfold healPoison
  split <;> exact rfl

theorem sliceFrame_storeSealed (s : State) (r : LReq) (e : Nat) (km : BitVec 768) (plain : Line) : SliceFrame s (storeSealed s r e km plain) :=
  (sliceFrame_storeRaw s r _ _ _ _).trans (sliceFrame_healPoison _ _ _)

theorem sliceFrame_atLink (s : State) (a b : Nat) : SliceFrame s (atLink s a b) := by
  unfold atLink
  split <;> exact rfl

theorem sliceFrame_usePass (s : State) (la : Nat) : SliceFrame s (usePass s la) := by
  unfold usePass
  split <;> exact rfl

theorem sliceFrame_payFor (s : State) (slice sid cost : Nat) : SliceFrame s (payFor s slice sid cost) := by
  unfold payFor
  dsimp only
  split <;> exact rfl

theorem sliceFrame_admitReq (s : State) (r : LReq) (write : Bool) (cost : Nat) : SliceFrame s (admitReq s r write cost) := by
  have hpay : SliceFrame s (if r.paid then s else payFor s (sliceOf r.die (128 * r.la)) r.sid cost) := by
    split
    · exact rfl
    · exact sliceFrame_payFor s _ _ _
  unfold admitReq
  dsimp only
  generalize (if r.paid then s else payFor s (sliceOf r.die (128 * r.la)) r.sid cost) = t at hpay ⊢
  split
  · exact hpay.trans rfl
  · split
    · exact hpay.trans (sliceFrame_usePass _ _)
    · exact hpay.trans rfl

/-- A request that its slice lets in. -/
theorem sliceFrame_admitted (s : State) (r : LReq) (write : Bool) (cost : Nat) :
    SliceFrame s (ungate (atLink (admitReq s r write cost) r.src r.die) r.die r.la) :=
  ((sliceFrame_admitReq s r write cost).trans (sliceFrame_atLink _ _ _)).trans rfl

theorem sliceFrame_leaseFor (s : State) (r : LReq) (keep : Bool) : SliceFrame s (leaseFor s r keep).1 := by
  unfold leaseFor
  split <;> exact rfl

theorem sliceFrame_readLine (s : State) (r : LReq) (need : BitVec 4) (keep : Bool) : SliceFrame s (readLine s r need keep).1 := by
  unfold readLine
  split
  · exact rfl
  · have hin := sliceFrame_admitted s r false (sectorCost (if r.prot.isSome then 15 else need))
    dsimp only
    generalize ungate (atLink (admitReq s r false (sectorCost (if r.prot.isSome then 15 else need))) r.src r.die) r.die r.la = t at hin ⊢
    split
    · have hread := hin.trans (sliceFrame_fetchRaw _ r need)
      split
      · exact hread
      · exact hread.trans (sliceFrame_leaseFor _ r keep)
    · split
      · exact hin
      · have hread := hin.trans (sliceFrame_fetchRaw _ r 15)
        split
        · exact hread
        · split
          · exact hread
          · exact hread.trans (sliceFrame_leaseFor _ r keep)

theorem sliceFrame_cohWrite (s : State) (pa n v : Nat) : SliceFrame s (cohWrite s pa n v) := by
  unfold cohWrite
  dsimp only
  split
  · split
    · exact rfl
    · exact sliceFrame_memWrite s _ _ _ _
  · exact sliceFrame_memWrite s _ _ _ _

theorem sliceFrame_readNodes (s : State) (hs : List Nat) : SliceFrame s (readNodes s hs) := by
  unfold readNodes
  generalize dedup (hs.map (nodeLine s)) = ls
  suffices h : ∀ t, SliceFrame s t → SliceFrame s (ls.foldl (fun s la => if (findL2 s (homeDie s (128 * la) 0) la).isSome then s else dramError s la) t) from
    h s rfl
  induction ls with
  | nil => exact fun t ht => ht
  | cons la ls ih =>
    intro t ht
    refine ih _ ?_
    dsimp only
    split
    · exact ht
    · exact ht.trans (sliceFrame_dramError t la)

theorem sliceFrame_bump (s : State) (la wct : Nat) : SliceFrame s (bump s la wct) := by
  unfold bump
  dsimp only
  split
  · refine SliceFrame.trans ?_ (rfl : SliceFrame _ (raiseNodeWct _ _ _))
    exact (((sliceFrame_readNodes s _).trans (rfl : SliceFrame _ (setGranule _ _ _))).trans (sliceFrame_cohWrite _ _ _ _)).trans (sliceFrame_cohWrite _ _ _ _)
  · exact rfl

theorem sliceFrame_scanMonitors (s : State) (la k wct : Nat) : SliceFrame s (scanMonitors s la k wct) := rfl

theorem sliceFrame_afterWrite (s : State) (r : LReq) (k : Nat) (bumps : Bool) : SliceFrame s (afterWrite s r k bumps).1 := by
  have hmax : ∀ m, SliceFrame s { s with mem := m } := fun m => rfl
  unfold afterWrite
  dsimp only
  split
  · exact ((hmax _).trans (sliceFrame_bump _ _ _)).trans (sliceFrame_scanMonitors _ _ _ _)
  · exact (hmax _).trans (sliceFrame_scanMonitors _ _ _ _)

theorem sliceFrame_writeLine (s : State) (r : LReq) (k : Nat) (data : Line) (side : W128 → W128) (bumps : Bool) :
    SliceFrame s (writeLine s r k data side bumps).1 := by
  unfold writeLine
  split
  · exact rfl
  · have hin := sliceFrame_admitted s r true (sectorCost (if r.prot.isSome then 15 else touched k))
    dsimp only
    generalize ungate (atLink (admitReq s r true (sectorCost (if r.prot.isSome then 15 else touched k))) r.src r.die) r.die r.la = t at hin ⊢
    split
    · exact ((hin.trans (sliceFrame_storeRaw _ r k data side none)).trans (sliceFrame_healPoison _ _ _)).trans (sliceFrame_afterWrite _ r k bumps)
    · split
      · exact hin
      · split
        · exact (hin.trans (sliceFrame_storeSealed _ r _ _ _)).trans (sliceFrame_afterWrite _ r k bumps)
        · have hread := hin.trans (sliceFrame_fetchRaw _ r 15)
          split
          · exact hread
          · split
            · exact hread
            · exact (hread.trans (sliceFrame_storeSealed _ _ _ _ _)).trans (sliceFrame_afterWrite _ r k bumps)

/-! ### A translation and what follows it -/

/-- From `s` to `t` only the memory system, as above, and the cached translations of cores and threads have moved. -/
structure DeviceFrame (s t : State) : Prop where
  rest : t = { s with
    mem := t.mem, host := t.host, regs := t.regs, freeNo := t.freeNo, holds := t.holds, cores := t.cores, threads := t.threads }
  core : ∀ c, getCore t c = { getCore s c with tlb := (getCore t c).tlb }
  thread : ∀ q, getThread t q = { getThread s q with tlb := (getThread t q).tlb }

theorem DeviceFrame.refl (s : State) : DeviceFrame s s := ⟨rfl, fun _ => rfl, fun _ => rfl⟩

theorem DeviceFrame.trans {s t u : State} (hst : DeviceFrame s t) (htu : DeviceFrame t u) : DeviceFrame s u where
  rest := Eq.trans htu.rest (congrArg (fun x : State => { x with
    mem := u.mem, host := u.host, regs := u.regs, freeNo := u.freeNo, holds := u.holds, cores := u.cores, threads := u.threads }) hst.rest)
  core c := Eq.trans (htu.core c) (congrArg (fun x : Core => { x with tlb := (getCore u c).tlb }) (hst.core c))
  thread q := Eq.trans (htu.thread q) (congrArg (fun x : Thread => { x with tlb := (getThread u q).tlb }) (hst.thread q))

theorem SliceFrame.device {s t : State} (h : SliceFrame s t) : DeviceFrame s t := by
  rw [h]
  exact ⟨rfl, fun _ => rfl, fun _ => rfl⟩

theorem deviceFrame_tlbLookup (s : State) (x : XCtx) (va : W64) : DeviceFrame s (tlbLookup s x va).1 := by
  obtain ⟨n, h, -⟩ := tlbLookup_cases s x va
  rw [h]
  exact SliceFrame.device rfl

theorem deviceFrame_setThread (s : State) (q : Nat) (l : List TlbEnt) : DeviceFrame s (setThread s q { getThread s q with tlb := l }) := by
  refine ⟨rfl, fun _ => rfl, fun p => ?_⟩
  by_cases hp : p = q
  · subst hp; rw [getThread_setThread]
  · rw [getThread_setThread_other s _ hp]

theorem deviceFrame_setCore (s : State) (c : Nat) (l : List TlbEnt) : DeviceFrame s (setCore s c { getCore s c with tlb := l }) := by
  refine ⟨rfl, fun d => ?_, fun _ => rfl⟩
  by_cases hd : d = c
  · subst hd; rw [getCore_setCore]
  · rw [getCore_setCore_other s _ hd]

theorem deviceFrame_tlbInsert (s : State) (x : XCtx) (va e : W64) (ea level : Nat) : DeviceFrame s (tlbInsert s x va e ea level) := by
  unfold tlbInsert
  dsimp only
  split
  · exact deviceFrame_setThread s _ _
  · have hdie : ∀ m, DeviceFrame s { bumpFree s with mem := m } := fun m => SliceFrame.device rfl
    refine DeviceFrame.trans ?_ (SliceFrame.device (rfl : SliceFrame _ (bumpFree _)))
    exact (hdie _).trans (deviceFrame_setCore _ _ _)

theorem sliceFrame_walkFrom (die : Nat) (va : W64) (fuel : Nat) : ∀ (s : State) (path : List (Nat × Nat)) (table level : Nat),
    SliceFrame s (walkFrom die va fuel s path table level).1 := by
  induction fuel with
  | zero => exact fun s path table level => rfl
  | succ fuel ih =>
    intro s path table level
    have hread : ∀ ea, SliceFrame s (walkRead s die ea).1 := by
      intro ea
      unfold walkRead
      dsimp only
      have hline := sliceFrame_readLine s (walkReq s die ea) (touched (255 * 2 ^ (ea % 128))) false
      split <;> exact hline
    rw [walkFrom]
    dsimp only
    split
    · exact hread _
    · split
      · exact hread _
      · split
        · split <;> exact hread _
        · split
          · exact hread _
          · exact (hread _).trans (ih _ _ _ _)

theorem sliceFrame_walkNow (s : State) (x : XCtx) (va : W64) : SliceFrame s (walkNow s x va).1 := by
  have hstart : SliceFrame s (walkStart s x va).1 := by
    unfold walkStart
    split
    · exact rfl
    · dsimp only
      split <;> exact rfl
  exact hstart.trans (sliceFrame_walkFrom _ _ _ _ _ _ _)

theorem sliceFrame_walkKeep (s : State) (x : XCtx) (va : W64) (path : List (Nat × Nat)) : SliceFrame s (walkKeep s x va path) := by
  unfold walkKeep
  split <;> exact rfl

theorem deviceFrame_walkAccess (s : State) (x : XCtx) (va : W64) (write : Bool) : DeviceFrame s (walkAccess s x va write).1 := by
  have hwalk := sliceFrame_walkNow s x va
  unfold walkAccess
  dsimp only
  split
  · exact hwalk.device
  · have hdrawn := hwalk.trans (rfl : SliceFrame _ (bumpFree _))
    dsimp only
    split
    · exact (hdrawn.trans (sliceFrame_walkKeep _ _ _ _)).device.trans (deviceFrame_tlbInsert _ _ _ _ _ _)
    · exact hdrawn.device

theorem deviceFrame_translate (s : State) (x : XCtx) (va : W64) (write : Bool) : DeviceFrame s (translate s x va write).1 := by
  unfold Machine.translate
  split
  · exact .refl s
  · split
    · exact .refl s
    · have hlook := deviceFrame_tlbLookup s x va
      dsimp only
      split
      · exact hlook
      · exact hlook.trans (deviceFrame_walkAccess _ _ _ _)

/-! ### A device's structures -/

theorem deviceFrame_devRead (x : XCtx) (pol fuel : Nat) : ∀ (s : State) (va : W64) (n : Nat), DeviceFrame s (devRead x pol fuel s va n).1 := by
  induction fuel with
  | zero => exact fun s va n => .refl s
  | succ fuel ih =>
    intro s va n
    rw [devRead]
    split
    · exact .refl s
    · have htrans := deviceFrame_translate s x va false
      dsimp only
      split
      · exact htrans
      · have hread := fun r need => htrans.trans (sliceFrame_readLine (translate s x va false).1 r need false).device
        split
        · exact hread _ _
        · split <;> exact (hread _ _).trans (ih _ _ _)

theorem deviceFrame_devWords (s : State) (x : XCtx) (va : W64) (n : Nat) : DeviceFrame s (devWords s x va n).1 := by
  unfold devWords
  dsimp only
  split <;> exact deviceFrame_devRead x 2 _ s va _

theorem deviceFrame_devWrite (x : XCtx) (pol : Nat) (bumps : Bool) (fuel : Nat) : ∀ (s : State) (va : W64) (n k v : Nat),
    DeviceFrame s (devWrite x pol bumps fuel s va n k v).1 := by
  induction fuel with
  | zero => exact fun s va n k v => .refl s
  | succ fuel ih =>
    intro s va n k v
    rw [devWrite]
    split
    · exact .refl s
    · dsimp only
      split
      · exact ih _ _ _ _ _
      · have htrans := deviceFrame_translate s x va true
        split
        · exact htrans
        · have hwrite := fun r m d => htrans.trans (sliceFrame_writeLine (translate s x va true).1 r m d (fun m => m) bumps).device
          split
          · exact hwrite _ _ _
          · split <;> exact (hwrite _ _ _).trans (ih _ _ _ _ _)

theorem sliceFrame_devFault (s : State) (x : XCtx) (va : W64) (f : AFault) (access source origin merged : Nat) (reqid : W64) :
    SliceFrame s (devFault s x va f access source origin merged reqid) := by
  unfold devFault pushFault
  split
  · exact rfl
  · split
    · exact rfl
    · split <;> exact rfl

theorem deviceFrame_structLines (x : XCtx) (source origin : Nat) (bumps : Bool) (fuel : Nat) : ∀ (s : State) (va : W64) (n v : Nat),
    DeviceFrame s (structLines x source origin bumps fuel s va n v).1 := by
  induction fuel with
  | zero => exact fun s va n v => .refl s
  | succ fuel ih =>
    intro s va n v
    rw [structLines]
    split
    · exact .refl s
    · have hwrite := deviceFrame_devWrite x 2 bumps 2 s va (Nat.min n (128 - va.toNat % 128)) (2 ^ Nat.min n (128 - va.toNat % 128) - 1)
        (v % 2 ^ (8 * Nat.min n (128 - va.toNat % 128)))
      dsimp only
      refine DeviceFrame.trans ?_ (ih _ _ _ _)
      split
      · exact hwrite.trans (sliceFrame_devFault _ _ _ _ _ _ _ _ _).device
      · exact hwrite

theorem deviceFrame_structWrite (s : State) (x : XCtx) (va : W64) (n v source origin : Nat) (bumps : Bool) :
    DeviceFrame s (structWrite s x va n v source origin bumps).1 := deviceFrame_structLines x source origin bumps _ s va n v

end Sys2Proof.Proofs
end

section
/-!
PROOFS. The answer of an engine's operation (spec/02 R25; spec/07 R142; spec/12 R242): its result reaches the unit that issued it, and its flag falls.
-/
namespace Sys2Proof.Proofs

open Sys2Proof.Machine Sys2Proof.Claims

/-! ### What an answer leaves alone -/

/-- From `s` to `t` only operations and units have moved. -/
def UnitFrame (s t : State) : Prop := t = { s with ops := t.ops, cores := t.cores, threads := t.threads }

theorem UnitFrame.trans {s t u : State} (hst : UnitFrame s t) (htu : UnitFrame t u) : UnitFrame s u :=
  Eq.trans htu (congrArg (fun x : State => { x with ops := u.ops, cores := u.cores, threads := u.threads }) hst)

theorem UnitFrame.eq {s t : State} (h : UnitFrame s t) : t = { s with ops := t.ops, cores := t.cores, threads := t.threads } := h

theorem unitFrame_clearMarks (s : State) (o : Op) (keep : Nat → Bool) : UnitFrame s (clearMarks s o keep) := by
  unfold clearMarks
  split <;> exact rfl

theorem unitFrame_lowerFlag (s : State) (u : UnitId) (f : Nat) : UnitFrame s (lowerFlag s u f) := by
  cases u <;> exact rfl

theorem unitFrame_retireOp (s : State) (o : Op) : UnitFrame s (retireOp s o) := by
  have hdrop : UnitFrame s (dropOp (clearMarks s o fun _ => false) o.id) := (unitFrame_clearMarks s o _).trans rfl
  unfold retireOp
  dsimp only
  split
  · exact hdrop.trans (unitFrame_lowerFlag _ _ _)
  · exact hdrop

theorem unitFrame_writeScalar (s : State) (u : UnitId) (n x : Nat) (v : W128) : UnitFrame s (writeScalar s u n x v) := by
  unfold writeScalar
  split
  · exact rfl
  · cases u <;> exact rfl

theorem unitFrame_writeResult (s : State) (o : Op) (m : Mask) : UnitFrame s (writeResult s o m) := by
  unfold writeResult
  split
  · exact rfl
  · split
    · exact rfl
    · split
      · split <;> exact rfl
      · exact unitFrame_writeScalar s _ _ _ _

theorem unitFrame_writeLanes (s : State) (id : Nat) (lanes : Mask) : UnitFrame s (writeLanes s id lanes) := by
  unfold writeLanes
  split
  · exact rfl
  · dsimp only
    split
    · exact (unitFrame_writeResult s _ _).trans (unitFrame_retireOp _ _)
    · exact (unitFrame_writeResult s _ _).trans rfl

theorem unitFrame_performed (s : State) (id : Nat) (res : List W128) : UnitFrame s (performed s id res) := by
  unfold performed
  split <;> exact rfl

theorem unitFrame_copyAnswer (s : State) (id : Nat) (res : List W128) : UnitFrame s (copyAnswer s id res) := by
  have hperf := unitFrame_performed s id res
  unfold copyAnswer
  dsimp only
  split
  · exact hperf
  · split
    · exact hperf
    · split
      · exact hperf.trans (unitFrame_writeLanes _ _ _)
      · split
        · exact hperf
        · exact hperf.trans rfl

/-! ### Who stands in a unit's place -/

/-- The units' flags, and who stands in their places, are as before. -/
structure UnitsStand (s t : State) : Prop where
  flags : ∀ u, unitFlags t u = unitFlags s u
  warp : ∀ c k, (getWarp t c k).live = (getWarp s c k).live ∧ (getWarp t c k).handle = (getWarp s c k).handle ∧ (getWarp t c k).num = (getWarp s c k).num
  front : ∀ c k, (getFront t c k).live = (getFront s c k).live ∧ (getFront t c k).handle = (getFront s c k).handle

theorem UnitsStand.trans {s t u : State} (hst : UnitsStand s t) (htu : UnitsStand t u) : UnitsStand s u where
  flags x := (htu.flags x).trans (hst.flags x)
  warp c k := ⟨(htu.warp c k).1.trans (hst.warp c k).1, (htu.warp c k).2.1.trans (hst.warp c k).2.1, (htu.warp c k).2.2.trans (hst.warp c k).2.2⟩
  front c k := ⟨(htu.front c k).1.trans (hst.front c k).1, (htu.front c k).2.trans (hst.front c k).2⟩

theorem UnitsStand.ownerHere {s t : State} (h : UnitsStand s t) (o : Op) : ownerHere t o = ownerHere s o := by
  unfold Machine.ownerHere
  cases o.unit with
  | thread q => rfl
  | warp c k =>
    obtain ⟨hlive, hhandle, hnum⟩ := h.warp c k
    have hhandle' : (whoIs t (.warp c k)).handle = (whoIs s (.warp c k)).handle := hhandle
    have hnum' : (whoIs t (.warp c k)).num = (whoIs s (.warp c k)).num := hnum
    simp only [hlive, hhandle', hnum']
  | front c k =>
    obtain ⟨hlive, hhandle⟩ := h.front c k
    have hhandle' : (whoIs t (.front c k)).handle = (whoIs s (.front c k)).handle := hhandle
    simp only [hlive, hhandle']

/-- Units that read the same stand. -/
theorem UnitsStand.of_get {s t : State} (hwarp : ∀ c k, getWarp t c k = getWarp s c k) (hfront : ∀ c k, getFront t c k = getFront s c k)
    (hthread : ∀ q, (getThread t q).flags = (getThread s q).flags) : UnitsStand s t where
  flags u := by cases u <;> simp only [unitFlags, hwarp, hfront, hthread]
  warp c k := by simp only [hwarp, and_self]
  front c k := by simp only [hfront, and_self]

theorem UnitsStand.refl (s : State) : UnitsStand s s := .of_get (fun _ _ => rfl) (fun _ _ => rfl) fun _ => rfl

theorem getFront_setFront_keeps {α : Type} (g : Front → α) {s : State} {c k : Nat} {f : Front} (h : g f = g (getFront s c k)) (d j : Nat) :
    g (getFront (setFront s c k f) d j) = g (getFront s d j) := by
  by_cases hd : d = c
  · subst hd
    by_cases hj : j = k
    · subst hj; rw [getFront_setFront, h]
    · rw [getFront_setFront_slot s d f hj]
  · simp only [getFront, setFront, getCore_setCore_other s _ hd]

theorem getThread_setThread_keeps {α : Type} (g : Thread → α) {s : State} {q : Nat} {x : Thread} (h : g x = g (getThread s q)) (p : Nat) :
    g (getThread (setThread s q x) p) = g (getThread s p) := by
  by_cases hp : p = q
  · subst hp; rw [getThread_setThread, h]
  · rw [getThread_setThread_other s x hp]

theorem unitsStand_setWarp {s : State} {c k : Nat} {w : Warp} (hflags : w.flags = (getWarp s c k).flags) (hlive : w.live = (getWarp s c k).live)
    (hhandle : w.handle = (getWarp s c k).handle) (hnum : w.num = (getWarp s c k).num) : UnitsStand s (setWarp s c k w) where
  flags u := by
    cases u with
    | warp d j => exact getWarp_setWarp_keeps Warp.flags hflags d j
    | front d j => simp only [unitFlags, getFront_setWarp]
    | thread q => rfl
  warp d j := ⟨getWarp_setWarp_keeps Warp.live hlive d j, getWarp_setWarp_keeps Warp.handle hhandle d j, getWarp_setWarp_keeps Warp.num hnum d j⟩
  front d j := by simp only [getFront_setWarp, and_self]

theorem unitsStand_setFront {s : State} {c k : Nat} {f : Front} (hflags : f.flags = (getFront s c k).flags) (hlive : f.live = (getFront s c k).live)
    (hhandle : f.handle = (getFront s c k).handle) : UnitsStand s (setFront s c k f) where
  flags u := by
    cases u with
    | warp d j => simp only [unitFlags, getWarp_setFront]
    | front d j => exact getFront_setFront_keeps Front.flags hflags d j
    | thread q => rfl
  warp d j := by simp only [getWarp_setFront, and_self]
  front d j := ⟨getFront_setFront_keeps Front.live hlive d j, getFront_setFront_keeps Front.handle hhandle d j⟩

theorem unitsStand_setThread {s : State} {q : Nat} {x : Thread} (hflags : x.flags = (getThread s q).flags) : UnitsStand s (setThread s q x) :=
  .of_get (fun _ _ => rfl) (fun _ _ => rfl) (getThread_setThread_keeps Thread.flags hflags)

/-- A late write changes registers, the log of writes and its number. -/
theorem writeLate_frame (w : Warp) (x n : Nat) (m : Mask) (vals : List W128) :
    ∃ v g, writeLate w x n m vals = { w with v := v, wrLog := g, wrSeq := w.wrSeq + 1 } := by
  obtain ⟨v, g, h⟩ := writeRegs_frame w x n m vals (w.wrSeq + 1)
  exact ⟨v, g, by rw [writeLate, h]⟩

theorem unitsStand_writeScalar (s : State) (u : UnitId) (n x : Nat) (v : W128) : UnitsStand s (writeScalar s u n x v) := by
  unfold writeScalar
  split
  · exact .refl s
  · cases u with
    | warp c k => exact .refl s
    | front c k => exact unitsStand_setFront rfl rfl rfl
    | thread q => exact unitsStand_setThread rfl

theorem unitsStand_writeResult (s : State) (o : Op) (m : Mask) : UnitsStand s (writeResult s o m) := by
  unfold writeResult
  split
  · exact .refl s
  · next d n _ =>
    split
    · exact .refl s
    · split
      · next c k _ =>
        obtain ⟨v, g, h⟩ := writeLate_frame (getWarp s c k) d.toNat n m o.res
        split
        · rw [h]
          exact unitsStand_setWarp rfl rfl rfl rfl
        · exact .refl s
      · exact unitsStand_writeScalar s _ _ _ _

/-- Marks at L1 are apart from the core's units. -/
theorem getWarp_clearMarks (s : State) (o : Op) (keep : Nat → Bool) (c k : Nat) : getWarp (clearMarks s o keep) c k = getWarp s c k := by
  unfold clearMarks
  split
  · rfl
  · by_cases hc : c = opCore o
    · subst hc; simp only [getWarp, getCore_setCore]
    · simp only [getWarp, getCore_setCore_other s _ hc]

theorem getFront_clearMarks (s : State) (o : Op) (keep : Nat → Bool) (c k : Nat) : getFront (clearMarks s o keep) c k = getFront s c k := by
  unfold clearMarks
  split
  · rfl
  · by_cases hc : c = opCore o
    · subst hc; simp only [getFront, getCore_setCore]
    · simp only [getFront, getCore_setCore_other s _ hc]

theorem unitsStand_dropOp_clearMarks (s : State) (o : Op) (keep : Nat → Bool) (id : Nat) : UnitsStand s (dropOp (clearMarks s o keep) id) :=
  .of_get (getWarp_clearMarks s o keep) (getFront_clearMarks s o keep) fun q => by unfold clearMarks; split <;> rfl

/-! ### The answer -/

/-- The one operation of its number is found by it. -/
theorem findOp_of_inFlight {s : State} {o : Op} {n : Nat} (h : InFlight s o n) : findOp s o.id = some o := by
  have hsome : (s.ops.find? fun p => decide (p.id = o.id)).isSome = true :=
    List.find?_isSome.mpr ⟨o, h.mem, decide_eq_true rfl⟩
  obtain ⟨p, hp⟩ := Option.isSome_iff_exists.mp hsome
  have hid : p.id = o.id := by simpa using List.find?_some hp
  obtain rfl | ⟨hne, -⟩ := h.only p (List.mem_of_find?_eq_some hp)
  · exact hp
  · exact absurd hid hne

theorem findOp_setOp {s : State} {o p : Op} (h : findOp s o.id = some p) : findOp (setOp s o) o.id = some o := by
  have hmap : ∀ l : List Op, (l.find? fun x => decide (x.id = o.id)) = some p →
      ((l.map fun x => if x.id = o.id then o else x).find? fun x => decide (x.id = o.id)) = some o := by
    intro l
    induction l with
    | nil => exact fun hl => nomatch hl
    | cons x l ih =>
      intro hl
      by_cases hx : x.id = o.id
      · simp [hx]
      · rw [List.find?_cons_of_neg (by simpa using hx)] at hl
        rw [List.map_cons, if_neg hx, List.find?_cons_of_neg (by simpa using hx), ih hl]
  exact hmap s.ops h

theorem findOp_dropOp (s : State) (id : Nat) : findOp (dropOp s id) id = none := by
  rw [findOp, List.find?_eq_none]
  intro p hp
  simpa [dropOp] using (List.mem_filter.mp hp).2

/-- An operation that is over has left, and its flag has fallen. -/
theorem retired_retireOp {s : State} {o : Op} (h : ownerHere s o = true) : Retired s (retireOp s o) o := by
  have hstand := unitsStand_dropOp_clearMarks s o (fun _ => false) o.id
  have howner : ownerHere (dropOp (clearMarks s o fun _ => false) o.id) o = true := by rw [hstand.ownerHere, h]
  have heq : retireOp s o = lowerFlag (dropOp (clearMarks s o fun _ => false) o.id) o.unit o.flag := if_pos howner
  obtain ⟨hops, -⟩ := setUnitFlags_frame (dropOp (clearMarks s o fun _ => false) o.id) o.unit
    (putC 0 (unitFlags (dropOp (clearMarks s o fun _ => false) o.id) o.unit) o.flag
      (flagCount (dropOp (clearMarks s o fun _ => false) o.id) o.unit o.flag - 1))
  rw [heq]
  refine ⟨?_, ?_⟩
  · rw [findOp, lowerFlag, hops]
    exact findOp_dropOp _ o.id
  · rw [lowerFlag, unitFlags_setUnitFlags, flagCount, hstand.flags, flagCount]

theorem v_retireOp (s : State) (o : Op) (c k : Nat) : (getWarp (retireOp s o) c k).v = (getWarp s c k).v := by
  have hdrop : (getWarp (dropOp (clearMarks s o fun _ => false) o.id) c k).v = (getWarp s c k).v :=
    congrArg Warp.v (getWarp_clearMarks s o _ c k)
  unfold retireOp
  dsimp only
  split
  · exact (getWarp_setUnitFlags_keeps Warp.v (fun _ _ => rfl) _ _ _ c k).trans hdrop
  · exact hdrop

/-- The registers that a result reaches. -/
theorem v_writeResult {s : State} {o : Op} {c k : Nat} (hunit : o.unit = .warp c k) (howner : ownerHere s o = true) (m : Mask) :
    (getWarp (writeResult s o m) c k).v = (match instrDst o.instr with
      | some (d, n) => if d.toNat < 320 then (writeLate (getWarp s c k) d.toNat n m o.res).v else (getWarp s c k).v
      | none => (getWarp s c k).v) := by
  unfold writeResult
  cases hdst : instrDst o.instr with
  | none => rfl
  | some p =>
    obtain ⟨d, n⟩ := p
    simp only [howner, hunit, Bool.not_true, Bool.false_eq_true, if_false]
    split
    · rw [getWarp_setWarp]
    · rfl

/-- An answer reaches the unit that issued the operation, which still stands there, unless its team is held. -/
theorem answered_copyAnswer {s : State} {o : Op} (h : InFlight s o 0) (hwrote : o.wrote = 0) (hteam : teamHolds s o.handle = false)
    (res : List W128) : Answered s (copyAnswer s o.id res) o res := by
  have hfound := findOp_of_inFlight h
  have hperf : performed s o.id res = setOp s { o with phase := 1, res := res } := by simp only [performed, hfound]
  have hfind : findOp (setOp s { o with phase := 1, res := res }) o.id = some { o with phase := 1, res := res } :=
    findOp_setOp (o := { o with phase := 1, res := res }) hfound
  have howner : ownerHere (setOp s { o with phase := 1, res := res }) { o with phase := 1, res := res } = true := h.owner
  have hteam' : teamHolds (setOp s { o with phase := 1, res := res }) o.handle = false := hteam
  have hlanes : 0xFFFFFFFF#32 &&& o.lanes &&& ~~~o.wrote = o.lanes := by
    rw [hwrote, and_all, BitVec.and_comm]
    exact BitVec.and_allOnes
  have hall : o.lanes &&& ~~~(o.wrote ||| o.lanes) = 0#32 := by simp [hwrote]
  have heq : copyAnswer s o.id res = retireOp (writeResult (setOp s { o with phase := 1, res := res }) { o with phase := 1, res := res } o.lanes)
      { o with phase := 1, res := res, wrote := o.wrote ||| o.lanes } := by
    simp only [copyAnswer, hperf, hfind, hteam', howner, writeLanes, hlanes, hall, Bool.false_eq_true, if_false, if_true]
    rfl
  have hstand := unitsStand_writeResult (setOp s { o with phase := 1, res := res }) { o with phase := 1, res := res } o.lanes
  obtain ⟨hgone, hflags⟩ := retired_retireOp (s := writeResult (setOp s { o with phase := 1, res := res }) { o with phase := 1, res := res } o.lanes)
    (o := { o with phase := 1, res := res, wrote := o.wrote ||| o.lanes }) ((hstand.ownerHere _).trans howner)
  rw [heq]
  refine ⟨⟨hgone, ?_⟩, fun c k hunit => ?_⟩
  · rw [hflags, flagCount, hstand.flags]
    rfl
  · exact (v_retireOp _ _ c k).trans (v_writeResult (s := setOp s { o with phase := 1, res := res }) (o := { o with phase := 1, res := res }) hunit howner o.lanes)

end Sys2Proof.Proofs
end

section
/-!
PROOFS. The engines' events (spec/07 R132, R141-R150; spec/20 R354), copies and overlays: what a move does where its engine is free.
-/
namespace Sys2Proof.Proofs

open Sys2Proof.Machine Sys2Proof.Claims

/-! ### Copies -/

theorem writeHeader_none {c : Copy} (h : c.residue = 0) (s : State) (active : Bool) (done missing last reason : Nat) :
    writeHeader s c active done missing last reason = s := if_pos h

theorem startRef_none {c : Copy} (h : (parseCcb c.ccb c.dsp c.parts c.coresel c.words).queue = 0) (s : State) : startRef s c = some (s, c) := if_pos h

/-- A copy that its engine can take starts. -/
theorem execCopyStart_eq {s : State} {c : Copy} (hfind : findCopy s c.id = some c) (hready : c.ready = true) (hstopped : c.stopped = false)
    (hstarted : c.started = false) (hreplay : c.replay = false) (hheld : stashHeld s c = false) : exec (.copyStart c.id) s = .next (startCopy s c) := by
  change execCopyStart c.id s = _
  simp [execCopyStart, hfind, hready, hstopped, hstarted, hreplay, hheld]

/-- A copy whose checks fail holds their code; one that passes them has its sectors to do. -/
theorem startCopy_fatal {s z : State} {c d : Copy} (hload : engineLoad s c.core c.eng < 8) (hqueue : engineQueue s c = false)
    (hchecks : startChecks s c = (z, d)) (hfatal : d.fatal ≠ 0) : startCopy s c = setCopy z d := by
  simp [startCopy, Nat.not_le.mpr hload, hqueue, hchecks, hfatal]

theorem startCopy_good {s z : State} {c d : Copy} (hload : engineLoad s c.core c.eng < 8) (hqueue : engineQueue s c = false)
    (hchecks : startChecks s c = (z, d)) (hfatal : d.fatal = 0) (href : (parseCcb d.ccb d.dsp d.parts d.coresel d.words).queue = 0) (hresidue : d.residue = 0) :
    startCopy s c = setCopy z { d with started := true, todo := arrivedSectors d (copyGeo d) } := by
  simp [startCopy, Nat.not_le.mpr hload, hqueue, hchecks, hfatal, startRef_none href, hresidue, writeHeader_none]

theorem findCopy_dropCopy (s : State) (id : Nat) : findCopy (dropCopy s id) id = none := by
  rw [findCopy, List.find?_eq_none]
  intro c hc
  simpa [dropCopy] using (List.mem_filter.mp hc).2

/-- A copy that has moved every sector leaves, and answers its one arrival with their number. -/
theorem endCopy_whole {s : State} {c : Copy} {id b n : Nat} (hfatal : c.fatal = 0) (hcancelled : c.cancelled = false) (hmissing : c.missing = [])
    (hresidue : c.residue = 0) (hqueue : (copyGeo c).ccb.queue = 0) (hstat : c.noStat = false) (harrivals : c.arrivals = [(id, b, n)]) :
    endCopy s c = copyAnswer (dropCopy s c.id) id (copyStatus 0 (c.doneBefore + c.moved)) := by
  simp [endCopy, hfatal, hcancelled, hmissing, hresidue, hqueue, hstat, harrivals, writeHeader_none]

theorem execCopyComplete_eq {s : State} {c : Copy} (hfind : findCopy s c.id = some c) (hstarted : c.started = true) (hstopped : c.stopped = false)
    (htodo : c.todo = []) (hwct : c.wct < s.time) : exec (.copyComplete c.id) s = .next (endCopy s c) := by
  change execCopyComplete c.id s = _
  simp [execCopyComplete, hfind, hstarted, hstopped, htodo, passed, hwct]

/-- spec/07 R142: the status of a whole copy reaches the unit that issued it. -/
theorem copyComplete_answers {s : State} {c : Copy} {o : Op} {b n : Nat} (hfind : findCopy s c.id = some c) (hstarted : c.started = true)
    (hstopped : c.stopped = false) (htodo : c.todo = []) (hmissing : c.missing = []) (hwct : c.wct < s.time) (hfatal : c.fatal = 0)
    (hcancelled : c.cancelled = false) (hresidue : c.residue = 0) (hqueue : (copyGeo c).ccb.queue = 0) (hstat : c.noStat = false)
    (harrivals : c.arrivals = [(o.id, b, n)]) (ho : InFlight s o 0) (hwrote : o.wrote = 0) (hteam : teamHolds s o.handle = false) :
    ∃ t, exec (.copyComplete c.id) s = .next t ∧ findCopy t c.id = none ∧
      Answered s t o (List.replicate 32 (BitVec.ofNat 128 ((c.doneBefore + c.moved) % 2 ^ 28))) ∧ t.mem = s.mem ∧ t.regs = s.regs := by
  have hans : Answered (dropCopy s c.id) (copyAnswer (dropCopy s c.id) o.id (copyStatus 0 (c.doneBefore + c.moved))) o
      (copyStatus 0 (c.doneBefore + c.moved)) := answered_copyAnswer (s := dropCopy s c.id) ⟨ho.mem, ho.only, ho.phase, ho.owner⟩ hwrote hteam _
  have hframe := unitFrame_copyAnswer (dropCopy s c.id) o.id (copyStatus 0 (c.doneBefore + c.moved))
  have hstatus : copyStatus 0 (c.doneBefore + c.moved) = List.replicate 32 (BitVec.ofNat 128 ((c.doneBefore + c.moved) % 2 ^ 28)) := by
    rw [copyStatus, Nat.mul_zero, Nat.zero_add]
    rfl
  refine ⟨_, (execCopyComplete_eq hfind hstarted hstopped htodo hwct).trans
    (congrArg _ (endCopy_whole hfatal hcancelled hmissing hresidue hqueue hstat harrivals)), ?_, ?_, ?_, ?_⟩
  · rw [findCopy, congrArg State.copies hframe.eq]
    exact findCopy_dropCopy s c.id
  · rw [← hstatus]
    exact hans
  · rw [congrArg State.mem hframe.eq]
    rfl
  · rw [congrArg State.regs hframe.eq]
    rfl

/-! ### Overlays -/

theorem getSlot_setFront (s : State) (c k : Nat) (f : Front) (d i : Nat) : getSlot (setFront s c k f) d i = getSlot s d i := by
  by_cases hd : d = c
  · subst hd; simp only [getSlot, setFront, getCore_setCore]
  · simp only [getSlot, setFront, getCore_setCore_other s _ hd]

theorem getSlot_endBreaks (s : State) (c d i : Nat) : getSlot (endBreaks s c) d i = getSlot s d i := by
  by_cases hd : d = c
  · subst hd; simp only [getSlot, endBreaks, getCore_setCore]
  · simp only [getSlot, endBreaks, getCore_setCore_other s _ hd]

theorem getSlot_setSlot (s : State) (c i : Nat) (x : OvlSlot) : getSlot (setSlot s c i x) c i = x := by
  simp only [getSlot, setSlot, getCore_setCore, look_put_same]

theorem getSlot_setSlot_other (s : State) (c : Nat) (x : OvlSlot) {i j : Nat} (h : j ≠ i) : getSlot (setSlot s c i x) c j = getSlot s c j := by
  simp only [getSlot, setSlot, getCore_setCore, look_put_other _ _ _ h]

theorem getFront_setSlot (s : State) (c i : Nat) (x : OvlSlot) (d k : Nat) : getFront (setSlot s c i x) d k = getFront s d k := by
  by_cases hd : d = c
  · subst hd; simp only [getFront, setSlot, getCore_setCore]
  · simp only [getFront, setSlot, getCore_setCore_other s _ hd]

/-- The front context as a write to OVLCMD finds it. -/
def ovlWriter (f : Front) (v : W64) : Front :=
  { f with posted := none, ovlcmd := maskWrite f.ovlcmd v (ones 51 16 ||| ones 14 4 ||| ones 1 1) }

/-- The load that the command `v` of front context `f`, at `k`, asks for. -/
def ovlRequest (f : Front) (k : Nat) (v : W64) : OvlLoad := { front := k, handle := f.handle, cmd := v, ctx := f.ctx, world := f.world, sid := f.sid }

/-- What a taken write to OVLCMD does: refused while a load is under way, else the load, or its length's refusal, in its slot. -/
theorem execOverlayLoad_eq {s : State} {c k : Nat} {v : W64} (h : (getFront s c k).posted = some (0x14, v)) :
    exec (.overlayLoad (.unit (.front c k))) s = .next (
      let z := setFront s c k { getFront s c k with posted := none }
      let f := ovlWriter (getFront s c k) v
      if ovlBusy s c then setFront z c k { f with ovlerr := true }
      else
        let bad := fld v 14 4 = 0 || 1024 < fld v 14 4
        setFront (endBreaks (setSlot z c (fld v 1 1) { getSlot s c (fld v 1 1) with
          valid := false, loading := if bad then none else some (ovlRequest (getFront s c k) k v) }) c) c k
          { f with ovlerr := false, ovlcode := if bad then 2 else f.ovlcode }) := by
  have htaken : Taken s (.unit (.front c k)) (0x14 + 0) v (setFront s c k { getFront s c k with posted := none }) := ⟨h, rfl⟩
  change execOverlayLoad (.unit (.front c k)) s = _
  unfold execOverlayLoad
  rw [rowEvent_of_taken _ htaken (by decide)]
  simp only [getFront_setFront, getSlot_setFront, ovlBusy]
  rfl

theorem overlayLoad_good {s : State} {c k : Nat} {v : W64} (h : (getFront s c k).posted = some (0x14, v)) (hbusy : ovlBusy s c = false)
    (hlow : 1 ≤ fld v 14 4) (hhigh : fld v 14 4 ≤ 1024) :
    ∃ t, exec (.overlayLoad (.unit (.front c k))) s = .next t ∧
      getSlot t c (fld v 1 1) = { getSlot s c (fld v 1 1) with valid := false, loading := some (ovlRequest (getFront s c k) k v) } ∧
      (getFront t c k).ovlerr = false ∧ (getFront t c k).ovlcode = (getFront s c k).ovlcode ∧ (getFront t c k).s = (getFront s c k).s ∧
      (∀ j, j ≠ fld v 1 1 → getSlot t c j = getSlot s c j) ∧ t.mem = s.mem := by
  have hgood : (decide (fld v 14 4 = 0) || decide (1024 < fld v 14 4)) = false := by simp; omega
  refine ⟨_, execOverlayLoad_eq h, ?_⟩
  simp only [hbusy, hgood, Bool.false_eq_true, if_false, getFront_setFront, getSlot_setFront, getSlot_endBreaks, getSlot_setSlot]
  refine ⟨trivial, trivial, rfl, rfl, fun j hj => ?_, rfl⟩
  rw [getSlot_setSlot_other _ _ _ hj, getSlot_setFront]

theorem overlayLoad_badLength {s : State} {c k : Nat} {v : W64} (h : (getFront s c k).posted = some (0x14, v)) (hbusy : ovlBusy s c = false)
    (hlen : fld v 14 4 = 0 ∨ 1024 < fld v 14 4) :
    ∃ t, exec (.overlayLoad (.unit (.front c k))) s = .next t ∧
      getSlot t c (fld v 1 1) = { getSlot s c (fld v 1 1) with valid := false, loading := none } ∧ (getFront t c k).ovlcode = 2 := by
  have hbad : (decide (fld v 14 4 = 0) || decide (1024 < fld v 14 4)) = true := by simpa using hlen
  refine ⟨_, execOverlayLoad_eq h, ?_⟩
  simp only [hbusy, hbad, Bool.false_eq_true, if_false, if_true, getFront_setFront, getSlot_setFront, getSlot_endBreaks, getSlot_setSlot, and_self]

theorem overlayLoad_busy {s : State} {c k : Nat} {v : W64} (h : (getFront s c k).posted = some (0x14, v)) (hbusy : ovlBusy s c = true) :
    ∃ t, exec (.overlayLoad (.unit (.front c k))) s = .next t ∧ (getFront t c k).ovlerr = true ∧ ∀ j, getSlot t c j = getSlot s c j := by
  refine ⟨_, execOverlayLoad_eq h, ?_⟩
  simp only [hbusy, if_true, getFront_setFront, getSlot_setFront, implies_true, and_self]

/-- An ended load tells the context that asked for it, where that still stands. -/
theorem getFront_ovlEnded (s : State) (c : Nat) (l : OvlLoad) (code : Nat) : getFront (ovlEnded s c l code) c l.front =
    if (getFront s c l.front).live = true ∧ (getFront s c l.front).handle = l.handle then { getFront s c l.front with ovlcode := code }
    else getFront s c l.front := by
  simp only [ovlEnded, Bool.and_eq_true, decide_eq_true_eq]
  split
  · exact getFront_setFront s c _ _
  · rfl

theorem mem_ovlEnded (s : State) (c : Nat) (l : OvlLoad) (code : Nat) : (ovlEnded s c l code).mem = s.mem := by
  simp only [ovlEnded]
  split <;> rfl

theorem overlayLoadDone_loads {s : State} {c i : Nat} {l : OvlLoad} {z : State} {d : Nat} (hload : (getSlot s c i).loading = some l)
    (hread : devRead (ctxX s c l.ctx l.world l.sid) 0 (64 * fld l.cmd 14 4 / 128 + 2) s (BitVec.ofNat 64 (2 ^ 16 * fld l.cmd 51 16)) (64 * fld l.cmd 14 4) = (z, .inr d))
    (hfront : getFront z c l.front = getFront s c l.front) :
    ∃ t, exec (.overlayLoadDone c i) s = .next t ∧ getSlot t c i = {
      valid := true, image := l.cmd.extractLsb' 16 36, len := 64 * fld l.cmd 14 4, loading := none
      code := memPut (getSlot s c i).code 0 (2 ^ (64 * fld l.cmd 14 4) - 1) d (64 * fld l.cmd 14 4) } ∧ t.mem = z.mem ∧
      getFront t c l.front = (if (getFront s c l.front).live = true ∧ (getFront s c l.front).handle = l.handle then { getFront s c l.front with ovlcode := 0 }
        else getFront s c l.front) := by
  have hexec : exec (.overlayLoadDone c i) s = .next (setSlot (ovlEnded z c l 0) c i {
      valid := true, image := l.cmd.extractLsb' 16 36, len := 64 * fld l.cmd 14 4, loading := none
      code := memPut (getSlot s c i).code 0 (2 ^ (64 * fld l.cmd 14 4) - 1) d (64 * fld l.cmd 14 4) }) := by
    change execOverlayLoadDone c i s = _
    simp only [execOverlayLoadDone, hload, hread]
  refine ⟨_, hexec, getSlot_setSlot _ _ _ _, mem_ovlEnded z c l 0, ?_⟩
  rw [getFront_setSlot, getFront_ovlEnded, hfront]

end Sys2Proof.Proofs
end

section
/-!
PROOFS. The matrix array (spec/12 R235, R236, R243, R244, R251): which request the arbiter grants, and what a retired one leaves in its tile.
-/
namespace Sys2Proof.Proofs

open Sys2Proof.Machine Sys2Proof.Claims

/-! ### The arbiter -/

theorem sameReq_refl (r : MReq) : sameReq r r = true := decide_eq_true rfl

theorem sameReq_comm (r q : MReq) : sameReq r q = sameReq q r := by
  simp only [sameReq, eq_comm]

/-- A lone request is picked, with no tie. -/
theorem pickRequest_one {x : PairSt} {r : MReq} (h : x.reqs = [r]) : pickRequest x = some (r, false) := by
  rcases Nat.mod_two_eq_zero_or_one r.core with hr | hr <;> simp [pickRequest, h, hr]

/-- Of a tie the toggle picks. -/
theorem pickRequest_tie {x : PairSt} {r q : MReq} (h : x.reqs = [r, q]) (hat : q.issueAt = r.issueAt) (hr : r.core % 2 = 0) (hq : q.core % 2 = 1) :
    pickRequest x = some (if x.evenNext then r else q, true) := by
  simp [pickRequest, h, hat, hr, hq]

/-- A picked request that is no drain is granted, when its time has come and both cores run its world. -/
theorem execMatrixGrant_eq {s : State} {p : Nat} {r : MReq} {tie : Bool} (hpick : pickRequest (getPair s p) = some (r, tie)) (hat : r.issueAt < s.cyc)
    (hbefore : issuesBefore s p r.issueAt = false) (hfree : (getPair s p).freeAt ≤ s.cyc) (heven : (getCore s (2 * p)).latch = r.world)
    (hodd : (getCore s (2 * p + 1)).latch = r.world) (hdrain : isDrainReq r = false) :
    exec (.matrixGrant p) s = .next (setPair s p { getPair s p with
      reqs := (getPair s p).reqs.filter (fun q => !sameReq q r), granted := (getPair s p).granted ++ [r], freeAt := s.cyc + occupancy r
      evenNext := if tie then r.core % 2 = 1 else (getPair s p).evenNext }) := by
  change execMatrixGrant p s = _
  simp [execMatrixGrant, hpick, Nat.not_le.mpr hat, hbefore, Nat.not_lt.mpr hfree, heven, hodd, hdrain]

theorem occupancy_eq (r : MReq) : occupancy r = if r.perform = true ∧ (∃ q ∈ r.parts, needsReady q.instr = true) then 8 else 1 := by
  simp only [occupancy, Bool.and_eq_true, List.any_eq_true]

theorem matrixGrant_one {s : State} {p : Nat} {r : MReq} (hreqs : (getPair s p).reqs = [r]) (hat : r.issueAt < s.cyc)
    (hbefore : issuesBefore s p r.issueAt = false) (hfree : (getPair s p).freeAt ≤ s.cyc) (heven : (getCore s (2 * p)).latch = r.world)
    (hodd : (getCore s (2 * p + 1)).latch = r.world) (hdrain : isDrainReq r = false) :
    exec (.matrixGrant p) s = .next (setPair s p { getPair s p with
      reqs := [], granted := (getPair s p).granted ++ [r], freeAt := s.cyc + if r.perform = true ∧ (∃ q ∈ r.parts, needsReady q.instr = true) then 8 else 1 }) := by
  rw [execMatrixGrant_eq (pickRequest_one hreqs) hat hbefore hfree heven hodd hdrain, occupancy_eq]
  simp [hreqs, sameReq_refl]

theorem matrixGrant_tie {s : State} {p : Nat} {r q : MReq} (hreqs : (getPair s p).reqs = [r, q]) (htie : q.issueAt = r.issueAt) (hat : r.issueAt < s.cyc)
    (hbefore : issuesBefore s p r.issueAt = false) (hfree : (getPair s p).freeAt ≤ s.cyc) (hr : r.core % 2 = 0) (hq : q.core % 2 = 1)
    (hdiffer : sameReq r q = false) (heven : (getCore s (2 * p)).latch = r.world) (hodd : (getCore s (2 * p + 1)).latch = r.world) (hworld : q.world = r.world)
    (hdrainr : isDrainReq r = false) (hdrainq : isDrainReq q = false) :
    ∃ t, exec (.matrixGrant p) s = .next t ∧ (getPair t p).granted = (getPair s p).granted ++ [if (getPair s p).evenNext then r else q] ∧
      (getPair t p).reqs = [if (getPair s p).evenNext then q else r] ∧ (getPair t p).evenNext = !(getPair s p).evenNext := by
  have hpick := pickRequest_tie hreqs htie hr hq
  cases hnext : (getPair s p).evenNext with
  | true =>
    rw [hnext, if_pos rfl] at hpick
    refine ⟨_, execMatrixGrant_eq hpick hat hbefore hfree heven hodd hdrainr, ?_⟩
    simp [hreqs, sameReq_refl, sameReq_comm q r, hdiffer, hr]
  | false =>
    rw [hnext, if_neg Bool.false_ne_true] at hpick
    refine ⟨_, execMatrixGrant_eq hpick (htie ▸ hat) (htie ▸ hbefore) hfree (hworld ▸ heven) (hworld ▸ hodd) hdrainq, ?_⟩
    simp [hreqs, sameReq_refl, hdiffer, hq]

/-! ### A retired request -/

/-- What a retirement does with the one operation of a request that leaves `x` in its tile. -/
theorem matrixRetire_leaves {s : State} {p : Nat} {r : MReq} {o : Op} {m : MPart} {x : Tile} (hgranted : (getPair s p).granted = [r]) (hparts : r.parts = [m])
    (hop : m.op = o.id) (ho : InFlight s o 0) (hwrote : o.wrote = 0) (hteam : teamHolds s o.handle = false) (hdrain : isDrainReq r = false)
    (hretire : retireTile s p r = setTile s p r.tile x) :
    ∃ t, exec (.matrixRetire p) s = .next t ∧ getTile t p r.tile = x ∧ (getPair t p).granted = [] ∧ Answered s t o [] ∧
      (∀ j, j ≠ r.tile → getTile t p j = getTile s p j) ∧ t.mem = s.mem := by
  let z := setTile s p r.tile x
  let y := setPair z p { getPair z p with granted := [] }
  have hans : Answered y (copyAnswer y o.id []) o [] := answered_copyAnswer (s := y) ⟨ho.mem, ho.only, ho.phase, ho.owner⟩ hwrote hteam []
  have hframe := unitFrame_copyAnswer y o.id []
  have hpairs : (copyAnswer y o.id []).pairs = y.pairs := by rw [hframe.eq]
  have hpair : getPair (copyAnswer y o.id []) p = { getPair z p with granted := [] } := by
    rw [getPair, hpairs]
    exact getPair_setPair z p _
  have htile : ∀ j, getTile (copyAnswer y o.id []) p j = getTile z p j := fun j => by
    rw [getTile, hpair, getTile]
  refine ⟨copyAnswer y o.id [], ?_, ?_, ?_, hans, fun j hj => ?_, ?_⟩
  · change execMatrixRetire p s = _
    simp only [execMatrixRetire, hgranted, hdrain, hretire, hparts, List.foldl_cons, List.foldl_nil, hop, Bool.false_eq_true, if_false]
    rfl
  · rw [htile, getTile_setTile]
  · rw [hpair]
  · rw [htile, getTile_setTile_other s x hj]
  · rw [hframe.eq]
    rfl

/-! ### The sums -/

theorem ofNat_wrapTo (i : Int) : BitVec.ofNat 32 (wrapTo 32 i) = BitVec.ofInt 32 i := by
  apply BitVec.eq_of_toNat_eq
  have : 0 ≤ i % 2 ^ 32 := Int.emod_nonneg _ (by decide)
  have : i % 2 ^ 32 < 2 ^ 32 := Int.emod_lt_of_pos _ (by decide)
  rw [BitVec.toNat_ofNat, BitVec.toNat_ofInt, wrapTo]
  omega

/-- An element of an s8 product: its word and the sum of its row's products with its column, modulo 2^32. -/
theorem matElem_s8 (x : W32) (row col : List FV) : BitVec.ofNat 32 (matElem 0 x.toNat row col).bits =
    BitVec.ofInt 32 (x.toInt + ((row.zip col).map (fun q => fvInt q.1 * fvInt q.2)).sum) := by
  have hsum : ∀ (l : List (FV × FV)) (v : Int), l.foldl (fun v q => v + fvInt q.1 * fvInt q.2) v = v + (l.map (fun q => fvInt q.1 * fvInt q.2)).sum := by
    intro l
    induction l with
    | nil => simp
    | cons q l ih =>
      intro v
      rw [List.foldl_cons, ih, List.map_cons, List.sum_cons, Int.add_assoc]
  simp only [matElem, if_true]
  rw [ofNat_wrapTo, hsum, Int.zero_add, BitVec.ofNat_toNat, BitVec.setWidth_eq]

/-- A row's words. -/
def productRow (t : Nat) (old : Nat → W32) (a : Nat) (row : List FV) (cols : List (List FV)) : List W32 :=
  cols.zipIdx.map (fun q => BitVec.ofNat 32 (matElem t (old (64 * a + q.2)).toNat row q.1).bits)

theorem matTile_snoc (t : Nat) (old : Nat → W32) (l : List (Option (List FV × List (List FV)))) (row : List FV) (cols : List (List FV)) :
    (matTile t old (l ++ [some (row, cols)])).1 = (matTile t old l).1 ++ productRow t old l.length row cols := by
  simp [matTile, List.zipIdx_append, productRow]

/-- The words of a product are those of its rows, in order. -/
theorem matTile_words (t : Nat) (old : Nat → W32) (rows : List (List FV × List (List FV))) :
    (matTile t old (rows.map some)).1 = rows.zipIdx.flatMap (fun p => productRow t old p.2 p.1.1 p.1.2) := by
  induction rows using List.reverseRecOn with
  | nil => rfl
  | append_singleton rows row ih =>
    rw [List.map_append, List.map_singleton, matTile_snoc, ih]
    simp [List.zipIdx_append]

/-- A tile holds its words, of which it lists those that are not 0. -/
theorem look_tileWords (ws : List W32) (k : Nat) : look 0 (tileWords ws) k = ws.getD k 0 := by
  have hfrom : ∀ (ws : List W32) (n k : Nat), look 0 (((ws.zipIdx n).map (fun p => (p.2, p.1))).filter (fun p => p.2 ≠ 0)) k =
      if k < n then 0 else ws.getD (k - n) 0 := by
    intro ws
    induction ws with
    | nil => intro n k; simp [look]
    | cons w ws ih =>
      intro n k
      rw [List.zipIdx_cons, List.map_cons]
      have hrest := ih (n + 1) k
      by_cases hw : w = 0
      · rw [List.filter_cons_of_neg (by simpa using hw), hrest]
        obtain hk | rfl | hk := Nat.lt_trichotomy k n
        · rw [if_pos hk, if_pos (by omega)]
        · rw [if_pos (Nat.lt_succ_self k), if_neg (Nat.lt_irrefl k), Nat.sub_self, List.getD_cons_zero, hw]
        · rw [if_neg (by omega), if_neg (by omega), show k - n = k - (n + 1) + 1 by omega, List.getD_cons_succ]
      · rw [List.filter_cons_of_pos (by simpa using hw), look, hrest]
        obtain hk | rfl | hk := Nat.lt_trichotomy k n
        · rw [if_neg (by omega), if_pos hk, if_pos (by omega)]
        · rw [if_pos rfl, if_neg (Nat.lt_irrefl k), Nat.sub_self, List.getD_cons_zero]
        · rw [if_neg (by omega), if_neg (by omega), if_neg (by omega), show k - n = k - (n + 1) + 1 by omega, List.getD_cons_succ]
  exact hfrom ws 0 k

/-- Where every part has `n` elements. -/
theorem getD_flatMap_const {α β : Type} {g : α → List β} {n b : Nat} {d : β} (e : α) (l : List α) (a : Nat) (hlen : ∀ x ∈ l, (g x).length = n)
    (ha : a < l.length) (hb : b < n) : (l.flatMap g).getD (n * a + b) d = (g (l.getD a e)).getD b d := by
  induction l generalizing a with
  | nil => exact absurd ha (Nat.not_lt_zero a)
  | cons x l ih =>
    have hx := hlen x List.mem_cons_self
    rw [List.flatMap_cons]
    cases a with
    | zero => rw [Nat.mul_zero, Nat.zero_add, List.getD_append _ _ _ _ (hx ▸ hb), List.getD_cons_zero]
    | succ a =>
      have hlow : (g x).length ≤ n * (a + 1) + b := by rw [hx, Nat.mul_succ]; omega
      rw [List.getD_append_right _ _ _ _ hlow, hx, List.getD_cons_succ, show n * (a + 1) + b - n = n * a + b by rw [Nat.mul_succ]; omega]
      exact ih a (fun y hy => hlen y (List.mem_cons_of_mem x hy)) (by simpa using ha)

/-- The rows and columns that the parts of an ungrouped request multiply. -/
def productRows (s : State) (r : MReq) (t : Nat) : List (List FV × List (List FV)) :=
  (List.range 64).map (fun a => (operandRow s r t false 0 a, (List.range 64).map (fun b => operandRow s r t true 0 b)))

theorem multiply_mma (s : State) (r : MReq) (f : Full) (z : W64) (old : Tile) : (multiply s r (.mma f) z old).words =
    tileWords (matTile f.ty.toNat (fun k => look 0 old.words k) ((productRows s r f.ty.toNat).map some)).1 := by
  have htype : matTypeOf (.mma f) = f.ty.toNat := rfl
  have hrows : rowGroups (.mma f) z = List.replicate 64 (some 0) := rfl
  have hzip : (List.replicate 64 (some 0)).zipIdx = (List.range 64).map (fun a => (some 0, a)) := by decide
  simp only [multiply, htype, hrows, hzip, productRows, List.map_map]
  rfl

/-- An element of the tile after an s8 product. -/
theorem look_multiply_s8 (s : State) (r : MReq) {f : Full} (hty : f.ty = 0) (z : W64) (old : Tile) {a b : Nat} (ha : a < 64) (hb : b < 64) :
    look 0 (multiply s r (.mma f) z old).words (64 * a + b) = BitVec.ofInt 32 ((look 0 old.words (64 * a + b)).toInt +
      (((operandRow s r 0 false 0 a).zip (operandRow s r 0 true 0 b)).map (fun q => fvInt q.1 * fvInt q.2)).sum) := by
  have hlen : ∀ p ∈ (productRows s r 0).zipIdx, (productRow 0 (fun k => look 0 old.words k) p.2 p.1.1 p.1.2).length = 64 := by
    intro p hp
    obtain ⟨c, -, hc⟩ := List.mem_map.mp (List.fst_mem_of_mem_zipIdx hp)
    rw [productRow, List.length_map, List.length_zipIdx, ← hc, List.length_map, List.length_range]
  have hcount : a < (productRows s r 0).zipIdx.length := by simpa [productRows] using ha
  have hrow : (productRows s r 0).zipIdx.getD a (([], []), 0) =
      ((operandRow s r 0 false 0 a, (List.range 64).map (fun b => operandRow s r 0 true 0 b)), a) := by
    simp [productRows, List.getD_eq_getElem?_getD, ha]
  rw [multiply_mma, hty, look_tileWords, show (0 : BitVec 4).toNat = 0 from rfl, matTile_words, getD_flatMap_const (([], []), 0) _ a hlen hcount hb, hrow, productRow,
    ← matElem_s8]
  simp [List.getD_eq_getElem?_getD, hb]

/-! ### The two retirements -/

theorem matrixRetire_mzero {s : State} {p : Nat} {r : MReq} {o : Op} {m : MPart} {f : Full} (hgranted : (getPair s p).granted = [r]) (hparts : r.parts = [m])
    (hinstr : m.instr = o.instr) (hop : m.op = o.id) (ho : InFlight s o 0) (hwrote : o.wrote = 0) (hteam : teamHolds s o.handle = false)
    (hzero : o.instr = .mzero f) :
    ∃ t, exec (.matrixRetire p) s = .next t ∧ getTile t p r.tile = { words := [], im := false, tflags := 0 } ∧ (getPair t p).granted = [] ∧
      Answered s t o [] ∧ (∀ j, j ≠ r.tile → getTile t p j = getTile s p j) ∧ t.mem = s.mem := by
  have hcode : instrOp m.instr = 0x74 := by rw [hinstr, hzero]; rfl
  have hdrain : isDrainReq r = false := by simp [isDrainReq, hparts, hcode]
  have hretire : retireTile s p r = setTile s p r.tile Tile.reset := by simp [retireTile, hparts, hcode]
  exact matrixRetire_leaves hgranted hparts hop ho hwrote hteam hdrain hretire

theorem matrixRetire_s8 {s : State} {p : Nat} {r : MReq} {o : Op} {m : MPart} {f : Full} (hgranted : (getPair s p).granted = [r]) (hparts : r.parts = [m])
    (hinstr : m.instr = o.instr) (hop : m.op = o.id) (ho : InFlight s o 0) (hwrote : o.wrote = 0) (hteam : teamHolds s o.handle = false)
    (hmma : o.instr = .mma f) (hty : f.ty = 0) (hperform : r.perform = true) (hclean : partTainted s m = false) :
    ∃ t, exec (.matrixRetire p) s = .next t ∧ (getPair t p).granted = [] ∧ (getTile t p r.tile).im = true ∧
      (∀ a < 64, ∀ b < 64, look 0 (getTile t p r.tile).words (64 * a + b) = BitVec.ofInt 32 ((look 0 (getTile s p r.tile).words (64 * a + b)).toInt +
        (((operandRow s r 0 false 0 a).zip (operandRow s r 0 true 0 b)).map (fun q => fvInt q.1 * fvInt q.2)).sum)) ∧
      (∀ j, j ≠ r.tile → getTile t p j = getTile s p j) ∧ t.mem = s.mem := by
  have hm : m.instr = .mma f := hinstr.trans hmma
  have hcode : instrOp (.mma f) = 0x70 := rfl
  have hdrain : isDrainReq r = false := by simp [isDrainReq, hparts, hm, hcode]
  have hretire : retireTile s p r = setTile s p r.tile (multiply s r (.mma f) m.z (getTile s p r.tile)) := by
    simp [retireTile, hparts, hm, hcode, hperform, hclean]
  obtain ⟨t, hexec, htile, hgone, -, hothers, hmem⟩ := matrixRetire_leaves hgranted hparts hop ho hwrote hteam hdrain hretire
  have him : (multiply s r (.mma f) m.z (getTile s p r.tile)).im = true := by
    have htype : matTypeOf (.mma f) = f.ty.toNat := rfl
    simp [multiply, htype, hty]
  refine ⟨t, hexec, hgone, htile ▸ him, fun a ha b hb => ?_, hothers, hmem⟩
  rw [htile]
  exact look_multiply_s8 s r hty m.z _ ha hb

end Sys2Proof.Proofs
end

section
/-!
PROOFS. The epilogue processor (spec/12 R256-R258): a drain's start and its end.
-/
namespace Sys2Proof.Proofs

open Sys2Proof.Machine Sys2Proof.Claims

/-! ### Units and pairs across a device's access -/

theorem DeviceFrame.getWarp {s t : State} (h : DeviceFrame s t) (c k : Nat) : getWarp t c k = getWarp s c k := by
  rw [Machine.getWarp, h.core c, Machine.getWarp]

theorem DeviceFrame.getFront {s t : State} (h : DeviceFrame s t) (c k : Nat) : getFront t c k = getFront s c k := by
  rw [Machine.getFront, h.core c, Machine.getFront]

theorem DeviceFrame.getPair {s t : State} (h : DeviceFrame s t) (p : Nat) : getPair t p = getPair s p := by
  rw [Machine.getPair, congrArg State.pairs h.rest, Machine.getPair]

theorem DeviceFrame.ops {s t : State} (h : DeviceFrame s t) : t.ops = s.ops := by rw [h.rest]

theorem DeviceFrame.launch {s t : State} (h : DeviceFrame s t) : t.launch = s.launch := by rw [h.rest]

theorem DeviceFrame.stand {s t : State} (h : DeviceFrame s t) : UnitsStand s t :=
  .of_get h.getWarp h.getFront fun q => by rw [h.thread q]

/-- An operation stays in flight where the operations, and those who stand in the units' places, stay. -/
theorem inFlight_of_stand {s t : State} {o : Op} {n : Nat} (h : InFlight s o n) (hops : t.ops = s.ops) (hstand : UnitsStand s t) : InFlight t o n where
  mem := hops ▸ h.mem
  only := hops ▸ h.only
  phase := h.phase
  owner := (hstand.ownerHere o).trans h.owner

/-! ### A drain's start -/

/-- Of a unit's one operation, none is earlier. -/
theorem earlier_of_inFlight {s : State} {o : Op} {n : Nat} (h : InFlight s o n) : earlier s o = [] := by
  refine List.filter_eq_nil_iff.mpr fun p hp => ?_
  obtain rfl | ⟨-, hunit⟩ := h.only p hp
  · simp
  · simp [sameIssuer, hunit]

/-- What is sent leaves everything but its warp's write combining. -/
theorem sendWc_frame (s : State) (u : UnitId) (id : Nat) : sendWc s u id = { s with cores := (sendWc s u id).cores } := by
  cases u <;> rfl

theorem releaseStep_cta {s : State} {o : Op} {n : Nat} (h : InFlight s o n) : releaseStep s o 0 = (sendWc s o.unit o.id, true) := by
  have hearlier : earlier (sendWc s o.unit o.id) o = [] := by
    rw [sendWc_frame]
    exact (earlier_of_inFlight h : earlier s o = [])
  simp [releaseStep, h.owner, earlierDone, hearlier]

/-- The drain that its unit's time is noted with. -/
def drainTimed (s : State) (o : Op) (d : Drain) : Drain := { d with wct := if ownerHere s o then unitWct s o.unit else 0 }

/-- The oldest grant of the array is the drain's, and no earlier event of its unit is outstanding: the drain starts. -/
theorem execDrainStart_eq {s : State} {p : Nat} {d : Drain} {r : MReq} {o : Op} (hdrains : (getPair s p).drains = [d]) (hgranted : (getPair s p).granted = [r])
    (hpart : ∃ q ∈ r.parts, q.op = d.part.op) (hstarted : d.started = false) (ho : InFlight s o 0) (hid : o.id = d.part.op) :
    exec (.drainStart p) s = .next (startDrain (releaseStep s o 0).1 p (drainTimed (releaseStep s o 0).1 o d) (opX (releaseStep s o 0).1 o)) := by
  have hfind : findOp s d.part.op = some o := hid ▸ findOp_of_inFlight ho
  have hany : r.parts.any (fun q => q.op = d.part.op) = true := by simpa using hpart
  have hbusy : tileBusy (getPair s p) d = false := by simp [tileBusy, hgranted, hany]
  have hheld : heldByAcquire s o = false := by simp [heldByAcquire, earlier_of_inFlight ho]
  have hdone : (releaseStep s o 0).2 = true := by rw [releaseStep_cta ho]
  change execDrainStart p s = _
  simp only [execDrainStart, hdrains, hstarted, hbusy, hfind, hheld, hdone, Bool.or_self, Bool.false_eq_true, if_false, if_true, drainTimed]

theorem getPair_releaseStep {s : State} {o : Op} {n : Nat} (h : InFlight s o n) (p : Nat) : getPair (releaseStep s o 0).1 p = getPair s p := by
  rw [releaseStep_cta h, sendWc_frame]
  rfl

/-- A pair's one drain is set by its operation. -/
theorem drains_setDrain {s : State} {p : Nat} {d e : Drain} (hdrains : (getPair s p).drains = [d]) (hop : d.part.op = e.part.op) :
    (getPair (setDrain s p e) p).drains = [e] := by
  simp [setDrain, hdrains, hop]

/-- A bad descriptor stops its drain. -/
theorem startDrain_bad {s z : State} {p : Nat} {d : Drain} {x : XCtx} {ws : List W64} (halign : d.desc.toNat % 64 = 0)
    (hwords : devWords s x d.desc 8 = (z, .inr ws)) (hbad : (parseDrain ws).bad = true) :
    startDrain s p d x = setDrain z p { d with words := ws, started := true, fatal := 1 } := by
  simp [startDrain, halign, hwords, hbad]

/-- The epilogue program of a descriptor, as `v` holds it. -/
def drainProg (g : DrainDesc) (v : Nat) : List W32 := (List.range g.plen).map (fun i => BitVec.ofNat 32 (v / 2 ^ (32 * i)))

/-- A good descriptor of the register file, with no queue, drains its tile. -/
theorem startDrain_good {s z y : State} {p : Nat} {d : Drain} {x : XCtx} {ws : List W64} {g : DrainDesc} {v : Nat} (halign : d.desc.toNat % 64 = 0)
    (hwords : devWords s x d.desc 8 = (z, .inr ws)) (hparse : parseDrain ws = g) (hgood : g.bad = false) (hqueue : g.queue = 0) (hkind : g.kind = 0)
    (hget : devGet z x g.prog (4 * g.plen) = (y, .inr v)) (hprog : ∀ w ∈ drainProg g v, epiBad w = false)
    (hgrant : ∀ q ∈ drainRanges g (drainProg g v), inGrant s d.part.handle q.1 q.2 = true) (hdest : g.dest.toNat % 4 = 0)
    (hfile : g.dest.toNat + drainSpan g.ofmt ≤ 320) (hbudget : g.dest.toNat + drainSpan g.ofmt ≤ (getWarp s d.part.core d.part.slot).budget) :
    startDrain s p d x = setDrain y p { d with
      words := ws, refTaken := false, started := true, written := 64 * g.rows, regs := spanRegs g (drainRows y d.part.core g (drainProg g v) (getTile y p d.tile))
      flags := (drainRows y d.part.core g (drainProg g v) (getTile y p d.tile)).foldl (fun f (r : RowOut) => f ||| r.flags) 0 } := by
  have hlegal : (drainProg g v).any epiBad = false := by simpa using hprog
  have hinside : (drainRanges g (drainProg g v)).any (fun q => !inGrant s d.part.handle q.1 q.2) = false := by
    simpa only [List.any_eq_false, Bool.not_eq_true', Bool.not_eq_false] using hgrant
  have hwrite : startDrain s p d x = drainWrite y p { d with words := ws, refTaken := false } g x (drainProg g v) := by
    rw [drainProg] at hlegal hinside
    simp only [startDrain, halign, hwords, hparse, hgood, hqueue, hget, hlegal, hinside, hkind, hdest, Nat.not_lt.mpr hfile, Nat.not_lt.mpr hbudget, ne_eq,
      not_true, decide_true, decide_false, Bool.or_self, Bool.and_false, Bool.false_eq_true, if_false, if_true, drainProg]
  rw [hwrite]
  simp only [drainWrite, hkind]

theorem drainStart_bad {s z : State} {p : Nat} {d : Drain} {r : MReq} {o : Op} {ws : List W64} (hdrains : (getPair s p).drains = [d])
    (hgranted : (getPair s p).granted = [r]) (hpart : ∃ q ∈ r.parts, q.op = d.part.op) (hstarted : d.started = false) (ho : InFlight s o 0)
    (hid : o.id = d.part.op) (halign : d.desc.toNat % 64 = 0)
    (hwords : devWords (releaseStep s o 0).1 (opX (releaseStep s o 0).1 o) d.desc 8 = (z, .inr ws)) (hbad : (parseDrain ws).bad = true) :
    ∃ t e, exec (.drainStart p) s = .next t ∧ (getPair t p).drains = [e] ∧ e.started = true ∧ e.fatal = 1 ∧ t.mem = z.mem := by
  have hframe := deviceFrame_devWords (releaseStep s o 0).1 (opX (releaseStep s o 0).1 o) d.desc 8
  rw [hwords] at hframe
  have hdrains' : (getPair z p).drains = [d] := by rw [hframe.getPair, getPair_releaseStep ho, hdrains]
  refine ⟨_, _, (execDrainStart_eq hdrains hgranted hpart hstarted ho hid).trans (congrArg _ (startDrain_bad halign hwords hbad)),
    drains_setDrain hdrains' rfl, rfl, rfl, rfl⟩

theorem drainStart_good {s z y : State} {p : Nat} {d : Drain} {r : MReq} {o : Op} {ws : List W64} {g : DrainDesc} {v : Nat} (hdrains : (getPair s p).drains = [d])
    (hgranted : (getPair s p).granted = [r]) (hpart : ∃ q ∈ r.parts, q.op = d.part.op) (hstarted : d.started = false) (hfatal : d.fatal = 0)
    (ho : InFlight s o 0) (hid : o.id = d.part.op) (halign : d.desc.toNat % 64 = 0)
    (hwords : devWords (releaseStep s o 0).1 (opX (releaseStep s o 0).1 o) d.desc 8 = (z, .inr ws)) (hparse : parseDrain ws = g) (hgood : g.bad = false)
    (hqueue : g.queue = 0) (hkind : g.kind = 0) (hget : devGet z (opX (releaseStep s o 0).1 o) g.prog (4 * g.plen) = (y, .inr v))
    (hprog : ∀ w ∈ drainProg g v, epiBad w = false)
    (hgrant : ∀ q ∈ drainRanges g (drainProg g v), inGrant (releaseStep s o 0).1 d.part.handle q.1 q.2 = true) (hdest : g.dest.toNat % 4 = 0)
    (hfile : g.dest.toNat + drainSpan g.ofmt ≤ 320)
    (hbudget : g.dest.toNat + drainSpan g.ofmt ≤ (getWarp (releaseStep s o 0).1 d.part.core d.part.slot).budget) :
    ∃ t e, exec (.drainStart p) s = .next t ∧ (getPair t p).drains = [e] ∧ e.started = true ∧ e.fatal = 0 ∧ e.written = 64 * g.rows ∧
      e.regs = spanRegs g (drainRows y d.part.core g (drainProg g v) (getTile y p d.tile)) ∧ t.mem = y.mem := by
  have hdesc := deviceFrame_devWords (releaseStep s o 0).1 (opX (releaseStep s o 0).1 o) d.desc 8
  rw [hwords] at hdesc
  have hprogram : DeviceFrame z (devGet z (opX (releaseStep s o 0).1 o) g.prog (4 * g.plen)).1 := deviceFrame_devRead _ 2 _ z _ _
  rw [hget] at hprogram
  have hdrains' : (getPair y p).drains = [d] := by rw [hprogram.getPair, hdesc.getPair, getPair_releaseStep ho, hdrains]
  exact ⟨_, _, (execDrainStart_eq hdrains hgranted hpart hstarted ho hid).trans
    (congrArg _ (startDrain_good halign hwords hparse hgood hqueue hkind hget hprog hgrant hdest hfile hbudget)),
    drains_setDrain hdrains' rfl, rfl, hfatal, rfl, rfl, rfl⟩

/-! ### A drain's end -/

/-- A list of late writes. -/
def writeLates (w : Warp) (l : List (Nat × Mask × List W128)) : Warp := l.foldl (fun w q => writeLate w q.1 1 q.2.1 q.2.2) w

theorem writeLates_frame (l : List (Nat × Mask × List W128)) (w : Warp) :
    ∃ v g n, writeLates w l = { w with v := v, wrLog := g, wrSeq := n } := by
  induction l generalizing w with
  | nil => exact ⟨w.v, w.wrLog, w.wrSeq, rfl⟩
  | cons q l ih =>
    obtain ⟨v, g, h⟩ := writeLate_frame w q.1 1 q.2.1 q.2.2
    obtain ⟨v', g', n', h'⟩ := ih (writeLate w q.1 1 q.2.1 q.2.2)
    exact ⟨v', g', n', h'.trans (by rw [h])⟩

theorem unitsStand_writeLates (s : State) (c k : Nat) (l : List (Nat × Mask × List W128)) : UnitsStand s (setWarp s c k (writeLates (getWarp s c k) l)) := by
  obtain ⟨v, g, n, h⟩ := writeLates_frame l (getWarp s c k)
  rw [h]
  exact unitsStand_setWarp rfl rfl rfl rfl

/-- All lanes of a drain's registers are written late. -/
theorem drainLanes_all (s : State) (d : Drain) : drainLanes s d 0xFFFFFFFF#32 =
    setWarp s d.part.core d.part.slot (writeLates (getWarp s d.part.core d.part.slot) d.regs) := by
  have hall : ∀ m : Mask, m &&& 0xFFFFFFFF#32 = m := fun m => BitVec.and_allOnes
  simp only [drainLanes, hall, writeLates]

/-- What is retired for `z` is retired for `s`, whose units' flags are the same. -/
theorem retired_of_stand {s z t : State} {o : Op} (h : Retired z t o) (hstand : UnitsStand s z) : Retired s t o :=
  ⟨h.1, h.2.trans (by rw [flagCount, flagCount, hstand.flags])⟩

/-- The state a drain's operation is answered in, where `z` holds its status: its registers are written, its grant and its place given up. -/
def drainEnded (z : State) (p : Nat) (d : Drain) : State :=
  let y := drainLanes z d 0xFFFFFFFF#32
  setPair y p { getPair y p with granted := (getPair y p).granted.drop 1, drains := (getPair y p).drains.drop 1 }

theorem drainEnded_eq (z : State) (p : Nat) (d : Drain) : drainEnded z p d =
    setPair (setWarp z d.part.core d.part.slot (writeLates (getWarp z d.part.core d.part.slot) d.regs)) p
      { getPair z p with granted := (getPair z p).granted.drop 1, drains := (getPair z p).drains.drop 1 } := by
  simp only [drainEnded, drainLanes_all, getPair_setWarp]

theorem unitsStand_drainEnded (z : State) (p : Nat) (d : Drain) : UnitsStand z (drainEnded z p d) := by
  obtain ⟨hflags, hwarp, hfront⟩ := unitsStand_writeLates z d.part.core d.part.slot d.regs
  rw [drainEnded_eq]
  exact ⟨hflags, hwarp, hfront⟩

/-- A drain whose status the device has written is over, and its operation with it. -/
theorem drainEnded_answered {s z : State} {p : Nat} {d : Drain} {r : MReq} {o : Op} (hframe : DeviceFrame s z) (hdrains : (getPair s p).drains = [d])
    (hgranted : (getPair s p).granted = [r]) (ho : InFlight s o 0) (hwrote : o.wrote = 0) (hunit : o.unit = .warp d.part.core d.part.slot)
    (hteam : teamHolds s o.handle = false) (hdst : instrDst o.instr = none) :
    let t := copyAnswer (drainEnded z p d) o.id []
    (getPair t p).drains = [] ∧ (getPair t p).granted = [] ∧ Retired s t o ∧
      (getWarp t d.part.core d.part.slot).v = (writeLates (getWarp s d.part.core d.part.slot) d.regs).v ∧ t.mem = z.mem := by
  have hstand : UnitsStand s (drainEnded z p d) := hframe.stand.trans (unitsStand_drainEnded z p d)
  have hops : (drainEnded z p d).ops = s.ops := by rw [drainEnded_eq]; exact hframe.ops
  have hlaunch : (drainEnded z p d).launch = s.launch := by rw [drainEnded_eq]; exact hframe.launch
  have hheld : teamHolds (drainEnded z p d) o.handle = false := by
    rw [teamHolds, findTeam, hlaunch]
    exact hteam
  obtain ⟨hretired, hv⟩ := answered_copyAnswer (inFlight_of_stand ho hops hstand) hwrote hheld []
  have hanswer := unitFrame_copyAnswer (drainEnded z p d) o.id []
  have hpair : getPair (copyAnswer (drainEnded z p d) o.id []) p = { getPair s p with granted := [], drains := [] } := by
    have hpairs : (copyAnswer (drainEnded z p d) o.id []).pairs = (drainEnded z p d).pairs := by rw [hanswer.eq]
    rw [getPair, hpairs, drainEnded_eq]
    refine (getPair_setPair _ p _).trans ?_
    rw [hframe.getPair, hgranted, hdrains]
    rfl
  refine ⟨by rw [hpair], by rw [hpair], retired_of_stand hretired hstand, (hv _ _ hunit).trans ?_, ?_⟩
  · rw [hdst, drainEnded_eq]
    refine (congrArg Warp.v (getWarp_setWarp z d.part.core d.part.slot _)).trans ?_
    rw [hframe.getWarp]
  · rw [hanswer.eq, drainEnded_eq]
    rfl

theorem execDrainComplete_eq {s : State} {p : Nat} {d : Drain} {r : MReq} {o : Op} (hdrains : (getPair s p).drains = [d]) (hgranted : (getPair s p).granted = [r])
    (hpart : ∃ q ∈ r.parts, q.op = d.part.op) (hstarted : d.started = true) (ho : InFlight s o 0) (hid : o.id = d.part.op) (hwct : d.wct < s.time)
    (href : d.refTaken = false) (hqueue : (parseDrain d.words).queue = 0) : exec (.drainComplete p) s = .next (copyAnswer
      (drainEnded (structWrite s (opX s o) (d.desc + 48) 4 (drainStat d 0) 1 (engineOrigin d.part.core 0) false).1 p d) o.id []) := by
  have hfind : findOp s d.part.op = some o := hid ▸ findOp_of_inFlight ho
  have hany : r.parts.any (fun q => q.op = d.part.op) = true := by simpa using hpart
  have hready : (d.started && r.parts.any (fun q => q.op = d.part.op) && passed s d.wct) = true := by simp [hstarted, hany, passed, hwct]
  change execDrainComplete p s = _
  simp only [execDrainComplete, hdrains, hgranted, hready, hfind, endDrain, href, hqueue, Bool.false_eq_true, if_false, ne_eq, not_true, decide_false,
    Bool.and_false, hid, drainEnded]

end Sys2Proof.Proofs
end

section
/-!
PROOFS. The pools' engine ends (spec/20 R354), and the engines' events together. Settles EngineEvents.
-/
namespace Sys2Proof.Proofs

open Sys2Proof.Machine Sys2Proof.Claims

theorem findSlice_num {s : State} {n : Nat} {x : Slice} (h : findSlice s n = some x) : x.num = n := by
  simpa using List.find?_some h

/-- An engine end is one of the slice of its number. -/
theorem findEnd_num {s : State} {n k core : Nat} {x : Slice} {f : Furrow} (h : findEnd s n k = some (x, core, f)) : x.num = n := by
  unfold findEnd at h
  split at h
  · exact nomatch h
  · next y hy =>
    split at h
    · exact nomatch h
    · split at h
      · exact nomatch h
      · split at h
        · obtain ⟨rfl, -⟩ := Prod.mk.inj (Option.some.inj h)
          exact findSlice_num hy
        · exact nomatch h

/-- The furrow of an end whose slot is handed on; `last` says that its source has no other unit. -/
def slotPassed (last : Bool) (f : Furrow) : Furrow :=
  { f with moved := f.moved + 1, unit := f.unit + 1, slot := none, stage := 0, wct := 0, prodend := f.prodend || last, stopped := f.stopped || last }

/-- An end that has handed its slot over takes its answer: a good one passes the slot. -/
theorem endStep_handed {s : State} {n k core : Nat} {x : Slice} {f : Furrow} {o : Op} (hend : findEnd s n k = some (x, core, f)) (hstage : f.stage = 4)
    (hop : s.ops.find? (fun p => p.unit = endUnit n k) = some o) (hphase : o.phase ≠ 0) (hgood : (nth o.res 0).toNat / 2 ^ 28 = 0) (ask hand : Instr) (b c : Nat) :
    endStep s x core k f ask hand b c =
      setPipe (dropOp s o.id) n (fun p => setFurrow p k (slotPassed (f.src = 15 && endUnits f ≤ f.unit + 1))) := by
  have hnum := findEnd_num hend
  have hanswer : endAnswer s n k = some (dropOp s o.id, (nth o.res 0).toNat) := by simp [endAnswer, hop, hphase]
  simp only [endStep, hstage, hanswer, handedOn, hgood, ne_eq, not_true, if_false, hnum, setEnd]
  rfl

theorem sourceEndSlot_passes {s : State} {n k core : Nat} {x : Slice} {f : Furrow} {o : Op} (hend : findEnd s n k = some (x, core, f)) (hstage : f.stage = 4)
    (hop : s.ops.find? (fun p => p.unit = endUnit n k) = some o) (hphase : o.phase ≠ 0) (hgood : (nth o.res 0).toNat / 2 ^ 28 = 0) (hsrc : f.src = 15) :
    exec (.sourceEndSlot n k) s = .next (setPipe (dropOp s o.id) n (fun p => setFurrow p k (slotPassed (decide (endUnits f ≤ f.unit + 1))))) := by
  change execSourceEndSlot n k s = _
  simp only [execSourceEndSlot, hend, hsrc, hstage, endStep_handed hend hstage hop hphase hgood]
  simp

theorem sinkEndSlot_passes {s : State} {n k core : Nat} {x : Slice} {f : Furrow} {o : Op} (hend : findEnd s n k = some (x, core, f)) (hstage : f.stage = 4)
    (hop : s.ops.find? (fun p => p.unit = endUnit n k) = some o) (hphase : o.phase ≠ 0) (hgood : (nth o.res 0).toNat / 2 ^ 28 = 0) (hdst : f.dst = 15)
    (hsrc : f.src ≠ 15) :
    exec (.sinkEndSlot n k) s = .next (setPipe (dropOp s o.id) n (fun p => setFurrow p k (slotPassed false))) := by
  change execSinkEndSlot n k s = _
  simp only [execSinkEndSlot, hend, hdst, endStep_handed hend hstage hop hphase hgood]
  simp [hsrc]

theorem drainStat_none (d : Drain) :
    drainStat d 0 = if d.fatal ≠ 0 then 2 * 2 ^ 28 + d.fatal else 2 ^ 28 * (if d.faulted then 1 else 0) + d.written := rfl

/-- Settles O51: each clause is the lemma about its engine. -/
theorem engineEvents : Obligations.EngineEvents := by
  unfold Obligations.EngineEvents
  refine ⟨?copyStart, ?copyComplete, ?overlayLoad, ?overlayLoadDone, ?matrixGrant, ?matrixTie, ?matrixRetire, ?drainStart, ?drainComplete, ?engineEnd⟩
  case copyStart =>
    intro s c z d hfind hready hstopped hstarted hreplay hload hqueue hheld hchecks
    have hexec := execCopyStart_eq hfind hready hstopped hstarted hreplay hheld
    exact ⟨fun hfatal => hexec.trans (congrArg _ (startCopy_fatal hload hqueue hchecks hfatal)),
      fun hfatal href hresidue => hexec.trans (congrArg _ (startCopy_good hload hqueue hchecks hfatal href hresidue))⟩
  case copyComplete =>
    intro s c o b n hfind hstarted hstopped htodo hmissing hwct hfatal hcancelled hresidue hqueue hstat harrivals ho hwrote hteam
    exact copyComplete_answers hfind hstarted hstopped htodo hmissing hwct hfatal hcancelled hresidue hqueue hstat harrivals ho hwrote hteam
  case overlayLoad =>
    intro s c k v hposted
    exact ⟨overlayLoad_good hposted, overlayLoad_badLength hposted, overlayLoad_busy hposted⟩
  case overlayLoadDone =>
    intro s c i l z d hload hread hfront
    exact overlayLoadDone_loads hload hread hfront
  case matrixGrant =>
    intro s p r hreqs hat hbefore hfree heven hodd hdrain
    exact matrixGrant_one hreqs hat hbefore hfree heven hodd hdrain
  case matrixTie =>
    intro s p r q hreqs htie hat hbefore hfree hr hq hdiffer heven hodd hworld hdrainr hdrainq
    exact matrixGrant_tie hreqs htie hat hbefore hfree hr hq hdiffer heven hodd hworld hdrainr hdrainq
  case matrixRetire =>
    intro s p r o m f hgranted hparts hinstr hop ho hwrote hteam
    exact ⟨matrixRetire_mzero hgranted hparts hinstr hop ho hwrote hteam, matrixRetire_s8 hgranted hparts hinstr hop ho hwrote hteam⟩
  case drainStart =>
    intro s p d r o z ws hdrains hgranted hpart hstarted hfatal ho hid halign hwords
    refine ⟨drainStart_bad hdrains hgranted hpart hstarted ho hid halign hwords, ?_⟩
    intro y v hgood hqueue hkind hget prog hprog hgrant hdest hfile hbudget
    exact drainStart_good hdrains hgranted hpart hstarted hfatal ho hid halign hwords rfl hgood hqueue hkind hget hprog hgrant hdest hfile hbudget
  case drainComplete =>
    intro s p d r o hdrains hgranted hpart hstarted ho hid hwrote hunit hteam hwct href hqueue hdst
    rw [← drainStat_none]
    exact ⟨_, execDrainComplete_eq hdrains hgranted hpart hstarted ho hid hwct href hqueue,
      drainEnded_answered (deviceFrame_structWrite _ _ _ _ _ _ _ _) hdrains hgranted ho hwrote hunit hteam hdst⟩
  case engineEnd =>
    intro s n k x core f o hend hstage hop hphase hgood
    exact ⟨sourceEndSlot_passes hend hstage hop hphase hgood, sinkEndSlot_passes hend hstage hop hphase hgood⟩

end Sys2Proof.Proofs
end

section
/-!
PROOFS. A fill that a range of too many ways sends outside its set (spec/05 R96, R101-R104): the state in which it happens, and the line that is lost. Refutes
MemoryEvents.
-/
namespace Sys2Proof.Proofs

open Sys2Proof.Machine Sys2Proof.Claims

/-- The address of the access: the first line of port 0's fabric range, in set 768 of slice 0. Memory there is read without a free value (log 7). -/
def strayPa : Nat := 3 * 2 ^ 50

def strayLine : Nat := strayPa / 128

/-- A load's one access, by a service thread with SPROOT.EN 0: a physical address, no page. -/
def strayAcc : LaneAcc := { lane := 0, va := BitVec.ofNat 64 strayPa, pa := some strayPa, leaf := 0, xlatAt := 0, size := 0, done := false, res := 0 }

def strayWord : Full :=
  { pneg := false, pred := 7, dst := 0, sa := 0, sb := 0, sc := 0, ha := false, hb := false, hc := false, ty := 6, md := 0, fsel := false }

/-- The load, its bandwidth granted. -/
def strayLoad : Op :=
  { id := 1, unit := .thread 0, handle := 0, num := 0, ctx := 0, world := 0, sid := 0, slice := 0, instr := .ld strayWord, word := 0, pc := 0, hdr := 0,
    widx := 0, lanes := 1, a := [0], b := [0], c := [0], flag := 0, accs := [strayAcc], granted := [strayLine], bufs := [], phase := 0, held := false,
    res := [], wrote := 0, writesReg := true, issued := 0, wct := 0, arg := 0 }

/-- Another line, of set 0, dirty in the way numbered 0 of slice 0. -/
def bystander : L2Line := { L2Line.reset with used := true, data := 1, valid := 1, dirty := 1 }

/-- Range 0 is enabled for SID 0 and the page of the access, with two ways from way 15 on: one more than there are. Way 15 of the access's set holds a retained line
already, so the range's next way has the set's default key, which is that of the bystander. The line's grant stands for its request (spec/24 R394), and its port is up. -/
def strayState : State :=
  { State.reset with
    ops := [strayLoad], nextOp := 2
    regs := { State.reset.regs with
      retctl := [(0, BitVec.ofNat 64 (1 + 2 ^ 8 * 2 + 2 ^ 12 * 15))], retbase := [(0, BitVec.ofNat 64 strayPa)], retlim := [(0, BitVec.ofNat 64 strayPa)]
      portctl := [(0, 8)] }
    mem := { State.reset.mem with
      passes := [{ line := strayLine, excl := false, used := false }]
      l2 := [(0, bystander), (l2Key 0 768 15, { L2Line.reset with range := some 0 })] } }

/-! ### The conditions of a fill -/

theorem strayLoad_oneAccess : OneAccess strayState strayLoad strayAcc strayPa none where
  flight := ⟨List.mem_singleton.mpr rfl, fun _ hp => .inl (List.mem_singleton.mp hp), rfl, rfl⟩
  accs := rfl
  addr := rfl
  todo := rfl
  lanes := rfl
  lane := by decide
  wrote := rfl
  buffers := rfl
  key := by decide
  aligned := by decide
  granted := List.mem_singleton.mpr rfl
  served := by decide
  clean := by decide

theorem strayLoad_admitted : sliceHolds strayState (opReq strayState strayLoad strayAcc) false = false := by decide +kernel

theorem straySet_clean : ∀ k ∈ waysOf (opReq strayState strayLoad strayAcc).die strayLine, (getL2 strayState k).used = true →
    (getL2 strayState k).line = strayLine ∨ (getL2 strayState k).dirty = 0 := by decide +kernel

/-! ### The step -/

/-- DRAM after a step. -/
def dramAfter : Host.Outcome State Fault Refusal → List Host.Cell
  | .next t => t.mem.dram
  | _ => []

/-- The fill evicts the bystander, whose dirty byte reaches memory. -/
theorem dram_strayFill : dramAfter (exec (.lineFill 1 strayLine) strayState) = [(0, 1)] := by decide +kernel

/-- Refutes O49: a fill of a line whose set has no dirty line may change DRAM, where an enabled range reserves more ways than its set has from its first way on. Writes of
RETCTL refuse such a range (spec/05 R102), but the statement asks nothing of it. -/
theorem not_memoryEvents : ¬ Obligations.MemoryEvents := by
  unfold Obligations.MemoryEvents
  rintro ⟨-, -, -, -, -, -, -, hfill, -⟩
  obtain ⟨t, hexec, -, hdram, -⟩ := hfill strayState strayLoad strayAcc strayPa strayWord strayLoad_oneAccess rfl strayLoad_admitted straySet_clean
  have hlost : t.mem.dram = [(0, 1)] := (congrArg dramAfter hexec).symm.trans dram_strayFill
  have hkept : t.mem.dram = [] := hdram
  rw [hkept] at hlost
  exact absurd hlost (by decide)

end Sys2Proof.Proofs
end

section
/-!
PROOFS. What a memory word does once its accesses have issued (spec/08 R151, R153, R168): the marks of a store at its core's L1, and the write-combining buffers that it
enters. The operation stays in flight as it was launched.
-/
namespace Sys2Proof.Proofs

open Sys2Proof.Machine Sys2Proof.Claims

/-! ### Marks at a core -/

/-- From `s` to `t` only what cores keep beside their units has moved. -/
structure MarkFrame (s t : State) : Prop where
  rest : t = { s with cores := t.cores }
  warp : ∀ c k, getWarp t c k = getWarp s c k
  front : ∀ c k, getFront t c k = getFront s c k

theorem MarkFrame.refl (s : State) : MarkFrame s s := ⟨rfl, fun _ _ => rfl, fun _ _ => rfl⟩

theorem MarkFrame.trans {s t u : State} (hst : MarkFrame s t) (htu : MarkFrame t u) : MarkFrame s u where
  rest := Eq.trans htu.rest (congrArg (fun x : State => { x with cores := u.cores }) hst.rest)
  warp c k := (htu.warp c k).trans (hst.warp c k)
  front c k := (htu.front c k).trans (hst.front c k)

theorem MarkFrame.foldl {α : Type} {g : State → α → State} (h : ∀ s a, MarkFrame s (g s a)) (l : List α) : ∀ s, MarkFrame s (l.foldl g s) := by
  induction l with
  | nil => exact fun s => .refl s
  | cons a l ih => exact fun s => (h s a).trans (ih (g s a))

theorem MarkFrame.thread {s t : State} (h : MarkFrame s t) (q : Nat) : getThread t q = getThread s q := by rw [h.rest]; rfl

/-- The units are as they were: their clauses, flags and scalar registers. -/
theorem MarkFrame.unit {s t : State} (h : MarkFrame s t) (u : UnitId) :
    getRun t u = getRun s u ∧ unitFlags t u = unitFlags s u ∧ scalarRegs t u = scalarRegs s u := by
  cases u with
  | warp c k => simp only [getRun, unitFlags, scalarRegs, h.warp, and_self]
  | front c k => simp only [getRun, unitFlags, scalarRegs, h.front, and_self]
  | thread q => simp only [getRun, unitFlags, scalarRegs, h.thread, and_self]

theorem markFrame_setCore (s : State) {c : Nat} {x : Core} (hwarps : x.warps = (getCore s c).warps) (hfronts : x.fronts = (getCore s c).fronts) :
    MarkFrame s (setCore s c x) := by
  refine ⟨rfl, fun d k => ?_, fun d k => ?_⟩
  · by_cases hd : d = c
    · subst hd; rw [getWarp, getCore_setCore, hwarps]; rfl
    · rw [getWarp, getCore_setCore_other s x hd]; rfl
  · by_cases hd : d = c
    · subst hd; rw [getFront, getCore_setCore, hfronts]; rfl
    · rw [getFront, getCore_setCore_other s x hd]; rfl

theorem markFrame_dropL1 (s : State) (core sector : Nat) : MarkFrame s (dropL1 s core sector) := markFrame_setCore s rfl rfl

theorem markFrame_dropStashSector (s : State) (core sector : Nat) : MarkFrame s (dropStashSector s core sector) := markFrame_setCore s rfl rfl

theorem markFrame_storeMark (s : State) (o : Op) (a : LaneAcc) : MarkFrame s (storeMark s o a) := by
  have hmark : ∀ core pa, MarkFrame s (setCore (dropL1 s core (l1Sector pa)) core { getCore (dropL1 s core (l1Sector pa)) core with
      l1pend := (getCore (dropL1 s core (l1Sector pa)) core).l1pend ++ [(o.id, l1Sector pa)] }) :=
    fun core pa => (markFrame_dropL1 s core (l1Sector pa)).trans (markFrame_setCore _ rfl rfl)
  unfold storeMark
  split
  · exact .refl s
  · exact .refl s
  · split
    · exact .refl s
    · dsimp only
      split
      · split
        · exact (hmark _ _).trans (markFrame_dropStashSector _ _ _)
        · exact hmark _ _
      · exact hmark _ _

theorem markFrame_markIssued (before after : State) : MarkFrame after (markIssued before after) := by
  unfold markIssued
  split
  · exact .refl after
  · exact .foldl (fun s a => markFrame_storeMark s _ a) _ after

/-- Marks leave an operation as it was launched. -/
theorem launched_of_markFrame {b t z : State} {u : UnitId} {i : Instr} {r : ClauseRun} {v : WView} {lanes accd : Mask} {va : Nat → W64}
    {xa xb xc : List W128} (h : Launched b t u i r v lanes accd va xa xb xc) (hz : MarkFrame t z) : Launched b z u i r v lanes accd va xa xb xc := by
  obtain ⟨hrun, hflags, hscalars⟩ := hz.unit u
  have hrest := hz.rest
  constructor
  case op => rw [hrest]; exact h.op
  case next => rw [hrest]; exact h.next
  case flags => rw [hflags, h.flags]
  case clause => rw [hrun, h.clause]
  case scalars => rw [hscalars, h.scalars]
  case vectors => intro c k; rw [hz.warp]; exact h.vectors c k
  case memory => rw [hrest]; exact h.memory
  case rest => rw [hrest]; exact h.rest

/-! ### Write-combining buffers -/

/-- What a store's entry into its warp's buffers changes: the buffers that its operation names and those that stand open. -/
theorem wcEnter_frame {s : State} {o : Op} (h : findOp s o.id = some o) (c k line : Nat) : ∃ bufs wc,
    wcEnter s c k o.id line = setWarp (setOp s { o with bufs := bufs }) c k { getWarp s c k with wc := wc } := by
  simp only [wcEnter, h]
  exact ⟨_, _, rfl⟩

/-- The operation that a launch has put in flight, found by its number. -/
theorem findOp_of_launched {b t : State} {u : UnitId} {i : Instr} {r : ClauseRun} {v : WView} {lanes accd : Mask} {va : Nat → W64}
    {xa xb xc : List W128} (hb : OpsNumbered b) (h : Launched b t u i r v lanes accd va xa xb xc) :
    ∃ o, t.ops = b.ops ++ [o] ∧ o.id = b.nextOp ∧ findOp t o.id = some o := by
  obtain ⟨o, hops, hid, -⟩ := h.op
  exact ⟨o, hops, hid, findOp_last hops (hid ▸ hb)⟩

/-- Entering a buffer leaves the operation as it was launched, but for the buffers it names. -/
theorem launched_wcEnter {b t : State} {u : UnitId} {i : Instr} {r : ClauseRun} {v : WView} {lanes accd : Mask} {va : Nat → W64}
    {xa xb xc : List W128} (hb : OpsNumbered b) (h : Launched b t u i r v lanes accd va xa xb xc) (c k line : Nat) :
    Launched b (wcEnter t c k b.nextOp line) u i r v lanes accd va xa xb xc := by
  obtain ⟨o, hops, hid, hop⟩ := h.op
  obtain ⟨bufs, wc, hwc⟩ := wcEnter_frame (o := o) (findOp_last hops (hid ▸ hb)) c k line
  have hset : (setOp t { o with bufs := bufs }).ops = b.ops ++ [{ o with bufs := bufs }] := by
    have hkeep : b.ops.map (fun p => if p.id = o.id then { o with bufs := bufs } else p) = b.ops :=
      (List.map_congr_left fun p hp => if_neg (Nat.ne_of_lt (hid ▸ hb p hp))).trans (List.map_id' _)
    simp only [setOp, hops, List.map_append, hkeep, List.map_cons, List.map_nil, if_true]
  have hkeeps := fun {α : Type} (g : Warp → α) (hg : ∀ w, g { w with wc := wc } = g w) (d j : Nat) =>
    getWarp_setWarp_keeps (s := setOp t { o with bufs := bufs }) (c := c) (k := k) g (hg (getWarp t c k)) d j
  rw [← hid, hwc]
  constructor
  case op => exact ⟨_, hset, hid, hop⟩
  case next => exact h.next
  case flags =>
    rw [← h.flags]
    cases u with
    | warp d j => exact hkeeps Warp.flags (fun _ => rfl) d j
    | front d j => simp only [unitFlags, getFront_setWarp]; rfl
    | thread q => rfl
  case clause =>
    rw [← h.clause]
    cases u with
    | warp d j => exact hkeeps Warp.run (fun _ => rfl) d j
    | front d j => simp only [getRun, getFront_setWarp]; rfl
    | thread q => rfl
  case scalars =>
    rw [← h.scalars]
    cases u with
    | warp d j => rfl
    | front d j => simp only [scalarRegs, getFront_setWarp]; rfl
    | thread q => rfl
  case vectors =>
    intro d j
    obtain ⟨hv, hp, hw, hfr, habs⟩ := h.vectors d j
    exact ⟨(hkeeps Warp.v (fun _ => rfl) d j).trans hv, (hkeeps Warp.p (fun _ => rfl) d j).trans hp, (hkeeps Warp.w (fun _ => rfl) d j).trans hw,
      (hkeeps Warp.frontier (fun _ => rfl) d j).trans hfr, (hkeeps Warp.absent (fun _ => rfl) d j).trans habs⟩
  case memory => exact h.memory
  case rest => exact h.rest

theorem launched_foldl_wcEnter {b : State} {u : UnitId} {i : Instr} {r : ClauseRun} {v : WView} {lanes accd : Mask} {va : Nat → W64}
    {xa xb xc : List W128} (hb : OpsNumbered b) (c k : Nat) (ls : List Nat) : ∀ t, Launched b t u i r v lanes accd va xa xb xc →
    Launched b (ls.foldl (fun t l => wcEnter t c k b.nextOp l) t) u i r v lanes accd va xa xb xc := by
  induction ls with
  | nil => exact fun t h => h
  | cons l ls ih => exact fun t h => ih _ (launched_wcEnter hb h c k l)

/-- A store's entry into its warp's buffers, where its word is `.wc` and an operation has issued (R168). -/
def stEnter (f : Full) (before after : State) (u : UnitId) : State :=
  match lastOp before after, u with
  | some o, .warp c k => if modF f 4 3 = 2 then (vaLines o.accs).foldl (fun s l => wcEnter s c k o.id l) after else after
  | _, _ => after

/-- Only a warp has buffers. -/
theorem stEnter_scalar (f : Full) (before after : State) {u : UnitId} (h : ∀ c k, u ≠ .warp c k) : stEnter f before after u = after := by
  unfold stEnter
  split
  · next _ c k _ => exact absurd rfl (h c k)
  · rfl

theorem lastOp_of_still {before t : State} (h : t.nextOp = before.nextOp) : lastOp before t = none := if_pos h

theorem lastOp_of_launched {before b t : State} {u : UnitId} {i : Instr} {r : ClauseRun} {v : WView} {lanes accd : Mask} {va : Nat → W64}
    {xa xb xc : List W128} (hb : OpsNumbered b) (hbefore : before.nextOp = b.nextOp) (h : Launched b t u i r v lanes accd va xa xb xc) :
    ∃ o, lastOp before t = some o ∧ o.id = b.nextOp := by
  obtain ⟨o, -, hid, hfind⟩ := findOp_of_launched hb h
  have hne : t.nextOp ≠ before.nextOp := by rw [h.next, hbefore]; omega
  exact ⟨o, by rw [lastOp, if_neg hne, hbefore, ← hid, hfind], hid⟩

/-! ### What follows the issue of a word's accesses -/

/-- What a word goes on to do, given the state before its accesses and the one after, leaves an operation as it was launched and does nothing where none was. It may need
`ok` of the state from which a warp launches. -/
structure Follows (ok : State → Prop) (fin : State → State → UnitId → State) : Prop where
  launched : ∀ {before b t : State} {u : UnitId} {i : Instr} {r : ClauseRun} {v : WView} {lanes accd : Mask} {va : Nat → W64} {xa xb xc : List W128},
    (∀ c k, u = .warp c k → ok b) → before.nextOp = b.nextOp → Launched b t u i r v lanes accd va xa xb xc →
    Launched b (fin before t u) u i r v lanes accd va xa xb xc
  still : ∀ {before t : State} (u : UnitId), t.nextOp = before.nextOp → fin before t u = t

theorem follows_nothing : Follows (fun _ => True) fun _ t _ => t := ⟨fun _ _ h => h, fun _ _ => rfl⟩

theorem markIssued_of_still {before t : State} (h : t.nextOp = before.nextOp) : markIssued before t = t := by
  rw [markIssued, lastOp_of_still h]

theorem follows_markIssued : Follows (fun _ => True) fun s t _ => markIssued s t :=
  ⟨fun _ _ h => launched_of_markFrame h (markFrame_markIssued _ _), fun _ h => markIssued_of_still h⟩

theorem follows_store (f : Full) : Follows OpsNumbered fun s t u => stEnter f s (markIssued s t) u where
  launched {before b t u} _ _ _ _ _ _ _ _ _ hok hbefore h := by
    have hmarked := launched_of_markFrame h (markFrame_markIssued before t)
    cases u with
    | warp c k =>
      obtain ⟨o, hlast, hid⟩ := lastOp_of_launched (hok c k rfl) hbefore hmarked
      simp only [stEnter, hlast]
      split
      · rw [hid]; exact launched_foldl_wcEnter (hok c k rfl) c k _ _ hmarked
      · exact hmarked
    | front c k => rwa [stEnter_scalar f _ _ (by simp)]
    | thread q => rwa [stEnter_scalar f _ _ (by simp)]
  still u h := by
    rw [markIssued_of_still h]
    simp only [stEnter, lastOp_of_still h]

end Sys2Proof.Proofs
end

section
/-!
PROOFS. The memory words that issue (spec/08 R163, R164, R167-R180; spec/14 R283): one access a lane, one for the word, or none. Settles MemoryWordsIssue and
QueueAndBareWordsIssue.
-/
namespace Sys2Proof.Proofs

open Sys2Proof.Machine Sys2Proof.Claims

/-! ### Words that make an access for each lane -/

theorem nextOp_translate (s : State) (x : XCtx) (va : W64) (write : Bool) : (translate s x va write).1.nextOp = s.nextOp := by
  rw [(deviceFrame_translate s x va write).rest]

/-- A word whose meaning issues an access for each active lane, and then `fin`. -/
structure AccessWord (mk : Full → Instr) (op : Nat) (ok : State → Prop) (fin : Full → State → State → UnitId → State) : Prop where
  exec_eq : ∀ f s, exec (mk f) s = issueFull op f s fun s x => fin f s (issueAccess s x (mk f) (laneAddrs x) 0) x.u
  follows : ∀ f, Follows ok (fin f)

theorem accessWord_ld : AccessWord .ld 0x58 (fun _ => True) fun _ _ t _ => t := ⟨fun _ _ => rfl, fun _ => follows_nothing⟩
theorem accessWord_st : AccessWord .st 0x59 OpsNumbered fun f s t u => stEnter f s (markIssued s t) u := ⟨fun _ _ => rfl, follows_store⟩
theorem accessWord_ldd : AccessWord .ldd 0x5C (fun _ => True) fun _ _ t _ => t := ⟨fun _ _ => rfl, fun _ => follows_nothing⟩
theorem accessWord_std : AccessWord .std 0x5D (fun _ => True) fun _ s t _ => markIssued s t := ⟨fun _ _ => rfl, fun _ => follows_markIssued⟩
theorem accessWord_ldacq : AccessWord .ldacq 0x5E (fun _ => True) fun _ _ t _ => t := ⟨fun _ _ => rfl, fun _ => follows_nothing⟩
theorem accessWord_strel : AccessWord .strel 0x5F (fun _ => True) fun _ s t _ => markIssued s t := ⟨fun _ _ => rfl, fun _ => follows_markIssued⟩
theorem accessWord_atom : AccessWord .atom 0x60 (fun _ => True) fun _ s t _ => markIssued s t := ⟨fun _ _ => rfl, fun _ => follows_markIssued⟩
theorem accessWord_cas : AccessWord .cas 0x62 (fun _ => True) fun _ s t _ => markIssued s t := ⟨fun _ _ => rfl, fun _ => follows_markIssued⟩

section

variable {mk : Full → Instr} {op : Nat} {ok : State → Prop} {fin : Full → State → State → UnitId → State} (hword : AccessWord mk op ok fin)
include hword

/-- A ready vector word all of whose lanes pass R164's checks launches its operation. -/
theorem AccessWord.launches {s : State} {c k : Nat} {w : Warp} {r : ClauseRun} {f : Full} (hready : Ready s c k w r (viewFull op f .vector r))
    (hok : ok (issued s c k w r (viewFull op f .vector r)))
    (hreach : ∀ l < 32, (active w r (viewFull op f .vector r)).getLsbD l = true →
      Reaches (mk f) s (.warp c k) (BitVec.ofNat 64 (opA w r (viewFull op f .vector r) l))) :
    Launches (mk f) s c k w r (viewFull op f .vector r) (active w r (viewFull op f .vector r))
      (fun l => BitVec.ofNat 64 (opA w r (viewFull op f .vector r) l)) :=
  ⟨_, (hword.exec_eq f s).trans (issue_of_ready hready _), (hword.follows f).launched (fun _ _ _ => hok) rfl
    (launched_issueAccess 0 rfl (warpWord_carries c k w r _) hready.lanes (fun _ => rfl)
      fun l hl hact => reaches_issued hready.warp (hreach l hl hact))⟩

theorem AccessWord.laneWord (hok : ∀ s, ok s) : LaneWord mk op := fun _ _ _ _ _ _ hready _ hreach => hword.launches hready (hok _) hreach

theorem AccessWord.scalarLaneWord : ScalarLaneWord mk op := by
  intro s u r f hready _ hreach
  refine ⟨_, (hword.exec_eq f s).trans (issue_of_scalarReady hready _), ?_⟩
  rw [← unitX_scalarStep s u r]
  refine (hword.follows f).launched (fun c k hu => absurd hu (hready.scalar c k)) ?_
    (launched_scalarAccess 0 hready.scalar rfl (scalarWord_carries s u r _) rfl hreach)
  exact (nextOp_translate _ _ _ _).symm

end

/-! ### PREF -/

/-- One lane's turn in the issue of a prefetch: its access joins the others, or the lane is dropped (R179). -/
def prefGather (x : Issued) (f : Full) (p : State × List LaneAcc) (q : Nat × W64) : State × List LaneAcc :=
  let a := match x.u with
    | .warp _ _ => laneAccess p.1 x (.pref f) q.1 q.2
    | _ => scalarAccess p.1 x (.pref f) q.2
  match a.2 with
  | .inl _ => (a.1, p.2)
  | .inr acc => (a.1, p.2 ++ [acc])

/-- What a prefetch issues once its lanes' accesses are gathered. -/
def prefIssue (x : Issued) (f : Full) (p : State × List LaneAcc) : State := if p.2.isEmpty then p.1 else newOp p.1 x (.pref f) x.act p.2 0

theorem exec_pref (f : Full) (s : State) :
    exec (.pref f) s = issueFull 0x67 f s fun s x => prefIssue x f ((laneAddrs x).foldl (prefGather x f) (s, [])) := rfl

/-- Lanes that all pass the checks gather their accesses, in order. -/
theorem foldl_prefGather_of_reaches {x : Issued} {f : Full} {c k : Nat} (hu : x.u = .warp c k) (addrs : List (Nat × W64)) :
    ∀ (s : State) (accs : List LaneAcc), (∀ q ∈ addrs, Reaches (.pref f) s (.warp c k) q.2) →
      ∃ n as, addrs.foldl (prefGather x f) (s, accs) = ({ s with freeNo := n }, accs ++ as) ∧ List.Forall₂ (fun a q => Fresh a q.1 q.2) as addrs := by
  induction addrs with
  | nil => exact fun s accs _ => ⟨s.freeNo, [], by simp, .nil⟩
  | cons q addrs ih =>
    intro s accs h
    obtain ⟨n, a, hacc, hfresh⟩ := laneAccess_of_reaches q.1 hu (h q List.mem_cons_self)
    obtain ⟨n', as, hfold, hall⟩ := ih { s with freeNo := n } (accs ++ [a]) fun p hp => h p (List.mem_cons_of_mem q hp)
    refine ⟨n', a :: as, ?_, .cons hfresh hall⟩
    have hstep : prefGather x f (s, accs) q = ({ s with freeNo := n }, accs ++ [a]) := by simp only [prefGather, hu, hacc]
    rw [List.foldl_cons, hstep, hfold, List.append_assoc]
    rfl

theorem lanesIn_laneBit : ∀ l < 32, lanesIn (laneBit l) = [l] := by decide

/-- An operation with one access, of lane `l`. -/
theorem launched_newOp_single (b : State) {x : Issued} {r : ClauseRun} {v : WView} (i : Instr) (lanes : Mask) {a : LaneAcc} (arg : Nat) {l : Nat}
    {va : W64} (hx : Carries x r v) (hl : l < 32) (hfresh : Fresh a l va) :
    Launched b (newOp b x i lanes [a] arg) x.u i r v lanes (laneBit l) (fun _ => va) x.a x.b x.c := by
  refine launched_newOp b i lanes (laneBit l) arg hx ?_ fun a' ha' => ?_
  · rw [List.map_singleton, hfresh.lane, lanesIn_laneBit l hl]
  · obtain rfl := List.mem_singleton.mp ha'
    exact ⟨hfresh.addr, hfresh.todo⟩

theorem laneAddrs_scalar {x : Issued} (hu : ∀ c k, x.u ≠ .warp c k) : laneAddrs x = [(0, (nth x.a 0).setWidth 64)] := by
  unfold laneAddrs
  split
  · next c k h => exact absurd h (hu c k)
  · rfl

theorem prefGather_scalar {x : Issued} {f : Full} {p : State × List LaneAcc} {q : Nat × W64} {t : State} {a : LaneAcc}
    (hu : ∀ c k, x.u ≠ .warp c k) (h : scalarAccess p.1 x (.pref f) q.2 = (t, .inr a)) : prefGather x f p q = (t, p.2 ++ [a]) := by
  unfold prefGather
  split
  · next c k hc => exact absurd hc (hu c k)
  · rw [h]

theorem prefIssue_of_ne {x : Issued} {f : Full} {s : State} {as : List LaneAcc} (h : as ≠ []) : prefIssue x f (s, as) = newOp s x (.pref f) x.act as 0 :=
  if_neg (by simpa using h)

theorem lanesIn_ne_nil {m : Mask} (h : m ≠ 0) : lanesIn m ≠ [] := by
  intro hnil
  have hzero : withLanes 0 (lanesIn m) = 0 := by rw [hnil]; rfl
  exact h ((withLanes_lanesIn m).symm.trans hzero)

theorem laneWord_pref : LaneWord .pref 0x67 := by
  intro s c k w r f hready _ hreach
  obtain ⟨n, as, hfold, hall⟩ := foldl_prefGather_of_reaches (x := warpWord c k w r (viewFull 0x67 f .vector r)) (f := f) rfl
    (laneAddrs (warpWord c k w r (viewFull 0x67 f .vector r))) (issued s c k w r (viewFull 0x67 f .vector r)) [] (by
      simp only [laneAddrs, warpWord, List.forall_mem_map]
      exact fun l hl => reaches_issued hready.warp (hreach l (mem_lanesIn.mp hl).1 (mem_lanesIn.mp hl).2))
  have hlanes : as.map LaneAcc.lane = lanesIn (active w r (viewFull 0x67 f .vector r)) :=
    (map_lane_of_fresh hall).trans (by simp [laneAddrs, warpWord, Function.comp_def])
  have hne : as ≠ [] := fun hnil => lanesIn_ne_nil hready.lanes (by rw [← hlanes, hnil]; rfl)
  refine ⟨_, (exec_pref f s).trans (issue_of_ready hready _), ?_⟩
  rw [hfold, List.nil_append, prefIssue_of_ne hne]
  exact launched_of_freeNo (n := n) (launched_newOp _ (.pref f) _ _ 0 (warpWord_carries c k w r _) hlanes
    (va_of_fresh hall (by simp only [laneAddrs, warpWord, List.forall_mem_map]; exact fun _ _ => rfl)))

/-- A scalar prefetch whose address is accessed launches one operation. -/
theorem launched_scalarPref {b : State} {x : Issued} {f : Full} {u : UnitId} {r : ClauseRun} {v : WView} {va : W64} (hscalar : ∀ c k, x.u ≠ .warp c k)
    (hu : x.u = u) (hx : Carries x r v) (hact : x.act = 1) (hva : va = (nth x.a 0).setWidth 64) (h : ScalarReaches (.pref f) b u va) :
    Launched (translate b (unitX b u) va (accessWrites (.pref f))).1 (prefIssue x f ((laneAddrs x).foldl (prefGather x f) (b, []))) u (.pref f) r v 1 1
      (fun _ => va) x.a x.b x.c := by
  obtain ⟨a, hacc, hfresh⟩ := scalarAccess_of_reaches hu h
  rw [laneAddrs_scalar hscalar, ← hva, List.foldl_cons, List.foldl_nil, prefGather_scalar hscalar hacc, List.nil_append,
    prefIssue_of_ne (List.cons_ne_nil a []), hact, ← hu]
  exact launched_newOp_single _ (.pref f) 1 0 hx (by decide) hfresh

theorem scalarLaneWord_pref : ScalarLaneWord .pref 0x67 := by
  intro s u r f hready _ hreach
  refine ⟨_, (exec_pref f s).trans (issue_of_scalarReady hready _), ?_⟩
  rw [← unitX_scalarStep s u r]
  exact launched_scalarPref hready.scalar rfl (scalarWord_carries s u r _) rfl rfl hreach

/-- Settles O27: each word by what its meaning does once its accesses have issued; a prefetch by its own gathering of them. -/
theorem memoryWordsIssue : Obligations.MemoryWordsIssue := by
  unfold Obligations.MemoryWordsIssue
  have hany : ∀ _ : State, True := fun _ => trivial
  exact ⟨accessWord_ld.laneWord hany, accessWord_ldd.laneWord hany, accessWord_std.laneWord hany, accessWord_ldacq.laneWord hany,
    accessWord_strel.laneWord hany, accessWord_atom.laneWord hany, accessWord_cas.laneWord hany, laneWord_pref,
    fun s c k w r f hready hnum hreach => accessWord_st.launches hready hnum hreach,
    accessWord_ld.scalarLaneWord, accessWord_st.scalarLaneWord, accessWord_ldacq.scalarLaneWord, accessWord_strel.scalarLaneWord,
    accessWord_atom.scalarLaneWord, accessWord_cas.scalarLaneWord, scalarLaneWord_pref⟩

/-! ### Words that make one access for all their lanes -/

/-- A word whose meaning issues one access at its one address, and then `fin`. -/
structure SingleWord (mk : Full → Instr) (op : Nat) (fin : State → State → UnitId → State) : Prop where
  exec_eq : ∀ f s, exec (mk f) s = issueFull op f s fun s x => fin s (issueOne s x (mk f) (oneAddr x)) x.u
  follows : Follows (fun _ => True) fin

theorem singleWord_waitc : SingleWord .waitc 0x64 fun _ t _ => t := ⟨fun _ _ => rfl, follows_nothing⟩
theorem singleWord_tqinit : SingleWord .tqinit 0x78 fun s t _ => markIssued s t := ⟨fun _ _ => rfl, follows_markIssued⟩
theorem singleWord_tqkill : SingleWord .tqkill 0x79 fun s t _ => markIssued s t := ⟨fun _ _ => rfl, follows_markIssued⟩
theorem singleWord_tqacq : SingleWord .tqacq 0x7A fun s t _ => markIssued s t := ⟨fun _ _ => rfl, follows_markIssued⟩
theorem singleWord_tqput : SingleWord .tqput 0x7B fun s t _ => markIssued s t := ⟨fun _ _ => rfl, follows_markIssued⟩
theorem singleWord_tqget : SingleWord .tqget 0x7C fun s t _ => markIssued s t := ⟨fun _ _ => rfl, follows_markIssued⟩
theorem singleWord_tqret : SingleWord .tqret 0x7D fun s t _ => markIssued s t := ⟨fun _ _ => rfl, follows_markIssued⟩

/-- A vector word whose one address passes the checks launches one operation over its active lanes. -/
theorem launched_issueOne {b : State} {x : Issued} {c k l : Nat} {i : Instr} {r : ClauseRun} {v : WView} (hu : x.u = .warp c k) (hx : Carries x r v)
    (hl : x.act.getLsbD l = true) (hlow : ∀ j < l, x.act.getLsbD j = false) (h : Reaches i b (.warp c k) ((nth x.a l).setWidth 64)) :
    Launched b (issueOne b x i (oneAddr x)) (.warp c k) i r v x.act (laneBit l) (fun _ => (nth x.a l).setWidth 64) x.a x.b x.c := by
  have hlane := lowLane_eq hl hlow
  obtain ⟨n, a, hacc, hfresh⟩ := laneAccess_of_reaches (x := x) l hu h
  have hissue : issueOne b x i (oneAddr x) = newOp { b with freeNo := n } x i x.act [a] 0 := by
    simp only [issueOne, oneAddr, hu, hlane, hacc]
  have hnew := launched_newOp_single { b with freeNo := n } i x.act 0 hx (BitVec.lt_of_getLsbD hl) hfresh
  rw [hu] at hnew
  rw [hissue]
  exact launched_of_freeNo hnew

/-- A scalar unit's one address is its access's. -/
theorem issueOne_scalar {x : Issued} (hu : ∀ c k, x.u ≠ .warp c k) (s : State) (i : Instr) :
    issueOne s x i (oneAddr x) = issueAccess s x i (laneAddrs x) 0 := by
  rw [laneAddrs_scalar hu]
  cases hx : x.u with
  | warp c k => exact absurd hx (hu c k)
  | front c k => simp only [issueOne, oneAddr, hx]
  | thread q => simp only [issueOne, oneAddr, hx]

section

variable {mk : Full → Instr} {op : Nat} {fin : State → State → UnitId → State} (hword : SingleWord mk op fin)
include hword

theorem SingleWord.oneWord : OneWord mk op := fun _ c k w r f hready _ hl hlow hreach =>
  ⟨_, (hword.exec_eq f _).trans (issue_of_ready hready _), hword.follows.launched (fun _ _ _ => trivial) rfl
    (launched_issueOne rfl (warpWord_carries c k w r _) hl hlow (reaches_issued hready.warp hreach))⟩

theorem SingleWord.scalarLaneWord : ScalarLaneWord mk op := by
  intro s u r f hready _ hreach
  refine ⟨_, (hword.exec_eq f s).trans (issue_of_scalarReady hready _), ?_⟩
  rw [issueOne_scalar hready.scalar, ← unitX_scalarStep s u r]
  refine hword.follows.launched (fun _ _ _ => trivial) ?_ (launched_scalarAccess 0 hready.scalar rfl (scalarWord_carries s u r _) rfl hreach)
  exact (nextOp_translate _ _ _ _).symm

end

/-! ### Words that make no access at issue -/

theorem isSheaf_scalar (s : State) {u : UnitId} (hu : ∀ c k, u ≠ .warp c k) : isSheaf s u = false := by
  cases u with
  | warp c k => exact absurd rfl (hu c k)
  | front c k => rfl
  | thread q => rfl

/-- A word that a sheaf may not issue, of any other unit: it starts an operation without an access. -/
theorem bareWord_of_noSheaf {mk : Full → Instr} {op : Nat} (hexec : ∀ f s, exec (mk f) s = issueFull op f s fun s x =>
    if isSheaf s x.u then trapWord s x (illstate 0) else newOp s x (mk f) x.act [] 0) : BareWord mk op fun s u _ => isSheaf s u = false := by
  refine ⟨fun s c k w r f hready hsheaf => ⟨_, (hexec f s).trans (issue_of_ready hready _), ?_⟩,
    fun s u r f hready _ => ⟨_, (hexec f s).trans (issue_of_scalarReady hready _), ?_⟩⟩
  · have hno : isSheaf (issued s c k w r (viewFull op f .vector r)) (warpWord c k w r (viewFull op f .vector r)).u = false := by
      rw [warpWord, isSheaf_issued, ← hready.warp]; exact hsheaf
    rw [hno]
    exact launched_newOp _ (mk f) _ 0 0 (warpWord_carries c k w r _) (by decide) fun a ha => nomatch ha
  · have hno : isSheaf (scalarStep s u r) (scalarWord s u r (viewFull op f u.kind r)).u = false := isSheaf_scalar _ hready.scalar
    rw [hno]
    exact launched_newOp _ (mk f) 1 0 0 (scalarWord_carries s u r _) (by decide) fun a ha => nomatch ha

/-- Settles O28: WAITC and the queue words by their one access, the others by the operation that makes none. -/
theorem queueAndBareWordsIssue : Obligations.QueueAndBareWordsIssue := by
  unfold Obligations.QueueAndBareWordsIssue
  exact ⟨singleWord_waitc.oneWord, singleWord_tqinit.oneWord, singleWord_tqkill.oneWord, singleWord_tqacq.oneWord, singleWord_tqput.oneWord,
    singleWord_tqget.oneWord, singleWord_tqret.oneWord, singleWord_tqinit.scalarLaneWord, singleWord_tqkill.scalarLaneWord,
    singleWord_tqacq.scalarLaneWord, singleWord_tqput.scalarLaneWord, singleWord_tqget.scalarLaneWord, singleWord_tqret.scalarLaneWord,
    bareWord_of_newOp _ 0 (fun _ _ => rfl) fun _ _ _ _ _ _ _ => rfl, bareWord_of_newOp _ 0 (fun _ _ => rfl) fun _ _ _ _ _ _ _ => rfl,
    bareWord_of_newOp _ 0 (fun _ _ => rfl) fun _ _ _ _ _ _ _ => rfl, bareWord_of_noSheaf fun _ _ => rfl, bareWord_of_noSheaf fun _ _ => rfl⟩

end Sys2Proof.Proofs
end

section
/-!
PROOFS. Lanes that trap at their word (spec/08 R164; spec/22 R363, R365): where they leave their warp, and their records.
-/
namespace Sys2Proof.Proofs

open Sys2Proof.Machine Sys2Proof.Claims

/-! ### A warp without some of its lanes -/

/-- The warp, the lanes of `m` having left its entries and its clause (R363). -/
def without (w : Warp) (m : Mask) : Warp :=
  { w with
    run := w.run.map fun r => { r with
      mask := r.mask &&& ~~~m, exits := r.exits &&& ~~~m, branches := r.branches.map fun b => (b.1, b.2 &&& ~~~m) }
    frontier := (w.frontier.map fun e => { e with mask := e.mask &&& ~~~m }).filter fun e => e.mask != 0
    absent := w.absent ||| m }

theorem detachLane_eq (s : State) (c k l : Nat) : detachLane s c k l = setWarp s c k (without (getWarp s c k) (laneBit l)) := rfl

theorem and_not_and_not (a m n : Mask) : a &&& ~~~m &&& ~~~n = a &&& ~~~(m ||| n) := by rw [BitVec.and_assoc, BitVec.not_or]

/-- Entries that `m` empties stay empty without `n`. -/
theorem frontier_without (fr : List FEntry) (m n : Mask) :
    ((((fr.map fun e => { e with mask := e.mask &&& ~~~m }).filter fun e => e.mask != 0).map fun e => { e with mask := e.mask &&& ~~~n }).filter
      fun e => e.mask != 0) = (fr.map fun e => { e with mask := e.mask &&& ~~~(m ||| n) }).filter fun e => e.mask != 0 := by
  induction fr with
  | nil => rfl
  | cons e fr ih =>
    simp only [List.map_cons, List.filter_cons]
    by_cases hm : e.mask &&& ~~~m = 0
    · have hn : e.mask &&& ~~~(m ||| n) = 0 := by rw [← and_not_and_not, hm]; exact BitVec.zero_and
      simpa [hm, hn] using ih
    · simp only [bne_iff_ne, ne_eq, hm, not_false_iff, if_true, List.map_cons, List.filter_cons, and_not_and_not, ih]

theorem without_without (w : Warp) (m n : Mask) : without (without w m) n = without w (m ||| n) := by
  simp only [without, frontier_without, BitVec.or_assoc, Option.map_map, Function.comp_def, List.map_map, and_not_and_not]

/-! ### Lanes leaving one after another -/

/-- From `b` to `t` the lanes of `m` have left warp `k` of core `c`, with the records `qs`; free values may have been drawn besides (log 7). -/
structure LanesOff (b t : State) (c k : Nat) (m : Mask) (qs : List TrapRec) : Prop where
  rest : t = { b with cores := t.cores, freeNo := t.freeNo }
  warp : getWarp t c k = if m = 0 then getWarp b c k else without (getWarp b c k) m
  others : ∀ j, j ≠ k → getWarp t c j = getWarp b c j
  records : (getCore t c).trapBuf = (getCore b c).trapBuf ++ qs
  tlb : (getCore t c).tlb = (getCore b c).tlb
  cores : ∀ d, d ≠ c → getCore t d = getCore b d

theorem LanesOff.refl (b : State) (c k : Nat) : LanesOff b b c k 0 [] :=
  ⟨rfl, rfl, fun _ _ => rfl, (List.append_nil _).symm, rfl, fun _ _ => rfl⟩

theorem laneBit_ne_zero {l : Nat} (hl : l < 32) : laneBit l ≠ 0 := by
  intro h
  have hbit := getLsbD_laneBit hl l
  rw [h] at hbit
  simp at hbit

theorem or_laneBit_ne_zero (m : Mask) {l : Nat} (hl : l < 32) : m ||| laneBit l ≠ 0 := by
  intro h
  have hbit : (m ||| laneBit l).getLsbD l = true := by rw [BitVec.getLsbD_or, getLsbD_laneBit hl]; simp
  rw [h] at hbit
  simp at hbit

section

variable {b t : State} {c k : Nat} {m : Mask} {qs : List TrapRec} (h : LanesOff b t c k m qs)
include h

theorem LanesOff.draw (n : Nat) : LanesOff b { t with freeNo := n } c k m qs :=
  ⟨by rw [h.rest], h.warp, h.others, h.records, h.tlb, h.cores⟩

/-- A field of the warp that no lane's leaving changes. -/
theorem LanesOff.keeps {α : Type} (g : Warp → α) (hg : ∀ w m, g (without w m) = g w) : g (getWarp t c k) = g (getWarp b c k) := by
  rw [h.warp]
  split
  · rfl
  · exact hg _ m

/-- One more lane traps. -/
theorem LanesOff.laneTrap (hsheaf : (getWarp b c k).sheaf = none) {q : TrapRec} (hl : q.lane < 32) :
    LanesOff b (laneTrap t c k q) c k (m ||| laneBit q.lane) (qs ++ [q]) := by
  have hno : (getWarp t c k).sheaf = none := (h.keeps Warp.sheaf fun _ _ => rfl).trans hsheaf
  have htrap : Machine.laneTrap t c k q = bufferRec (setWarp t c k (without (getWarp t c k) (laneBit q.lane))) c q := by
    simp only [Machine.laneTrap, hno, detachLane_eq]
  rw [htrap]
  constructor
  case rest =>
    exact congrArg (fun x : State => { x with cores := (bufferRec (setWarp t c k (without (getWarp t c k) (laneBit q.lane))) c q).cores }) h.rest
  case warp =>
    rw [getWarp_bufferRec, getWarp_setWarp, if_neg (or_laneBit_ne_zero m hl), h.warp]
    split
    · next hm => rw [hm]; exact congrArg _ BitVec.zero_or.symm
    · exact without_without _ _ _
  case others => exact fun j hj => by rw [getWarp_bufferRec, getWarp_setWarp_slot _ _ _ hj, h.others j hj]
  case records => rw [trapBuf_bufferRec, setWarp, getCore_setCore, ← List.append_assoc, ← h.records]
  case tlb => rw [bufferRec, getCore_setCore, setWarp, getCore_setCore, ← h.tlb]
  case cores => exact fun d hd => by rw [bufferRec, getCore_setCore_other _ _ hd, setWarp, getCore_setCore_other _ _ hd, h.cores d hd]

theorem LanesOff.whoIs : whoIs t (.warp c k) = whoIs b (.warp c k) :=
  h.keeps (fun w => ({ ctx := w.ctx, world := w.world, sid := w.sid, slice := w.slice, handle := w.handle, num := w.num } : Who)) fun _ _ => rfl

/-- The translations that the warp's core may use, and R164's checks with them, are as before. -/
theorem LanesOff.reaches {i : Instr} {va : W64} (hr : Reaches i b (.warp c k) va) : Reaches i t (.warp c k) va := by
  obtain ⟨hlt, halign, hleaf⟩ := hr
  have hrest := h.rest
  have hunit : unitX t (.warp c k) = unitX b (.warp c k) := by
    simp only [unitX, h.whoIs, ctxX]
    rw [hrest]
    rfl
  have htlbs : tlbsFor t (unitX b (.warp c k)) = tlbsFor b (unitX b (.warp c k)) := by
    simp only [tlbsFor, unitX, ctxX, h.tlb]
    rw [hrest]
  refine ⟨hlt, halign, ?_⟩
  rw [hunit, htlbs, hrest]
  exact hleaf

end

/-- The record of a lane of the word being issued, with the address that it named. -/
def issueRec (b : State) (x : Issued) (va : W64) (f : AFault) (access l : Nat) : TrapRec :=
  { laneRec b x l f.cause (detailOf f access) false x.didx with addr := va }

/-- A lane's record says the same of its warp whichever lanes have left before it. -/
theorem LanesOff.issueTrap {b t : State} {x : Issued} {c k l : Nat} {m : Mask} {qs : List TrapRec} (h : LanesOff b t c k m qs) (hu : x.u = .warp c k)
    (hsheaf : (getWarp b c k).sheaf = none) (hl : l < 32) (va : W64) (f : AFault) (access : Nat) :
    LanesOff b (issueTrap t x l va f access) c k (m ||| laneBit l) (qs ++ [issueRec b x va f access l]) := by
  have hcyc : t.cyc = b.cyc := by rw [h.rest]
  have hwct : unitWct t (.warp c k) = unitWct b (.warp c k) := h.keeps Warp.wctmax fun _ _ => rfl
  have hrec : issueRec t x va f access l = issueRec b x va f access l := by
    simp only [issueRec, laneRec, mkRec, hu, h.whoIs, hcyc, hwct]
  have htrap : Machine.issueTrap t x l va f access = Machine.laneTrap t c k (issueRec t x va f access l) := by
    simp only [Machine.issueTrap, hu, issueRec]
  rw [htrap, hrec]
  exact h.laneTrap hsheaf hl

/-- A ready word's warp once its due results are written and its clause has gone one word on. -/
theorem getWarp_issued {s : State} {c k : Nat} {w : Warp} {r : ClauseRun} {v : WView} : ∃ x g p fp, (due w r v).1 = { w with v := x, wrLog := g, p := p, fpstat := fp } ∧
    getWarp (issued s c k w r v) c k = { w with v := x, wrLog := g, p := p, fpstat := fp, run := some (stepped w r v) } := by
  obtain ⟨x, g, p, fp, hdue⟩ := drainTo_frame (issueCycle r v) w r
  exact ⟨x, g, p, fp, hdue, by rw [issued, getWarp_setWarp, due, hdue]⟩

/-- What the record says of a ready word's lane. -/
theorem issueRec_warpWord {s : State} {c k : Nat} {w : Warp} {r : ClauseRun} {v : WView} {va : W64} {f : AFault} {access l : Nat} {q : TrapRec}
    (hq : q = issueRec (issued s c k w r v) (warpWord c k w r v) va f access l) :
    q.lane = l ∧ q.kind = .lane ∧ q.unit = .warp c k ∧ q.cause = BitVec.ofNat 8 f.cause ∧ q.detail = detailOf f access ∧ q.addr = va ∧
      q.pc = r.pc.setWidth 64 ∧ q.wordv = v.word ∧ q.widx = r.idx ∧ q.world = w.world ∧ q.ctx = w.ctx ∧ q.wait = w.wctmax := by
  obtain ⟨x, g, p, fp, -, hwarp⟩ := getWarp_issued (s := s) (c := c) (k := k) (w := w) (r := r) (v := v)
  subst hq
  refine ⟨rfl, rfl, rfl, rfl, rfl, rfl, rfl, rfl, rfl, ?_⟩
  simp only [issueRec, laneRec, mkRec, warpWord, whoIs, unitWct, hwarp, and_self]

/-- Lanes that have left a ready word's warp, each with the record of its own fault, are detached. -/
theorem detached_of_lanesOff {s t : State} {c k access : Nat} {w : Warp} {r : ClauseRun} {v : WView} {m : Mask} {va : Nat → W64} {f : Nat → AFault}
    {cause : Nat → Byte} {detail : Nat → W32} (hm : m ≠ 0)
    (h : LanesOff (issued s c k w r v) t c k m ((lanesIn m).map fun l => issueRec (issued s c k w r v) (warpWord c k w r v) (va l) (f l) access l))
    (hcause : ∀ l, BitVec.ofNat 8 (f l).cause = cause l) (hdetail : ∀ l, detailOf (f l) access = detail l) :
    Detached s t c k w r v m cause detail va := by
  obtain ⟨x, g, p, fp, hdue, hissued⟩ := getWarp_issued (s := s) (c := c) (k := k) (w := w) (r := r) (v := v)
  have hwarp : getWarp t c k = without { w with v := x, wrLog := g, p := p, fpstat := fp, run := some (stepped w r v) } m := by
    rw [h.warp, if_neg hm, hissued]
  constructor
  case absent => rw [hwarp, without]
  case entries => rw [hwarp, without]
  case clause =>
    rw [hwarp]
    exact ⟨_, rfl, rfl, rfl, rfl, rfl⟩
  case regs =>
    rw [hwarp, hdue]
    exact ⟨rfl, rfl, rfl, rfl⟩
  case records =>
    refine ⟨_, h.records.trans (by rw [issued, setWarp, getCore_setCore]), ?_, ?_⟩
    · rw [List.map_map]
      exact (List.map_congr_left fun l _ => rfl).trans (List.map_id' _)
    · intro q hq
      obtain ⟨l, -, hl⟩ := List.mem_map.mp hq
      obtain ⟨hlane, hkind, hunit, hqcause, hqdetail, haddr, hfetched⟩ := issueRec_warpWord hl.symm
      rw [hlane]
      exact ⟨hkind, hunit, hqcause.trans (hcause l), hqdetail.trans (hdetail l), haddr, hfetched⟩
  case others => exact fun j hj => by rw [h.others j hj, issued, getWarp_setWarp_slot _ _ _ hj]
  case cores => exact fun d hd => by rw [h.cores d hd, issued, setWarp, getCore_setCore_other _ _ hd]
  case rest => rw [h.rest]; exact ⟨rfl, rfl, rfl, rfl, rfl, rfl, rfl, rfl, rfl, rfl⟩

/-! ### The faults of an address -/

/-- What an address that fails R164's checks raises: XLATE before ALIGN. -/
def addrFault (va : W64) : AFault := { cause := if 2 ^ 52 ≤ va.toNat then 5 else 7, reason := 0, level := 0, pte := 0, eaddr := 0 }

/-- The address fails R164's checks for the word. -/
def BadAddr (i : Instr) (va : W64) : Prop := 2 ^ 52 ≤ va.toNat ∨ va.toNat % accessBytes i ≠ 0

theorem fld_high_ne_zero (va : W64) : fld va 63 52 ≠ 0 ↔ 2 ^ 52 ≤ va.toNat := by
  simp only [fld]
  omega

theorem addrCheck_bad {i : Instr} {va : W64} (hi : isPref i = false) (h : BadAddr i va) : addrCheck i va (accessBytes i) = some (addrFault va) := by
  unfold addrCheck
  by_cases hhigh : 2 ^ 52 ≤ va.toNat
  · rw [if_pos ((fld_high_ne_zero va).mpr hhigh), addrFault, if_pos hhigh]
  · have halign := h.resolve_left hhigh
    rw [if_neg (fun hf => hhigh ((fld_high_ne_zero va).mp hf)), addrFault, if_neg hhigh]
    split
    · exact absurd hi Bool.true_eq_false.mp
    · exact if_pos halign

/-- Neither leaves a record in a fault ring (R88). -/
theorem issueRing_addrFault (s : State) (x : Issued) (i : Instr) (va : W64) (l : Nat) : issueRing s x i va (addrFault va) l = s := by
  unfold issueRing
  refine if_pos ?_
  by_cases hhigh : 2 ^ 52 ≤ va.toNat
  · simp [(fld_high_ne_zero va).mpr hhigh]
  · simp only [addrFault, if_neg hhigh]
    rfl

theorem cause_addrFault (va : W64) : BitVec.ofNat 8 (addrFault va).cause = if 2 ^ 52 ≤ va.toNat then 5 else 7 := by
  unfold addrFault
  split <;> rfl

theorem detailOf_addrFault (va : W64) (access : Nat) : detailOf (addrFault va) access = BitVec.ofNat 32 access := by
  unfold detailOf addrFault
  split <;> simp

/-! ### The lanes of a word taking their turns -/

/-- What the turn of lane `l` does when lanes have left before it: a lane that `bad` names leaves too, with the record `rec`; another adds its access. -/
structure TakesTurn (b : State) (c k : Nat) (turn : State × List LaneAcc × Mask → Nat → State × List LaneAcc × Mask) (bad : Nat → Bool) (rec : Nat → TrapRec)
    (va : Nat → W64) (l : Nat) : Prop where
  leaves : ∀ {t m qs} accs good, bad l = true → LanesOff b t c k m qs →
    ∃ t', turn (t, accs, good) l = (t', accs, good) ∧ LanesOff b t' c k (m ||| laneBit l) (qs ++ [rec l])
  joins : ∀ {t m qs} accs good, bad l = false → LanesOff b t c k m qs →
    ∃ t' a, turn (t, accs, good) l = (t', accs ++ [a], good ||| laneBit l) ∧ LanesOff b t' c k m qs ∧ Fresh a l (va l)

theorem foldl_turns {b : State} {c k : Nat} {turn : State × List LaneAcc × Mask → Nat → State × List LaneAcc × Mask} {bad : Nat → Bool} {rec : Nat → TrapRec}
    {va : Nat → W64} (ls : List Nat) : ∀ {t m qs} accs good, (∀ l ∈ ls, TakesTurn b c k turn bad rec va l) → LanesOff b t c k m qs →
    ∃ t' as, ls.foldl turn (t, accs, good) = (t', accs ++ as, withLanes good (ls.filter fun l => !bad l)) ∧
      LanesOff b t' c k (withLanes m (ls.filter bad)) (qs ++ (ls.filter bad).map rec) ∧
      List.Forall₂ (fun a q => Fresh a q.1 q.2) as ((ls.filter fun l => !bad l).map fun l => (l, va l)) := by
  induction ls with
  | nil =>
    intro t m qs accs good _ h
    exact ⟨t, [], by simp [withLanes], by simpa [withLanes] using h, .nil⟩
  | cons l ls ih =>
    intro t m qs accs good hturn h
    obtain ⟨hl, hls⟩ := List.forall_mem_cons.mp hturn
    cases hbad : bad l with
    | true =>
      obtain ⟨t₁, hstep, h₁⟩ := hl.leaves accs good hbad h
      obtain ⟨t', as, hfold, hoff, hall⟩ := ih accs good hls h₁
      refine ⟨t', as, ?_, ?_, ?_⟩
      · simpa [hstep, hbad] using hfold
      · simpa [hbad, withLanes] using hoff
      · simpa [hbad] using hall
    | false =>
      obtain ⟨t₁, a, hstep, h₁, hfresh⟩ := hl.joins accs good hbad h
      obtain ⟨t', as, hfold, hoff, hall⟩ := ih (accs ++ [a]) (good ||| laneBit l) hls h₁
      refine ⟨t', a :: as, ?_, ?_, ?_⟩
      · simpa [hstep, hbad, withLanes] using hfold
      · simpa [hbad] using hoff
      · rw [List.filter_cons_of_pos (by simp [hbad])]
        exact .cons hfresh hall

/-- The lanes of a mask that another has. -/
theorem filter_lanesIn {act m : Mask} (h : ∀ l < 32, m.getLsbD l = true → act.getLsbD l = true) : (lanesIn act).filter m.getLsbD = lanesIn m := by
  rw [lanesIn, lanesIn, List.filter_filter]
  refine List.filter_congr fun l hl => ?_
  have hsub := h l (List.mem_range.mp hl)
  cases hm : m.getLsbD l
  · rfl
  · rw [hsub hm]; rfl

/-- The lanes of a mask that another lacks. -/
theorem filter_not_lanesIn (act m : Mask) : (lanesIn act).filter (fun l => !m.getLsbD l) = lanesIn (act &&& ~~~m) := by
  rw [lanesIn, lanesIn, List.filter_filter]
  refine List.filter_congr fun l hl => ?_
  have hlt := List.mem_range.mp hl
  simp [hlt, Bool.and_comm]

/-- The active lanes of a word, those of `m` leaving and the others adding their accesses. -/
theorem foldl_turns_active {b : State} {c k : Nat} {turn : State × List LaneAcc × Mask → Nat → State × List LaneAcc × Mask} {act m : Mask} {rec : Nat → TrapRec}
    {va : Nat → W64} (hsub : ∀ l < 32, m.getLsbD l = true → act.getLsbD l = true)
    (hturn : ∀ l < 32, act.getLsbD l = true → TakesTurn b c k turn m.getLsbD rec va l) :
    ∃ t as, (lanesIn act).foldl turn (b, [], 0) = (t, as, act &&& ~~~m) ∧ LanesOff b t c k m ((lanesIn m).map rec) ∧
      as.map LaneAcc.lane = lanesIn (act &&& ~~~m) ∧ ∀ a ∈ as, a.va = va a.lane ∧ a.done = false := by
  obtain ⟨t, as, hfold, hoff, hall⟩ := foldl_turns (lanesIn act) [] 0 (fun l hl => hturn l (mem_lanesIn.mp hl).1 (mem_lanesIn.mp hl).2) (LanesOff.refl b c k)
  rw [filter_lanesIn hsub, withLanes_lanesIn, List.nil_append] at hoff
  rw [filter_not_lanesIn, withLanes_lanesIn, List.nil_append] at hfold
  rw [filter_not_lanesIn] at hall
  exact ⟨t, as, hfold, hoff, (map_lane_of_fresh hall).trans (by simp [Function.comp_def]), va_of_fresh hall (by simp)⟩

/-! ### Lanes with a bad address -/

/-- A lane of an accessing word in turn: it traps where its address fails R164's checks, and makes its access where that passes them. -/
theorem takesTurn_gather {b : State} {x : Issued} {i : Instr} {c k l : Nat} {m : Mask} {va : Nat → W64} (hu : x.u = .warp c k)
    (hsheaf : (getWarp b c k).sheaf = none) (hi : isPref i = false) (hl : l < 32) (hbad : m.getLsbD l = true → BadAddr i (va l))
    (hreach : m.getLsbD l = false → Reaches i b (.warp c k) (va l)) :
    TakesTurn b c k (fun p l => gather x i p (l, va l)) m.getLsbD (fun l => issueRec b x (va l) (addrFault (va l)) (accessCode i) l) va l where
  leaves {t m' qs} accs good hm h := by
    refine ⟨_, ?_, h.issueTrap hu hsheaf hl (va l) (addrFault (va l)) (accessCode i)⟩
    have hacc : laneAccess t x i l (va l) = (t, .inl (addrFault (va l))) := by rw [laneAccess, addrCheck_bad hi (hbad hm)]
    simp only [gather, hacc, issueRing_addrFault]
  joins {t m' qs} accs good hm h := by
    obtain ⟨n, a, hacc, hfresh⟩ := laneAccess_of_reaches (x := x) l hu (h.reaches (hreach hm))
    exact ⟨{ t with freeNo := n }, a, by simp only [gather, hacc], h.draw n, hfresh⟩

/-- A scalar unit whose address fails R164's checks traps at its word. -/
theorem issueAccess_scalar_bad {b : State} {x : Issued} {i : Instr} {va : W64} (hscalar : ∀ c k, x.u ≠ .warp c k) (hi : isPref i = false)
    (hva : va = (nth x.a 0).setWidth 64) (hbad : BadAddr i va) :
    issueAccess b x i (laneAddrs x) 0 = trapWord b x { faultInfo (addrFault va) (accessCode i) with addr := va } := by
  have hacc : scalarAccess b x i va = (b, .inl (addrFault va)) := by rw [scalarAccess, addrCheck_bad hi hbad]
  rw [laneAddrs_scalar hscalar, ← hva]
  cases hu : x.u with
  | warp c k => exact absurd hu (hscalar c k)
  | front c k => simp only [issueAccess, hu, hacc, issueRing_addrFault, issueTrap]
  | thread q => simp only [issueAccess, hu, hacc, issueRing_addrFault, issueTrap]

/-- A scalar unit's trap starts no operation. -/
theorem nextOp_trapWord_scalar (b : State) {x : Issued} (hscalar : ∀ c k, x.u ≠ .warp c k) (info : TrapInfo) : (trapWord b x info).nextOp = b.nextOp := by
  cases hu : x.u with
  | warp c k => exact absurd hu (hscalar c k)
  | front c k => simp [trapWord, trapUnit, takeTrap, hu]
  | thread q => simp [trapWord, trapUnit, takeTrap, hu]

section

variable {mk : Full → Instr} {op : Nat} {ok : State → Prop} {fin : Full → State → State → UnitId → State} (hword : AccessWord mk op ok fin)
include hword

/-- A ready word of which the lanes `m` have bad addresses: they leave, the others' accesses are gathered, and what the word does after that is done. -/
theorem AccessWord.exec_mixed {s : State} {c k : Nat} {w : Warp} {r : ClauseRun} {f : Full} {m : Mask} {va : Nat → W64}
    (hready : Ready s c k w r (viewFull op f .vector r)) (hsheaf : w.sheaf = none) (hi : isPref (mk f) = false)
    (hva : ∀ l, va l = BitVec.ofNat 64 (opA w r (viewFull op f .vector r) l))
    (hbad : ∀ l < 32, m.getLsbD l = true ↔ (active w r (viewFull op f .vector r)).getLsbD l = true ∧ BadAddr (mk f) (va l))
    (hreach : ∀ l < 32, (active w r (viewFull op f .vector r)).getLsbD l = true → m.getLsbD l = false → Reaches (mk f) s (.warp c k) (va l)) :
    ∃ b as, LanesOff (issued s c k w r (viewFull op f .vector r)) b c k m ((lanesIn m).map fun l =>
        issueRec (issued s c k w r (viewFull op f .vector r)) (warpWord c k w r (viewFull op f .vector r)) (va l) (addrFault (va l)) (accessCode (mk f)) l) ∧
      as.map LaneAcc.lane = lanesIn (active w r (viewFull op f .vector r) &&& ~~~m) ∧ (∀ a ∈ as, a.va = va a.lane ∧ a.done = false) ∧
      exec (mk f) s = .next (fin f (issued s c k w r (viewFull op f .vector r))
        (if active w r (viewFull op f .vector r) &&& ~~~m = 0 then b
          else newOp b (warpWord c k w r (viewFull op f .vector r)) (mk f) (active w r (viewFull op f .vector r) &&& ~~~m) as 0) (.warp c k)) := by
  obtain ⟨b, as, hfold, hoff, hlanes, haccs⟩ := foldl_turns_active (b := issued s c k w r (viewFull op f .vector r)) (va := va)
    (fun l hl hm => ((hbad l hl).mp hm).1) fun l hl hact => takesTurn_gather (x := warpWord c k w r (viewFull op f .vector r)) (i := mk f) rfl
      ((sheaf_issued s c k w r _).trans hsheaf) hi hl (fun hm => ((hbad l hl).mp hm).2) fun hm => reaches_issued hready.warp (hreach l hl hact hm)
  refine ⟨b, as, hoff, hlanes, haccs, ?_⟩
  have haddrs : laneAddrs (warpWord c k w r (viewFull op f .vector r)) = (lanesIn (active w r (viewFull op f .vector r))).map fun l => (l, va l) := by
    simp only [laneAddrs, warpWord, hva]
    rfl
  refine ((hword.exec_eq f s).trans (issue_of_ready hready _)).trans ?_
  rw [issueAccess_warp rfl, haddrs, List.foldl_map, hfold]
  rfl

/-- Where every active lane's address is bad, the lanes are detached and the word does nothing more. -/
theorem AccessWord.detaches {s : State} {c k : Nat} {w : Warp} {r : ClauseRun} {f : Full} {va : Nat → W64}
    (hready : Ready s c k w r (viewFull op f .vector r)) (hsheaf : w.sheaf = none) (hi : isPref (mk f) = false)
    (hva : ∀ l, va l = BitVec.ofNat 64 (opA w r (viewFull op f .vector r) l))
    (hbad : ∀ l < 32, (active w r (viewFull op f .vector r)).getLsbD l = true → BadAddr (mk f) (va l)) :
    ∃ t, exec (mk f) s = .next t ∧ Detached s t c k w r (viewFull op f .vector r) (active w r (viewFull op f .vector r))
      (fun l => if 2 ^ 52 ≤ (va l).toNat then 5 else 7) (fun _ => BitVec.ofNat 32 (accessCode (mk f))) va := by
  obtain ⟨b, as, hoff, -, -, hexec⟩ := hword.exec_mixed hready hsheaf hi hva (m := active w r (viewFull op f .vector r))
    (fun l hl => ⟨fun h => ⟨h, hbad l hl h⟩, And.left⟩) fun l _ hact hm => absurd (hact.symm.trans hm) Bool.noConfusion
  rw [BitVec.and_not_self, if_pos rfl, (hword.follows f).still _ (by rw [hoff.rest])] at hexec
  exact ⟨b, hexec, detached_of_lanesOff hready.lanes hoff (fun l => cause_addrFault (va l)) fun l => detailOf_addrFault (va l) _⟩

/-- Where only the lanes `m` have bad addresses they are detached, and the others' operation is launched without them. -/
theorem AccessWord.launches_without {s : State} {c k : Nat} {w : Warp} {r : ClauseRun} {f : Full} {m : Mask} {va : Nat → W64}
    (hok : ∀ b, OpsNumbered b → ok b) (hnum : OpsNumbered s)
    (hready : Ready s c k w r (viewFull op f .vector r)) (hsheaf : w.sheaf = none) (hi : isPref (mk f) = false)
    (hva : ∀ l, va l = BitVec.ofNat 64 (opA w r (viewFull op f .vector r) l))
    (hbad : ∀ l < 32, m.getLsbD l = true ↔ (active w r (viewFull op f .vector r)).getLsbD l = true ∧ BadAddr (mk f) (va l))
    (hreach : ∀ l < 32, (active w r (viewFull op f .vector r)).getLsbD l = true → m.getLsbD l = false → Reaches (mk f) s (.warp c k) (va l))
    (hrest : active w r (viewFull op f .vector r) &&& ~~~m ≠ 0) (hm : m ≠ 0) :
    ∃ b t, exec (mk f) s = .next t ∧ Detached s b c k w r (viewFull op f .vector r) m
      (fun l => if 2 ^ 52 ≤ (va l).toNat then 5 else 7) (fun _ => BitVec.ofNat 32 (accessCode (mk f))) va ∧
      Launched b t (.warp c k) (mk f) r (viewFull op f .vector r) (active w r (viewFull op f .vector r) &&& ~~~m)
        (active w r (viewFull op f .vector r) &&& ~~~m) va
        (supplied w r (viewFull op f .vector r) r.la (viewFull op f .vector r).a) (supplied w r (viewFull op f .vector r) r.lb (viewFull op f .vector r).b)
        (supplied w r (viewFull op f .vector r) r.lc (viewFull op f .vector r).c) := by
  obtain ⟨b, as, hoff, hlanes, haccs, hexec⟩ := hword.exec_mixed hready hsheaf hi hva hbad hreach
  rw [if_neg hrest] at hexec
  have hb : OpsNumbered b := by rw [hoff.rest]; exact hnum
  refine ⟨b, _, hexec, detached_of_lanesOff hm hoff (fun l => cause_addrFault (va l)) fun l => detailOf_addrFault (va l) _, ?_⟩
  exact (hword.follows f).launched (fun _ _ _ => hok b hb) (by rw [hoff.rest])
    (launched_newOp b (mk f) _ _ 0 (warpWord_carries c k w r _) hlanes haccs)

/-- A scalar unit whose address is bad stops at the word. -/
theorem AccessWord.stops {s : State} {u : UnitId} {r : ClauseRun} {f : Full} {va : W64} (hready : ScalarReady s u r (viewFull op f u.kind r))
    (hi : isPref (mk f) = false) (hva : va = BitVec.ofNat 64 (sopA s u (viewFull op f u.kind r))) (hbad : BadAddr (mk f) va) :
    ∃ t, exec (mk f) s = .next t ∧ StoppedScalar (scalarStep s u r) t u r (viewFull op f u.kind r) (if 2 ^ 52 ≤ va.toNat then 5 else 7)
      (BitVec.ofNat 32 (accessCode (mk f))) := by
  have hstop := stoppedScalar_trapWord (b := scalarStep s u r) hready.scalar rfl (scalarWord_carries s u r (viewFull op f u.kind r))
    { faultInfo (addrFault va) (accessCode (mk f)) with addr := va }
  refine ⟨_, (hword.exec_eq f s).trans (issue_of_scalarReady hready _), ?_⟩
  rw [issueAccess_scalar_bad hready.scalar hi hva hbad, (hword.follows f).still _ (nextOp_trapWord_scalar _ hready.scalar _), ← cause_addrFault,
    ← detailOf_addrFault va]
  exact hstop

end

/-- The words whose traps are stated each make an access for each lane. -/
theorem exists_accessWord {i : Instr} {op : Nat} {f : Full} (h : (i = Instr.ld f ∧ op = 0x58) ∨ (i = .st f ∧ op = 0x59) ∨ (i = .ldacq f ∧ op = 0x5E) ∨
    (i = .strel f ∧ op = 0x5F) ∨ (i = .atom f ∧ op = 0x60) ∨ (i = .cas f ∧ op = 0x62) ∨ (i = .ldd f ∧ op = 0x5C) ∨ (i = .std f ∧ op = 0x5D)) :
    ∃ mk ok fin, AccessWord mk op ok fin ∧ (∀ b, OpsNumbered b → ok b) ∧ i = mk f ∧ isPref i = false := by
  obtain ⟨rfl, rfl⟩ | ⟨rfl, rfl⟩ | ⟨rfl, rfl⟩ | ⟨rfl, rfl⟩ | ⟨rfl, rfl⟩ | ⟨rfl, rfl⟩ | ⟨rfl, rfl⟩ | ⟨rfl, rfl⟩ := h
  · exact ⟨_, _, _, accessWord_ld, fun _ _ => trivial, rfl, rfl⟩
  · exact ⟨_, _, _, accessWord_st, fun _ hb => hb, rfl, rfl⟩
  · exact ⟨_, _, _, accessWord_ldacq, fun _ _ => trivial, rfl, rfl⟩
  · exact ⟨_, _, _, accessWord_strel, fun _ _ => trivial, rfl, rfl⟩
  · exact ⟨_, _, _, accessWord_atom, fun _ _ => trivial, rfl, rfl⟩
  · exact ⟨_, _, _, accessWord_cas, fun _ _ => trivial, rfl, rfl⟩
  · exact ⟨_, _, _, accessWord_ldd, fun _ _ => trivial, rfl, rfl⟩
  · exact ⟨_, _, _, accessWord_std, fun _ _ => trivial, rfl, rfl⟩

/-- A mask with no lane outside another has its lanes at most. -/
theorem eq_of_and_not_eq_zero {act m : Mask} (hsub : ∀ l < 32, m.getLsbD l = true → act.getLsbD l = true) (h : act &&& ~~~m = 0) : m = act := by
  refine BitVec.eq_of_getLsbD_eq fun l hl => Bool.eq_iff_iff.mpr ⟨hsub l hl, fun hact => ?_⟩
  have hbit : (act &&& ~~~m).getLsbD l = false := by rw [h]; exact BitVec.getLsbD_zero
  simpa [hl, hact] using hbit

/-- Settles O31: the lanes with a bad address leave in turn, and what the word does after its accesses acts on those of the others. -/
theorem addressTraps : Obligations.AddressTraps := by
  unfold Obligations.AddressTraps
  intro i op f hi
  obtain ⟨mk, ok, fin, hword, hok, rfl, hpref⟩ := exists_accessWord hi
  dsimp only
  refine ⟨fun s c k w r m hready hsheaf hnum hbad hreach => ⟨fun hall => ?_, fun hne hm => ?_⟩, fun s u r hready hbad => ?_⟩
  · subst hall
    exact hword.detaches hready hsheaf hpref (fun _ => rfl) fun l hl hact => ((hbad l hl).mp hact).2
  · exact hword.launches_without hok hnum hready hsheaf hpref (fun _ => rfl) hbad hreach
      (fun hnone => hne (eq_of_and_not_eq_zero (fun l hl h => ((hbad l hl).mp h).1) hnone)) hm
  · exact hword.stops hready hpref rfl hbad

end Sys2Proof.Proofs
end

section
/-!
PROOFS. The stash words (spec/08 R157, R167, R171): their accesses at offsets of the team's grant, and the lanes whose offset is misaligned.
-/
namespace Sys2Proof.Proofs

open Sys2Proof.Machine Sys2Proof.Claims

/-! ### Accesses to the stash -/

/-- The offset that a lane of a stash word names. -/
def stashOff (x : Issued) (l : Nat) : Nat := (nth x.a l).toNat % 2 ^ 32

/-- What a misaligned lane of a stash word raises: ALIGN. -/
def alignFault : AFault := { cause := 7, reason := 0, level := 0, pte := 0, eaddr := 0 }

/-- The access of a lane whose offset lies in the grant. -/
def stashAcc (x : Issued) (l : Nat) : LaneAcc := { rawAcc l (BitVec.ofNat 64 (stashOff x l)) with pa := some (stashOff x l) }

/-- One lane's turn in the issue of a stash word in state `s`. -/
def stashTurn (s : State) (x : Issued) (i : Instr) (p : State × List LaneAcc × Mask) (l : Nat) : State × List LaneAcc × Mask :=
  if stashOff x l % accessBytes i ≠ 0 then (issueTrap p.1 x l (BitVec.ofNat 64 (stashOff x l)) alignFault (accessCode i), p.2.1, p.2.2)
  else if !inGrant s (whoIs s x.u).handle (stashOff x l) (accessBytes i) then
    (issueTrap p.1 x l (BitVec.ofNat 64 (stashOff x l)) { alignFault with cause := 6, reason := 9 } (accessCode i), p.2.1, p.2.2)
  else (p.1, p.2.1 ++ [stashAcc x l], p.2.2 ||| laneBit l)

theorem stashIssue_warp {s : State} {x : Issued} {i : Instr} (h : isSheaf s x.u = false) : stashIssue s x i =
    if ((lanesIn x.act).foldl (stashTurn s x i) (s, [], 0)).2.2 = 0 then ((lanesIn x.act).foldl (stashTurn s x i) (s, [], 0)).1
    else newOp ((lanesIn x.act).foldl (stashTurn s x i) (s, [], 0)).1 x i ((lanesIn x.act).foldl (stashTurn s x i) (s, [], 0)).2.2
      ((lanesIn x.act).foldl (stashTurn s x i) (s, [], 0)).2.1 0 :=
  if_neg (by simp [h])

/-- The offset is aligned and its bytes are the team's. -/
def Granted (s : State) (x : Issued) (i : Instr) (l : Nat) : Prop :=
  stashOff x l % accessBytes i = 0 ∧ inGrant s (whoIs s x.u).handle (stashOff x l) (accessBytes i) = true

/-- Lanes within the grant gather their accesses, in order. -/
theorem foldl_stashTurn_of_granted {s : State} {x : Issued} {i : Instr} (ls : List Nat) : ∀ t accs m, (∀ l ∈ ls, Granted s x i l) →
    ls.foldl (stashTurn s x i) (t, accs, m) = (t, accs ++ ls.map (stashAcc x), withLanes m ls) := by
  induction ls with
  | nil => exact fun t accs m _ => by simp [withLanes]
  | cons l ls ih =>
    intro t accs m h
    obtain ⟨⟨halign, hgrant⟩, hls⟩ := List.forall_mem_cons.mp h
    have hstep : stashTurn s x i (t, accs, m) l = (t, accs ++ [stashAcc x l], m ||| laneBit l) := by simp [stashTurn, halign, hgrant]
    rw [List.foldl_cons, hstep, ih t _ _ hls, List.append_assoc]
    rfl

/-- A stash word whose lanes are all within the grant launches one operation over them. -/
theorem launched_stashIssue {b : State} {x : Issued} {i : Instr} {r : ClauseRun} {v : WView} (hno : isSheaf b x.u = false) (hx : Carries x r v)
    (hact : x.act ≠ 0) (h : ∀ l < 32, x.act.getLsbD l = true → Granted b x i l) :
    Launched b (stashIssue b x i) x.u i r v x.act x.act (fun l => BitVec.ofNat 64 (stashOff x l)) x.a x.b x.c := by
  have hfold := foldl_stashTurn_of_granted (lanesIn x.act) b [] 0 fun l hl => h l (mem_lanesIn.mp hl).1 (mem_lanesIn.mp hl).2
  rw [withLanes_lanesIn, List.nil_append] at hfold
  rw [stashIssue_warp hno, hfold, if_neg hact]
  refine launched_newOp b i x.act x.act 0 hx ?_ ?_
  · rw [List.map_map]
    exact (List.map_congr_left fun l _ => rfl).trans (List.map_id' _)
  · rw [List.forall_mem_map]
    exact fun l _ => ⟨rfl, rfl⟩

/-- A misaligned lane of a stash word traps in its turn. -/
theorem takesTurn_stashTurn {b : State} {x : Issued} {i : Instr} {c k l : Nat} {m : Mask} (hu : x.u = .warp c k) (hsheaf : (getWarp b c k).sheaf = none)
    (hl : l < 32) (hm : m.getLsbD l = true) (hbad : stashOff x l % accessBytes i ≠ 0) :
    TakesTurn b c k (stashTurn b x i) m.getLsbD (fun l => issueRec b x (BitVec.ofNat 64 (stashOff x l)) alignFault (accessCode i) l)
      (fun l => BitVec.ofNat 64 (stashOff x l)) l where
  leaves _ _ _ h := ⟨_, if_pos hbad, h.issueTrap hu hsheaf hl _ alignFault (accessCode i)⟩
  joins _ _ hgood _ := absurd (hm.symm.trans hgood) Bool.noConfusion

/-- A stash word whose lanes are all misaligned only sends them off. -/
theorem lanesOff_stashIssue {b : State} {x : Issued} {i : Instr} {c k : Nat} (hu : x.u = .warp c k) (hsheaf : (getWarp b c k).sheaf = none)
    (hbad : ∀ l < 32, x.act.getLsbD l = true → stashOff x l % accessBytes i ≠ 0) :
    LanesOff b (stashIssue b x i) c k x.act
      ((lanesIn x.act).map fun l => issueRec b x (BitVec.ofNat 64 (stashOff x l)) alignFault (accessCode i) l) := by
  obtain ⟨t, as, hfold, hoff, -⟩ := foldl_turns_active (act := x.act) (m := x.act) (fun _ _ h => h) fun l hl hact =>
    takesTurn_stashTurn (i := i) hu hsheaf hl hact (hbad l hl hact)
  have hno : isSheaf b x.u = false := by rw [hu, isSheaf, hsheaf]; rfl
  rw [stashIssue_warp hno, hfold, BitVec.and_not_self, if_pos rfl]
  exact hoff

theorem inGrant_of_team {s : State} {handle off n : Nat} {t : Team} (h : findTeam s handle = some t) (hlo : t.stashBase ≤ off)
    (hhi : off + n ≤ t.stashBase + t.stashLen) : inGrant s handle off n = true := by
  simp [inGrant, grantOf, h, hlo, hhi]

/-- Settles O29: lanes within the grant gather their accesses for one operation; misaligned lanes leave in turn. -/
theorem stashWordsIssue : Obligations.StashWordsIssue := by
  unfold Obligations.StashWordsIssue
  intro i op f hi s c k w r hready
  have hexec : exec i s = .next (stashIssue (issued s c k w r (viewFull op f .vector r)) (warpWord c k w r (viewFull op f .vector r)) i) := by
    obtain ⟨rfl, rfl⟩ | ⟨rfl, rfl⟩ | ⟨rfl, rfl⟩ := hi <;> exact issue_of_ready hready _
  refine ⟨fun hno hgrant => ⟨_, hexec, ?_⟩, fun hno hbad => ⟨_, hexec, ?_⟩⟩
  · have hsingle : isSheaf (issued s c k w r (viewFull op f .vector r)) (.warp c k) = false := by rw [isSheaf_issued, hno]; rfl
    refine launched_stashIssue hsingle (warpWord_carries c k w r _) hready.lanes fun l hl hact => ?_
    obtain ⟨halign, t, -, hteam, hlo, hhi⟩ := hgrant l hl hact
    refine ⟨halign, inGrant_of_team (t := t) ?_ hlo hhi⟩
    rw [warpWord, whoIs_issued r _ hready.warp, whoIs, hready.warp]
    exact hteam
  · exact detached_of_lanesOff hready.lanes (lanesOff_stashIssue (x := warpWord c k w r _) rfl ((sheaf_issued s c k w r _).trans hno) hbad)
      (fun _ => rfl) fun _ => rfl

end Sys2Proof.Proofs
end

section
/-!
PROOFS. The budget check (spec/09 R182): every word's meaning is reached through its issue, and a warp that names a register outside its budget stops there with its
due results written. Settles BudgetTraps.
-/
namespace Sys2Proof.Proofs

open Sys2Proof.Machine Sys2Proof.Claims

/-- Whatever the word, what it does is what its meaning makes of an issue under its view; an event row has no view. -/
theorem exec_eq_issue {i : Instr} {r : ClauseRun} {v : WView} (h : viewOf i .vector r = some v) :
    ∃ view body, view .vector r = v ∧ ∀ s, exec i s = issue s view body := by
  cases i <;> cases h <;> exact ⟨_, _, rfl, fun _ => rfl⟩

/-- A word that its warp's issue has dealt with does nothing more. -/
theorem exec_of_prepWarp_done {i : Instr} {s t : State} {c k : Nat} {r : ClauseRun} {v : WView} (hview : viewOf i .vector r = some v)
    (hcur : s.cur = some (.warp c k)) (hrun : (getWarp s c k).run = some r) (hdone : prepWarp s c k r v = .done t) : exec i s = .next t := by
  obtain ⟨view, body, rfl, hexec⟩ := exec_eq_issue hview
  rw [hexec, issue, prep_warp view hcur hrun, hdone]

/-- The state in which a warp's due results have been written and its word has not issued. -/
def dueState (s : State) (c k : Nat) (w : Warp) (r : ClauseRun) (v : WView) : State :=
  setWarp s c k { (due w r v).1 with run := some (due w r v).2 }

/-- A legal word with an active lane that names a register outside the budget takes ILLSTATE. -/
theorem prepWarp_overBudget {s : State} {c k : Nat} {r : ClauseRun} {v : WView} (hlanes : active (getWarp s c k) r v ≠ 0) (hlegal : v.legal = true)
    (hover : ∃ g ∈ v.named, (getWarp s c k).budget ≤ g) :
    prepWarp s c k r v = .done (trapUnit (dueState s c k (getWarp s c k) r v) (.warp c k) r.pc r.hdr v.word r.idx v.didx
      (illstateOf (due (getWarp s c k) r v).1 v.word)) := by
  have hany : v.named.any (fun g => decide ((drainTo (r.cyc + bankCycles v.reads - 1) (getWarp s c k) r).1.budget ≤ g)) = true := by
    simpa using hover
  rw [active_eq] at hlanes
  simp only [due, issueCycle] at hlanes
  simp only [prepWarp, if_neg hlanes, hlegal, Bool.not_true, Bool.false_eq_true, if_false, hany, if_true]
  rfl

/-- Every result of the clause is written before the warp's state is seen again. -/
theorem drainAll_due (w : Warp) (r : ClauseRun) (v : WView) : ∃ q : ClauseRun, q.mask = r.mask ∧
    drainAll { (due w r v).1 with run := some (due w r v).2 } = { drained w r v with run := some q } :=
  ⟨(drainTo (drainBound (due w r v).2) (due w r v).1 (due w r v).2).2, rfl, by simp only [drainAll, drained, drainTo, drainFor_withRun]⟩

/-- A warp that traps at a word before it issues has stopped there. -/
theorem stopped_trapUnit_dueState {s : State} {c k : Nat} {w : Warp} {r : ClauseRun} {v : WView} (hmask : r.mask ≠ 0) (hidx : r.idx < 15)
    (hsheaf : w.sheaf = none) (i : TrapInfo) :
    Stopped s (trapUnit (dueState s c k w r v) (.warp c k) r.pc r.hdr v.word r.idx v.didx i) c k w r v i.cause i.detail := by
  obtain ⟨q, hqmask, hdrain⟩ := drainAll_due w r v
  obtain ⟨x, g, p, f, hframe⟩ := drained_frame w r v
  have hsingle : (drained w r v).sheaf = none := by rw [hframe]; exact hsheaf
  have htrap : trapUnit (dueState s c k w r v) (.warp c k) r.pc r.hdr v.word r.idx v.didx i =
      takeTrap (setWarp s c k { drained w r v with run := some q }) (.warp c k) r.pc r.hdr v.word r.idx v.didx i := by
    simp only [trapUnit, dueState, getWarp_setWarp, setWarp_setWarp, hdrain]
  rw [htrap, takeTrap_warp (q := q) (by rw [getWarp_setWarp]) (by rw [getWarp_setWarp]; exact hsingle) r.pc r.hdr v.word hidx, getWarp_setWarp,
    setWarp_setWarp, hqmask]
  constructor
  case run => rw [getWarp_bufferRec, getWarp_setWarp]
  case stopped => rw [getWarp_bufferRec, getWarp_setWarp]
  case entry =>
    rw [getWarp_bufferRec, getWarp_setWarp]
    exact addEntry_holds _ (e := { key := _, pc := r.pc, word := r.idx, mask := r.mask }) hmask
  case regs => rw [getWarp_bufferRec, getWarp_setWarp]; rfl
  case preds => rw [getWarp_bufferRec, getWarp_setWarp]; rfl
  case flags => rw [getWarp_bufferRec, getWarp_setWarp, hframe]
  case record =>
    refine ⟨_, by rw [trapBuf_bufferRec, setWarp, getCore_setCore], rfl, rfl, rfl, rfl, rfl, rfl, rfl, rfl, rfl, ?_, ?_⟩
    · simp only [mkRec, whoIs, getWarp_setWarp, hframe]
    · simp only [mkRec, whoIs, getWarp_setWarp, hframe]
  case others => exact fun j hj => by rw [getWarp_bufferRec, getWarp_setWarp_slot s c _ hj]
  case cores => exact fun d hd => by rw [bufferRec, getCore_setCore_other _ _ hd, setWarp, getCore_setCore_other _ _ hd]
  case rest => exact ⟨rfl, rfl, rfl, rfl, rfl, rfl, rfl, rfl, rfl, rfl⟩

/-- Settles O14: the issue traps with ILLSTATE, and writing the due results leaves the frontier, so the diverged lanes, as it was. -/
theorem budgetTraps : Obligations.BudgetTraps := by
  unfold Obligations.BudgetTraps
  rintro i s c k w r v hview hcur rfl hrun hidx hsheaf hlanes hlegal hover
  refine ⟨_, exec_of_prepWarp_done hview hcur hrun (prepWarp_overBudget hlanes hlegal hover), ?_⟩
  have hdetail : (illstateOf (due (getWarp s c k) r v).1 v.word).detail =
      if wholeWarp v.word = true then (getWarp s c k).frontier.foldl (fun m e => m ||| e.mask) 0 else 0 := by
    rw [illstateOf, divergedMask, due, drainTo_frontier]; rfl
  rw [← hdetail]
  exact stopped_trapUnit_dueState (mask_ne_zero_of_active hlanes) hidx hsheaf _

end Sys2Proof.Proofs
end

section
/-!
PROOFS. The write ports of an issue slot (spec/09 R188, R189): no result is written before its cycle, and of two due together for one bank the later-issued waits.
Settles ResultsWrittenWhenDue.
-/
namespace Sys2Proof.Proofs

open Sys2Proof.Machine Sys2Proof.Claims

/-- Results due together stand in issue order, whichever joined first. -/
theorem insertPend_pair {p q : Pend} (hseq : p.seq < q.seq) (hdue : q.due = p.due) : insertPend q [p] = [p, q] ∧ insertPend p [q] = [p, q] := by
  have hnot : ¬ q.seq < p.seq := by omega
  constructor
  · simp [insertPend, hdue, hnot]
  · simp [insertPend, hdue, hseq]

/-! ### One cycle -/

/-- Before its due cycle no result is written. -/
theorem drainCycle_of_early {c : Nat} {ps : List Pend} (used : List Nat) (w : Warp) (h : ∀ p ∈ ps, c < p.due) : drainCycle c used w ps = (w, ps) := by
  induction ps with
  | nil => rfl
  | cons p ps ih =>
    obtain ⟨hp, hps⟩ := List.forall_mem_cons.mp h
    have hearly : ¬ p.due ≤ c := by omega
    simp [drainCycle, hearly, ih hps]

/-- A due result alone is written. -/
theorem drainCycle_single {c : Nat} {p : Pend} (w : Warp) (h : p.due ≤ c) : drainCycle c [] w [p] = (applyPend w p, []) := by
  simp [drainCycle, h]

/-- Of two due results that need one bank, the first is written and the other waits. -/
theorem drainCycle_conflict {c : Nat} {p q : Pend} (w : Warp) (hp : p.due ≤ c) (hbank : ∃ b ∈ p.banks, b ∈ q.banks) :
    drainCycle c [] w [p, q] = (applyPend w p, [q]) := by
  obtain ⟨b, hbp, hbq⟩ := hbank
  have hfree : p.banks.all (fun b => !([] : List Nat).contains b) = true := by simp
  have hbusy : q.banks.all (fun b => !(p.banks ++ []).contains b) = false := by
    rw [List.all_eq_false]
    exact ⟨b, hbq, by simpa using hbp⟩
  rw [drainCycle, hfree, drainCycle, hbusy]
  simp [hp, drainCycle]

/-! ### Several cycles -/

@[simp] theorem drainFor_nil (n c : Nat) (w : Warp) : drainFor n c w [] = (w, []) := by
  cases n <;> rfl

/-- The cycles up to `d`, at which the first result falls due, pass without a write. -/
theorem drainFor_of_early {ps : List Pend} {d : Nat} (w : Warp) (m : Nat) (h : ∀ p ∈ ps, d ≤ p.due) :
    ∀ n c, c + n = d → drainFor (n + m) c w ps = drainFor m d w ps := by
  intro n
  induction n with
  | zero => rintro c rfl; rw [Nat.zero_add, Nat.add_zero]
  | succ n ih =>
    intro c hc
    have hearly : drainCycle c [] w ps = (w, ps) := drainCycle_of_early [] w fun p hp => by have := h p hp; omega
    rw [Nat.add_right_comm, drainFor, hearly, ih (c + 1) (by omega)]
    cases ps <;> simp

/-- Up to cycle `c`, where nothing has been due before cycle `d`: the ports' work from `d` on. -/
theorem drainTo_of_early {c d : Nat} {r : ClauseRun} (w : Warp) (h : ∀ p ∈ r.pend, d ≤ p.due) (hwritten : r.written ≤ d) (hd : d ≤ c + 1) :
    drainTo c w r = ((drainFor (c + 1 - d) d w r.pend).1, { r with pend := (drainFor (c + 1 - d) d w r.pend).2, written := c + 1 }) := by
  have hsplit : c + 1 - r.written = (d - r.written) + (c + 1 - d) := by omega
  have hmax : Nat.max r.written (c + 1) = c + 1 := Nat.max_eq_right (by omega)
  rw [drainTo, hsplit, drainFor_of_early w _ h _ _ (by omega), hmax]

/-- A due result alone is written in its first cycle. -/
theorem drainFor_single {p : Pend} {d : Nat} (w : Warp) (n : Nat) (h : p.due ≤ d) : drainFor (n + 1) d w [p] = (applyPend w p, []) := by
  simp [drainFor, drainCycle_single w h]

/-- Of two due results that need one bank, the first is written in the first cycle. -/
theorem drainFor_conflict {p q : Pend} {d : Nat} (w : Warp) (n : Nat) (hp : p.due ≤ d) (hbank : ∃ b ∈ p.banks, b ∈ q.banks) :
    drainFor (n + 1) d w [p, q] = drainFor n (d + 1) (applyPend w p) [q] := by
  simp [drainFor, drainCycle_conflict w hp hbank]

/-- Settles O16: the ports idle until the due cycle, write the first result in it, and the one that waits for its bank a cycle later. -/
theorem resultsWrittenWhenDue : Obligations.ResultsWrittenWhenDue := by
  unfold Obligations.ResultsWrittenWhenDue
  refine ⟨fun c w r p hpend hwritten hc => ?_, fun w r p q hseq hpend hwritten hdue hbank => ?_⟩
  · split
    · next hle =>
      obtain ⟨n, rfl⟩ := Nat.exists_eq_add_of_le hle
      have hcount : p.due + n + 1 - p.due = n + 1 := by omega
      rw [drainTo_of_early (d := p.due) w (by simp [hpend]) hwritten (by omega), hpend, hcount, drainFor_single w n (Nat.le_refl _)]
    · next hlt =>
      rw [drainTo_of_early (d := c + 1) w (by simp [hpend]; omega) hc (Nat.le_refl _), Nat.sub_self]
      rfl
  · have hpair : r.pend = [p, q] := hpend.elim (·.trans (insertPend_pair hseq hdue).1) (·.trans (insertPend_pair hseq hdue).2)
    have hearly : ∀ x ∈ r.pend, p.due ≤ x.due := by simp [hpair, hdue]
    have hone : p.due + 1 - p.due = 0 + 1 := by omega
    have htwo : p.due + 1 + 1 - p.due = 0 + 1 + 1 := by omega
    constructor
    · rw [drainTo_of_early w hearly hwritten (by omega), hpair, hone, drainFor_conflict w 0 (Nat.le_refl _) hbank]
      rfl
    · rw [drainTo_of_early w hearly hwritten (by omega), hpair, htwo, drainFor_conflict w 1 (Nat.le_refl _) hbank, drainFor_single _ 0 (by omega)]

end Sys2Proof.Proofs
end

section
/-!
PROOFS. What a result writes (spec/02 R28, R30, R33; spec/09 R181, R188; spec/11 R212): lanes of a vector register, the registers of a result, a predicate's lanes, s
registers. Settles ResultRegisters.
-/
namespace Sys2Proof.Proofs

open Sys2Proof.Machine Sys2Proof.Claims

/-! ### Lanes and masks -/

theorem getLsbD_lane (r : VReg) (l i : Nat) : (lane r l).getLsbD i = (decide (i < 32) && r.getLsbD (32 * l + i)) := by
  rw [lane, BitVec.getLsbD_extractLsb']

/-- A write of a lane changes that lane alone. -/
theorem lane_setLane (r : VReg) {l j : Nat} (v : W32) (hj : j < 32) : lane (setLane r l v) j = if j = l then v else lane r j := by
  refine BitVec.eq_of_getLsbD_eq fun i hi => ?_
  have hlow : 32 * j + i < 1024 := by omega
  simp only [getLsbD_lane, setLane, BitVec.getLsbD_or, BitVec.getLsbD_and, BitVec.getLsbD_not, BitVec.getLsbD_ofNat, Nat.testBit_mul_two_pow,
    Nat.testBit_two_pow_mul, Nat.testBit_two_pow_sub_one, BitVec.testBit_toNat, hi, hlow, decide_true, Bool.true_and]
  by_cases h : j = l
  · subst h; simp [hi]
  · rw [if_neg h, getLsbD_lane]
    by_cases hle : 32 * l ≤ 32 * j + i
    · have hge : 32 ≤ 32 * j + i - 32 * l := by omega
      simp [hi, hge]
    · simp [hi, hle]

theorem lane_foldl_setLane (f : Nat → W32) {l : Nat} (hl : l < 32) (ls : List Nat) : ∀ r : VReg,
    lane (ls.foldl (fun r j => setLane r j (f j)) r) l = if l ∈ ls then f l else lane r l := by
  induction ls with
  | nil => exact fun r => rfl
  | cons j ls ih =>
    intro r
    rw [List.foldl_cons, ih, lane_setLane r _ hl]
    by_cases hj : l = j
    · subst hj; simp
    · simp [hj]

/-- A blend writes the lanes of its mask. -/
theorem lane_blendReg (r : VReg) (m : Mask) (vals : List W128) (i : Nat) {l : Nat} (hl : l < 32) :
    lane (blendReg r m vals i) l = if m.getLsbD l = true then (nth vals l).extractLsb' (32 * i) 32 else lane r l := by
  rw [blendReg, lane_foldl_setLane (fun j => (nth vals j).extractLsb' (32 * i) 32) hl]
  simp only [mem_lanesIn, hl, true_and]

/-- The bits below `n` that a test names, as a number. -/
def bitsBelow (p : Nat → Bool) (n : Nat) : Nat := ((List.range n).filter p).foldl (fun a l => a + 2 ^ l) 0

theorem maskOf_eq_bitsBelow (p : Nat → Bool) : maskOf p = BitVec.ofNat 32 (bitsBelow p 32) := rfl

theorem bitsBelow_succ (p : Nat → Bool) (n : Nat) : bitsBelow p (n + 1) = 2 ^ n * (p n).toNat + bitsBelow p n := by
  rw [bitsBelow, List.range_succ, List.filter_append, List.foldl_append, ← bitsBelow]
  cases hp : p n with
  | false => simp [hp]
  | true => simp [hp, Nat.add_comm]

theorem bitsBelow_lt (p : Nat → Bool) (n : Nat) : bitsBelow p n < 2 ^ n := by
  induction n with
  | zero => exact Nat.one_pos
  | succ n ih =>
    have hbit : 2 ^ n * (p n).toNat ≤ 2 ^ n := by cases p n <;> simp
    rw [bitsBelow_succ]
    omega

theorem testBit_bitsBelow (p : Nat → Bool) (n : Nat) {j : Nat} (hj : j < n) : (bitsBelow p n).testBit j = p j := by
  induction n with
  | zero => exact absurd hj (Nat.not_lt_zero j)
  | succ n ih =>
    rw [bitsBelow_succ, Nat.testBit_two_pow_mul_add _ (bitsBelow_lt p n)]
    split
    · next hlt => exact ih hlt
    · next hge =>
      obtain rfl : j = n := by omega
      cases p j <;> simp

/-- A mask holds the lanes that its test names. -/
theorem getLsbD_maskOf (p : Nat → Bool) {l : Nat} (hl : l < 32) : (maskOf p).getLsbD l = p l := by
  rw [maskOf_eq_bitsBelow, BitVec.getLsbD_ofNat, testBit_bitsBelow p 32 hl]
  simp [hl]

/-! ### Registers -/

/-- `n` registers from `x`, each with its 32 bits of the values in the lanes of the mask. -/
def blendRun (regs : SMap VReg) (x : Nat) (m : Mask) (vals : List W128) (n : Nat) : SMap VReg :=
  (List.range n).foldl (fun v i => putC 0 v (x + i) (blendReg (look 0 v (x + i)) m vals i)) regs

theorem writeRegs_v {w : Warp} {m : Mask} (hm : m ≠ 0) (x n : Nat) (vals : List W128) (seq : Nat) :
    (writeRegs w x n m vals seq).v = blendRun w.v x m vals n := by
  rw [writeRegs, if_neg hm]
  rfl

theorem blendRun_succ (regs : SMap VReg) (x : Nat) (m : Mask) (vals : List W128) (n : Nat) : blendRun regs x m vals (n + 1) =
    putC 0 (blendRun regs x m vals n) (x + n) (blendReg (look 0 (blendRun regs x m vals n) (x + n)) m vals n) := by
  rw [blendRun, List.range_succ, List.foldl_append]
  rfl

section

variable {regs : SMap VReg} (hregs : rising 0 regs = true) (x : Nat) (m : Mask) (vals : List W128)
include hregs

theorem rising_blendRun (n : Nat) : rising 0 (blendRun regs x m vals n) = true := by
  induction n with
  | zero => exact hregs
  | succ n ih =>
    rw [blendRun_succ]
    exact rising_putC 0 _ ih

theorem look_blendRun (n g : Nat) :
    look 0 (blendRun regs x m vals n) g = if x ≤ g ∧ g < x + n then blendReg (look 0 regs g) m vals (g - x) else look 0 regs g := by
  induction n generalizing g with
  | zero => exact (if_neg (by omega)).symm
  | succ n ih =>
    rw [blendRun_succ, look_putC 0 _ g _ (rising_blendRun hregs x m vals n)]
    by_cases hg : g = x + n
    · subst hg
      rw [if_pos rfl, ih, if_neg (by omega), if_pos (by omega), Nat.add_sub_cancel_left]
    · have hiff : (x ≤ g ∧ g < x + n) ↔ (x ≤ g ∧ g < x + (n + 1)) := by omega
      rw [if_neg hg, ih]
      simp only [hiff]

end

/-- A write of `n` registers from `x` changes them in the lanes of its mask alone. -/
theorem lane_writeRegs {w : Warp} (hw : rising 0 w.v = true) (x n : Nat) (m : Mask) (vals : List W128) (seq g : Nat) {l : Nat} (hl : l < 32) :
    lane (look 0 (writeRegs w x n m vals seq).v g) l =
      if x ≤ g ∧ g < x + n ∧ m.getLsbD l = true then (nth vals l).extractLsb' (32 * (g - x)) 32 else lane (look 0 w.v g) l := by
  by_cases hm : m = 0
  · subst hm; simp [writeRegs]
  · rw [writeRegs_v hm, look_blendRun hw x m vals n g]
    by_cases hg : x ≤ g ∧ g < x + n
    · rw [if_pos hg, lane_blendReg _ _ _ _ hl]
      simp only [hg, true_and]
    · rw [if_neg hg, if_neg fun h => hg ⟨h.1, h.2.1⟩]

theorem applyPend_reg {p : Pend} {x n : Nat} (w : Warp) (h : p.dst = .reg x n) :
    applyPend w p = { writeRegs w x n p.lanes p.vals p.seq with fpstat := (writeRegs w x n p.lanes p.vals p.seq).fpstat ||| p.flags } := by
  rw [applyPend, h]

/-! ### Predicates -/

theorem applyPend_pred {p : Pend} {q : Nat} (w : Warp) (h : p.dst = .pred q) : applyPend w p =
    { writePred w q p.lanes (maskOf fun l => nth p.vals l != 0) with
      fpstat := (writePred w q p.lanes (maskOf fun l => nth p.vals l != 0)).fpstat ||| p.flags } := by
  rw [applyPend, h]

/-- A write of a predicate, p7 apart, changes it in the lanes of its mask alone. -/
theorem getLsbD_readPred_writePred {w : Warp} (hw : rising 0 w.p = true) {q : Nat} (hq : q ≠ 7) (m bits : Mask) (j : Nat) {l : Nat} (hl : l < 32) :
    (readPred (writePred w q m bits) j).getLsbD l = if j = q ∧ m.getLsbD l = true then bits.getLsbD l else (readPred w j).getLsbD l := by
  rw [writePred, if_neg hq]
  by_cases hj : j = q
  · subst hj
    simp only [readPred, if_neg hq, look_putC 0 _ _ _ hw, true_and, if_true, BitVec.getLsbD_or, BitVec.getLsbD_and, BitVec.getLsbD_not, hl, decide_true]
    cases m.getLsbD l <;> simp
  · rw [if_neg fun h => hj h.1]
    simp only [readPred, look_putC 0 _ _ _ hw, if_neg hj]

/-! ### Scalar registers -/

/-- The s registers of a scalar unit are written apart from the rest of the machine. -/
theorem setScalarRegs_frame (s : State) {u : UnitId} (m : SMap W64) (hu : u.kind ≠ .vector) :
    scalarRegs (setScalarRegs s u m) u = m ∧ getRun (setScalarRegs s u m) u = getRun s u ∧ unitFlags (setScalarRegs s u m) u = unitFlags s u ∧
    unitStack (setScalarRegs s u m) u = unitStack s u ∧ (setScalarRegs s u m).mem = s.mem ∧ (setScalarRegs s u m).regs = s.regs := by
  cases u with
  | warp c k => exact absurd rfl hu
  | front c k => simp [setScalarRegs, scalarRegs, getRun, unitFlags, unitStack]
  | thread q => simp [setScalarRegs, scalarRegs, getRun, unitFlags, unitStack]

/-- The registers of a scalar result: one, or two for one of 128 bits. -/
theorem look_scalarRegs_writeScalar {s : State} {u : UnitId} (hu : u.kind ≠ .vector) (hs : rising 0 (scalarRegs s u) = true) (n : Nat) {x : Nat}
    (hx : x < 64) (v : W128) (g : Nat) : look 0 (scalarRegs (writeScalar s u n x v) u) g =
      if g = x then v.setWidth 64 else if n = 4 ∧ g = x + 1 then v.extractLsb' 64 64 else look 0 (scalarRegs s u) g := by
  have hin : ¬ 64 ≤ x := by omega
  rw [writeScalar, if_neg hin, (setScalarRegs_frame s _ hu).1]
  by_cases hn : n = 4
  · rw [if_pos hn, look_putC 0 _ g _ (rising_putC 0 _ hs), look_putC 0 _ g _ hs]
    by_cases hg : g = x
    · subst hg; simp
    · simp [hn, hg]
  · rw [if_neg hn, look_putC 0 _ g _ hs, if_neg fun h : n = 4 ∧ g = x + 1 => hn h.1]

/-- Settles O17: each place of a result by the lemma of its write; a result that is discarded leaves its flags. -/
theorem resultRegisters : Obligations.ResultRegisters := by
  unfold Obligations.ResultRegisters
  refine ⟨fun w p x n g l hw hdst hl => ?_, fun w p x n hdst => ?_, fun w p q l hw hdst hq hl => ?_, fun w p hdst => ?_, fun s u n x v hu hs hx => ?_⟩
  · rw [applyPend_reg w hdst]
    exact lane_writeRegs hw x n p.lanes p.vals p.seq g hl
  · obtain ⟨v, log, hwrite⟩ := writeRegs_frame w x n p.lanes p.vals p.seq
    rw [applyPend_reg w hdst, hwrite]
    exact ⟨rfl, rfl, rfl, rfl⟩
  · obtain ⟨preds, hwrite⟩ := writePred_frame w q p.lanes (maskOf fun l => nth p.vals l != 0)
    rw [applyPend_pred w hdst]
    refine ⟨by rw [hwrite], fun j => ?_⟩
    rw [← getLsbD_maskOf (fun l => nth p.vals l != 0) hl]
    exact getLsbD_readPred_writePred hw hq p.lanes _ j hl
  · obtain hseven | hdiscard := hdst
    · rw [applyPend_pred w hseven, writePred_seven]
    · rw [applyPend, hdiscard]
  · refine ⟨fun g => look_scalarRegs_writeScalar hu hs n hx v g, ?_⟩
    rw [writeScalar, if_neg (by omega)]
    exact (setScalarRegs_frame s _ hu).2

end Sys2Proof.Proofs
end

section
/-!
PROOFS. The four floating formats (spec/10 R194, R200): the fields of a finite value's bits, and the real number that an operand is read as.
-/
namespace Sys2Proof.Proofs

open Sys2Proof.Machine Sys2Proof.Claims

/-! ### The formats -/

/-- What R194's four formats share: a sign above the exponent above a fraction, a bias that is half of the exponents that finite values have, and a range far inside
2^±8000. -/
structure Ieee (g : Fmt) : Prop where
  width : g.w = 1 + g.eb + g.fb
  frac : 1 ≤ g.fb
  bias : 1 ≤ g.bias
  expo : 2 ^ g.eb = 2 * g.bias + 2
  small : g.bias + g.fb < 2000

theorem ieee_of_mem : ∀ g ∈ [f16, bf16, f32, f64], Ieee g := by
  have h : ∀ g ∈ [f16, bf16, f32, f64], g.w = 1 + g.eb + g.fb ∧ 1 ≤ g.fb ∧ 1 ≤ g.bias ∧ 2 ^ g.eb = 2 * g.bias + 2 ∧
      g.bias + g.fb < 2000 := by decide
  intro g hg
  obtain ⟨hwidth, hfrac, hbias, hexpo, hsmall⟩ := h g hg
  exact ⟨hwidth, hfrac, hbias, hexpo, hsmall⟩

theorem fmtOf_mem {t : Nat} (hlo : 8 ≤ t) (hhi : t < 12) : fmtOf t ∈ [f16, bf16, f32, f64] := by
  interval_cases t <;> decide

theorem Ieee.fraction_even {g : Fmt} (hg : Ieee g) : 2 ^ g.fb % 2 = 0 := by
  rw [← Nat.dvd_iff_mod_eq_zero]
  exact dvd_pow_self 2 (Nat.one_le_iff_ne_zero.1 hg.frac)

/-- The factor of a sign. -/
def sgn (neg : Bool) : ℝ := if neg then -1 else 1

@[simp] theorem sgn_true : sgn true = -1 := rfl
@[simp] theorem sgn_false : sgn false = 1 := rfl
@[simp] theorem abs_sgn (neg : Bool) : |sgn neg| = 1 := by cases neg <;> simp
theorem sgn_not (neg : Bool) : sgn (!neg) = -sgn neg := by cases neg <;> simp
theorem sgn_bne (a b : Bool) : sgn (a != b) = sgn a * sgn b := by cases a <;> cases b <;> simp

theorem realOf_fin {neg : Bool} {m : Nat} {e : ℤ} {x : ℝ} : RealOf (.fin neg m e) x ↔ x = sgn neg * m * (2 : ℝ) ^ e := by
  constructor
  · rintro ⟨n, k, i, hfin, hx⟩
    cases hfin
    exact hx
  · exact fun hx => ⟨neg, m, e, rfl, hx⟩

theorem abs_sgn_mul (neg : Bool) (m : Nat) (e : ℤ) : |sgn neg * m * (2 : ℝ) ^ e| = m * (2 : ℝ) ^ e := by
  rw [abs_mul, abs_mul, abs_sgn, one_mul, Nat.abs_cast, abs_of_pos (by positivity)]

/-! ### The fields of bits -/

section
variable {g : Fmt} (hg : Ieee g)
include hg

theorem fraction_fields (neg : Bool) (E : Nat) {F : Nat} (hF : F < 2 ^ g.fb) : (signBit g neg + E * 2 ^ g.fb + F) % 2 ^ g.fb = F := by
  have hsign : 2 ^ g.fb ∣ signBit g neg := by
    rw [signBit]
    split
    · exact Nat.pow_dvd_pow 2 (by have := hg.width; omega)
    · exact dvd_zero _
  obtain ⟨c, hc⟩ := hsign
  rw [hc, show 2 ^ g.fb * c + E * 2 ^ g.fb + F = F + 2 ^ g.fb * (c + E) by ring, Nat.add_mul_mod_self_left, Nat.mod_eq_of_lt hF]

theorem signBit_eq (neg : Bool) : signBit g neg = neg.toNat * 2 ^ g.eb * 2 ^ g.fb := by
  have hw : g.w - 1 = g.eb + g.fb := by have := hg.width; omega
  cases neg <;> simp [signBit, hw, pow_add]

theorem upper_fields (neg : Bool) (E : Nat) {F : Nat} (hF : F < 2 ^ g.fb) :
    (signBit g neg + E * 2 ^ g.fb + F) / 2 ^ g.fb = neg.toNat * 2 ^ g.eb + E := by
  rw [signBit_eq hg, ← add_mul, Nat.add_comm _ F, Nat.add_mul_div_right _ _ (by positivity), Nat.div_eq_of_lt hF, Nat.zero_add]

theorem sign_fields (neg : Bool) {E F : Nat} (hE : E < 2 ^ g.eb) (hF : F < 2 ^ g.fb) :
    (signBit g neg + E * 2 ^ g.fb + F) / 2 ^ (g.w - 1) = neg.toNat := by
  have hw : g.w - 1 = g.fb + g.eb := by have := hg.width; omega
  rw [hw, pow_add, ← Nat.div_div_eq_div_mul, upper_fields hg neg E hF, Nat.add_comm, Nat.add_mul_div_right _ _ (by positivity),
    Nat.div_eq_of_lt hE, Nat.zero_add]

/-- The bits of a finite value, and of no infinity or NaN, read back (R194). -/
theorem fdec_fields (neg : Bool) {E F : Nat} (hE : E ≤ 2 * g.bias) (hF : F < 2 ^ g.fb) : fdec g (signBit g neg + E * 2 ^ g.fb + F) =
    if E = 0 then .fin neg F (1 - (g.bias : ℤ) - g.fb) else .fin neg (2 ^ g.fb + F) ((E : ℤ) - g.bias - g.fb) := by
  have hexpo := hg.expo
  have hEmod : (neg.toNat * 2 ^ g.eb + E) % 2 ^ g.eb = E := by
    rw [Nat.add_comm, Nat.add_mul_mod_self_right, Nat.mod_eq_of_lt (by omega)]
  have hsign : decide (neg.toNat % 2 = 1) = neg := by cases neg <;> rfl
  have hfin : E ≠ 2 ^ g.eb - 1 := by omega
  simp only [fdec, fraction_fields hg neg E hF, upper_fields hg neg E hF, sign_fields hg neg (show E < 2 ^ g.eb by omega) hF, hEmod, hsign,
    if_neg hfin]

theorem fields_lt (neg : Bool) {E F : Nat} (hE : E < 2 ^ g.eb) (hF : F < 2 ^ g.fb) : signBit g neg + E * 2 ^ g.fb + F < 2 ^ g.w := by
  have hw : g.w = 1 + (g.w - 1) := by have := hg.width; omega
  rw [hw, pow_add, ← Nat.div_lt_iff_lt_mul (by positivity), sign_fields hg neg hE hF]
  cases neg <;> decide

theorem sign_le_fields (neg : Bool) {E F : Nat} (hE : E < 2 ^ g.eb) (hF : F < 2 ^ g.fb) :
    2 ^ (g.w - 1) ≤ signBit g neg + E * 2 ^ g.fb + F ↔ neg = true := by
  rw [← Nat.one_mul (2 ^ (g.w - 1)), ← Nat.le_div_iff_mul_le (by positivity), sign_fields hg neg hE hF]
  cases neg <;> decide

theorem fields_mod_two (neg : Bool) (E F : Nat) : (signBit g neg + E * 2 ^ g.fb + F) % 2 = F % 2 := by
  obtain ⟨k, hk⟩ : ∃ k, g.fb = k + 1 := ⟨g.fb - 1, by have := hg.frac; omega⟩
  rw [signBit_eq hg, ← add_mul, hk, pow_succ, ← mul_assoc]
  omega

end

/-! ### What bits decode to -/

/-- The exponent field of bits. -/
def expField (g : Fmt) (a : Nat) : Nat := a / 2 ^ g.fb % 2 ^ g.eb

/-- Of finite bits: a subnormal has the least exponent, a normal value its leading one besides the fraction. -/
theorem fdec_fin_cases {g : Fmt} {a m : Nat} {neg : Bool} {e : ℤ} (h : fdec g a = .fin neg m e) :
    neg = decide (a / 2 ^ (g.w - 1) % 2 = 1) ∧
    ((expField g a = 0 ∧ m < 2 ^ g.fb ∧ e = 1 - (g.bias : ℤ) - g.fb) ∨
      (expField g a ≠ 0 ∧ 2 ^ g.fb ≤ m ∧ m < 2 ^ (g.fb + 1) ∧ 1 - (g.bias : ℤ) - g.fb ≤ e)) := by
  have hF : a % 2 ^ g.fb < 2 ^ g.fb := Nat.mod_lt _ (by positivity)
  simp only [fdec] at h
  split at h
  · split at h <;> cases h
  split at h
  · rename_i hzero
    cases h
    exact ⟨rfl, .inl ⟨hzero, hF, rfl⟩⟩
  · rename_i hzero
    cases h
    refine ⟨rfl, .inr ⟨hzero, by omega, by rw [pow_succ]; omega, ?_⟩⟩
    have : 1 ≤ a / 2 ^ g.fb % 2 ^ g.eb := Nat.one_le_iff_ne_zero.2 hzero
    omega

theorem fdec_fin_lt {g : Fmt} {a m : Nat} {neg : Bool} {e : ℤ} (h : fdec g a = .fin neg m e) : m < 2 ^ (g.fb + 1) := by
  obtain ⟨-, ⟨-, hm, -⟩ | ⟨-, -, hm, -⟩⟩ := fdec_fin_cases h
  · exact hm.trans (Nat.pow_lt_pow_succ (by decide))
  · exact hm

theorem fdec_fin_le {g : Fmt} {a m : Nat} {neg : Bool} {e : ℤ} (h : fdec g a = .fin neg m e) : 1 - (g.bias : ℤ) - g.fb ≤ e := by
  obtain ⟨-, ⟨-, -, he⟩ | ⟨-, -, -, he⟩⟩ := fdec_fin_cases h
  · exact he.ge
  · exact he

theorem two_pow_mul_zpow (k : Nat) (e : ℤ) : ((2 ^ k : Nat) : ℝ) * (2 : ℝ) ^ e = (2 : ℝ) ^ (k + e) := by
  rw [Nat.cast_pow, Nat.cast_ofNat, ← zpow_natCast, ← zpow_add₀ two_ne_zero]

/-- A magnitude in units of a lower exponent. -/
theorem cast_shift (m : Nat) {e i : ℤ} (h : i ≤ e) : ((m * 2 ^ (e - i).toNat : Nat) : ℝ) * (2 : ℝ) ^ i = m * (2 : ℝ) ^ e := by
  rw [Nat.cast_mul, mul_assoc, two_pow_mul_zpow]
  congr 2; omega

/-- A finite value is below the least normal one where its exponent field is zero. -/
theorem abs_lt_leastNormal_iff {g : Fmt} {a m : Nat} {neg : Bool} {e : ℤ} (h : fdec g a = .fin neg m e) :
    |sgn neg * m * (2 : ℝ) ^ e| < leastNormal g ↔ expField g a = 0 := by
  have hleast : leastNormal g = ((2 ^ g.fb : Nat) : ℝ) * (2 : ℝ) ^ (1 - (g.bias : ℤ) - g.fb) := by
    rw [two_pow_mul_zpow, leastNormal]; congr 1; omega
  rw [abs_sgn_mul, hleast]
  obtain ⟨-, ⟨hzero, hm, rfl⟩ | ⟨hne, hm, -, he⟩⟩ := fdec_fin_cases h
  · exact iff_of_true (mul_lt_mul_of_pos_right (by exact_mod_cast hm) (by positivity)) hzero
  · refine iff_of_false (not_lt.2 ?_) hne
    exact mul_le_mul (by exact_mod_cast hm) (zpow_le_zpow_right₀ one_le_two he) (by positivity) (by positivity)

section
variable {g : Fmt} (hg : Ieee g)
include hg

theorem expField_mod (a : Nat) : expField g (a % 2 ^ g.w) = expField g a := by
  have hw : g.w = g.fb + (g.eb + 1) := by have := hg.width; omega
  rw [expField, expField, hw, pow_add, Nat.mod_mul_right_div_self, pow_succ, Nat.mod_mul_right_mod]

theorem signField_mod (a : Nat) : a % 2 ^ g.w / 2 ^ (g.w - 1) % 2 = a / 2 ^ (g.w - 1) % 2 := by
  have hw : g.w = (g.w - 1) + 1 := by have := hg.width; omega
  conv_lhs => rw [show 2 ^ g.w = 2 ^ (g.w - 1) * 2 by rw [← pow_succ, ← hw]]
  rw [Nat.mod_mul_right_div_self, Nat.mod_mod]

/-- The bits above a format's width are ignored (R195). -/
theorem fdec_mod (a : Nat) : fdec g (a % 2 ^ g.w) = fdec g a := by
  have hfrac : a % 2 ^ g.w % 2 ^ g.fb = a % 2 ^ g.fb := Nat.mod_mod_of_dvd _ (Nat.pow_dvd_pow 2 (by have := hg.width; omega))
  have hexp : a % 2 ^ g.w / 2 ^ g.fb % 2 ^ g.eb = a / 2 ^ g.fb % 2 ^ g.eb := expField_mod hg a
  simp only [fdec, hfrac, hexp, signField_mod hg a]

theorem fdec_zeroBits (neg : Bool) : fdec g (zeroBits g neg) = .fin neg 0 (1 - (g.bias : ℤ) - g.fb) := by
  have h := fdec_fields hg neg (Nat.zero_le (2 * g.bias)) (F := 0) (by positivity)
  simpa [zeroBits] using h

/-- What FTZ leaves of an operand. -/
theorem ftzIn_eq (on : Bool) (a : Nat) : ftzIn g on a =
    if on = true ∧ expField g a = 0 then zeroBits g (a / 2 ^ (g.w - 1) % 2 = 1) else a % 2 ^ g.w := by
  have hexp : a % 2 ^ g.w / 2 ^ g.fb % 2 ^ g.eb = expField g a := expField_mod hg a
  simp only [ftzIn, hexp, signField_mod hg a, Bool.and_eq_true, decide_eq_true_eq]

/-- The value that an operation works on is the real number that its operand is read as (R200). -/
theorem realOf_ftzIn {ftz : Bool} {a : Nat} {x : ℝ} (h : Reads g ftz a x) : RealOf (fdec g (ftzIn g ftz a)) x := by
  obtain ⟨y, ⟨neg, m, e, hdec, hy⟩, hflush, hkeep⟩ := h
  have hsub : |y| < leastNormal g ↔ expField g a = 0 := hy ▸ abs_lt_leastNormal_iff hdec
  rw [hsub] at hflush hkeep
  rw [ftzIn_eq hg]
  split
  · rename_i hon
    rw [fdec_zeroBits hg, realOf_fin, hflush hon]
    simp
  · rename_i hoff
    rw [fdec_mod hg, hdec, realOf_fin, hkeep hoff, hy]
    rfl

end

end Sys2Proof.Proofs
end

section
/-!
PROOFS. Rounding a real number to a multiple of a power of two (spec/10 R199): what `roundAt` gives, and that no value of a format stands nearer.
-/
namespace Sys2Proof.Proofs

open Sys2Proof.Machine Sys2Proof.Claims

/-! ### Rounding to a natural number -/

/-- The mode that rounds the magnitude of a number of a sign as `rm` rounds the number: RU and RD change places below zero. -/
def magMode (rm : Nat) (neg : Bool) : Nat := if neg then (if rm = 2 then 3 else if rm = 3 then 2 else rm) else rm

/-- `n` is what mode `rm` rounds `t`, not negative, to. -/
def RoundsNat (rm : Nat) (t : ℝ) (n : Nat) : Prop :=
  (rm = 0 → |t - n| ≤ 1 / 2 ∧ (|t - n| = 1 / 2 → n % 2 = 0)) ∧
  (rm = 1 ∨ rm = 3 → (n : ℝ) ≤ t ∧ t < n + 1) ∧
  (rm = 2 → t ≤ n ∧ (n : ℝ) < t + 1)

theorem roundsNat_self (rm n : Nat) : RoundsNat rm n n := by
  refine ⟨fun _ => ?_, fun _ => ?_, fun _ => ?_⟩ <;> norm_num

/-- Rounding stays between naturals. -/
theorem RoundsNat.mem_Icc {rm n a b : Nat} {t : ℝ} (h : RoundsNat rm t n) (hrm : rm < 4) (ha : (a : ℝ) ≤ t) (hb : t < b) : a ≤ n ∧ n ≤ b := by
  obtain ⟨hnear, hdown, hup⟩ := h
  have hreal : (a : ℝ) < n + 1 ∧ (n : ℝ) < b + 1 := by
    obtain rfl | rfl | rfl | rfl : rm = 0 ∨ rm = 1 ∨ rm = 2 ∨ rm = 3 := by omega
    · have := abs_le.1 (hnear rfl).1
      constructor <;> linarith
    · have := hdown (.inl rfl)
      constructor <;> linarith
    · have := hup rfl
      constructor <;> linarith
    · have := hdown (.inr rfl)
      constructor <;> linarith
  have hnat : a < n + 1 ∧ n < b + 1 := by exact_mod_cast hreal
  omega

/-- Whether the part `c` above `n` rounds up. -/
theorem roundsNat_of_up {rm n : Nat} {c : ℝ} {up : Bool} (h0 : 0 ≤ c) (h1 : c < 1)
    (hnear : rm = 0 → (up = true → 1 / 2 ≤ c ∧ (c = 1 / 2 → n % 2 = 1)) ∧ (up = false → c ≤ 1 / 2 ∧ (c = 1 / 2 → n % 2 = 0)))
    (hdown : rm = 1 ∨ rm = 3 → up = false) (hup : rm = 2 → (up = true ↔ c ≠ 0)) :
    RoundsNat rm (n + c) (if up then n + 1 else n) := by
  cases up with
  | true =>
    have habs : |(n + c : ℝ) - ((n + 1 : Nat) : ℝ)| = 1 - c := by
      rw [abs_sub_comm, abs_of_nonneg] <;> push_cast <;> linarith
    refine ⟨fun hrm => ?_, fun hrm => absurd (hdown hrm) (by decide), fun hrm => ?_⟩
    · obtain ⟨hle, hodd⟩ := (hnear hrm).1 rfl
      rw [if_pos rfl, habs]
      exact ⟨by linarith, fun h => by have := hodd (by linarith); omega⟩
    · have hpos : 0 < c := lt_of_le_of_ne h0 (Ne.symm ((hup hrm).1 rfl))
      rw [if_pos rfl]
      push_cast
      constructor <;> linarith
  | false =>
    have habs : |(n + c : ℝ) - n| = c := by rw [add_sub_cancel_left, abs_of_nonneg h0]
    refine ⟨fun hrm => ?_, fun _ => ⟨by simpa, by simpa⟩, fun hrm => ?_⟩
    · rw [if_neg (by decide), habs]
      exact (hnear hrm).2 rfl
    · have hzero : c = 0 := by_contra fun h => absurd ((hup hrm).2 h) (by decide)
      rw [if_neg (by decide), hzero]
      norm_num

/-! ### `roundAt` -/

/-- Whether `n` rounds up when `rem` of twice `half` units are cut off, with `st` something below a unit besides. -/
def cutUp (mode n rem half : Nat) (st : Bool) : Bool :=
  if mode = 0 then decide (half < rem) || (rem = half && (st || n % 2 = 1)) else mode = 2 && (st || rem != 0)

theorem roundAt_of_lt {rm : Nat} (hrm : rm < 4) (neg st : Bool) (m k : Nat) (e : ℤ) : roundAt rm neg m e st (e + (k + 1 : Nat)) =
    (if cutUp (magMode rm neg) (m / 2 ^ (k + 1)) (m % 2 ^ (k + 1)) (2 ^ k) st then m / 2 ^ (k + 1) + 1 else m / 2 ^ (k + 1),
      st || m % 2 ^ (k + 1) != 0) := by
  have hle : ¬ e + ((k + 1 : Nat) : ℤ) ≤ e := by omega
  have hsh : (e + ((k + 1 : Nat) : ℤ) - e).toNat = k + 1 := by omega
  rw [roundAt, if_neg hle]
  simp only [hsh, Nat.add_sub_cancel]
  obtain rfl | rfl | rfl | rfl : rm = 0 ∨ rm = 1 ∨ rm = 2 ∨ rm = 3 := by omega
  all_goals cases neg <;> simp [cutUp, magMode]

section
variable {mode n rem half : Nat} {d : ℝ} {st : Bool} (hhalf : 0 < half) (hrem : rem < 2 * half) (h0 : 0 ≤ d) (h1 : d < 1) (hst : st = true ↔ d ≠ 0)
include hhalf hrem h1

theorem cut_lt_one : ((rem : ℝ) + d) / (2 * half) < 1 := by
  have hcast : (rem : ℝ) + 1 ≤ 2 * half := by exact_mod_cast hrem
  rw [div_lt_one (by positivity)]
  linarith

include h0 hst
omit hrem h1

theorem cut_ne_zero : ((rem : ℝ) + d) / (2 * half) ≠ 0 ↔ (st || rem != 0) = true := by
  have hH : (2 * half : ℝ) ≠ 0 := by positivity
  have hsum : (rem : ℝ) + d = 0 ↔ rem = 0 ∧ d = 0 := by rw [add_eq_zero_iff_of_nonneg (by positivity) h0, Nat.cast_eq_zero]
  rw [Ne, div_eq_zero_iff, or_iff_left hH, hsum, Bool.or_eq_true, hst, bne_iff_ne]
  tauto

include hrem h1

/-- The part that is cut off rounds `n` up as the mode asks. -/
theorem roundsNat_cutUp : RoundsNat mode (n + (rem + d) / (2 * half)) (if cutUp mode n rem half st then n + 1 else n) := by
  have hH : (0 : ℝ) < 2 * half := by positivity
  refine roundsNat_of_up (by positivity) (cut_lt_one hhalf hrem h1) (fun hmode => ?_) (fun hmode => ?_) (fun hmode => ?_)
  · rw [le_div_iff₀ hH, div_le_iff₀ hH, div_eq_iff hH.ne', show 1 / 2 * (2 * (half : ℝ)) = half by ring]
    simp only [cutUp, hmode, if_true]
    obtain hlt | heq | hgt := lt_trichotomy rem half
    · have : (rem : ℝ) + 1 ≤ half := by exact_mod_cast hlt
      have hdown : decide (half < rem) = false := by simp [hlt.le]
      simp only [hdown, hlt.ne, decide_false, Bool.false_and, Bool.or_false, Bool.false_eq_true, false_implies, true_implies, true_and]
      exact ⟨by linarith, fun h => by linarith⟩
    · subst heq
      by_cases hd : d = 0
      · have hexact : st = false := by simpa [hd] using hst
        simp [hd, hexact]
      · have hsticky : st = true := hst.2 hd
        simp [hsticky, hd, h0]
    · have : (half : ℝ) + 1 ≤ rem := by exact_mod_cast hgt
      simp only [hgt, decide_true, Bool.true_or, true_implies, Bool.true_eq_false, false_implies, and_true]
      exact ⟨by linarith, fun h => by linarith⟩
  · obtain rfl | rfl := hmode <;> simp [cutUp]
  · rw [cut_ne_zero hhalf h0 hst]
    simp [cutUp, hmode]

/-- A part that is cut off is what changes the number. -/
theorem cutUp_inexact : (st || rem != 0) = true ↔ n + ((rem : ℝ) + d) / (2 * half) ≠ ((if cutUp mode n rem half st then n + 1 else n : Nat) : ℝ) := by
  have hlt := cut_lt_one hhalf hrem h1
  rw [← cut_ne_zero hhalf h0 hst]
  cases hup : cutUp mode n rem half st with
  | false => simp
  | true =>
    refine iff_of_true ((cut_ne_zero hhalf h0 hst).2 ?_) ?_
    · by_contra hexact
      obtain ⟨hsticky, hrem0⟩ : st = false ∧ rem = 0 := by simpa using hexact
      simp [cutUp, hsticky, hrem0, hhalf.ne] at hup
    · rw [if_pos rfl, Nat.cast_succ]
      linarith [hlt]

end

/-- `v` is `m` units of 2^e, or with `st` strictly between `m` units and the next. -/
def Between (v : ℝ) (m : Nat) (e : ℤ) (st : Bool) : Prop :=
  (m : ℝ) * (2 : ℝ) ^ e ≤ v ∧ v < (m + 1) * (2 : ℝ) ^ e ∧ (st = true ↔ v ≠ m * (2 : ℝ) ^ e)

theorem between_exact (m : Nat) (e : ℤ) : Between (m * (2 : ℝ) ^ e) m e false :=
  ⟨le_rfl, by nlinarith [zpow_pos (two_pos (α := ℝ)) e], by simp⟩

/-- What `roundAt` gives is the number of units of 2^q that `v` rounds to, and whether that changed it. -/
theorem roundAt_roundsNat {rm : Nat} {neg st : Bool} {v : ℝ} {m : Nat} {e q : ℤ} (hrm : rm < 4) (hv : Between v m e st) (hq : st = true → e < q) :
    RoundsNat (magMode rm neg) (v / (2 : ℝ) ^ q) (roundAt rm neg m e st q).1 ∧
    ((roundAt rm neg m e st q).2 = true ↔ v ≠ (roundAt rm neg m e st q).1 * (2 : ℝ) ^ q) := by
  obtain ⟨hlo, hhi, hst⟩ := hv
  have hU : (0 : ℝ) < (2 : ℝ) ^ q := by positivity
  by_cases hqe : q ≤ e
  · have hexact : st = false := by
      cases st with
      | false => rfl
      | true => exact absurd (hq rfl) (by omega)
    subst hexact
    have hveq : v = ((m * 2 ^ (e - q).toNat : Nat) : ℝ) * (2 : ℝ) ^ q := by
      have hv : v = m * (2 : ℝ) ^ e := by_contra fun h => absurd (hst.2 h) (by decide)
      rw [hv, cast_shift m hqe]
    have hround : roundAt rm neg m e false q = (m * 2 ^ (e - q).toNat, false) := by simp [roundAt, hqe]
    rw [hround, hveq, mul_div_cancel_right₀ _ hU.ne']
    exact ⟨roundsNat_self _ _, by simp⟩
  · obtain ⟨k, rfl⟩ : ∃ k : Nat, q = e + (k + 1 : Nat) := ⟨(q - e).toNat - 1, by omega⟩
    have hE : (0 : ℝ) < (2 : ℝ) ^ e := by positivity
    set n := m / 2 ^ (k + 1)
    set rem := m % 2 ^ (k + 1)
    have hm : m = rem + 2 ^ (k + 1) * n := (Nat.mod_add_div _ _).symm
    obtain ⟨d, rfl⟩ : ∃ d, v = (m + d) * (2 : ℝ) ^ e := ⟨v / (2 : ℝ) ^ e - m, by field_simp; ring⟩
    have h0 : 0 ≤ d := by
      have := le_of_mul_le_mul_right hlo hE
      linarith
    have h1 : d < 1 := by
      have := lt_of_mul_lt_mul_right hhi hE.le
      linarith
    have hd : st = true ↔ d ≠ 0 := by
      rw [hst, Ne, mul_left_inj' hE.ne', add_eq_left]
    have hpow : (2 : ℝ) ^ (e + ((k + 1 : Nat) : ℤ)) = 2 * ((2 ^ k : Nat) : ℝ) * (2 : ℝ) ^ e := by
      rw [zpow_add₀ two_ne_zero, zpow_natCast, pow_succ]; push_cast; ring
    have hvq : (m + d) * (2 : ℝ) ^ e / (2 : ℝ) ^ (e + ((k + 1 : Nat) : ℤ)) = n + (rem + d) / (2 * ((2 ^ k : Nat) : ℝ)) := by
      rw [hpow, hm]; push_cast; field_simp; ring
    have hrem : rem < 2 * 2 ^ k := by rw [← pow_succ']; exact Nat.mod_lt _ (by positivity)
    rw [roundAt_of_lt hrm, Ne, ← div_eq_iff hU.ne', hvq]
    exact ⟨roundsNat_cutUp (by positivity) hrem h0 h1 hd, cutUp_inexact (by positivity) hrem h0 h1 hd⟩

end Sys2Proof.Proofs
end

section
/-!
PROOFS. The value of a format that a real number rounds to (spec/10 R199, R201): from the natural number that its quotient by the last place rounds to.
-/
namespace Sys2Proof.Proofs

open Sys2Proof.Machine Sys2Proof.Claims

/-! ### Rounding among the candidates of a grid -/

section
variable {k n : Nat} {t z : ℝ} (hpos : 0 < t) (hk : (k : ℝ) ≤ t) (hk1 : t < k + 1) (hgap : |z| ≤ k ∨ (k : ℝ) + 1 ≤ |z|)
include hpos hk hk1 hgap

/-- A candidate other than the nearest natural is farther off, or at least half a unit. -/
theorem eq_or_half_le_or_farther (hn : |t - n| ≤ 1 / 2) : z = n ∨ 1 / 2 ≤ |t - z| ∨ |t - n| < |t - z| := by
  obtain ⟨hlo, hhi⟩ := abs_le.1 hn
  have hleft := le_abs_self (t - z)
  have hright := neg_le_abs (t - z)
  have hnk : n = k ∨ n = k + 1 := by
    have h1 : k < n + 1 := by exact_mod_cast (by linarith : (k : ℝ) < n + 1)
    have h2 : n < k + 2 := by exact_mod_cast (by linarith : (n : ℝ) < k + 2)
    omega
  obtain hbelow | habove := hgap
  · obtain ⟨-, hz⟩ := abs_le.1 hbelow
    obtain rfl | rfl := hnk
    · refine or_iff_not_imp_left.2 fun hne => .inr ?_
      rw [abs_of_nonneg (by linarith : 0 ≤ t - (n : ℝ))]
      linarith [lt_of_le_of_ne hz hne]
    · push_cast at hlo hhi
      exact .inr (.inl (by linarith))
  · obtain hz | hz := le_abs.1 habove
    · obtain rfl | rfl := hnk
      · exact .inr (.inl (by linarith))
      · push_cast at hn ⊢
        refine or_iff_not_imp_left.2 fun hne => .inr ?_
        rw [abs_of_neg (by linarith : t - ((k : ℝ) + 1) < 0)]
        linarith [lt_of_le_of_ne hz (Ne.symm hne)]
    · exact .inr (.inl (by linarith))

theorem ceil_le_of_gap (hn : (n : ℝ) < t + 1) (hz : t ≤ z) : (n : ℝ) ≤ z := by
  rw [abs_of_pos (hpos.trans_le hz)] at hgap
  obtain hbelow | habove := hgap
  · have : n < k + 1 := by exact_mod_cast (by linarith : (n : ℝ) < k + 1)
    have : (n : ℝ) ≤ k := by exact_mod_cast Nat.lt_succ_iff.1 this
    linarith
  · have : n < k + 2 := by exact_mod_cast (by linarith : (n : ℝ) < k + 2)
    have : (n : ℝ) ≤ k + 1 := by exact_mod_cast Nat.lt_succ_iff.1 this
    linarith

omit hpos in
theorem abs_le_of_gap (hn : t < n + 1) (hz : |z| ≤ t) : |z| ≤ n := by
  have hle : |z| ≤ k := hgap.resolve_right fun h => by linarith
  have : k < n + 1 := by exact_mod_cast hk.trans_lt hn
  exact hle.trans (by exact_mod_cast Nat.lt_succ_iff.1 this)

end

/-- Among candidates that keep off the unit about `t`, a mode gives the natural number that it rounds `t` to. -/
theorem roundsTo_nat {cand : Prop → ℝ → Prop} {rm k n : Nat} {t : ℝ} (hpos : 0 < t) (hk : (k : ℝ) ≤ t) (hk1 : t < k + 1)
    (hgap : ∀ even z, cand even z → |z| ≤ k ∨ (k : ℝ) + 1 ≤ |z|) (hmem : cand (n % 2 = 0) n) (h : RoundsNat rm t n) : RoundsTo cand rm t n := by
  obtain ⟨hnear, hdown, hup⟩ := h
  refine ⟨⟨_, hmem⟩, fun hrm => ?_, fun hrm => ?_, fun hrm => ?_, fun hrm => ?_⟩
  · obtain ⟨hhalf, htie⟩ := hnear hrm
    have hother := fun even z hz => eq_or_half_le_or_farther hpos hk hk1 (hgap even z hz) hhalf
    refine ⟨fun even z hz => ?_, fun ⟨even, z, hz, hne, heq⟩ => ?_⟩
    · obtain rfl | hfar | hfar := hother even z hz
      · exact le_rfl
      · exact hhalf.trans hfar
      · exact hfar.le
    · have hfar := ((hother even z hz).resolve_left hne).resolve_right (by rw [heq]; exact lt_irrefl _)
      exact eq_true (htie (le_antisymm hhalf (heq ▸ hfar))) ▸ hmem
  · obtain ⟨hle, hlt⟩ := hdown (.inl hrm)
    rw [abs_of_pos hpos, Nat.abs_cast]
    exact ⟨hle, by positivity, fun even z hz => abs_le_of_gap hk hk1 (hgap even z hz) hlt⟩
  · obtain ⟨hle, hlt⟩ := hup hrm
    exact ⟨hle, fun even z hz => ceil_le_of_gap hpos hk hk1 (hgap even z hz) hlt⟩
  · obtain ⟨hle, hlt⟩ := hdown (.inr hrm)
    refine ⟨hle, fun even z hz hzt => ?_⟩
    obtain hneg | hz0 := le_total z 0
    · exact hneg.trans (Nat.cast_nonneg n)
    · rw [← abs_of_nonneg hz0] at hzt ⊢
      exact abs_le_of_gap hk hk1 (hgap even z hz) hlt hzt

/-- A unit, and a sign that exchanges RU and RD, carry over to a rounding. -/
theorem roundsTo_scale {cand : Prop → ℝ → Prop} {rm : Nat} {neg : Bool} {t y u : ℝ} (hrm : rm < 4) (hu : 0 < u)
    (h : RoundsTo (fun even z => cand even (sgn neg * z * u)) (magMode rm neg) t y) : RoundsTo cand rm (sgn neg * t * u) (sgn neg * y * u) := by
  obtain ⟨hmem, hnear, hzero, hup, hdown⟩ := h
  have hform : ∀ z, ∃ s, z = sgn neg * s * u := fun z => ⟨sgn neg * (z / u), by cases neg <;> field_simp <;> simp⟩
  have habs : ∀ s, |sgn neg * s * u| = |s| * u := fun s => by rw [abs_mul, abs_mul, abs_sgn, one_mul, abs_of_pos hu]
  have hdist : ∀ s, |sgn neg * t * u - sgn neg * s * u| = |t - s| * u := fun s => by rw [← sub_mul, ← mul_sub, habs]
  have hle : ∀ a b, sgn neg * a * u ≤ sgn neg * b * u ↔ if neg then b ≤ a else a ≤ b := fun a b => by
    rw [mul_le_mul_iff_left₀ hu]
    cases neg <;> simp
  refine ⟨hmem, fun h0 => ?_, fun h1 => ?_, fun h2 => ?_, fun h3 => ?_⟩
  · obtain ⟨hmin, htie⟩ := hnear (by subst h0; cases neg <;> rfl)
    refine ⟨fun even z hz => ?_, fun ⟨even, z, hz, hne, heq⟩ => ?_⟩
    · obtain ⟨s, rfl⟩ := hform z
      rw [hdist, hdist]
      exact mul_le_mul_of_nonneg_right (hmin even s hz) hu.le
    · obtain ⟨s, rfl⟩ := hform z
      rw [hdist, hdist] at heq
      exact htie ⟨even, s, hz, fun hs => hne (by rw [hs]), mul_right_cancel₀ hu.ne' heq⟩
  · obtain ⟨hmag, hsame, hmax⟩ := hzero (by subst h1; cases neg <;> rfl)
    refine ⟨?_, ?_, fun even z hz => ?_⟩
    · rw [habs, habs]
      exact mul_le_mul_of_nonneg_right hmag hu.le
    · have : sgn neg * t * u * (sgn neg * y * u) = t * y * (u * u) := by cases neg <;> simp <;> ring
      rw [this]
      exact mul_nonneg hsame (mul_self_nonneg u)
    · obtain ⟨s, rfl⟩ := hform z
      rw [habs, habs, habs, mul_le_mul_iff_left₀ hu, mul_le_mul_iff_left₀ hu]
      exact hmax even s hz
  · subst h2
    rw [hle]
    refine ⟨?_, fun even z hz => ?_⟩
    · cases neg with
      | false => exact (hup rfl).1
      | true => exact (hdown rfl).1
    · obtain ⟨s, rfl⟩ := hform z
      rw [hle, hle]
      cases neg with
      | false => exact (hup rfl).2 even s hz
      | true => exact (hdown rfl).2 even s hz
  · subst h3
    rw [hle]
    refine ⟨?_, fun even z hz => ?_⟩
    · cases neg with
      | false => exact (hdown rfl).1
      | true => exact (hup rfl).1
    · obtain ⟨s, rfl⟩ := hform z
      rw [hle, hle]
      cases neg with
      | false => exact (hdown rfl).2 even s hz
      | true => exact (hup rfl).2 even s hz

/-! ### The candidates of a format -/

/-- A value of at most `fb + 1` bits, in units of 2^e or coarser ones. -/
def FewBits (g : Fmt) (y : ℝ) (e : ℤ) : Prop := ∃ M : Nat, M < 2 ^ (g.fb + 1) ∧ |y| = (M : ℝ) * (2 : ℝ) ^ e

theorem fewBits_of_inWide {g : Fmt} {even : Prop} {y : ℝ} (h : InWide g even y) : ∃ e, FewBits g y e := by
  obtain ⟨rfl, -⟩ | ⟨m, e, -, hm, habs, -⟩ := h
  · exact ⟨0, 0, by positivity, by simp⟩
  · exact ⟨e, m, hm, habs⟩

theorem fewBits_of_inFormat {g : Fmt} {even : Prop} {y : ℝ} (h : InFormat g even y) : ∃ e, 1 - (g.bias : ℤ) - g.fb ≤ e ∧ FewBits g y e := by
  obtain ⟨b, -, ⟨neg, m, e, hdec, hy⟩, -⟩ := h
  refine ⟨e, fdec_fin_le hdec, m, fdec_fin_lt hdec, ?_⟩
  rw [hy]
  exact abs_sgn_mul neg m e

/-- A value of few bits stands at a unit of 2^q, or below the units that a value of `fb + 1` bits has. -/
theorem FewBits.gap {g : Fmt} {neg : Bool} {z : ℝ} {e q : ℤ} {k : Nat} (h : FewBits g (sgn neg * z * (2 : ℝ) ^ q) e) (hk : q ≤ e ∨ 2 ^ g.fb ≤ k) :
    |z| ≤ k ∨ (k : ℝ) + 1 ≤ |z| := by
  obtain ⟨M, hM, habs⟩ := h
  have hq : (0 : ℝ) < (2 : ℝ) ^ q := by positivity
  rw [abs_mul, abs_mul, abs_sgn, one_mul, abs_of_pos hq] at habs
  by_cases hqe : q ≤ e
  · have hz : |z| = ((M * 2 ^ (e - q).toNat : Nat) : ℝ) := by
      refine mul_right_cancel₀ hq.ne' ?_
      rw [habs, cast_shift M hqe]
    rw [hz]
    obtain hlt | hle := Nat.lt_or_ge k (M * 2 ^ (e - q).toNat)
    · exact .inr (by exact_mod_cast hlt)
    · exact .inl (by exact_mod_cast hle)
  · have hsmall : (M : ℝ) * (2 : ℝ) ^ e ≤ ((2 ^ g.fb : Nat) : ℝ) * (2 : ℝ) ^ q := by
      have hM' : (M : ℝ) ≤ ((2 ^ (g.fb + 1) : Nat) : ℝ) := by exact_mod_cast hM.le
      calc (M : ℝ) * (2 : ℝ) ^ e ≤ ((2 ^ (g.fb + 1) : Nat) : ℝ) * (2 : ℝ) ^ e := mul_le_mul_of_nonneg_right hM' (by positivity)
        _ ≤ ((2 ^ g.fb : Nat) : ℝ) * (2 : ℝ) ^ q := by
          rw [two_pow_mul_zpow, two_pow_mul_zpow]
          exact zpow_le_zpow_right₀ one_le_two (by push_cast; omega)
    refine .inl (le_of_mul_le_mul_right ?_ hq)
    rw [habs]
    exact hsmall.trans (mul_le_mul_of_nonneg_right (by exact_mod_cast hk.resolve_left hqe) hq.le)

/-! ### The values that a rounding gives -/

/-- `m` units of 2^e are `n` units of 2^q, with `fb + 1` bits: what a carry out of the fraction leaves. -/
structure Normal (g : Fmt) (n : Nat) (q : ℤ) (m : Nat) (e : ℤ) : Prop where
  low : 2 ^ g.fb ≤ m
  high : m < 2 ^ (g.fb + 1)
  val : (n : ℝ) * (2 : ℝ) ^ q = m * (2 : ℝ) ^ e
  top : e + g.fb = q + topBit n
  parity : m % 2 = n % 2
  pack : ∀ neg, packBits g neg n q = signBit g neg + (e + g.fb + g.bias).toNat * 2 ^ g.fb + (m - 2 ^ g.fb)

theorem topBit_eq {n k : Nat} (hlo : 2 ^ k ≤ n) (hhi : n < 2 ^ (k + 1)) : topBit n = k :=
  (Nat.log2_eq_iff (by have := Nat.two_pow_pos k; omega)).2 ⟨hlo, hhi⟩

theorem exists_normal {g : Fmt} (hg : Ieee g) {n : Nat} (q : ℤ) (hlo : 2 ^ g.fb ≤ n) (hhi : n ≤ 2 ^ (g.fb + 1)) : ∃ m e, Normal g n q m e := by
  obtain hlt | rfl := hhi.lt_or_eq
  · refine ⟨n, q, hlo, hlt, rfl, by rw [topBit_eq hlo hlt], rfl, fun neg => ?_⟩
    simp [packBits, hlo.not_gt, hlt]
  · have hhalf : 2 ^ (g.fb + 1) / 2 = 2 ^ g.fb := by rw [pow_succ, Nat.mul_div_cancel _ two_pos]
    refine ⟨2 ^ g.fb, q + 1, le_rfl, Nat.pow_lt_pow_succ (by decide), ?_, ?_, ?_, fun neg => ?_⟩
    · rw [two_pow_mul_zpow, two_pow_mul_zpow]
      congr 1; push_cast; ring
    · rw [topBit_eq le_rfl (Nat.pow_lt_pow_succ (by decide))]
      push_cast; ring
    · rw [hg.fraction_even, pow_succ, Nat.mul_mod_left]
    · simp [packBits, hlo.not_gt, hhalf]

/-- A normal value's magnitude lies in the binade of its top bit. -/
theorem Normal.mem_Ico {g : Fmt} {n m : Nat} {q e : ℤ} (h : Normal g n q m e) :
    (2 : ℝ) ^ (q + topBit n) ≤ n * (2 : ℝ) ^ q ∧ (n : ℝ) * (2 : ℝ) ^ q < (2 : ℝ) ^ (q + topBit n + 1) := by
  have hlow : (2 : ℝ) ^ (q + topBit n) = ((2 ^ g.fb : Nat) : ℝ) * (2 : ℝ) ^ e := by rw [two_pow_mul_zpow, ← h.top, add_comm]
  have hhigh : (2 : ℝ) ^ (q + topBit n + 1) = ((2 ^ (g.fb + 1) : Nat) : ℝ) * (2 : ℝ) ^ e := by
    rw [two_pow_mul_zpow, ← h.top]; congr 1; push_cast; ring
  rw [h.val, hlow, hhigh]
  exact ⟨mul_le_mul_of_nonneg_right (by exact_mod_cast h.low) (by positivity), mul_lt_mul_of_pos_right (by exact_mod_cast h.high) (by positivity)⟩

theorem Normal.inWide {g : Fmt} {n m : Nat} {q e : ℤ} (h : Normal g n q m e) (neg : Bool) : InWide g (n % 2 = 0) (sgn neg * n * (2 : ℝ) ^ q) :=
  .inr ⟨m, e, h.low, h.high, by rw [abs_sgn_mul, h.val], by rw [h.parity]⟩

/-- What a value overflows above: a top bit past the bias. -/
theorem Normal.greatest_lt_iff {g : Fmt} {n m : Nat} {q e : ℤ} (h : Normal g n q m e) : greatestOf g < n * (2 : ℝ) ^ q ↔ (g.bias : ℤ) < q + topBit n := by
  have hgreatest : greatestOf g = (2 ^ (g.fb + 1) - 1) * (2 : ℝ) ^ ((g.bias : ℤ) - g.fb) := by
    have : (2 : ℝ) ^ (g.bias : ℤ) = 2 ^ g.fb * (2 : ℝ) ^ ((g.bias : ℤ) - g.fb) := by
      rw [← zpow_natCast (2 : ℝ) g.fb, ← zpow_add₀ two_ne_zero]; congr 1; ring
    rw [greatestOf, this, zpow_neg, zpow_natCast]
    field_simp
    ring
  obtain ⟨hlow, -⟩ := h.mem_Ico
  constructor
  · contrapose!
    intro htop
    have hm : (m : ℝ) ≤ 2 ^ (g.fb + 1) - 1 := by
      have : (m : ℝ) + 1 ≤ 2 ^ (g.fb + 1) := by exact_mod_cast h.high
      linarith
    rw [h.val, hgreatest]
    exact mul_le_mul hm (zpow_le_zpow_right₀ one_le_two (by have := h.top; omega)) (by positivity) (by linarith [Nat.cast_nonneg (α := ℝ) m])
  · intro htop
    refine lt_of_lt_of_le ?_ ((zpow_le_zpow_right₀ one_le_two (by omega : (g.bias : ℤ) + 1 ≤ q + topBit n)).trans hlow)
    rw [greatestOf, zpow_add_one₀ two_ne_zero, mul_comm ((2 : ℝ) ^ (g.bias : ℤ))]
    exact mul_lt_mul_of_pos_right (by linarith [zpow_pos (two_pos (α := ℝ)) (-(g.fb : ℤ))]) (by positivity)

theorem Normal.lt_leastNormal_iff {g : Fmt} {n m : Nat} {q e : ℤ} (h : Normal g n q m e) :
    (n : ℝ) * (2 : ℝ) ^ q < leastNormal g ↔ q + topBit n < 1 - (g.bias : ℤ) := by
  obtain ⟨hlow, hhigh⟩ := h.mem_Ico
  constructor
  · contrapose!
    exact fun htop => (zpow_le_zpow_right₀ one_le_two htop).trans hlow
  · exact fun htop => hhigh.trans_le (zpow_le_zpow_right₀ one_le_two (by omega))

end Sys2Proof.Proofs
end

section
/-!
PROOFS. `froundNZ` rounds an exact value once into a format, with its flags (spec/10 R199-R202).
-/
namespace Sys2Proof.Proofs

open Sys2Proof.Machine Sys2Proof.Claims

/-! ### The bits of a rounded value -/

/-- The exponent of the last place of a format's subnormals. -/
def leastPlace (g : Fmt) : ℤ := 1 - (g.bias : ℤ) - g.fb

theorem leastNormal_eq (g : Fmt) : leastNormal g = ((2 ^ g.fb : Nat) : ℝ) * (2 : ℝ) ^ leastPlace g := by
  rw [two_pow_mul_zpow, leastNormal, leastPlace]
  congr 1; omega

/-- `n` units of 2^q are a finite value of the format: no finer than its last place, and of no higher top bit than the greatest. -/
structure Fits (g : Fmt) (n : Nat) (q : ℤ) : Prop where
  place : leastPlace g ≤ q
  subnormal : n < 2 ^ g.fb → q = leastPlace g
  bits : n ≤ 2 ^ (g.fb + 1)
  top : 2 ^ g.fb ≤ n → q + topBit n ≤ g.bias

/-- The bits of a value of the format. -/
structure BitsOf (g : Fmt) (neg : Bool) (n : Nat) (q : ℤ) (b : Nat) : Prop where
  width : b < 2 ^ g.w
  val : RealOf (fdec g b) (sgn neg * n * (2 : ℝ) ^ q)
  sign : 2 ^ (g.w - 1) ≤ b ↔ neg = true
  parity : b % 2 = n % 2

theorem BitsOf.inFormat {g : Fmt} {neg : Bool} {n b : Nat} {q : ℤ} (h : BitsOf g neg n q b) :
    InFormat g (n % 2 = 0) (sgn neg * n * (2 : ℝ) ^ q) :=
  ⟨b, h.width, h.val, by rw [h.parity]⟩

theorem Fits.bitsOf_packBits {g : Fmt} (hg : Ieee g) {n : Nat} {q : ℤ} (h : Fits g n q) (neg : Bool) : BitsOf g neg n q (packBits g neg n q) := by
  have hexpo := hg.expo
  by_cases hlo : n < 2 ^ g.fb
  · have hpack : packBits g neg n q = signBit g neg + 0 * 2 ^ g.fb + n := by rw [packBits, if_pos hlo, Nat.zero_mul, Nat.add_zero]
    have hzero : 0 < 2 ^ g.eb := by positivity
    rw [hpack]
    refine ⟨fields_lt hg neg hzero hlo, ?_, sign_le_fields hg neg hzero hlo, fields_mod_two hg neg 0 n⟩
    rw [fdec_fields hg neg (Nat.zero_le _) hlo, if_pos rfl, realOf_fin, h.subnormal hlo]
    rfl
  · obtain ⟨m, e, hnormal⟩ := exists_normal hg q (not_lt.1 hlo) h.bits
    have htop := h.top (not_lt.1 hlo)
    have hcarry := hnormal.top
    have hplace := h.place
    have hbin : g.fb ≤ topBit n := (Nat.le_log2 (by have := Nat.two_pow_pos g.fb; omega)).2 (not_lt.1 hlo)
    obtain ⟨E, hE⟩ : ∃ E : Nat, e + g.fb + g.bias = E := ⟨(e + g.fb + g.bias).toNat, by rw [leastPlace] at hplace; omega⟩
    have hE1 : 1 ≤ E := by rw [leastPlace] at hplace; omega
    have hE2 : E ≤ 2 * g.bias := by omega
    have hlow := hnormal.low
    have hhigh := hnormal.high
    have hfrac : m - 2 ^ g.fb < 2 ^ g.fb := by rw [pow_succ] at hhigh; omega
    rw [hnormal.pack, hE, Int.toNat_natCast]
    refine ⟨fields_lt hg neg (by omega) hfrac, ?_, sign_le_fields hg neg (by omega) hfrac, ?_⟩
    · rw [fdec_fields hg neg hE2 hfrac, if_neg (by omega), realOf_fin, mul_assoc, hnormal.val, Nat.add_sub_cancel' hlow, ← mul_assoc]
      congr 2; omega
    · rw [fields_mod_two hg]
      have := hnormal.parity
      have := hg.fraction_even
      omega

/-- What FTZ writes as a zero. -/
theorem Fits.lt_leastNormal_iff {g : Fmt} {n : Nat} {q : ℤ} (h : Fits g n q) : (n : ℝ) * (2 : ℝ) ^ q < leastNormal g ↔ n < 2 ^ g.fb := by
  rw [leastNormal_eq]
  constructor
  · contrapose!
    exact fun hle => mul_le_mul (by exact_mod_cast hle) (zpow_le_zpow_right₀ one_le_two h.place) (by positivity) (by positivity)
  · intro hlt
    rw [h.subnormal hlt]
    exact mul_lt_mul_of_pos_right (by exact_mod_cast hlt) (by positivity)

/-! ### The pieces of `froundNZ` -/

/-- The last place of a value as if the exponent range were unbounded, and in the format. -/
def widePlace (g : Fmt) (m : Nat) (e : ℤ) : ℤ := e + topBit m - g.fb
def lastPlace (g : Fmt) (m : Nat) (e : ℤ) : ℤ := (if e + topBit m < 1 - (g.bias : ℤ) then 1 - (g.bias : ℤ) else e + topBit m) - g.fb

/-- The top bit after the rounding with an unbounded exponent. -/
def wideTop (g : Fmt) (rm : Nat) (neg : Bool) (m : Nat) (e : ℤ) (st : Bool) : ℤ :=
  widePlace g m e + topBit (roundAt rm neg m e st (widePlace g m e)).1

section
variable {g : Fmt} {rm : Nat} {ftz neg st : Bool} {m : Nat} {e : ℤ}

theorem froundNZ_of_overflow (h : (g.bias : ℤ) < wideTop g rm neg m e st) :
    froundNZ g rm ftz neg m e st = { bits := overflowBits g rm neg, flags := 20 } := by
  rw [wideTop, widePlace] at h
  simp only [froundNZ, gt_iff_lt, if_pos h, fOF, fNX]

theorem froundNZ_of_finite (h : wideTop g rm neg m e st ≤ g.bias) : froundNZ g rm ftz neg m e st =
    if ftz = true ∧ (roundAt rm neg m e st (lastPlace g m e)).1 ≠ 0 ∧ (roundAt rm neg m e st (lastPlace g m e)).1 < 2 ^ g.fb then
      { bits := zeroBits g neg, flags := 24 }
    else
      { bits := packBits g neg (roundAt rm neg m e st (lastPlace g m e)).1 (lastPlace g m e)
        flags := if (roundAt rm neg m e st (lastPlace g m e)).2 then (if wideTop g rm neg m e st < 1 - (g.bias : ℤ) then 24 else 16) else 0 } := by
  have hwide : e + topBit m - g.fb + topBit (roundAt rm neg m e st (e + topBit m - g.fb)).1 = wideTop g rm neg m e st := rfl
  have hlast : (if e + topBit m < 1 - (g.bias : ℤ) then 1 - (g.bias : ℤ) else e + topBit m) - g.fb = lastPlace g m e := rfl
  have hflags : ∀ inexact tiny : Bool, (if inexact = true then fNX else 0) + (if (tiny && inexact) = true then fUF else 0) =
      if inexact = true then (if tiny = true then 24 else 16) else 0 := by decide
  have hflags' := hflags (roundAt rm neg m e st (lastPlace g m e)).2 (decide (wideTop g rm neg m e st < 1 - (g.bias : ℤ)))
  simp only [froundNZ, gt_iff_lt, hwide, hlast, if_neg (not_lt.2 h), hflags']
  simp only [Bool.and_eq_true, bne_iff_ne, decide_eq_true_eq, and_assoc, fUF, fNX]

end

/-! ### One rounding -/

theorem widePlace_le_lastPlace (g : Fmt) (m : Nat) (e : ℤ) : widePlace g m e ≤ lastPlace g m e := by
  rw [lastPlace, widePlace]
  split <;> omega

theorem magMode_lt {rm : Nat} (hrm : rm < 4) (neg : Bool) : magMode rm neg < 4 := by
  interval_cases rm <;> cases neg <;> decide

section
variable {g : Fmt} (hg : Ieee g) {rm : Nat} (hrm : rm < 4) {ftz neg st : Bool} {v : ℝ} {m : Nat} {e : ℤ}
  (hm : m ≠ 0) (hv : Between v m e st) (hst : st = true → 2 ^ (g.fb + 1) ≤ m)
include hm hv

/-- A value lies in the binade of its leading unit. -/
theorem between_binade : (2 : ℝ) ^ (e + topBit m) ≤ v ∧ v < (2 : ℝ) ^ (e + topBit m + 1) := by
  have hlo : ((2 ^ topBit m : Nat) : ℝ) ≤ m := by exact_mod_cast Nat.log2_self_le hm
  have hhi : (m : ℝ) + 1 ≤ ((2 ^ (topBit m + 1) : Nat) : ℝ) := by exact_mod_cast Nat.lt_log2_self
  have hunit : (0 : ℝ) ≤ (2 : ℝ) ^ e := by positivity
  have hbelow := mul_le_mul_of_nonneg_right hlo hunit
  have habove := mul_le_mul_of_nonneg_right hhi hunit
  rw [two_pow_mul_zpow, add_comm] at hbelow
  rw [two_pow_mul_zpow, show (((topBit m + 1 : Nat) : ℤ) + e) = e + topBit m + 1 by push_cast; ring] at habove
  exact ⟨hbelow.trans hv.1, hv.2.1.trans_le habove⟩

/-- Counted in the last place of an unbounded exponent, a value has `fb + 1` bits before the point. -/
theorem div_widePlace : ((2 ^ g.fb : Nat) : ℝ) ≤ v / (2 : ℝ) ^ widePlace g m e ∧ v / (2 : ℝ) ^ widePlace g m e < ((2 ^ (g.fb + 1) : Nat) : ℝ) := by
  obtain ⟨hlo, hhi⟩ := between_binade hm hv
  have hunit : (0 : ℝ) < (2 : ℝ) ^ widePlace g m e := by positivity
  rw [le_div_iff₀ hunit, div_lt_iff₀ hunit, two_pow_mul_zpow, two_pow_mul_zpow, widePlace]
  constructor
  · rwa [show (g.fb : ℤ) + (e + topBit m - g.fb) = e + topBit m by ring]
  · rwa [show ((g.fb + 1 : Nat) : ℤ) + (e + topBit m - g.fb) = e + topBit m + 1 by push_cast; ring]

theorem between_pos : 0 < v := (zpow_pos two_pos _).trans_le (between_binade hm hv).1

omit hv
include hst

theorem lt_place_of_sticky {q : ℤ} (hq : widePlace g m e ≤ q) (h : st = true) : e < q := by
  have : g.fb + 1 ≤ topBit m := (Nat.le_log2 hm).2 (hst h)
  rw [widePlace] at hq
  omega

include hv hrm

/-- What `roundAt` gives in a place is the candidate that the mode asks for, of candidates of few bits. -/
theorem roundsTo_roundAt {cand : Prop → ℝ → Prop} {q : ℤ} (hq : widePlace g m e ≤ q)
    (hcand : ∀ even z, cand even z → ∃ i, FewBits g z i ∧ (q ≤ i ∨ q = widePlace g m e))
    (hmem : cand ((roundAt rm neg m e st q).1 % 2 = 0) (sgn neg * (roundAt rm neg m e st q).1 * (2 : ℝ) ^ q)) :
    RoundsTo cand rm (sgn neg * v) (sgn neg * (roundAt rm neg m e st q).1 * (2 : ℝ) ^ q) := by
  have hunit : (0 : ℝ) < (2 : ℝ) ^ q := by positivity
  have hpos : 0 < v / (2 : ℝ) ^ q := div_pos (between_pos hm hv) hunit
  have hround := (roundAt_roundsNat (neg := neg) hrm hv (lt_place_of_sticky hm hst hq)).1
  have hval : sgn neg * v = sgn neg * (v / (2 : ℝ) ^ q) * (2 : ℝ) ^ q := by rw [mul_assoc, div_mul_cancel₀ _ hunit.ne']
  rw [hval]
  refine roundsTo_scale hrm hunit (roundsTo_nat hpos (Nat.floor_le hpos.le) (Nat.lt_floor_add_one _) (fun even z hz => ?_) hmem hround)
  obtain ⟨i, hfew, hplace⟩ := hcand even _ hz
  refine hfew.gap (hplace.imp_right fun hwide => Nat.le_floor ?_)
  rw [hwide]
  exact (div_widePlace hm hv).1

/-- Rounded with an unbounded exponent, a value keeps `fb + 1` bits, or carries to the next binade. -/
theorem wide_bits : 2 ^ g.fb ≤ (roundAt rm neg m e st (widePlace g m e)).1 ∧ (roundAt rm neg m e st (widePlace g m e)).1 ≤ 2 ^ (g.fb + 1) := by
  obtain ⟨hlo, hhi⟩ := div_widePlace (g := g) hm hv
  exact (roundAt_roundsNat hrm hv (lt_place_of_sticky hm hst le_rfl)).1.mem_Icc (magMode_lt hrm neg) hlo hhi

/-- Below the least normal value, a value rounds to a subnormal or to the least normal. -/
theorem subnormal_bits (h : e + topBit m < 1 - (g.bias : ℤ)) : (roundAt rm neg m e st (leastPlace g)).1 ≤ 2 ^ g.fb := by
  have hplace : widePlace g m e ≤ leastPlace g := by rw [widePlace, leastPlace]; omega
  have hunit : (0 : ℝ) < (2 : ℝ) ^ leastPlace g := by positivity
  have hhi : v / (2 : ℝ) ^ leastPlace g < ((2 ^ g.fb : Nat) : ℝ) := by
    rw [div_lt_iff₀ hunit, ← leastNormal_eq]
    exact (between_binade hm hv).2.trans_le (zpow_le_zpow_right₀ one_le_two (by omega))
  have hlo : ((0 : Nat) : ℝ) ≤ v / (2 : ℝ) ^ leastPlace g := by
    rw [Nat.cast_zero]
    exact (div_pos (between_pos hm hv) hunit).le
  exact ((roundAt_roundsNat hrm hv (lt_place_of_sticky hm hst hplace)).1.mem_Icc (magMode_lt hrm neg) hlo hhi).2

include hg

theorem fits_lastPlace (h : wideTop g rm neg m e st ≤ g.bias) : Fits g (roundAt rm neg m e st (lastPlace g m e)).1 (lastPlace g m e) := by
  by_cases hsub : e + topBit m < 1 - (g.bias : ℤ)
  · have hlast : lastPlace g m e = leastPlace g := by rw [lastPlace, if_pos hsub, leastPlace]
    have hbits := subnormal_bits (g := g) (neg := neg) hrm hm hv hst hsub
    rw [hlast]
    refine ⟨le_rfl, fun _ => rfl, hbits.trans (Nat.pow_le_pow_right two_pos (Nat.le_succ _)), fun hnormal => ?_⟩
    rw [le_antisymm hbits hnormal, topBit_eq le_rfl (Nat.pow_lt_pow_succ (by decide)), leastPlace]
    have := hg.bias
    omega
  · have hlast : lastPlace g m e = widePlace g m e := by rw [lastPlace, if_neg hsub, widePlace]
    obtain ⟨hlo, hhi⟩ := wide_bits (g := g) (neg := neg) hrm hm hv hst
    rw [hlast]
    refine ⟨by rw [leastPlace, widePlace]; omega, fun hlt => absurd hlo (not_le.2 hlt), hhi, fun _ => h⟩

theorem exists_normal_wide : ∃ n i, Normal g (roundAt rm neg m e st (widePlace g m e)).1 (widePlace g m e) n i := by
  obtain ⟨hlo, hhi⟩ := wide_bits (g := g) (neg := neg) hrm hm hv hst
  exact exists_normal hg _ hlo hhi

theorem roundsTo_inWide : RoundsTo (InWide g) rm (sgn neg * v)
    (sgn neg * (roundAt rm neg m e st (widePlace g m e)).1 * (2 : ℝ) ^ widePlace g m e) := by
  obtain ⟨n, i, hnormal⟩ := exists_normal_wide (neg := neg) hg hrm hm hv hst
  refine roundsTo_roundAt hrm hm hv hst le_rfl (fun even z hz => ?_) (hnormal.inWide neg)
  obtain ⟨i, hfew⟩ := fewBits_of_inWide hz
  exact ⟨i, hfew, .inr rfl⟩

theorem roundsTo_inFormat (h : wideTop g rm neg m e st ≤ g.bias) : RoundsTo (InFormat g) rm (sgn neg * v)
    (sgn neg * (roundAt rm neg m e st (lastPlace g m e)).1 * (2 : ℝ) ^ lastPlace g m e) := by
  have hfits := fits_lastPlace hg hrm hm hv hst h
  refine roundsTo_roundAt hrm hm hv hst (widePlace_le_lastPlace g m e) (fun even z hz => ?_)
    (hfits.bitsOf_packBits hg neg).inFormat
  obtain ⟨i, hplace, hfew⟩ := fewBits_of_inFormat hz
  refine ⟨i, hfew, ?_⟩
  rw [lastPlace, widePlace]
  split
  · exact .inl hplace
  · exact .inr rfl

/-- The leading bits of a value that is not zero, with whether anything is left below them, are enough to round it once. -/
theorem froundNZ_roundedOnce : RoundedOnce g rm ftz (sgn neg * v) (froundNZ g rm ftz neg m e st) := by
  have hpos := between_pos hm hv
  obtain ⟨n, i, hnormal⟩ := exists_normal_wide (neg := neg) hg hrm hm hv hst
  refine ⟨_, neg, roundsTo_inWide hg hrm hm hv hst, by cases neg <;> simp [hpos, hpos.le], fun hover => ?_, fun hfinite => ?_⟩
  · rw [abs_sgn_mul, hnormal.greatest_lt_iff] at hover
    rw [froundNZ_of_overflow hover]
    refine ⟨rfl, ?_⟩
    obtain rfl | rfl | rfl | rfl : rm = 0 ∨ rm = 1 ∨ rm = 2 ∨ rm = 3 := by omega
    all_goals cases neg <;> simp [overflowBits]
  · rw [abs_sgn_mul, ← not_lt, hnormal.greatest_lt_iff, not_lt] at hfinite
    have hfits := fits_lastPlace hg hrm hm hv hst hfinite
    have hbits := hfits.bitsOf_packBits hg neg
    have hinexact := (roundAt_roundsNat (neg := neg) hrm hv (lt_place_of_sticky hm hst (widePlace_le_lastPlace g m e))).2
    have hzero : ∀ (n : Nat) (q : ℤ), sgn neg * n * (2 : ℝ) ^ q ≠ 0 ↔ n ≠ 0 := fun n q => by
      cases neg <;> simp [zpow_ne_zero q (two_ne_zero (α := ℝ))]
    have hexact : ∀ (n : Nat) (q : ℤ), sgn neg * n * (2 : ℝ) ^ q = sgn neg * v ↔ v = n * (2 : ℝ) ^ q := fun n q => by
      cases neg <;> simp [eq_comm]
    refine ⟨_, roundsTo_inFormat hg hrm hm hv hst hfinite, ?_, ?_⟩
    all_goals rw [hzero, abs_sgn_mul, hfits.lt_leastNormal_iff, froundNZ_of_finite hfinite]
    · exact fun hflush => if_pos hflush
    · intro hkeep
      rw [if_neg hkeep, abs_sgn_mul, hnormal.lt_leastNormal_iff, hexact, Ne, hexact]
      refine ⟨hbits.width, hbits.val, hbits.sign, fun heq => ?_, fun hne htiny => ?_, fun hne hlarge => ?_⟩
      · exact if_neg fun h => hinexact.1 h heq
      · exact (if_pos (hinexact.2 hne)).trans (if_pos htiny)
      · exact (if_pos (hinexact.2 hne)).trans (if_neg fun h => not_lt.2 hlarge (hnormal.lt_leastNormal_iff.2 h))

omit hm hst in
/-- Bits enough past the format's last one need no condition on what is left below them. -/
theorem froundNZ_of_bits (hbits : 2 ^ (g.fb + 1) ≤ m) : RoundedOnce g rm ftz (sgn neg * v) (froundNZ g rm ftz neg m e st) :=
  froundNZ_roundedOnce hg hrm (Nat.pos_iff_ne_zero.1 ((Nat.two_pow_pos _).trans_le hbits)) hv fun _ => hbits

end

end Sys2Proof.Proofs
end

section
/-!
PROOFS. The floating words whose exact result has finitely many bits (spec/10 R208; spec/11 R222, R223): sums, products and conversions of finite values.
-/
namespace Sys2Proof.Proofs

open Sys2Proof.Machine Sys2Proof.Claims

/-! ### Exact results -/

section
variable {g : Fmt} (hg : Ieee g) {rm : Nat} (hrm : rm < 4) {ftz neg : Bool} {m : Nat} {e : ℤ} {x : ℝ}

theorem mantissa_ne_zero (hx : x = sgn neg * m * (2 : ℝ) ^ e) (hne : x ≠ 0) : m ≠ 0 := by
  rintro rfl
  simp [hx] at hne

include hg hrm

theorem froundNZ_exact (h : RealOf (.fin neg m e) x) (hne : x ≠ 0) : RoundedOnce g rm ftz x (froundNZ g rm ftz neg m e false) := by
  rw [realOf_fin] at h
  have hval : x = sgn neg * (m * (2 : ℝ) ^ e) := by rw [h, mul_assoc]
  rw [hval]
  exact froundNZ_roundedOnce hg hrm (mantissa_ne_zero h hne) (between_exact m e) nofun

theorem fround_exact (h : RealOf (.fin neg m e) x) (hne : x ≠ 0) : RoundedOnce g rm ftz x (fround g rm ftz neg m e false) := by
  rw [fround, if_neg (mantissa_ne_zero (realOf_fin.1 h) hne)]
  exact froundNZ_exact hg hrm h hne

end

/-! ### Sums, products and conversions -/

theorem exists_fin_of_reads {g : Fmt} (hg : Ieee g) {ftz : Bool} {a : Nat} {x : ℝ} (h : Reads g ftz a x) :
    ∃ neg m e, fdec g (ftzIn g ftz a) = .fin neg m e ∧ x = sgn neg * m * (2 : ℝ) ^ e ∧ m < 2 ^ (g.fb + 1) := by
  obtain ⟨neg, m, e, hdec, hx⟩ := realOf_ftzIn hg h
  exact ⟨neg, m, e, hdec, hx, fdec_fin_lt hdec⟩

theorem cast_signed (neg : Bool) (m : Nat) : ((if neg then -(m : ℤ) else m : ℤ) : ℝ) = sgn neg * m := by cases neg <;> simp

theorem sgn_mul_natAbs (i : ℤ) : sgn (decide (i < 0)) * (i.natAbs : ℝ) = i := by
  rw [Nat.cast_natAbs, Int.cast_abs]
  by_cases hneg : i < 0
  · have : (i : ℝ) < 0 := by exact_mod_cast hneg
    simp [hneg, abs_of_neg this]
  · have : (0 : ℝ) ≤ i := by exact_mod_cast not_lt.1 hneg
    simp [hneg, abs_of_nonneg this]

theorem realOf_intV (i : ℤ) : RealOf (intV i) i := by
  rw [intV, realOf_fin, zpow_zero, mul_one, sgn_mul_natAbs]

theorem realOf_exactAdd (n1 n2 : Bool) (m1 m2 : Nat) (e1 e2 : ℤ) :
    RealOf (.fin (exactAdd n1 m1 e1 n2 m2 e2).1 (exactAdd n1 m1 e1 n2 m2 e2).2.1 (exactAdd n1 m1 e1 n2 m2 e2).2.2)
      (sgn n1 * m1 * (2 : ℝ) ^ e1 + sgn n2 * m2 * (2 : ℝ) ^ e2) := by
  rw [realOf_fin]
  simp only [exactAdd]
  have h1 : (if e1 < e2 then e1 else e2) ≤ e1 := by split <;> omega
  have h2 : (if e1 < e2 then e1 else e2) ≤ e2 := by split <;> omega
  rw [sgn_mul_natAbs, Int.cast_add, cast_signed, cast_signed, add_mul]
  simp only [mul_assoc, cast_shift m1 h1, cast_shift m2 h2]

theorem realOf_negV {v : FV} {x : ℝ} (h : RealOf v x) : RealOf (negV v) (-x) := by
  obtain ⟨neg, m, e, rfl, hx⟩ := h
  rw [negV, realOf_fin, sgn_not, hx]
  simp only [sgn, neg_mul]

theorem realOf_ite_negV (neg : Bool) {v : FV} {x : ℝ} (h : RealOf v x) : RealOf (if neg then negV v else v) (if neg then -x else x) := by
  cases neg with
  | false => exact h
  | true => exact realOf_negV h

section
variable {g : Fmt} (hg : Ieee g) {rm : Nat} (hrm : rm < 4) {ftz : Bool} {u v : FV} {x y : ℝ} (hx : RealOf u x) (hy : RealOf v y)

include hx hy

theorem fmulV_realOf : ∃ p, fmulV u v = some p ∧ RealOf p (x * y) := by
  obtain ⟨a, m, e, rfl, hx⟩ := hx
  obtain ⟨b, n, i, rfl, hy⟩ := hy
  refine ⟨_, rfl, realOf_fin.2 ?_⟩
  change x = sgn a * m * (2 : ℝ) ^ e at hx
  change y = sgn b * n * (2 : ℝ) ^ i at hy
  rw [hx, hy, sgn_bne, zpow_add₀ two_ne_zero, Nat.cast_mul]
  ring

/-- A sum that is zero has a zero's bits and raises nothing (R223). -/
theorem faddV_zero (h : x + y = 0) : (faddV g rm ftz u v).flags = 0 ∧
    ((faddV g rm ftz u v).bits = zeroBits g false ∨ (faddV g rm ftz u v).bits = zeroBits g true) := by
  obtain ⟨a, m, e, rfl, hx⟩ := hx
  obtain ⟨b, n, i, rfl, hy⟩ := hy
  have hsum := realOf_exactAdd a b m n e i
  have hxy : sgn a * m * (2 : ℝ) ^ e + sgn b * n * (2 : ℝ) ^ i = x + y := by rw [hx, hy]; rfl
  rw [hxy, h, realOf_fin] at hsum
  have hzero : (exactAdd a m e b n i).2.1 = 0 := by
    have hpow : (2 : ℝ) ^ (exactAdd a m e b n i).2.2 ≠ 0 := zpow_ne_zero _ two_ne_zero
    cases hs : (exactAdd a m e b n i).1 <;> simpa [hs, hpow] using hsum.symm
  rw [faddV, if_pos hzero]
  refine ⟨rfl, ?_⟩
  cases (if a = b then a else decide (rm = 3)) <;> simp

include hg hrm

theorem faddV_roundedOnce (hne : x + y ≠ 0) : RoundedOnce g rm ftz (x + y) (faddV g rm ftz u v) := by
  obtain ⟨a, m, e, rfl, hx⟩ := hx
  obtain ⟨b, n, i, rfl, hy⟩ := hy
  have hsum := realOf_exactAdd a b m n e i
  have hxy : sgn a * m * (2 : ℝ) ^ e + sgn b * n * (2 : ℝ) ^ i = x + y := by rw [hx, hy]; rfl
  rw [hxy] at hsum
  rw [faddV, if_neg (mantissa_ne_zero (realOf_fin.1 hsum) hne)]
  exact froundNZ_exact hg hrm hsum hne

end

theorem isSig_of_realOf {v : FV} {x : ℝ} (h : RealOf v x) : isSig v = false := by
  obtain ⟨neg, m, e, rfl, -⟩ := h
  rfl

theorem fconv_roundedOnce {g : Fmt} (hg : Ieee g) {rm : Nat} (hrm : rm < 4) {ftz : Bool} {v : FV} {x : ℝ} (h : RealOf v x) (hne : x ≠ 0) :
    RoundedOnce g rm ftz x (fconv g rm ftz v) := by
  obtain ⟨neg, m, e, rfl, hx⟩ := h
  exact fround_exact hg hrm (realOf_fin.2 hx) hne

section
variable {g : Fmt} (hg : Ieee g) {rm : Nat} (hrm : rm < 4) {ftz : Bool} {a b : Nat} {x y : ℝ} (ha : Reads g ftz a x) (hb : Reads g ftz b y)
include hg hrm ha hb

theorem fadd_roundedOnce (hne : x + y ≠ 0) : RoundedOnce g rm ftz (x + y) (fadd g rm ftz a b) :=
  faddV_roundedOnce hg hrm (realOf_ftzIn hg ha) (realOf_ftzIn hg hb) hne

theorem fsub_roundedOnce (hne : x - y ≠ 0) : RoundedOnce g rm ftz (x - y) (fsub g rm ftz a b) := by
  rw [sub_eq_add_neg] at hne ⊢
  exact faddV_roundedOnce hg hrm (realOf_ftzIn hg ha) (realOf_negV (realOf_ftzIn hg hb)) hne

theorem fmul_roundedOnce (hne : x * y ≠ 0) : RoundedOnce g rm ftz (x * y) (fmul g rm ftz a b) := by
  obtain ⟨p, hp, neg, m, e, rfl, hval⟩ := fmulV_realOf (realOf_ftzIn hg ha) (realOf_ftzIn hg hb)
  simp only [fmul, hp]
  exact fround_exact hg hrm (realOf_fin.2 hval) hne

/-- The product is exact, and its sum with the third operand is what is rounded (R222). -/
theorem ffma_roundedOnce {c : Nat} {z : ℝ} {np nc : Bool} (hc : Reads g ftz c z)
    (hne : (if np then -(x * y) else x * y) + (if nc then -z else z) ≠ 0) :
    RoundedOnce g rm ftz ((if np then -(x * y) else x * y) + (if nc then -z else z)) (ffma g rm ftz np nc a b c) := by
  obtain ⟨p, hp, hval⟩ := fmulV_realOf (realOf_ftzIn hg ha) (realOf_ftzIn hg hb)
  have hz := realOf_ite_negV nc (realOf_ftzIn hg hc)
  simp only [ffma, hp, isSig_of_realOf (realOf_ftzIn hg ha), isSig_of_realOf (realOf_ftzIn hg hb), isSig_of_realOf hz, Bool.or_false,
    Bool.false_eq_true, if_false, Nat.or_zero]
  exact faddV_roundedOnce hg hrm (realOf_ite_negV np hval) hz hne

end

end Sys2Proof.Proofs
end

section
/-!
PROOFS. Quotients and square roots (spec/11 R222, R225): `froundNZ` is given the leading bits of the exact result, with whether anything is left below.
-/
namespace Sys2Proof.Proofs

open Sys2Proof.Machine Sys2Proof.Claims

/-! ### Leading bits of quotients and roots -/

/-- A quotient, in units that leave its integer part, with whether anything is left. -/
theorem between_div (m : Nat) {n : Nat} (hn : n ≠ 0) (i : ℤ) : Between ((m : ℝ) / n * (2 : ℝ) ^ i) (m / n) i (m % n != 0) := by
  have hunit : (0 : ℝ) < (2 : ℝ) ^ i := by positivity
  have hpos : (0 : ℝ) < n := by exact_mod_cast Nat.pos_of_ne_zero hn
  have hfloor : m / n * n ≤ m := Nat.div_mul_le_self m n
  have hceil : m < (m / n + 1) * n := by rw [Nat.mul_comm]; exact Nat.lt_mul_div_succ m (Nat.pos_of_ne_zero hn)
  refine ⟨mul_le_mul_of_nonneg_right ((le_div_iff₀ hpos).2 (by exact_mod_cast hfloor)) hunit.le,
    mul_lt_mul_of_pos_right ((div_lt_iff₀ hpos).2 (by exact_mod_cast hceil)) hunit, ?_⟩
  rw [bne_iff_ne, not_iff_not, mul_left_inj' hunit.ne', div_eq_iff hpos.ne', ← Nat.dvd_iff_mod_eq_zero]
  norm_cast
  exact ⟨fun h => (Nat.div_mul_cancel h).symm, fun h => Dvd.intro_left _ h.symm⟩

theorem isqrtBits_spec (n : Nat) : ∀ k r, r * r ≤ n → n < (r + 2 ^ k) * (r + 2 ^ k) →
    isqrtBits n k r * isqrtBits n k r ≤ n ∧ n < (isqrtBits n k r + 1) * (isqrtBits n k r + 1)
  | 0, _, hlo, hhi => ⟨hlo, hhi⟩
  | k + 1, r, hlo, hhi => by
    rw [isqrtBits]
    have hdouble : r + 2 ^ (k + 1) = r + 2 ^ k + 2 ^ k := by ring
    rw [hdouble] at hhi
    by_cases hfit : (r + 2 ^ k) * (r + 2 ^ k) ≤ n
    · simpa only [hfit, if_true] using isqrtBits_spec n k _ hfit hhi
    · simpa only [hfit, if_false] using isqrtBits_spec n k _ hlo (not_le.1 hfit)

theorem isqrt_spec (n : Nat) : isqrt n * isqrt n ≤ n ∧ n < (isqrt n + 1) * (isqrt n + 1) := by
  refine isqrtBits_spec n _ 0 (Nat.zero_le n) ?_
  rw [Nat.zero_add, ← pow_add]
  exact Nat.lt_log2_self.trans_le (Nat.pow_le_pow_right two_pos (by omega))

theorem le_isqrt {n k : Nat} (h : k * k ≤ n) : k ≤ isqrt n :=
  Nat.lt_succ_iff.1 (lt_of_mul_self_lt_mul_self₀ (Nat.zero_le _) (h.trans_lt (isqrt_spec n).2))

/-- A root of a quotient, in units that leave its integer part, with whether anything is left. -/
theorem between_sqrt (n : Nat) {d : Nat} (hd : d ≠ 0) (i : ℤ) :
    Between (Real.sqrt (n / d) * (2 : ℝ) ^ i) (isqrt (n / d)) i (isqrt (n / d) * isqrt (n / d) * d != n) := by
  have hunit : (0 : ℝ) < (2 : ℝ) ^ i := by positivity
  have hpos : (0 : ℝ) < d := by exact_mod_cast Nat.pos_of_ne_zero hd
  obtain ⟨hlo, hhi⟩ := isqrt_spec (n / d)
  set r := isqrt (n / d)
  have hfloor : r * r * d ≤ n := (Nat.mul_le_mul_right d hlo).trans (Nat.div_mul_le_self n d)
  have hceil : n < (r + 1) * (r + 1) * d := (Nat.div_lt_iff_lt_mul (Nat.pos_of_ne_zero hd)).1 hhi
  refine ⟨mul_le_mul_of_nonneg_right (Real.le_sqrt_of_sq_le ?_) hunit.le, mul_lt_mul_of_pos_right ((Real.sqrt_lt' (by positivity)).2 ?_) hunit, ?_⟩
  · rw [le_div_iff₀ hpos, sq]
    exact_mod_cast hfloor
  · rw [div_lt_iff₀ hpos, sq]
    exact_mod_cast hceil
  · rw [bne_iff_ne, not_iff_not, mul_left_inj' hunit.ne', Real.sqrt_eq_iff_mul_self_eq (by positivity) (by positivity), div_eq_iff hpos.ne', eq_comm]
    norm_cast

/-! ### Division -/

section
variable {g : Fmt} (hg : Ieee g) {rm : Nat} (hrm : rm < 4) {ftz : Bool} {a b : Nat} {x y : ℝ} (ha : Reads g ftz a x) (hb : Reads g ftz b y)
include hg hrm ha

theorem frcp_roundedOnce (hx : x ≠ 0) : RoundedOnce g rm ftz (1 / x) (frcp g rm ftz a) := by
  obtain ⟨neg, m, e, hdec, rfl, hm⟩ := exists_fin_of_reads hg ha
  have hm0 := mantissa_ne_zero rfl hx
  have hbits : 2 ^ (g.fb + 1) ≤ 1 * 2 ^ (3 * g.fb + 8) / m := by
    rw [Nat.le_div_iff_mul_le (Nat.pos_of_ne_zero hm0), Nat.one_mul]
    refine (Nat.mul_le_mul_left _ hm.le).trans ?_
    rw [← pow_add]
    exact Nat.pow_le_pow_right two_pos (by omega)
  have hval : 1 / (sgn neg * m * (2 : ℝ) ^ e) =
      sgn neg * (((1 * 2 ^ (3 * g.fb + 8) : Nat) : ℝ) / m * (2 : ℝ) ^ (-e - ((3 * g.fb + 8 : Nat) : ℤ))) := by
    rw [zpow_sub₀ two_ne_zero, zpow_neg, zpow_natCast]
    cases neg <;> push_cast <;> field_simp <;> simp
  simp only [frcp, hdec, if_neg hm0, divBits, hval]
  exact froundNZ_of_bits hg hrm (between_div _ hm0 _) hbits

include hb

theorem fdiv_roundedOnce (hx : x ≠ 0) (hy : y ≠ 0) : RoundedOnce g rm ftz (x / y) (fdiv g rm ftz a b) := by
  obtain ⟨neg, m, e, hdec, rfl, hm⟩ := exists_fin_of_reads hg ha
  obtain ⟨sig, n, i, hdiv, rfl, hn⟩ := exists_fin_of_reads hg hb
  have hm0 := mantissa_ne_zero rfl hx
  have hn0 := mantissa_ne_zero rfl hy
  have hbits : 2 ^ (g.fb + 1) ≤ m * 2 ^ (2 * g.fb + 6) / n := by
    rw [Nat.le_div_iff_mul_le (Nat.pos_of_ne_zero hn0)]
    refine (Nat.mul_le_mul_left _ hn.le).trans ?_
    rw [← pow_add]
    exact (Nat.pow_le_pow_right two_pos (by omega)).trans (Nat.le_mul_of_pos_left _ (Nat.pos_of_ne_zero hm0))
  have hval : sgn neg * m * (2 : ℝ) ^ e / (sgn sig * n * (2 : ℝ) ^ i) =
      sgn (neg != sig) * (((m * 2 ^ (2 * g.fb + 6) : Nat) : ℝ) / n * (2 : ℝ) ^ (e - i - ((2 * g.fb + 6 : Nat) : ℤ))) := by
    rw [zpow_sub₀ two_ne_zero, zpow_sub₀ two_ne_zero, zpow_natCast, sgn_bne]
    cases sig <;> push_cast <;> field_simp <;> simp
  simp only [fdiv, hdec, hdiv, if_neg hn0, if_neg hm0, divBits, hval]
  exact froundNZ_of_bits hg hrm (between_div _ hn0 _) hbits

end

/-! ### Square roots -/

/-- A magnitude with its exponent made even. -/
theorem even_exponent (m : Nat) (e : ℤ) : ((if e % 2 = 0 then m else m * 2 : Nat) : ℝ) * ((2 : ℝ) ^ ((if e % 2 = 0 then e else e - 1) / 2)) ^ 2 =
    m * (2 : ℝ) ^ e := by
  have hsq : ∀ j : ℤ, ((2 : ℝ) ^ j) ^ 2 = (2 : ℝ) ^ (2 * j) := fun j => by rw [mul_comm, zpow_mul, zpow_ofNat]
  rw [hsq]
  split
  · congr 2; omega
  · rw [Nat.cast_mul, mul_assoc, Nat.cast_two, ← zpow_one_add₀ two_ne_zero]
    congr 2; omega

theorem even_mantissa {m : Nat} (hm : m ≠ 0) (e : ℤ) : (if e % 2 = 0 then m else m * 2) ≠ 0 ∧ (if e % 2 = 0 then m else m * 2) ≤ m * 2 := by
  split <;> omega

section
variable {g : Fmt} (hg : Ieee g) {rm : Nat} (hrm : rm < 4) {ftz : Bool} {m : Nat} (e : ℤ) (hm : m ≠ 0)
include hg hrm hm

theorem fsqrtPos_roundedOnce : RoundedOnce g rm ftz (Real.sqrt (m * (2 : ℝ) ^ e)) (fsqrtPos g rm ftz m e) := by
  rw [fsqrtPos, ← even_exponent m e]
  obtain ⟨hm', -⟩ := even_mantissa hm e
  set m' := if e % 2 = 0 then m else m * 2
  set j := (if e % 2 = 0 then e else e - 1) / 2
  set k := 2 * g.fb + 8
  have hbits : 2 ^ (g.fb + 1) ≤ isqrt (m' * 2 ^ (2 * k)) := by
    refine le_isqrt ?_
    rw [← pow_add]
    exact (Nat.pow_le_pow_right two_pos (by omega)).trans (Nat.le_mul_of_pos_left _ (Nat.pos_of_ne_zero hm'))
  have hval : Real.sqrt (m' * ((2 : ℝ) ^ j) ^ 2) =
      sgn false * (Real.sqrt (((m' * 2 ^ (2 * k) : Nat) : ℝ) / ((1 : Nat) : ℝ)) * (2 : ℝ) ^ (j - (k : ℤ))) := by
    have hpow : ((m' * 2 ^ (2 * k) : Nat) : ℝ) / ((1 : Nat) : ℝ) = m' * ((2 : ℝ) ^ k) ^ 2 := by push_cast; ring
    rw [hpow, Real.sqrt_mul (by positivity), Real.sqrt_mul (by positivity), Real.sqrt_sq (by positivity), Real.sqrt_sq (by positivity),
      zpow_sub₀ two_ne_zero, zpow_natCast, sgn_false]
    field_simp
  have hroot := between_sqrt (m' * 2 ^ (2 * k)) one_ne_zero (j - (k : ℤ))
  rw [Nat.div_one, Nat.mul_one] at hroot
  rw [hval]
  exact froundNZ_of_bits hg hrm hroot hbits

theorem frsqPos_roundedOnce (hlt : m < 2 ^ (g.fb + 1)) : RoundedOnce g rm ftz (1 / Real.sqrt (m * (2 : ℝ) ^ e)) (frsqPos g rm ftz m e) := by
  rw [frsqPos, ← even_exponent m e]
  obtain ⟨hm', hle⟩ := even_mantissa hm e
  set m' := if e % 2 = 0 then m else m * 2
  set j := (if e % 2 = 0 then e else e - 1) / 2
  set k := 2 * g.fb + 8
  have hbits : 2 ^ (g.fb + 1) ≤ isqrt (2 ^ (2 * k) / m') := by
    refine le_isqrt ?_
    rw [← pow_add, Nat.le_div_iff_mul_le (Nat.pos_of_ne_zero hm')]
    have hwide : m' ≤ 2 ^ (g.fb + 1 + 1) := by rw [pow_succ]; omega
    refine (Nat.mul_le_mul_left _ hwide).trans ?_
    rw [← pow_add]
    exact Nat.pow_le_pow_right two_pos (by omega)
  have hval : 1 / Real.sqrt (m' * ((2 : ℝ) ^ j) ^ 2) =
      sgn false * (Real.sqrt (((2 ^ (2 * k) : Nat) : ℝ) / m') * (2 : ℝ) ^ (-(k : ℤ) - j)) := by
    have hpow : ((2 ^ (2 * k) : Nat) : ℝ) = ((2 : ℝ) ^ k) ^ 2 := by push_cast; ring
    rw [hpow, Real.sqrt_div (by positivity), Real.sqrt_mul (by positivity), Real.sqrt_sq (by positivity), Real.sqrt_sq (by positivity),
      zpow_sub₀ two_ne_zero, zpow_neg, zpow_natCast, sgn_false]
    field_simp
  rw [hval]
  exact froundNZ_of_bits hg hrm (between_sqrt _ hm' _) hbits

end

section
variable {g : Fmt} (hg : Ieee g) {rm : Nat} (hrm : rm < 4) {ftz : Bool} {a : Nat} {x : ℝ} (ha : Reads g ftz a x)
include hg ha

theorem exists_fin_of_pos (hx : 0 < x) : ∃ m e, fdec g (ftzIn g ftz a) = .fin false m e ∧ x = m * (2 : ℝ) ^ e ∧ m ≠ 0 ∧ m < 2 ^ (g.fb + 1) := by
  obtain ⟨neg, m, e, hdec, hval, hm⟩ := exists_fin_of_reads hg ha
  have hm0 := mantissa_ne_zero hval hx.ne'
  cases neg with
  | false => exact ⟨m, e, hdec, by simpa using hval, hm0, hm⟩
  | true =>
    have hneg : x ≤ 0 := by
      rw [hval, sgn_true, neg_one_mul, neg_mul, neg_nonpos]
      positivity
    exact absurd hx (not_lt.2 hneg)

include hrm

theorem fsqrt_roundedOnce (hx : 0 < x) : RoundedOnce g rm ftz (Real.sqrt x) (fsqrt g rm ftz a) := by
  obtain ⟨m, e, hdec, rfl, hm0, -⟩ := exists_fin_of_pos hg ha hx
  simp only [fsqrt, hdec, if_neg hm0, Bool.false_eq_true, if_false]
  exact fsqrtPos_roundedOnce hg hrm e hm0

theorem frsq_roundedOnce (hx : 0 < x) : RoundedOnce g rm ftz (1 / Real.sqrt x) (frsq g rm ftz a) := by
  obtain ⟨m, e, hdec, rfl, hm0, hm⟩ := exists_fin_of_pos hg ha hx
  simp only [frsq, hdec, if_neg hm0, Bool.false_eq_true, if_false]
  exact frsqPos_roundedOnce hg hrm e hm0 hm

end

end Sys2Proof.Proofs
end

section
/-!
PROOFS. EXP2 and LOG2 where they are exact (spec/11 R225), CVT, and all together. Settles FloatingResultsRoundOnce.
-/
namespace Sys2Proof.Proofs

open Sys2Proof.Machine Sys2Proof.Claims

/-! ### EXP2 and LOG2 of exact results -/

section
variable {g : Fmt} (hg : Ieee g) {rm : Nat} (hrm : rm < 4) {ftz st : Bool} {e : ℤ}
include hg

/-- A unit, with or without something below a unit of it, stays in its binade. -/
theorem wideTop_one : wideTop g rm false 1 e st = e := by
  have htop : topBit 1 = 0 := rfl
  have hfrac : 2 ≤ 2 ^ g.fb := by
    calc 2 = 2 ^ 1 := rfl
      _ ≤ 2 ^ g.fb := Nat.pow_le_pow_right two_pos hg.frac
  have hplace : widePlace g 1 e = e - g.fb := by rw [widePlace, htop]; omega
  have hround : (roundAt rm false 1 e st (widePlace g 1 e)).1 = 2 ^ g.fb ∨ (roundAt rm false 1 e st (widePlace g 1 e)).1 = 2 ^ g.fb + 1 := by
    have hunits : (e - (e - (g.fb : ℤ))).toNat = g.fb := by omega
    rw [hplace, roundAt, if_pos (by omega), hunits, Nat.one_mul]
    exact (ite_eq_or_eq _ _ _).symm
  have hbit : topBit (roundAt rm false 1 e st (widePlace g 1 e)).1 = g.fb := by
    obtain h | h := hround <;> rw [h] <;> exact topBit_eq (by omega) (by rw [pow_succ]; omega)
  rw [wideTop, hbit, hplace]
  omega

theorem froundNZ_one_above (h : (g.bias : ℤ) < e) : froundNZ g rm ftz false 1 e st = { bits := overflowBits g rm false, flags := 20 } :=
  froundNZ_of_overflow (by rwa [wideTop_one hg])

/-- A value far below the format's last place leaves nothing of itself but that RU rounds it up. -/
def belowPlace (g : Fmt) (rm : Nat) (ftz : Bool) : FR :=
  if ftz = true ∧ (if rm = 2 then 1 else 0) ≠ 0 ∧ (if rm = 2 then 1 else 0) < 2 ^ g.fb then { bits := zeroBits g false, flags := 24 }
  else { bits := packBits g false (if rm = 2 then 1 else 0) (leastPlace g), flags := 24 }

include hrm

theorem froundNZ_one_below (h : e + 2 ≤ leastPlace g) : froundNZ g rm ftz false 1 e st = belowPlace g rm ftz := by
  have hsub : e < 1 - (g.bias : ℤ) := by rw [leastPlace] at h; omega
  have hlast : lastPlace g 1 e = leastPlace g := by
    rw [lastPlace, show topBit 1 = 0 from rfl, if_pos (by omega), leastPlace]
  obtain ⟨k, hk⟩ : ∃ k : Nat, leastPlace g = e + ((k + 1 + 1 : Nat) : ℤ) := ⟨(leastPlace g - e - 2).toNat, by omega⟩
  have hround : roundAt rm false 1 e st (leastPlace g) = (if rm = 2 then 1 else 0, true) := by
    have hunit : 1 < 2 ^ (k + 1) := Nat.one_lt_two_pow (by omega)
    have hcut : 1 < 2 ^ (k + 1 + 1) := Nat.one_lt_two_pow (by omega)
    rw [hk, roundAt_of_lt hrm, Nat.div_eq_of_lt hcut, Nat.mod_eq_of_lt hcut]
    obtain rfl | rfl | rfl | rfl : rm = 0 ∨ rm = 1 ∨ rm = 2 ∨ rm = 3 := by omega
    all_goals simp [cutUp, magMode, hunit.ne]
  have htop : wideTop g rm false 1 e st = e := wideTop_one hg
  have hbias := hg.bias
  rw [froundNZ_of_finite (by omega), hlast, hround, htop]
  simp only [if_true, if_pos hsub, belowPlace]

theorem froundNZ_two_zpow (k : ℤ) : RoundedOnce g rm ftz ((2 : ℝ) ^ k) (froundNZ g rm ftz false 1 k false) :=
  froundNZ_exact hg hrm (realOf_fin.2 (by simp)) (zpow_ne_zero k two_ne_zero)

/-- One is no subnormal, so FTZ leaves it. -/
theorem froundNZ_one_ftz : froundNZ g rm false false 1 0 false = froundNZ g rm ftz false 1 0 false := by
  have hbias := hg.bias
  have htop : wideTop g rm false 1 0 false = 0 := wideTop_one hg
  have hlast : lastPlace g 1 0 = widePlace g 1 0 := by
    rw [lastPlace, widePlace, show topBit 1 = 0 from rfl, if_neg (by omega)]
  have hbits := (wide_bits (g := g) (neg := false) hrm one_ne_zero (between_exact 1 0) nofun).1
  rw [← hlast] at hbits
  have hkeep : ∀ on : Bool, ¬ (on = true ∧ (roundAt rm false 1 0 false (lastPlace g 1 0)).1 ≠ 0 ∧
      (roundAt rm false 1 0 false (lastPlace g 1 0)).1 < 2 ^ g.fb) := fun on ⟨_, _, hlt⟩ => not_lt.2 hbits hlt
  rw [froundNZ_of_finite (by omega), froundNZ_of_finite (by omega), if_neg (hkeep false), if_neg (hkeep ftz)]

end

section
variable {g : Fmt} (hg : Ieee g) {rm : Nat} (hrm : rm < 4) {ftz neg : Bool} {m : Nat} {e k : ℤ}

/-- The whole part of a number that is an integer is that integer, with nothing left. -/
theorem splitInt_of_integer (he : e < 0) (hk : (k : ℝ) = sgn neg * m * (2 : ℝ) ^ e) : splitInt neg m e = (k, 0, (-e).toNat) := by
  have hscale : (if neg then -(m : ℤ) else m) = k * 2 ^ (-e).toNat := by
    have : ((if neg then -(m : ℤ) else m : ℤ) : ℝ) = k * (2 : ℝ) ^ (-e).toNat := by
      rw [cast_signed, hk, mul_assoc, ← zpow_natCast, ← zpow_add₀ two_ne_zero, show e + ((-e).toNat : ℤ) = 0 by omega, zpow_zero, mul_one]
    exact_mod_cast this
  have hpos : (2 : ℤ) ^ (-e).toNat ≠ 0 := by positivity
  simp only [splitInt]
  rw [hscale, Int.mul_ediv_cancel _ hpos, sub_self, Int.toNat_zero]

variable (hm : m ≠ 0) (hk : (k : ℝ) = sgn neg * m * (2 : ℝ) ^ e)
include hm hk

theorem integer_binade : (2 : ℝ) ^ (e + topBit m) ≤ |(k : ℝ)| ∧ |(k : ℝ)| < (2 : ℝ) ^ (e + topBit m + 1) := by
  rw [hk, abs_sgn_mul]
  exact between_binade hm (between_exact m e)

include hg

/-- Beyond 2^±8000 every format rounds a power of two alike (R199, R201). -/
theorem froundNZ_far (hrm : rm < 4) (h : 13 ≤ e + topBit m) :
    froundNZ g rm ftz false 1 (if neg then -8000 else 8000) true = froundNZ g rm ftz false 1 k false := by
  have hbig : (2 : ℝ) ^ (13 : ℤ) ≤ |(k : ℝ)| := (zpow_le_zpow_right₀ one_le_two h).trans (integer_binade hm hk).1
  have hint : 8192 ≤ |k| := by
    have : ((8192 : ℤ) : ℝ) ≤ ((|k| : ℤ) : ℝ) := by rw [Int.cast_abs]; norm_num at hbig ⊢; exact hbig
    exact_mod_cast this
  have hsmall := hg.small
  have hmag : (0 : ℝ) ≤ m * (2 : ℝ) ^ e := by positivity
  cases neg with
  | false =>
    have hk0 : 0 ≤ k := by
      have : (0 : ℝ) ≤ k := by rw [hk, sgn_false, one_mul]; exact hmag
      exact_mod_cast this
    rw [abs_of_nonneg hk0] at hint
    rw [if_neg Bool.false_ne_true, froundNZ_one_above hg (show (g.bias : ℤ) < 8000 by omega), froundNZ_one_above hg (by omega)]
  | true =>
    have hk0 : k ≤ 0 := by
      have : (k : ℝ) ≤ 0 := by rw [hk, sgn_true, neg_one_mul, neg_mul]; exact neg_nonpos.2 hmag
      exact_mod_cast this
    rw [abs_of_nonpos hk0] at hint
    have hplace : leastPlace g = 1 - (g.bias : ℤ) - g.fb := rfl
    rw [if_pos rfl, froundNZ_one_below hg hrm (show -8000 + 2 ≤ leastPlace g by omega), froundNZ_one_below hg hrm (by omega)]

include hrm

theorem exp2Fin_roundedOnce (a : Nat) : RoundedOnce g rm ftz ((2 : ℝ) ^ k) (exp2Fin g rm ftz a neg m e) := by
  have hpow := froundNZ_two_zpow (ftz := ftz) hg hrm k
  have hunit : (2 : ℝ) ^ (0 : ℤ) < (2 : ℝ) ^ (e + topBit m + 1) := by
    have hne : (k : ℝ) ≠ 0 := by
      rw [hk]
      cases neg <;> simp [hm, zpow_ne_zero e (two_ne_zero (α := ℝ))]
    have hone : (1 : ℝ) ≤ |(k : ℝ)| := by
      rw [← Int.cast_abs]
      exact_mod_cast Int.one_le_abs (by exact_mod_cast hne : k ≠ 0)
    rw [zpow_zero]
    exact hone.trans_lt (integer_binade hm hk).2
  have htop : 0 < e + topBit m + 1 := (zpow_lt_zpow_iff_right₀ one_lt_two).1 hunit
  by_cases hfar : 13 ≤ e + topBit m
  · rw [exp2Fin, if_pos hfar, froundNZ_far hg hm hk hrm hfar]
    exact hpow
  by_cases he : 0 ≤ e
  · have hexact : (if neg then -(m : ℤ) else m) * 2 ^ e.toNat = k := by
      have : ((if neg then -(m : ℤ) else m : ℤ) : ℝ) * (2 : ℝ) ^ e.toNat = k := by
        rw [cast_signed, hk, ← zpow_natCast, Int.toNat_of_nonneg he]
      exact_mod_cast this
    simp only [exp2Fin, if_neg hfar, if_pos he, hexact]
    exact hpow
  · have hlarge : ¬ e + topBit m < -(g.fb : ℤ) - 8 := by omega
    simp only [exp2Fin, if_neg hfar, if_neg he, if_neg hlarge, splitInt_of_integer (not_le.1 he) hk, if_true]
    exact hpow

end

/-- A power of two has the exponent of its top bit, and no other bit. -/
theorem eq_two_pow_topBit {m : Nat} {e k : ℤ} (hm : m ≠ 0) (h : m * (2 : ℝ) ^ e = (2 : ℝ) ^ k) : e + topBit m = k ∧ m = 2 ^ topBit m := by
  obtain ⟨hlo, hhi⟩ := between_binade hm (between_exact m e)
  rw [h] at hlo hhi
  have hle := (zpow_le_zpow_iff_right₀ (one_lt_two (α := ℝ))).1 hlo
  have hlt := (zpow_lt_zpow_iff_right₀ (one_lt_two (α := ℝ))).1 hhi
  have htop : e + topBit m = k := by omega
  refine ⟨htop, ?_⟩
  have hunit : (2 : ℝ) ^ e ≠ 0 := zpow_ne_zero e two_ne_zero
  have hcast : (m : ℝ) = ((2 ^ topBit m : Nat) : ℝ) := by
    refine mul_right_cancel₀ hunit ?_
    rw [h, two_pow_mul_zpow, ← htop, add_comm]
  exact_mod_cast hcast

section
variable {g : Fmt} (hg : Ieee g) {rm : Nat} (hrm : rm < 4) {ftz : Bool} {a : Nat} {x : ℝ} (ha : Reads g ftz a x)
include hg hrm ha

theorem fexp2_roundedOnce {k : ℤ} (hk : x = k) : RoundedOnce g rm ftz ((2 : ℝ) ^ k) (fexp2 g rm ftz a) := by
  obtain ⟨neg, m, e, hdec, hx, -⟩ := exists_fin_of_reads hg ha
  rw [hk] at hx
  by_cases hm : m = 0
  · have hzero : k = 0 := by
      have : (k : ℝ) = 0 := by rw [hx, hm]; simp
      exact_mod_cast this
    simp only [fexp2, hdec, if_pos hm, hzero]
    rw [froundNZ_one_ftz hg hrm]
    exact froundNZ_two_zpow hg hrm 0
  · simp only [fexp2, hdec, if_neg hm]
    exact exp2Fin_roundedOnce hg hrm hm hx a

theorem flog2_roundedOnce {k : ℤ} (hk : k ≠ 0) (hx : x = (2 : ℝ) ^ k) : RoundedOnce g rm ftz k (flog2 g rm ftz a) := by
  obtain ⟨m, e, hdec, hval, hm, -⟩ := exists_fin_of_pos hg ha (hx ▸ zpow_pos two_pos k)
  obtain ⟨htop, hbit⟩ := eq_two_pow_topBit hm (hval.symm.trans hx)
  simp only [flog2, hdec, if_neg hm, Bool.false_eq_true, if_false, log2Fin, if_pos hbit, htop]
  exact fround_exact hg hrm (realOf_intV k) (by exact_mod_cast hk)

end

/-! ### Conversions (R208) -/

theorem cvtVal_of_float {st dt rm a : Nat} {ftz : Bool} {x : ℝ} (hrm : rm < 4) (hst : 8 ≤ st) (hst' : st < 12) (hdt : 8 ≤ dt) (hdt' : dt < 12)
    (ha : Reads (fmtOf st) ftz a x) (hx : x ≠ 0) : RoundedOnce (fmtOf dt) rm ftz x (cvtVal dt st rm ftz a) := by
  simp only [cvtVal, if_pos hst, if_pos hdt]
  exact fconv_roundedOnce (ieee_of_mem _ (fmtOf_mem hdt hdt')) hrm (realOf_ftzIn (ieee_of_mem _ (fmtOf_mem hst hst')) ha) hx

theorem cvtVal_of_integer {st dt rm n : Nat} {ftz : Bool} (hrm : rm < 4) (hst : st < 8) (hdt : 8 ≤ dt) (hdt' : dt < 12) (hn : cvtInt st n ≠ 0) :
    RoundedOnce (fmtOf dt) rm ftz (cvtInt st n : ℤ) (cvtVal dt st rm ftz n) := by
  simp only [cvtVal, if_neg (not_le.2 hst), if_pos hdt]
  exact fconv_roundedOnce (ieee_of_mem _ (fmtOf_mem hdt hdt')) hrm (realOf_intV _) (by exact_mod_cast hn)

/-- Settles O30: every word hands `froundNZ` its exact result, or, of a quotient or a root, bits enough and whether any are left. -/
theorem floatingResultsRoundOnce : Obligations.FloatingResultsRoundOnce := by
  unfold Obligations.FloatingResultsRoundOnce
  intro g hmem rm hrm ftz a x ha
  have hg := ieee_of_mem g hmem
  refine ⟨fun b y hb => ?_, frcp_roundedOnce hg hrm ha, fun hx => ⟨fsqrt_roundedOnce hg hrm ha hx, frsq_roundedOnce hg hrm ha hx⟩,
    fun k => fexp2_roundedOnce hg hrm ha, fun k => flog2_roundedOnce hg hrm ha, fun st hst hst' hfmt hx dt hdt hdt' => ?_,
    fun st hst n hn dt hdt hdt' => cvtVal_of_integer hrm hst hdt hdt' hn⟩
  · exact ⟨fadd_roundedOnce hg hrm ha hb, fsub_roundedOnce hg hrm ha hb, fmul_roundedOnce hg hrm ha hb, fdiv_roundedOnce hg hrm ha hb,
      fun c z np nc hc => ffma_roundedOnce hg hrm ha hb hc, faddV_zero (realOf_ftzIn hg ha) (realOf_ftzIn hg hb)⟩
  · exact cvtVal_of_float hrm hst hst' hdt hdt' (hfmt ▸ ha) hx

end Sys2Proof.Proofs
end

section
/-!
PROOFS. The results of a ready word's lanes (spec/09 R188; spec/10 R203, R205; spec/11 R211): where no active lane traps, one result is outstanding, with the
flags that the active lanes raise together.
-/
namespace Sys2Proof.Proofs

open Sys2Proof.Machine Sys2Proof.Claims

/-- A result for each lane. -/
def laneResults (q : Nat → LaneRes) : List LaneRes := (List.range 32).map q

theorem laneResults_getElem? (q : Nat → LaneRes) {l : Nat} (hl : l < 32) : (laneResults q)[l]? = some (q l) := by
  simp [laneResults, hl]

theorem nth_laneResults (q : Nat → LaneRes) {l : Nat} (hl : l < 32) :
    nth ((laneResults q).map fun x => BitVec.ofNat 128 x.val) l = BitVec.ofNat 128 (q l).val := by
  rw [laneResults, List.map_map]
  exact nth_map_range _ hl

/-- An active lane's result traps where it has a cause. -/
theorem getLsbD_trapMask (act : Mask) (q : Nat → LaneRes) {l : Nat} (hl : l < 32) :
    (trapMask act (laneResults q)).getLsbD l = (act.getLsbD l && (q l).cause.isSome) := by
  rw [trapMask, BitVec.getLsbD_and, getLsbD_maskOf _ hl, laneResults_getElem? q hl]

/-- The flags of a run of lanes, over those raised before. -/
theorem getLsbD_foldl_or (f : Nat → Nat) {i : Nat} (hi : i < 5) (ls : List Nat) : ∀ fl : BitVec 5,
    ((ls.foldl (fun fl l => fl ||| BitVec.ofNat 5 (f l)) fl).getLsbD i = true ↔ fl.getLsbD i = true ∨ ∃ l ∈ ls, (f l).testBit i = true) := by
  induction ls with
  | nil => exact fun fl => by simp
  | cons l ls ih =>
    intro fl
    rw [List.foldl_cons, ih, BitVec.getLsbD_or, BitVec.getLsbD_ofNat, decide_eq_true hi]
    simp [or_assoc]

/-! ### Active lanes that do not trap -/

section

variable {act : Mask} {q : Nat → LaneRes} (h : ∀ l < 32, act.getLsbD l = true → (q l).cause = none)
include h

theorem trapMask_eq_zero : trapMask act (laneResults q) = 0 := by
  refine BitVec.eq_of_getLsbD_eq fun l hl => ?_
  have hzero : (0 : Mask).getLsbD l = false := BitVec.getLsbD_zero
  rw [getLsbD_trapMask act q hl, hzero]
  cases hact : act.getLsbD l with
  | false => rfl
  | true => rw [h l hl hact]; rfl

theorem trapLanes_eq_self {x : Issued} (hx : x.act = act) (s : State) (half : Bool) (d : BitVec 9) : trapLanes s x half d (laneResults q) = s := by
  unfold trapLanes
  split
  · refine List.foldlRecOn (motive := fun t => t = s) _ _ rfl fun t ht l hl => ?_
    obtain ⟨hlt, hact⟩ := mem_lanesIn.mp hl
    rw [laneResults_getElem? q hlt]
    simp only [h l hlt (hx ▸ hact), ht]
  · rfl

theorem postLanes_eq_post {x : Issued} (hx : x.act = act) (s : State) (lat : Nat) (dst : PDst) (half : Bool) (d : BitVec 9) :
    postLanes s x lat dst half d (laneResults q) =
      post s x lat dst act ((laneResults q).map fun r => BitVec.ofNat 128 r.val) (laneFlags act (laneResults q)) := by
  rw [postLanes, trapLanes_eq_self h hx, hx, trapMask_eq_zero h]
  exact congrArg (fun m => post s x lat dst m _ _) (and_all act)

theorem laneFlags_eq_foldl : laneFlags act (laneResults q) = (lanesIn act).foldl (fun fl l => fl ||| BitVec.ofNat 5 (q l).flags) 0 := by
  refine List.foldl_ext _ _ _ fun fl l hl => ?_
  obtain ⟨hlt, hact⟩ := mem_lanesIn.mp hl
  rw [laneResults_getElem? q hlt]
  simp only [h l hlt hact, Option.isSome_none, Bool.false_eq_true, if_false]

/-- The active lanes' flags are raised together (R203). -/
theorem raisedBy_laneFlags : RaisedBy act (laneFlags act (laneResults q)) fun l => (q l).flags := by
  intro i hi
  rw [laneFlags_eq_foldl h, getLsbD_foldl_or (fun l => (q l).flags) hi]
  simp [mem_lanesIn, and_assoc]

end

/-- Lanes that raise no flag. -/
theorem eq_zero_of_raisedBy {m : Mask} {fl : BitVec 5} {f : Nat → Nat} (h : RaisedBy m fl f) (hf : ∀ l < 32, m.getLsbD l = true → f l = 0) : fl = 0 := by
  refine BitVec.eq_of_getLsbD_eq fun i hi => ?_
  refine (Bool.eq_false_iff.mpr fun hbit => ?_).trans BitVec.getLsbD_zero.symm
  obtain ⟨l, hl, hact, hflag⟩ := (h i hi).mp hbit
  rw [hf l hl hact, Nat.zero_testBit] at hflag
  exact Bool.false_ne_true hflag

/-! ### A ready word's results -/

section

variable {s : State} {c k : Nat} {w : Warp} {r : ClauseRun} {v : WView}

theorem post_issued (lat : Nat) (d : PDst) (m : Mask) (vals : List W128) (fl : BitVec 5) :
    post (issued s c k w r v) (warpWord c k w r v) lat d m vals fl = posted s c k w r v lat d m vals fl := by
  simp only [post, warpWord, issued, getWarp_setWarp, setWarp_setWarp]
  rfl

/-- The enables that a ready word finds are its context's (R204). -/
theorem trapEnables_issued : trapEnables (issued s c k w r v) (.warp c k) = fptrap s w.ctx := by
  obtain ⟨x, g, p, f, -, hwarp⟩ := getWarp_issued (s := s) (c := c) (k := k) (w := w) (r := r) (v := v)
  simp only [trapEnables, whoIs, hwarp]
  rfl

/-- What a word leaves behind whose meaning is the results `q` of its lanes, no active one of which traps. -/
theorem posted_of_lanes {i : Instr} {lat : Nat} {d : PDst} {half : Bool} {didx : BitVec 9} {q : Nat → LaneRes}
    (hexec : exec i s = .next (postLanes (issued s c k w r v) (warpWord c k w r v) lat d half didx (laneResults q)))
    (hquiet : ∀ l < 32, (active w r v).getLsbD l = true → (q l).cause = none) :
    ∃ vals fl, exec i s = .next (posted s c k w r v lat d (active w r v) vals fl) ∧
      (∀ l < 32, nth vals l = BitVec.ofNat 128 (q l).val) ∧ RaisedBy (active w r v) fl fun l => (q l).flags := by
  rw [postLanes_eq_post hquiet rfl, post_issued] at hexec
  exact ⟨_, _, hexec, fun l hl => nth_laneResults q hl, raisedBy_laneFlags hquiet⟩

/-- A word whose active lanes compute plain values. -/
theorem results_of_lanes {i : Instr} {lat : Nat} {d : PDst} {half : Bool} {didx : BitVec 9} {q : Nat → LaneRes} {f : Nat → Nat}
    (hexec : exec i s = .next (postLanes (issued s c k w r v) (warpWord c k w r v) lat d half didx (laneResults q)))
    (hq : ∀ l < 32, (active w r v).getLsbD l = true → q l = plain (f l)) : Results i s c k w r v lat d f := by
  obtain ⟨vals, fl, hposted, hvals, hflags⟩ := posted_of_lanes hexec fun l hl hact => by rw [hq l hl hact]; rfl
  obtain rfl := eq_zero_of_raisedBy hflags fun l hl hact => by rw [hq l hl hact]; rfl
  exact ⟨vals, hposted, fun l hl hact => by rw [hvals l hl, hq l hl hact]; rfl⟩

/-- A word whose lanes compute floating results, under the context's enables. -/
theorem floatResults_of_lanes {i : Instr} {lat : Nat} {d : PDst} {half : Bool} {didx : BitVec 9} {f : Nat → FR}
    (hexec : exec i s = .next (postLanes (issued s c k w r v) (warpWord c k w r v) lat d half didx
      (laneResults fun l => fpLane (fptrap s w.ctx) (f l)))) : FloatResults i s c k w r v lat d f := by
  intro hquiet
  obtain ⟨vals, fl, hposted, hvals, hflags⟩ := posted_of_lanes hexec hquiet
  exact ⟨vals, fl, hposted, fun l hl _ => hvals l hl, hflags⟩

end

/-! ### Words that compute each lane alone -/

/-- A ready vector word that computes each lane from its own operands. -/
theorem exec_of_compute {i : Instr} {s : State} {view : UKind → ClauseRun → WView} {body : State → Issued → State} {c k : Nat} {w : Warp} {r : ClauseRun}
    {lat n : Nat} {dst : BitVec 9} {fn : Nat → Nat → Nat → LaneRes} {ext : Nat → Nat} (hexec : exec i s = issue s view body)
    (hready : Ready s c k w r (view .vector r))
    (hbody : body (issued s c k w r (view .vector r)) (warpWord c k w r (view .vector r)) =
      compute (issued s c k w r (view .vector r)) (warpWord c k w r (view .vector r)) lat n dst fn ext) :
    exec i s = .next (postLanes (issued s c k w r (view .vector r)) (warpWord c k w r (view .vector r)) lat (vdst dst n) false (view .vector r).didx
      (laneResults fun l => fn (opA w r (view .vector r) l) (opB w r (view .vector r) l) (opC w r (view .vector r) l))) := by
  rw [hexec, issue_of_ready hready, hbody]
  rfl

/-- A ready scalar word that does not trap writes its extended result. -/
theorem exec_of_compute_scalar {i : Instr} {s : State} {view : UKind → ClauseRun → WView} {body : State → Issued → State} {u : UnitId} {r : ClauseRun}
    {lat n a : Nat} {dst : BitVec 9} {fn : Nat → Nat → Nat → LaneRes} {ext : Nat → Nat} (hexec : exec i s = issue s view body)
    (hready : ScalarReady s u r (view u.kind r))
    (hbody : body (scalarStep s u r) (scalarWord s u r (view u.kind r)) =
      compute (scalarStep s u r) (scalarWord s u r (view u.kind r)) lat n dst fn ext)
    (hval : fn (sopA s u (view u.kind r)) (sopB s u (view u.kind r)) (sopC s u (view u.kind r)) = plain a) :
    exec i s = .next (writeScalar (scalarStep s u r) u n dst.toNat (BitVec.ofNat 128 (ext a))) := by
  have hplain : fn (nth (scalarWord s u r (view u.kind r)).a 0).toNat (nth (scalarWord s u r (view u.kind r)).b 0).toNat
      (nth (scalarWord s u r (view u.kind r)).c 0).toNat = plain a := hval
  rw [hexec, issue_of_scalarReady hready, hbody, compute_scalar hready.scalar _ _ _ _ _ (by rw [hplain]; rfl), hplain]
  rfl

end Sys2Proof.Proofs
end

section
/-!
PROOFS. Integer values (spec/10 R195, R206; spec/11 R212, R214-R217): the model's integer functions give the values that the statements are written in.
-/
namespace Sys2Proof.Proofs

open Sys2Proof.Machine Sys2Proof.Claims

/-! ### Values, and the bits of a result -/

theorem intBits_eq (t : Nat) : intBits t = width t := by simp [intBits, width]

theorem bitsT_eq (t : Nat) : bitsT t = bitWidth t := by simp [bitsT, bitWidth, or_comm]

/-- A pattern's signed value, by its highest bit. -/
theorem toInt_ofNat_eq {n : Nat} (hn : 0 < n) (a : Nat) :
    (BitVec.ofNat n a).toInt = if 2 ^ (n - 1) ≤ a % 2 ^ n then ((a % 2 ^ n : Nat) : Int) - 2 ^ n else (a % 2 ^ n : Nat) := by
  obtain ⟨m, rfl⟩ : ∃ m, n = m + 1 := ⟨n - 1, by omega⟩
  rw [BitVec.toInt_eq_toNat_cond, BitVec.toNat_ofNat, Nat.add_sub_cancel]
  have hpow : 2 ^ (m + 1) = 2 * 2 ^ m := by ring
  by_cases h : 2 ^ m ≤ a % 2 ^ (m + 1)
  · rw [if_neg (by omega), if_pos h]; norm_cast
  · rw [if_pos (by omega), if_neg h]

theorem intVal_eq_value (t a : Nat) : intVal t a = value t a := by
  unfold value
  by_cases h2 : t = 2
  · subst h2; rw [if_pos rfl, toInt_ofNat_eq (by decide)]; simp [intVal, intBits, isSignedT]
  by_cases h3 : t = 3
  · subst h3; rw [if_neg h2, if_pos rfl, toInt_ofNat_eq (by decide)]; simp [intVal, intBits, isSignedT]
  by_cases h7 : t = 7
  · subst h7; simp [intVal, intBits, isSignedT]
  · simp [intVal, intBits, isSignedT, h2, h3, h7]

theorem wrapTo_eq_wrapped (t : Nat) (i : Int) : wrapTo (width t) i = wrapped t i := by
  unfold wrapTo width wrapped
  split <;> rw [BitVec.toNat_ofInt] <;> rfl

theorem wrapTo_lt (n : Nat) (i : Int) : wrapTo n i < 2 ^ n := by
  have hlt : i % 2 ^ n < 2 ^ n := Int.emod_lt_of_pos i (by positivity)
  have hge : 0 ≤ i % 2 ^ n := Int.emod_nonneg i (by positivity)
  zify
  rwa [wrapTo, Int.toNat_of_nonneg hge]

theorem wrapped_lt (t : Nat) (i : Int) : wrapped t i < 2 ^ width t := wrapTo_eq_wrapped t i ▸ wrapTo_lt _ i

/-- A number of the width stands for itself. -/
theorem wrapped_natCast {t x : Nat} (h : x < 2 ^ width t) : wrapped t (x : Int) = x := by
  rw [← wrapTo_eq_wrapped, wrapTo]
  norm_cast
  exact Nat.mod_eq_of_lt h

/-- A pattern's value is written back as its bits. -/
theorem wrapped_value (t a : Nat) : wrapped t (value t a) = a % 2 ^ width t := by
  have hemod : intVal t a % 2 ^ width t = ((a % 2 ^ width t : Nat) : Int) := by
    simp only [intVal, intBits_eq]
    split
    · rw [Int.sub_emod_right]; norm_cast; exact Nat.mod_mod _ _
    · norm_cast; exact Nat.mod_mod _ _
  rw [← wrapTo_eq_wrapped, ← intVal_eq_value, wrapTo, hemod]
  rfl

theorem wrapped_neg_one (t : Nat) : wrapped t (-1) = 2 ^ width t - 1 := by
  unfold wrapped width
  split <;> rfl

theorem clampTo_eq_clamped (t : Nat) (i : Int) : clampTo (isSignedT t) (width t) i = clamped t i := by
  unfold clampTo clamped isSignedT width least greatest
  by_cases h2 : t = 2
  · subst h2; norm_num; omega
  by_cases h3 : t = 3
  · subst h3; norm_num; omega
  by_cases h7 : t = 7
  · subst h7; norm_num; omega
  · simp only [h2, h3, h7]; norm_num; omega

theorem intOut_eq_outcome (t : Nat) (sat : Bool) (i : Int) : intOut t sat i = outcome t sat i := by
  simp only [intOut, outcome, intBits_eq, wrapTo_eq_wrapped, clampTo_eq_clamped]

theorem value_mem (t a : Nat) : least t ≤ value t a ∧ value t a ≤ greatest t := by
  rw [← intVal_eq_value]
  unfold intVal intBits isSignedT least greatest
  by_cases h2 : t = 2
  · subst h2; norm_num; split <;> omega
  by_cases h3 : t = 3
  · subst h3; norm_num; split <;> omega
  by_cases h7 : t = 7
  · subst h7; norm_num; omega
  · simp only [h2, h3, h7]; norm_num; omega

/-- A value of the type is not clamped. -/
theorem outcome_value (t : Nat) (sat : Bool) (a : Nat) : outcome t sat (value t a) = wrapped t (value t a) := by
  obtain ⟨hlo, hhi⟩ := value_mem t a
  unfold outcome clamped
  split
  · rw [min_eq_right hhi, max_eq_right hlo]
  · rfl

/-- Every value of a type lies within 2 to its width. -/
theorem value_bounds (t a : Nat) : -2 ^ width t ≤ value t a ∧ value t a < 2 ^ width t := by
  obtain ⟨hlo, hhi⟩ := value_mem t a
  have hleast : -2 ^ width t ≤ least t := by unfold width least; grind
  have hgreatest : greatest t < 2 ^ width t := by unfold width greatest; grind
  exact ⟨hleast.trans hlo, hhi.trans_lt hgreatest⟩

/-! ### R212: a 32-bit result in a 64-bit register -/

theorem scalarExt_eq_extended {t x : Nat} (h : t = 2 → x < 2 ^ 32) : scalarExt t x = extended t x := by
  unfold scalarExt extended
  by_cases h2 : t = 2
  · have hx := h h2
    rw [if_pos h2, BitVec.toNat_signExtend, BitVec.msb_eq_decide, BitVec.toNat_setWidth, BitVec.toNat_ofNat, Nat.mod_eq_of_lt hx]
    rw [Nat.mod_eq_of_lt (by omega : x < 2 ^ 64)]
    by_cases hsign : 2 ^ 31 ≤ x
    · rw [if_pos (by simp [h2]; omega), if_pos (by simpa using hsign)]
    · rw [if_neg (by simp [h2]; omega), if_neg (by simpa using hsign), Nat.add_zero]
  · simp [h2]

theorem scalarExt_wrapped (t : Nat) (i : Int) : scalarExt t (wrapped t i) = extended t (wrapped t i) :=
  scalarExt_eq_extended fun h => by subst h; exact wrapped_lt 2 i

/-! ### R217: shifts, fields and counts -/

theorem shlN_eq (n a k : Nat) : shlN n a k = a * 2 ^ k % 2 ^ n := by
  unfold shlN
  split
  · next h => exact (Nat.mod_eq_zero_of_dvd (Dvd.dvd.mul_left (pow_dvd_pow 2 h) a)).symm
  · rfl

theorem shrN_eq (t a k : Nat) : shrN t a k = wrapped t (value t a / 2 ^ k) := by
  simp only [shrN, intBits_eq, intVal_eq_value, wrapTo_eq_wrapped]
  split
  · next h =>
    have hpow : (2 : Int) ^ width t ≤ 2 ^ k := pow_le_pow_right₀ one_le_two h
    obtain ⟨hlo, hhi⟩ := value_bounds t a
    split
    · next hneg => rw [Int.ediv_eq_neg_one_of_neg_of_le hneg ((neg_le.mp hlo).trans hpow), wrapped_neg_one]
    · next hpos =>
      rw [Int.ediv_eq_zero_of_lt (not_lt.mp hpos) (hhi.trans_le hpow)]
      exact (wrapped_natCast (by positivity)).symm
  · rfl

theorem clzN_eq (n a : Nat) : clzN n a = n - (a % 2 ^ n).size := by
  unfold clzN
  dsimp only
  split
  · next h => rw [h, Nat.size_zero, Nat.sub_zero]
  · next h =>
    have hsize : (a % 2 ^ n).size = Nat.log2 (a % 2 ^ n) + 1 :=
      le_antisymm (Nat.size_le.mpr Nat.lt_log2_self) (Nat.lt_size.mpr (Nat.log2_self_le h))
    omega

theorem bfe_eq_extracted (t a b : Nat) : bfe t a b = extracted t a b := by
  have hmin : (if b / 256 % 256 ≤ width t then b / 256 % 256 else width t) = min (b / 256 % 256) (width t) := by
    rw [min_def]
  have hfield (len : Nat) (v : Int) : ((wrapTo len v : Nat) : Int) = v % 2 ^ len :=
    Int.toNat_of_nonneg (Int.emod_nonneg v (by positivity))
  simp only [bfe, extracted, intBits_eq, intVal_eq_value, wrapTo_eq_wrapped, hmin, ← hfield]
  split
  · rfl
  · have hlt := (wrapTo_lt (min (b / 256 % 256) (width t)) (value t a / 2 ^ (b % 256))).trans_le
      (Nat.pow_le_pow_right two_pos (min_le_right _ (width t)))
    rw [wrapped_natCast hlt]
    simp only [isSignedT, Bool.and_eq_true, Bool.or_eq_true, decide_eq_true_eq]
    norm_cast

theorem scalarExt_extracted (t a b : Nat) : scalarExt t (extracted t a b) = extended t (extracted t a b) := by
  unfold extracted
  dsimp only
  split_ifs
  · exact scalarExt_eq_extended fun _ => by positivity
  · exact scalarExt_wrapped t _
  · exact scalarExt_wrapped t _

end Sys2Proof.Proofs
end

section
/-!
PROOFS. Words that compute each lane from its operands alone, without flags (spec/11 R211-R217): their result in a vector clause and in a scalar clause.
Settles IntegerArithmetic and AddressAndBitWords.
-/
namespace Sys2Proof.Proofs

open Sys2Proof.Machine Sys2Proof.Claims

/-- A full-form word whose meaning, where `ok` holds of it, gives each lane the plain value `g` of its type and operands; `ext` extends it in a scalar clause. -/
def PlainWord (mk : Full → Instr) (op lat : Nat) (n : Nat → Nat) (ok : Full → Prop) (ext : Nat → Nat → Nat) (g : Nat → Full → Nat → Nat → Nat → Nat) :
    Prop :=
  ∀ f s, ok f → exec (mk f) s = issueFull op f s fun b x =>
    compute b x lat (n f.ty.toNat) f.dst (fun p q c => plain (g f.ty.toNat f p q c)) (ext f.ty.toNat)

/-! ### Legal words of a scalar clause -/

/-- A legal word's type and modifiers are among those of its opcode (R39). -/
theorem wspec_ok_of_legal {op : Nat} {f : Full} {k : UKind} {r : ClauseRun} (h : (viewFull op f k r).legal = true) :
    (wspec op (k != .vector) f).ok = true := by
  simp only [viewFull, legalFull, Bool.and_eq_true] at h
  tauto

theorem kind_of_scalar {u : UnitId} (h : ∀ c k, u ≠ .warp c k) : (u.kind != .vector) = true := by
  cases u with
  | warp c k => exact absurd rfl (h c k)
  | front c k => rfl
  | thread q => rfl

theorem wspec_ok_of_scalarReady {op : Nat} {f : Full} {s : State} {u : UnitId} {r : ClauseRun} (h : ScalarReady s u r (viewFull op f u.kind r)) :
    (wspec op true f).ok = true :=
  kind_of_scalar h.scalar ▸ wspec_ok_of_legal h.legal

/-- The words that have a floating meaning too have none in a scalar clause (R212). -/
theorem isIntT_of_wspec_ok {op : Nat} {f : Full} (hop : op ∈ [0x20, 0x21, 0x22, 0x25, 0x26, 0x27, 0x28, 0x29, 0x2A, 0x2D])
    (hok : (wspec op true f).ok = true) : isIntT f.ty.toNat = true := by
  simp only [List.mem_cons, List.not_mem_nil, or_false] at hop
  obtain rfl | rfl | rfl | rfl | rfl | rfl | rfl | rfl | rfl | rfl := hop
  all_goals
    simp [wspec, specArith, fixedW, isIntT] at hok ⊢
    tauto

/-! ### What such a word leaves -/

section

variable {mk : Full → Instr} {op lat : Nat} {n : Nat → Nat} {ok : Full → Prop} {ext : Nat → Nat → Nat} {g : Nat → Full → Nat → Nat → Nat → Nat}

theorem PlainWord.results (hword : PlainWord mk op lat n ok ext g) {s : State} {c k : Nat} {w : Warp} {r : ClauseRun} {f : Full}
    (hok : ok f) (hready : Ready s c k w r (viewFull op f .vector r)) :
    Results (mk f) s c k w r (viewFull op f .vector r) lat (vdst f.dst (n f.ty.toNat)) (fun l => g f.ty.toNat f (opA w r (viewFull op f .vector r) l)
      (opB w r (viewFull op f .vector r) l) (opC w r (viewFull op f .vector r) l)) :=
  results_of_lanes (exec_of_compute (hword f s hok) hready rfl) fun _ _ _ => rfl

theorem PlainWord.intWord (hword : PlainWord mk op lat typeRegs (fun f => isIntT f.ty.toNat = true) ext g) : IntWord mk op lat g :=
  fun _ _ _ _ _ _ hint hready => hword.results hint hready

theorem PlainWord.bitWord (hword : PlainWord mk op lat n (fun _ => True) ext g) : BitWord mk op lat n g :=
  fun _ _ _ _ _ _ hready => hword.results trivial hready

theorem PlainWord.scalarWord {g' : Nat → Full → Nat → Nat → Nat → Nat} (hword : PlainWord mk op lat n ok ext g)
    (hok : ∀ f, (wspec op true f).ok = true → ok f) (hext : ∀ t f p q c, ext t (g t f p q c) = g' t f p q c) :
    ScalarWord mk op n (fun _ _ _ _ => True) g' := by
  intro s u r f hready _
  rw [← hext]
  exact exec_of_compute_scalar (hword f s (hok f (wspec_ok_of_scalarReady hready))) hready rfl rfl

end

/-! ### Arithmetic (R214) -/

theorem isFltT_of_isIntT {t : Nat} (h : isIntT t = true) : isFltT t = false := by
  simp only [isIntT, isFltT, Bool.or_eq_true, decide_eq_true_eq, Bool.or_eq_false_iff, decide_eq_false_iff_not] at *
  omega

/-- A two-operand word on an integer type. -/
theorem plainWord_of_arith2 {mk : Full → Instr} {op lat : Nat} {fi : Int → Int → Int} {ff : Fmt → Nat → Bool → Nat → Nat → FR}
    {g : Nat → Full → Nat → Nat → Nat → Nat} (hexec : ∀ f s, exec (mk f) s = issueFull op f s fun b x => arith2 b x f lat fi ff)
    (hg : ∀ t f p q c, outcome t (modB f 4) (fi (value t p) (value t q)) = g t f p q c) :
    PlainWord mk op lat typeRegs (fun f => isIntT f.ty.toNat = true) scalarExt g := by
  intro f s hint
  rw [hexec]
  simp only [arith2, isFltT_of_isIntT hint, Bool.false_eq_true, if_false, intVal_eq_value, intOut_eq_outcome, ← hg]

theorem outcome_min (t : Nat) (sat : Bool) (p q : Nat) :
    outcome t sat (if value t p ≤ value t q then value t p else value t q) = wrapped t (min (value t p) (value t q)) := by
  rw [min_def]
  split <;> exact outcome_value t sat _

theorem outcome_max (t : Nat) (sat : Bool) (p q : Nat) :
    outcome t sat (if value t p ≤ value t q then value t q else value t p) = wrapped t (max (value t p) (value t q)) := by
  rw [max_def]
  split <;> exact outcome_value t sat _

theorem plainWord_add : PlainWord .add 0x20 2 typeRegs (fun f => isIntT f.ty.toNat = true) scalarExt
    fun t f a b _ => outcome t (modB f 4) (value t a + value t b) := plainWord_of_arith2 (fun _ _ => rfl) fun _ _ _ _ _ => rfl

theorem plainWord_sub : PlainWord .sub 0x21 2 typeRegs (fun f => isIntT f.ty.toNat = true) scalarExt
    fun t f a b _ => outcome t (modB f 4) (value t a - value t b) := plainWord_of_arith2 (fun _ _ => rfl) fun _ _ _ _ _ => rfl

theorem plainWord_mul : PlainWord .mul 0x22 4 typeRegs (fun f => isIntT f.ty.toNat = true) scalarExt
    fun t f a b _ => outcome t (modB f 4) (value t a * value t b) := plainWord_of_arith2 (fun _ _ => rfl) fun _ _ _ _ _ => rfl

theorem plainWord_min : PlainWord .min 0x25 2 typeRegs (fun f => isIntT f.ty.toNat = true) scalarExt
    fun t _ a b _ => wrapped t (min (value t a) (value t b)) := plainWord_of_arith2 (fun _ _ => rfl) fun t _ p q _ => outcome_min t _ p q

theorem plainWord_max : PlainWord .max 0x26 2 typeRegs (fun f => isIntT f.ty.toNat = true) scalarExt
    fun t _ a b _ => wrapped t (max (value t a) (value t b)) := plainWord_of_arith2 (fun _ _ => rfl) fun t _ p q _ => outcome_max t _ p q

theorem plainWord_abs : PlainWord .abs 0x27 2 typeRegs (fun f => isIntT f.ty.toNat = true) scalarExt
    fun t f a _ _ => outcome t (modB f 4) |value t a| :=
  plainWord_of_arith2 (fun _ _ => rfl) fun t f a _ _ => congrArg (outcome t (modB f 4)) (Int.natCast_natAbs (value t a))

theorem plainWord_neg : PlainWord .neg 0x28 2 typeRegs (fun f => isIntT f.ty.toNat = true) scalarExt
    fun t f a _ _ => outcome t (modB f 4) (-value t a) := plainWord_of_arith2 (fun _ _ => rfl) fun _ _ _ _ _ => rfl

theorem plainWord_mulhi : PlainWord .mulhi 0x23 4 typeRegs (fun _ => True) scalarExt
    fun t _ a b _ => wrapped t (value t a * value t b / 2 ^ width t) := fun f s _ => by
  simp only [← wrapTo_eq_wrapped, ← intVal_eq_value, ← intBits_eq]; rfl

theorem plainWord_mad : PlainWord .mad 0x24 4 typeRegs (fun _ => True) scalarExt
    fun t _ a b c => wrapped t (value t a * value t b + value t c) := fun f s _ => by
  simp only [← wrapTo_eq_wrapped, ← intVal_eq_value, ← intBits_eq]; rfl

/-- A word of every type is one of the integer types. -/
theorem PlainWord.intWord_of_all {mk : Full → Instr} {op lat : Nat} {ext : Nat → Nat → Nat} {g : Nat → Full → Nat → Nat → Nat → Nat}
    (hword : PlainWord mk op lat typeRegs (fun _ => True) ext g) : IntWord mk op lat g :=
  fun _ _ _ _ _ _ _ hready => hword.results trivial hready

/-- Settles O1: each word gives the exact result of its operands' values, and the model's last step is the statement's. -/
theorem integerArithmetic : Obligations.IntegerArithmetic := by
  unfold Obligations.IntegerArithmetic
  exact ⟨plainWord_add.intWord, plainWord_sub.intWord, plainWord_mul.intWord, plainWord_mulhi.intWord_of_all, plainWord_mad.intWord_of_all,
    plainWord_min.intWord, plainWord_max.intWord, plainWord_abs.intWord, plainWord_neg.intWord⟩

/-! ### Addresses, bits, shifts and fields (R216, R217) -/

theorem plainWord_lea : PlainWord .lea 0x2B 2 (fun _ => 1) (fun _ => True) (fun _ v => v) fun _ f a b _ => (a + b * 2 ^ modF f 4 1) % 2 ^ 32 :=
  fun _ _ _ => rfl

theorem plainWord_lea64 : PlainWord .lea64 0x2C 2 (fun _ => 2) (fun _ => True) (fun _ v => v)
    fun t f a b _ => wrapped 7 (a + value t b * 2 ^ modF f 4 1) := fun f s _ => by
  simp only [← wrapTo_eq_wrapped, ← intVal_eq_value]; rfl

theorem plainWord_popc : PlainWord .popc 0x2E 2 (fun _ => 1) (fun _ => True) (fun _ v => v)
    fun t _ a _ _ => ((List.range (bitWidth t)).filter (fun i => a.testBit i)).length := fun f s _ => by
  simp only [← bitsT_eq]; rfl

theorem plainWord_clz : PlainWord .clz 0x2F 2 (fun _ => 1) (fun _ => True) (fun _ v => v)
    fun t _ a _ _ => bitWidth t - (a % 2 ^ bitWidth t).size := fun f s _ => by
  simp only [← bitsT_eq, ← clzN_eq]; rfl

theorem plainWord_and : PlainWord .and 0x30 2 typeRegs (fun _ => True) (fun _ v => v) fun t _ a b _ => (a &&& b) % 2 ^ bitWidth t := fun f s _ => by
  simp only [← bitsT_eq]; rfl

theorem plainWord_or : PlainWord .or 0x31 2 typeRegs (fun _ => True) (fun _ v => v) fun t _ a b _ => (a ||| b) % 2 ^ bitWidth t := fun f s _ => by
  simp only [← bitsT_eq]; rfl

theorem plainWord_xor : PlainWord .xor 0x32 2 typeRegs (fun _ => True) (fun _ v => v) fun t _ a b _ => (a ^^^ b) % 2 ^ bitWidth t := fun f s _ => by
  simp only [← bitsT_eq]; rfl

theorem plainWord_not : PlainWord .not 0x33 2 typeRegs (fun _ => True) (fun _ v => v)
    fun t _ a _ _ => 2 ^ bitWidth t - 1 - a % 2 ^ bitWidth t := fun f s _ => by
  simp only [← bitsT_eq]; rfl

theorem plainWord_shl : PlainWord .shl 0x34 2 typeRegs (fun _ => True) (fun _ v => v) fun t _ a b _ => a * 2 ^ b % 2 ^ bitWidth t := fun f s _ => by
  simp only [← bitsT_eq, ← shlN_eq]; rfl

theorem plainWord_shr : PlainWord .shr 0x35 2 typeRegs (fun _ => True) scalarExt fun t _ a b _ => wrapped t (value t a / 2 ^ b) := fun f s _ => by
  simp only [← shrN_eq]; rfl

theorem plainWord_bfe : PlainWord .bfe 0x36 2 typeRegs (fun _ => True) scalarExt fun t _ a b _ => extracted t a b := fun f s _ => by
  simp only [← bfe_eq_extracted]; rfl

theorem plainWord_bfi : PlainWord .bfi 0x37 2 typeRegs (fun _ => True) (fun _ v => v) fun t _ a b c => bfi (bitWidth t) a b c := fun f s _ => by
  simp only [← bitsT_eq]; rfl

/-! ### The bits of BFI -/

/-- A field of `m` bits from bit `p` of a number, its bits from the numbers above, in and below it. -/
theorem testBit_three {p m low mid : Nat} (high : Nat) (hlow : low < 2 ^ p) (hmid : mid < 2 ^ m) (i : Nat) :
    (2 ^ (p + m) * high + mid * 2 ^ p + low).testBit i =
      if i < p then low.testBit i else if i < p + m then mid.testBit (i - p) else high.testBit (i - (p + m)) := by
  have hsplit : 2 ^ (p + m) * high + mid * 2 ^ p + low = 2 ^ p * (2 ^ m * high + mid) + low := by ring
  rw [hsplit, Nat.testBit_two_pow_mul_add _ hlow]
  split
  · rfl
  · rw [Nat.testBit_two_pow_mul_add _ hmid]
    by_cases h : i - p < m
    · rw [if_pos h, if_pos (by omega)]
    · rw [if_neg h, if_neg (by omega), Nat.sub_sub]

/-- The field that BFI inserts, cut at its length and at the width: `m` bits. -/
theorem bfi_field (a : Nat) {n pos len m : Nat} (hm : min (pos + len) n = pos + m) :
    (a % 2 ^ len) * 2 ^ pos % 2 ^ n % 2 ^ (pos + m) = a % 2 ^ m * 2 ^ pos := by
  rw [Nat.mod_mod_of_dvd _ (pow_dvd_pow 2 (by omega : pos + m ≤ n)), mul_comm, pow_add, Nat.mul_mod_mul_left,
    Nat.mod_mod_of_dvd _ (pow_dvd_pow 2 (by omega : m ≤ len)), mul_comm]

/-- BFI of a field that begins within the width: C above and below the field, A's low bits in it. -/
theorem bfi_eq {n b m : Nat} (a c : Nat) (h : ¬(b / 256 % 256 = 0 ∨ n ≤ b % 256)) (hm : min (b % 256 + b / 256 % 256) n = b % 256 + m) :
    bfi n a b c = 2 ^ (b % 256 + m) * (c % 2 ^ n / 2 ^ (b % 256 + m)) + a % 2 ^ m * 2 ^ (b % 256) + c % 2 ^ n % 2 ^ (b % 256) := by
  have hlast : (if b % 256 + b / 256 % 256 ≤ n then b % 256 + b / 256 % 256 else n) = b % 256 + m := (min_def _ _).symm.trans hm
  have hcond : (decide (b / 256 % 256 = 0) || decide (n ≤ b % 256)) = false := by simpa using h
  simp only [bfi, hcond, Bool.false_eq_true, if_false, hlast, bfi_field a hm]
  rw [mul_comm]

theorem testBit_bfi (n a b c : Nat) {i : Nat} (hi : i < n) : (bfi n a b c).testBit i =
    if b % 256 ≤ i ∧ i < b % 256 + b / 256 % 256 then a.testBit (i - b % 256) else c.testBit i := by
  by_cases h : b / 256 % 256 = 0 ∨ n ≤ b % 256
  · have hnone : bfi n a b c = c % 2 ^ n := if_pos (by simpa using h)
    rw [hnone, if_neg (by omega), Nat.testBit_mod_two_pow, decide_eq_true hi, Bool.true_and]
  · obtain ⟨m, hm⟩ : ∃ m, min (b % 256 + b / 256 % 256) n = b % 256 + m := ⟨_, (Nat.add_sub_cancel' (by omega)).symm⟩
    rw [bfi_eq a c h hm, testBit_three _ (Nat.mod_lt _ (by positivity)) (Nat.mod_lt _ (by positivity))]
    simp only [Nat.testBit_mod_two_pow, Nat.testBit_div_two_pow]
    by_cases hbelow : i < b % 256
    · rw [if_pos hbelow, if_neg (by omega)]
      simp [hbelow, hi]
    by_cases hwithin : i < b % 256 + m
    · rw [if_neg hbelow, if_pos hwithin, if_pos (by omega), decide_eq_true (by omega), Bool.true_and]
    · rw [if_neg hbelow, if_neg hwithin, if_neg (by omega), Nat.sub_add_cancel (not_lt.mp hwithin), decide_eq_true hi, Bool.true_and]

/-- Settles O3: each word by its own value; the bits of BFI are those of its field and of C around it. -/
theorem addressAndBitWords : Obligations.AddressAndBitWords := by
  unfold Obligations.AddressAndBitWords
  exact ⟨plainWord_lea.bitWord, plainWord_lea64.bitWord, plainWord_popc.bitWord, plainWord_clz.bitWord, plainWord_and.bitWord, plainWord_or.bitWord,
    plainWord_xor.bitWord, plainWord_not.bitWord, plainWord_shl.bitWord, plainWord_shr.bitWord, plainWord_bfe.bitWord, plainWord_bfi.bitWord,
    fun n a b c _ _ hi => testBit_bfi n a b c hi⟩

end Sys2Proof.Proofs
end

section
/-!
PROOFS. The I-forms and the moves (spec/11 R212, R220, R221). Settles ImmediateWords and MoveWords.
-/
namespace Sys2Proof.Proofs

open Sys2Proof.Machine Sys2Proof.Claims

/-! ### I-forms -/

/-- An I-form word whose meaning computes `h` of the word, its width, operand A and the immediate. -/
def ImmForm (mk : Imm → Instr) (op lat : Nat) (h : Imm → Nat → Nat → Nat → Nat) : Prop :=
  ∀ f s, exec (mk f) s = issueImm op f s fun b x => Machine.immWord b x lat f (h f)

section

variable {mk : Imm → Instr} {op lat : Nat} {h : Imm → Nat → Nat → Nat → Nat}

/-- In a vector clause an I-form is a word of 32 bits. -/
theorem ImmForm.immWord {g : Nat → Nat → Nat} (hform : ImmForm mk op lat h) (hg : ∀ f a, h f 32 (a % 2 ^ 32) f.imm.toNat % 2 ^ 32 = g a f.imm.toNat) :
    ImmWord mk op lat g :=
  fun _ _ _ _ _ f hready => results_of_lanes (exec_of_compute (hform f _) hready rfl) fun _ _ _ => congrArg plain (hg f _)

/-- In a scalar clause it is one of 64, its immediate sign-extended. -/
theorem ImmForm.exec_scalar (hform : ImmForm mk op lat h) {s : State} {u : UnitId} {r : ClauseRun} {f : Imm}
    (hready : ScalarReady s u r (viewImm op f u.kind r)) : exec (mk f) s = .next (writeScalar (scalarStep s u r) u 1 f.dst.toNat
      (BitVec.ofNat 128 (h f 64 (sopA s u (viewImm op f u.kind r) % 2 ^ 64) (f.imm.signExtend 64).toNat % 2 ^ 64))) := by
  have hkind : u.kind ≠ .vector := by simpa using kind_of_scalar hready.scalar
  refine exec_of_compute_scalar (fn := fun p _ _ => plain (h f (immWidth u.kind) (p % 2 ^ immWidth u.kind) (immVal u.kind f.imm) % 2 ^ immWidth u.kind))
    (ext := fun v => v) (hform f s) hready rfl ?_
  simp only [immWidth, immVal, if_neg hkind]

theorem ImmForm.scalarImm {g : Nat → Nat → Nat} (hform : ImmForm mk op lat h) (hg : ∀ f a i, h f 64 (a % 2 ^ 64) i % 2 ^ 64 = g a i % 2 ^ 64) :
    ScalarImm mk op g := by
  intro s u r f hready
  rw [hform.exec_scalar hready, hg]

end

theorem immForm_addImm : ImmForm .addImm 0x38 2 fun _ _ a i => a + i := fun _ _ => rfl
theorem immForm_mulImm : ImmForm .mulImm 0x39 4 fun _ _ a i => a * i := fun _ _ => rfl
theorem immForm_andImm : ImmForm .andImm 0x3A 2 fun _ _ a i => a &&& i := fun _ _ => rfl
theorem immForm_orImm : ImmForm .orImm 0x3B 2 fun _ _ a i => a ||| i := fun _ _ => rfl
theorem immForm_xorImm : ImmForm .xorImm 0x3C 2 fun _ _ a i => a ^^^ i := fun _ _ => rfl
theorem immForm_shlImm : ImmForm .shlImm 0x3D 2 fun f n a _ => shlN n a f.imm.toNat := fun _ _ => rfl
theorem immForm_shrImm : ImmForm .shrImm 0x3E 2 fun f n a _ => if n ≤ f.imm.toNat then 0 else a / 2 ^ f.imm.toNat := fun _ _ => rfl
theorem immForm_movImm : ImmForm .movImm 0x3F 2 fun _ _ _ i => i := fun _ _ => rfl

/-- A count that reaches the width shifts every bit out. -/
theorem shiftLeft_mod (n a k : Nat) : (a % 2 ^ n) * 2 ^ k % 2 ^ n = if n ≤ k then 0 else a * 2 ^ k % 2 ^ n := by
  rw [Nat.mod_mul_mod]
  exact (shlN_eq n a k).symm

/-- A quotient of a number of the width is one. -/
theorem shiftRight_mod (n a k : Nat) : (if n ≤ k then 0 else a % 2 ^ n / 2 ^ k) % 2 ^ n = if n ≤ k then 0 else a % 2 ^ n / 2 ^ k := by
  split
  · exact Nat.zero_mod _
  · exact Nat.mod_eq_of_lt ((Nat.div_le_self _ _).trans_lt (Nat.mod_lt _ (by positivity)))

/-- Settles O4: each I-form's value on 32 bits. -/
theorem immediateWords : Obligations.ImmediateWords := by
  unfold Obligations.ImmediateWords
  refine ⟨immForm_addImm.immWord fun f a => Nat.mod_add_mod a _ _, immForm_mulImm.immWord fun f a => Nat.mod_mul_mod a _ _,
    immForm_andImm.immWord fun f a => ?_, immForm_orImm.immWord fun f a => ?_, immForm_xorImm.immWord fun f a => ?_,
    immForm_shlImm.immWord fun f a => ?_, immForm_shrImm.immWord fun f a => shiftRight_mod 32 a _⟩
  · exact Nat.mod_eq_of_lt (Nat.and_lt_two_pow _ f.imm.isLt)
  · exact Nat.mod_eq_of_lt (Nat.or_lt_two_pow (Nat.mod_lt _ (by positivity)) f.imm.isLt)
  · exact Nat.mod_eq_of_lt (Nat.xor_lt_two_pow (Nat.mod_lt _ (by positivity)) f.imm.isLt)
  · rw [shlN_eq, Nat.mod_mod, shiftLeft_mod]

/-! ### Moves -/

theorem plainWord_mov : PlainWord .mov 0x50 2 typeRegs (fun _ => True) (fun _ v => v) fun t _ a _ _ => a % 2 ^ (32 * typeRegs t) := fun _ _ _ => rfl

theorem readPred_issued (s : State) (c k : Nat) (w : Warp) (r : ClauseRun) (v : WView) (p : Nat) :
    readPred (getWarp (issued s c k w r v) c k) p = readPred (due w r v).1 p := by
  rw [issued, getWarp_setWarp]
  rfl

/-- A lane's bit of a predicate, p7 being all ones (R33). -/
theorem getLsbD_readPred (w : Warp) (p : BitVec 9) {l : Nat} (hl : l < 32) :
    (readPred w p.toNat).getLsbD l = true ↔ p = 7 ∨ (look 0 w.p p.toNat).getLsbD l = true := by
  by_cases h : p = 7
  · subst h
    have hones : (0xFFFFFFFF#32).getLsbD l = true := by
      rw [show (0xFFFFFFFF#32) = BitVec.allOnes 32 from rfl, BitVec.getLsbD_allOnes, decide_eq_true hl]
    exact iff_of_true hones (.inl rfl)
  · have hne : p.toNat ≠ 7 := fun hp => h (BitVec.eq_of_toNat_eq hp)
    rw [readPred, if_neg hne]
    exact (or_iff_right h).symm

theorem sel_results {s : State} {c k : Nat} {w : Warp} {r : ClauseRun} {f : Full} (hready : Ready s c k w r (viewFull 0x51 f .vector r)) :
    Results (.sel f) s c k w r (viewFull 0x51 f .vector r) 2 (vdst f.dst (typeRegs f.ty.toNat))
      (fun l => (if f.sc = 7 ∨ (look 0 (due w r (viewFull 0x51 f .vector r)).1.p f.sc.toNat).getLsbD l = true
        then opA w r (viewFull 0x51 f .vector r) l else opB w r (viewFull 0x51 f .vector r) l) % 2 ^ (32 * typeRegs f.ty.toNat)) := by
  refine results_of_lanes (issue_of_ready hready _) fun l hl _ => ?_
  simp only [warpWord, readPred_issued, getLsbD_readPred _ f.sc hl]
  rfl

/-- R212: a scalar SEL goes by whether its third operand is zero. -/
theorem selected_by_scalar (x : W128) (p q : Nat) : (if (if x = 0 then (0 : Mask) else 1).getLsbD 0 then p else q) = if x.toNat ≠ 0 then p else q := by
  by_cases h : x = 0
  · subst h; rfl
  · have hne : x.toNat ≠ 0 := fun hx => h (BitVec.eq_of_toNat_eq hx)
    rw [if_neg h, if_pos hne]
    rfl

theorem sel_scalarWord :
    ScalarWord .sel 0x51 typeRegs (fun _ _ _ _ => True) (fun t _ a b c => (if c ≠ 0 then a else b) % 2 ^ (32 * typeRegs t)) := by
  intro s u r f hready _
  dsimp only
  rw [sopC, ← selected_by_scalar]
  refine (issue_of_scalarReady hready _).trans ?_
  cases u with
  | warp c k => exact absurd rfl (hready.scalar c k)
  | front c k => rfl
  | thread q => rfl

theorem sa_zero_of_legal_movImm (k : UKind) (f : Imm) (h : legalImm 0x3F k f = true) : f.sa = 0 := by
  refine BitVec.eq_of_toNat_eq ?_
  cases k <;> simp_all [legalImm, scalarOk, srcOk]

/-- Settles O5: MOV and MOV (i) as any word that computes its lanes alone, SEL by its predicate or its scalar operand. -/
theorem moveWords : Obligations.MoveWords := by
  unfold Obligations.MoveWords
  exact ⟨plainWord_mov.bitWord, fun _ _ _ _ _ _ => sel_results, immForm_movImm.immWord fun f _ => Nat.mod_eq_of_lt f.imm.isLt, sa_zero_of_legal_movImm,
    plainWord_mov.scalarWord (fun _ _ => trivial) fun _ _ _ _ _ => rfl, sel_scalarWord, immForm_movImm.scalarImm fun _ _ _ => rfl⟩

end Sys2Proof.Proofs
end

section
/-!
PROOFS. Integer division (spec/11 R215): the quotient and the remainder, a zero divisor with IDZE clear and with it set. Settles IntegerDivision.
-/
namespace Sys2Proof.Proofs

open Sys2Proof.Machine Sys2Proof.Claims

/-- The quotient toward zero, or with `rem` its remainder, of a divisor that is not zero. -/
def quotient (rem : Bool) (t a b : Nat) : Nat :=
  if rem then wrapped t (value t a - value t b * (value t a).tdiv (value t b)) else wrapped t ((value t a).tdiv (value t b))

/-- What a zero divisor gives: 0, or with `rem` the dividend. -/
def undivided (rem : Bool) (t a : Nat) : Nat := if rem then wrapped t (value t a) else 0

/-- The result of a lane that does not trap. -/
def divided (rem : Bool) (t a b : Nat) : Nat := if value t b = 0 then undivided rem t a else quotient rem t a b

/-! ### One lane -/

theorem divLane_of_ne_zero (en : BitVec 4) (rem : Bool) {t b : Nat} (a : Nat) (h : value t b ≠ 0) : divLane en t rem a b = plain (quotient rem t a b) := by
  simp only [divLane, quoRem, intVal_eq_value, if_neg h, intBits_eq, wrapTo_eq_wrapped, Int.tmod_def, quotient]
  cases rem <;> rfl

theorem divLane_of_zero {en : BitVec 4} (rem : Bool) {t b : Nat} (a : Nat) (h : value t b = 0) (hen : en.getLsbD 3 = false) :
    divLane en t rem a b = plain (undivided rem t a) := by
  simp only [divLane, quoRem, intVal_eq_value, if_pos h, bit, hen, Bool.false_eq_true, if_false, intBits_eq, wrapTo_eq_wrapped, undivided]

/-- IDIVZ (R215). -/
theorem divLane_traps {en : BitVec 4} (rem : Bool) {t b : Nat} (a : Nat) (h : value t b = 0) (hen : en.getLsbD 3 = true) :
    divLane en t rem a b = { val := 0, flags := 0, cause := some 1 } := by
  simp only [divLane, quoRem, intVal_eq_value, if_pos h, bit, hen, if_true]

theorem divLane_quiet {en : BitVec 4} (rem : Bool) {t b : Nat} (a : Nat) (h : value t b = 0 → en.getLsbD 3 = false) :
    divLane en t rem a b = plain (divided rem t a b) := by
  unfold divided
  split
  · next hzero => exact divLane_of_zero rem a hzero (h hzero)
  · next hne => exact divLane_of_ne_zero en rem a hne

theorem divLat_of_isIntT {t : Nat} (h : isIntT t = true) : divLat t = if width t = 64 then 40 else 20 := by
  have hcases : t = 2 ∨ t = 3 ∨ t = 6 ∨ t = 7 := by simpa [isIntT, or_assoc] using h
  obtain rfl | rfl | rfl | rfl := hcases <;> rfl

/-! ### DIV and REM -/

/-- A word whose meaning on an integer type divides each lane. -/
def DivWord (mk : Full → Instr) (op : Nat) (rem : Bool) : Prop :=
  ∀ f s, isIntT f.ty.toNat = true → exec (mk f) s = issueFull op f s fun b x =>
    compute b x (divLat f.ty.toNat) (typeRegs f.ty.toNat) f.dst (fun p q _ => divLane (trapEnables b x.u) f.ty.toNat rem p q) (scalarExt f.ty.toNat)

theorem divWord_div : DivWord .div 0x29 false := fun f s hint => by
  have hexec : exec (.div f) s = execDiv f s := rfl
  simp only [hexec, execDiv, isFltT_of_isIntT hint, Bool.false_eq_true, if_false]

theorem divWord_rem : DivWord .rem 0x2A true := fun _ _ _ => rfl

section

variable {mk : Full → Instr} {op : Nat} {rem : Bool} (hword : DivWord mk op rem)
include hword

theorem DivWord.exec_lanes {s : State} {c k : Nat} {w : Warp} {r : ClauseRun} {f : Full} (hint : isIntT f.ty.toNat = true)
    (hready : Ready s c k w r (viewFull op f .vector r)) :
    exec (mk f) s = .next (postLanes (issued s c k w r (viewFull op f .vector r)) (warpWord c k w r (viewFull op f .vector r))
      (if width f.ty.toNat = 64 then 40 else 20) (vdst f.dst (typeRegs f.ty.toNat)) false (viewFull op f .vector r).didx
      (laneResults fun l => divLane (fptrap s w.ctx) f.ty.toNat rem (opA w r (viewFull op f .vector r) l) (opB w r (viewFull op f .vector r) l))) := by
  have hexec := exec_of_compute (fn := fun p q _ => divLane (trapEnables (issued s c k w r (viewFull op f .vector r)) (.warp c k)) f.ty.toNat rem p q)
    (hword f s hint) hready rfl
  rwa [trapEnables_issued, divLat_of_isIntT hint] at hexec

theorem DivWord.results {s : State} {c k : Nat} {w : Warp} {r : ClauseRun} {f : Full} (hint : isIntT f.ty.toNat = true)
    (hready : Ready s c k w r (viewFull op f .vector r))
    (hclear : ∀ l < 32, (active w r (viewFull op f .vector r)).getLsbD l = true → value f.ty.toNat (opB w r (viewFull op f .vector r) l) = 0 →
      (fptrap s w.ctx).getLsbD 3 = false) :
    Results (mk f) s c k w r (viewFull op f .vector r) (if width f.ty.toNat = 64 then 40 else 20) (vdst f.dst (typeRegs f.ty.toNat))
      (fun l => divided rem f.ty.toNat (opA w r (viewFull op f .vector r) l) (opB w r (viewFull op f .vector r) l)) :=
  results_of_lanes (hword.exec_lanes hint hready) fun l hl hact => divLane_quiet rem _ (hclear l hl hact)

end

/-- Settles O2: no active lane traps, so each has its quotient or what a zero divisor gives. -/
theorem integerDivision : Obligations.IntegerDivision := by
  unfold Obligations.IntegerDivision
  exact fun _ _ _ _ _ _ hint => ⟨divWord_div.results hint, divWord_rem.results hint⟩

end Sys2Proof.Proofs
end

section
/-!
PROOFS. Lanes whose result traps (spec/10 R205; spec/11 R215; spec/22 R363-R365): they leave their warp with a record each, and the other lanes' result is
outstanding. Settles LanesTrap.
-/
namespace Sys2Proof.Proofs

open Sys2Proof.Machine Sys2Proof.Claims

/-! ### Lanes leaving after the word's result is outstanding -/

/-- The record of a lane whose result is `q`. -/
def resultRec (b : State) (x : Issued) (half : Bool) (d : BitVec 9) (q : Nat → LaneRes) (l : Nat) : TrapRec :=
  laneRec b x l ((q l).cause.getD 0) (BitVec.ofNat 32 (q l).flags) half d

/-- One lane's turn: it leaves where its result traps. -/
def resultTurn (x : Issued) (c k : Nat) (half : Bool) (d : BitVec 9) (q : Nat → LaneRes) (t : State) (l : Nat) : State :=
  if (q l).cause.isSome then laneTrap t c k (resultRec t x half d q l) else t

theorem trapLanes_eq_foldl {x : Issued} {c k : Nat} (hu : x.u = .warp c k) (b : State) (half : Bool) (d : BitVec 9) (q : Nat → LaneRes) :
    trapLanes b x half d (laneResults q) = (lanesIn x.act).foldl (resultTurn x c k half d q) b := by
  unfold trapLanes
  simp only [hu]
  refine List.foldl_ext _ _ _ fun t l hl => ?_
  rw [laneResults_getElem? q (mem_lanesIn.mp hl).1]
  simp only [resultTurn, resultRec]
  cases (q l).cause <;> rfl

/-- A lane's record says the same of its warp whichever lanes have left before it. -/
theorem LanesOff.resultRec {b t : State} {x : Issued} {c k : Nat} {m : Mask} {qs : List TrapRec} (h : LanesOff b t c k m qs) (hu : x.u = .warp c k)
    (half : Bool) (d : BitVec 9) (q : Nat → LaneRes) (l : Nat) : resultRec t x half d q l = resultRec b x half d q l := by
  have hcyc : t.cyc = b.cyc := by rw [h.rest]
  have hwct : unitWct t (.warp c k) = unitWct b (.warp c k) := h.keeps Warp.wctmax fun _ _ => rfl
  simp only [Proofs.resultRec, laneRec, mkRec, hu, h.whoIs, hcyc, hwct]

theorem lanesOff_foldl_resultTurn {b : State} {x : Issued} {c k : Nat} (hu : x.u = .warp c k) (hsheaf : (getWarp b c k).sheaf = none)
    (half : Bool) (d : BitVec 9) (q : Nat → LaneRes) (ls : List Nat) : ∀ {t m qs}, (∀ l ∈ ls, l < 32) → LanesOff b t c k m qs →
    LanesOff b (ls.foldl (resultTurn x c k half d q) t) c k (withLanes m (ls.filter fun l => (q l).cause.isSome))
      (qs ++ (ls.filter fun l => (q l).cause.isSome).map (resultRec b x half d q)) := by
  induction ls with
  | nil => exact fun _ h => by simpa [withLanes] using h
  | cons l ls ih =>
    intro t m qs hls h
    obtain ⟨hl, hrest⟩ := List.forall_mem_cons.mp hls
    rw [List.foldl_cons, resultTurn]
    cases hcause : (q l).cause.isSome with
    | false => simpa [hcause] using ih hrest h
    | true =>
      have hlane : (resultRec b x half d q l).lane = l := rfl
      have hoff := ih hrest (h.laneTrap hsheaf (q := resultRec b x half d q l) hl)
      rw [if_pos rfl, h.resultRec hu]
      simpa [hcause, withLanes, hlane] using hoff

/-- The active lanes whose results trap leave, each with its record. -/
theorem lanesOff_trapLanes {b : State} {x : Issued} {c k : Nat} (hu : x.u = .warp c k) (hsheaf : (getWarp b c k).sheaf = none)
    (half : Bool) (d : BitVec 9) (q : Nat → LaneRes) : LanesOff b (trapLanes b x half d (laneResults q)) c k (trapMask x.act (laneResults q))
      ((lanesIn (trapMask x.act (laneResults q))).map (resultRec b x half d q)) := by
  have hoff := lanesOff_foldl_resultTurn hu hsheaf half d q (lanesIn x.act) (fun l hl => (mem_lanesIn.mp hl).1) (LanesOff.refl b c k)
  have hfilter : (lanesIn x.act).filter (fun l => (q l).cause.isSome) = lanesIn (trapMask x.act (laneResults q)) := by
    rw [lanesIn, lanesIn, List.filter_filter]
    refine List.filter_congr fun l hl => ?_
    rw [getLsbD_trapMask _ q (List.mem_range.mp hl), Bool.and_comm]
  rwa [hfilter, withLanes_lanesIn, List.nil_append, ← trapLanes_eq_foldl hu] at hoff

section

variable {s t : State} {c k : Nat} {w : Warp} {r : ClauseRun} {v : WView} {lat : Nat} {d : PDst} {m m' : Mask} {vals : List W128} {fl : BitVec 5}

/-- A ready word's warp once its result is outstanding. -/
theorem getWarp_posted (s : State) (c k : Nat) (w : Warp) (r : ClauseRun) (v : WView) (lat : Nat) (d : PDst) (m : Mask) (vals : List W128) (fl : BitVec 5) :
    ∃ x g p fp, (due w r v).1 = { w with v := x, wrLog := g, p := p, fpstat := fp } ∧
    getWarp (posted s c k w r v lat d m vals fl) c k = { w with
      v := x, wrLog := g, p := p, fpstat := fp, wrSeq := (due w r v).1.wrSeq + 1
      run := some { stepped w r v with
        pend := insertPend { due := issueCycle r v + lat, seq := (due w r v).1.wrSeq + 1, dst := d, lanes := m, vals := vals, flags := fl }
          (due w r v).2.pend } } := by
  obtain ⟨x, g, p, fp, hdue⟩ := drainTo_frame (issueCycle r v) w r
  exact ⟨x, g, p, fp, hdue, by rw [posted, getWarp_setWarp, due, hdue]⟩

theorem sheaf_posted (s : State) (c k : Nat) (w : Warp) (r : ClauseRun) (v : WView) (lat : Nat) (d : PDst) (m : Mask) (vals : List W128) (fl : BitVec 5) :
    (getWarp (posted s c k w r v lat d m vals fl) c k).sheaf = w.sheaf := by
  obtain ⟨x, g, p, fp, -, hwarp⟩ := getWarp_posted s c k w r v lat d m vals fl
  rw [hwarp]

theorem mem_insertPend (p : Pend) (ps : List Pend) : p ∈ insertPend p ps := by
  induction ps with
  | nil => exact List.mem_singleton_self p
  | cons x ps ih =>
    rw [insertPend]
    split
    · exact List.mem_cons_self
    · exact List.mem_cons_of_mem x ih

/-- A word's lanes that do not trap have its result outstanding; the others then leave. -/
theorem postLanes_issued (lat : Nat) (d : PDst) (half : Bool) (dx : BitVec 9) (q : Nat → LaneRes) :
    postLanes (issued s c k w r v) (warpWord c k w r v) lat d half dx (laneResults q) =
      trapLanes (posted s c k w r v lat d (active w r v &&& ~~~trapMask (active w r v) (laneResults q))
        ((laneResults q).map fun y => BitVec.ofNat 128 y.val) (laneFlags (active w r v) (laneResults q))) (warpWord c k w r v) half dx (laneResults q) := by
  rw [postLanes, ← post_issued]
  rfl

/-- What the record says of a ready word's lane. -/
theorem resultRec_warpWord {half : Bool} {dx : BitVec 9} {q : Nat → LaneRes} {l : Nat} {y : TrapRec}
    (hy : y = resultRec (posted s c k w r v lat d m vals fl) (warpWord c k w r v) half dx q l) :
    y.lane = l ∧ y.kind = .lane ∧ y.unit = .warp c k ∧ y.cause = BitVec.ofNat 8 ((q l).cause.getD 0) ∧ y.detail = BitVec.ofNat 32 (q l).flags ∧ y.addr = 0 ∧
      y.pc = r.pc.setWidth 64 ∧ y.wordv = v.word ∧ y.widx = r.idx ∧ y.world = w.world ∧ y.ctx = w.ctx ∧ y.wait = w.wctmax := by
  obtain ⟨x, g, p, fp, -, hwarp⟩ := getWarp_posted s c k w r v lat d m vals fl
  subst hy
  refine ⟨rfl, rfl, rfl, rfl, rfl, rfl, rfl, rfl, rfl, ?_⟩
  simp only [resultRec, laneRec, mkRec, warpWord, whoIs, unitWct, hwarp, and_self]

variable {half : Bool} {dx : BitVec 9} {q : Nat → LaneRes} (hm : m ≠ 0)
  (h : LanesOff (posted s c k w r v lat d m' vals fl) t c k m
    ((lanesIn m).map (resultRec (posted s c k w r v lat d m' vals fl) (warpWord c k w r v) half dx q)))
include hm h

/-- Lanes that have left after their word's result was posted are detached. -/
theorem detached_of_posted {cause : Nat → Byte} {detail : Nat → W32} (hcause : ∀ l < 32, m.getLsbD l = true → BitVec.ofNat 8 ((q l).cause.getD 0) = cause l)
    (hdetail : ∀ l < 32, m.getLsbD l = true → BitVec.ofNat 32 (q l).flags = detail l) : Detached s t c k w r v m cause detail fun _ => 0 := by
  obtain ⟨x, g, p, fp, hdue, hposted⟩ := getWarp_posted s c k w r v lat d m' vals fl
  have hwarp := h.warp
  rw [if_neg hm, hposted] at hwarp
  constructor
  case absent => rw [hwarp, without]
  case entries => rw [hwarp, without]
  case clause =>
    rw [hwarp]
    exact ⟨_, rfl, rfl, rfl, rfl, rfl⟩
  case regs =>
    rw [hwarp, hdue]
    exact ⟨rfl, rfl, rfl, rfl⟩
  case records =>
    refine ⟨_, h.records.trans (by rw [posted, setWarp, getCore_setCore]), ?_, fun y hy => ?_⟩
    · rw [List.map_map]
      exact (List.map_congr_left fun l _ => rfl).trans (List.map_id' _)
    · obtain ⟨l, hl, hrec⟩ := List.mem_map.mp hy
      obtain ⟨hlt, hbit⟩ := mem_lanesIn.mp hl
      obtain ⟨hlane, hkind, hunit, hycause, hydetail, hrest⟩ := resultRec_warpWord hrec.symm
      rw [hlane]
      exact ⟨hkind, hunit, hycause.trans (hcause l hlt hbit), hydetail.trans (hdetail l hlt hbit), hrest⟩
  case others => exact fun j hj => by rw [h.others j hj, posted, getWarp_setWarp_slot _ _ _ hj]
  case cores => exact fun e he => by rw [h.cores e he, posted, setWarp, getCore_setCore_other _ _ he]
  case rest => rw [h.rest]; exact ⟨rfl, rfl, rfl, rfl, rfl, rfl, rfl, rfl, rfl, rfl⟩

theorem leftResult_of_posted {f : Nat → Nat} (hvals : ∀ l < 32, m'.getLsbD l = true → nth vals l = BitVec.ofNat 128 (f l)) :
    LeftResult t c k (issueCycle r v + lat) d m' f := by
  obtain ⟨x, g, p, fp, -, hposted⟩ := getWarp_posted s c k w r v lat d m' vals fl
  have hwarp := h.warp
  rw [if_neg hm, hposted] at hwarp
  rw [LeftResult, hwarp]
  exact ⟨_, _, rfl, mem_insertPend _ _, rfl, rfl, rfl, hvals⟩

end

/-- A word some active lanes of which trap: they are detached, and the result of the others is outstanding. -/
theorem detaches_of_lanes {i : Instr} {s : State} {c k : Nat} {w : Warp} {r : ClauseRun} {v : WView} {lat : Nat} {d : PDst} {half : Bool} {dx : BitVec 9}
    {q : Nat → LaneRes} {cause : Nat → Byte} {detail : Nat → W32} {f : Nat → Nat}
    (hexec : exec i s = .next (postLanes (issued s c k w r v) (warpWord c k w r v) lat d half dx (laneResults q))) (hsheaf : w.sheaf = none)
    (htraps : ∃ l < 32, (active w r v).getLsbD l = true ∧ (q l).cause.isSome = true)
    (hcause : ∀ l, (q l).cause.isSome = true → BitVec.ofNat 8 ((q l).cause.getD 0) = cause l ∧ BitVec.ofNat 32 (q l).flags = detail l)
    (hval : ∀ l, (q l).cause.isSome = false → (q l).val = f l) :
    ∃ t m, exec i s = .next t ∧ Detached s t c k w r v m cause detail (fun _ => 0) ∧
      (∀ l < 32, m.getLsbD l = true ↔ (active w r v).getLsbD l = true ∧ (q l).cause.isSome = true) ∧
      LeftResult t c k (issueCycle r v + lat) d (active w r v &&& ~~~m) f := by
  have hm : ∀ l < 32, (trapMask (active w r v) (laneResults q)).getLsbD l = true ↔ (active w r v).getLsbD l = true ∧ (q l).cause.isSome = true :=
    fun l hl => by rw [getLsbD_trapMask _ q hl, Bool.and_eq_true]
  have hne : trapMask (active w r v) (laneResults q) ≠ 0 := by
    obtain ⟨l, hl, hact⟩ := htraps
    intro hzero
    have hbit := (hm l hl).mpr hact
    rw [hzero] at hbit
    simp at hbit
  rw [postLanes_issued] at hexec
  have hoff m vals fl := lanesOff_trapLanes (b := posted s c k w r v lat d m vals fl) (x := warpWord c k w r v) rfl
    ((sheaf_posted s c k w r v lat d m vals fl).trans hsheaf) half dx q
  refine ⟨_, _, hexec, detached_of_posted hne (hoff _ _ _) (fun l hl h => ?_) (fun l hl h => ?_), hm,
    leftResult_of_posted hne (hoff _ _ _) fun l hl h => ?_⟩
  · exact (hcause l ((hm l hl).mp h).2).1
  · exact (hcause l ((hm l hl).mp h).2).2
  · rw [BitVec.getLsbD_and, BitVec.getLsbD_not, decide_eq_true hl, getLsbD_trapMask _ q hl] at h
    rw [nth_laneResults q hl, hval l]
    cases hcause : (q l).cause.isSome with
    | false => rfl
    | true => simp [hcause] at h

/-! ### A zero divisor with IDZE set -/

/-- A scalar word whose result traps stops its unit. -/
theorem compute_scalar_traps {b : State} {x : Issued} (hx : ∀ c k, x.u ≠ .warp c k) (lat n : Nat) (dst : BitVec 9) (fn : Nat → Nat → Nat → LaneRes)
    (ext : Nat → Nat) {y : LaneRes} {cause : Nat} (hy : fn (nth x.a 0).toNat (nth x.b 0).toNat (nth x.c 0).toNat = y) (hcause : y.cause = some cause) :
    compute b x lat n dst fn ext = trapWord b x { cause := BitVec.ofNat 8 cause, detail := BitVec.ofNat 32 y.flags, addr := 0 } := by
  unfold compute computeAt
  cases hu : x.u with
  | warp c k => exact absurd hu (hx c k)
  | front c k => simp only [hy, hcause]
  | thread q => simp only [hy, hcause]

theorem divLane_cause {en : BitVec 4} (rem : Bool) {t a b : Nat} (hen : en.getLsbD 3 = true) :
    (divLane en t rem a b).cause.isSome = true ↔ value t b = 0 := by
  by_cases h : value t b = 0
  · rw [divLane_traps rem a h hen]
    exact iff_of_true rfl h
  · rw [divLane_of_ne_zero en rem a h]
    exact iff_of_false Bool.false_ne_true h

theorem trapEnables_scalarStep (s : State) (u : UnitId) (r : ClauseRun) : trapEnables (scalarStep s u r) u = trapEnables s u := by
  cases u with
  | warp c k => simp only [trapEnables, whoIs_scalarStep]; rfl
  | front c k => simp only [trapEnables, whoIs_scalarStep]; rfl
  | thread q => rfl

section

variable {mk : Full → Instr} {op : Nat} {rem : Bool} (hword : DivWord mk op rem)
include hword

theorem DivWord.detaches {s : State} {c k : Nat} {w : Warp} {r : ClauseRun} {f : Full} (hint : isIntT f.ty.toNat = true) (hsheaf : w.sheaf = none)
    (hset : (fptrap s w.ctx).getLsbD 3 = true) (hready : Ready s c k w r (viewFull op f .vector r))
    (hzero : ∃ l < 32, (active w r (viewFull op f .vector r)).getLsbD l = true ∧ value f.ty.toNat (opB w r (viewFull op f .vector r) l) = 0) :
    ∃ t m, exec (mk f) s = .next t ∧ Detached s t c k w r (viewFull op f .vector r) m (fun _ => 1) (fun _ => 0) (fun _ => 0) ∧
      (∀ l < 32, m.getLsbD l = true ↔ (active w r (viewFull op f .vector r)).getLsbD l = true ∧
        value f.ty.toNat (opB w r (viewFull op f .vector r) l) = 0) ∧
      LeftResult t c k (issueCycle r (viewFull op f .vector r) + if width f.ty.toNat = 64 then 40 else 20) (vdst f.dst (typeRegs f.ty.toNat))
        (active w r (viewFull op f .vector r) &&& ~~~m)
        (fun l => quotient rem f.ty.toNat (opA w r (viewFull op f .vector r) l) (opB w r (viewFull op f .vector r) l)) := by
  have hcause : ∀ l, value f.ty.toNat (opB w r (viewFull op f .vector r) l) = 0 ↔ (divLane (fptrap s w.ctx) f.ty.toNat rem
      (opA w r (viewFull op f .vector r) l) (opB w r (viewFull op f .vector r) l)).cause.isSome = true := fun l => (divLane_cause rem hset).symm
  simp only [hcause] at hzero ⊢
  refine detaches_of_lanes (hword.exec_lanes hint hready) hsheaf hzero (fun l hl => ?_) fun l hl => ?_
  · rw [divLane_traps rem _ ((divLane_cause rem hset).mp hl) hset]
    exact ⟨rfl, rfl⟩
  · rw [divLane_of_ne_zero _ rem _ fun h => Bool.false_ne_true (hl.symm.trans ((divLane_cause rem hset).mpr h))]
    rfl

/-- In a scalar clause it stops the context. -/
theorem DivWord.stops {s : State} {u : UnitId} {r : ClauseRun} {f : Full} (hint : isIntT f.ty.toNat = true)
    (hready : ScalarReady s u r (viewFull op f u.kind r)) (hzero : value f.ty.toNat (sopB s u (viewFull op f u.kind r)) = 0)
    (hset : (trapEnables s u).getLsbD 3 = true) :
    ∃ t, exec (mk f) s = .next t ∧ StoppedScalar (scalarStep s u r) t u r (viewFull op f u.kind r) 1 0 := by
  have hlane : divLane (trapEnables (scalarStep s u r) u) f.ty.toNat rem (sopA s u (viewFull op f u.kind r)) (sopB s u (viewFull op f u.kind r)) =
      { val := 0, flags := 0, cause := some 1 } := divLane_traps rem _ hzero (trapEnables_scalarStep s u r ▸ hset)
  refine ⟨_, (hword f s hint).trans (issue_of_scalarReady hready _), ?_⟩
  rw [compute_scalar_traps (x := scalarWord s u r (viewFull op f u.kind r)) hready.scalar _ _ _ _ _ hlane rfl]
  exact stoppedScalar_trapWord (b := scalarStep s u r) hready.scalar rfl (scalarWord_carries s u r (viewFull op f u.kind r)) _

end

/-- Settles O18: a lane traps where its divisor is zero; the others have their quotients outstanding. -/
theorem lanesTrap : Obligations.LanesTrap := by
  unfold Obligations.LanesTrap
  refine ⟨fun s c k w r f hint hsheaf hset => ⟨divWord_div.detaches hint hsheaf hset, divWord_rem.detaches hint hsheaf hset⟩,
    fun s u r f op hop hready hzero hset => ?_⟩
  have hint := isIntT_of_wspec_ok (by obtain rfl | rfl := hop <;> decide) (wspec_ok_of_scalarReady hready)
  obtain rfl | rfl := hop
  · exact divWord_div.stops hint hready hzero hset
  · exact divWord_rem.stops hint hready hzero hset

end Sys2Proof.Proofs
end

section
/-!
PROOFS. SETP (spec/11 R218), and the words of a scalar clause together (spec/11 R212). Settles IntegerCompare and ScalarWords.
-/
namespace Sys2Proof.Proofs

open Sys2Proof.Machine Sys2Proof.Claims

/-! ### Comparison -/

theorem combine_eq_combined (comb : Nat) (c old : Bool) : combine comb c old = combined comb c old := by
  match comb with
  | 0 => rfl
  | 1 => rfl
  | 2 => rfl
  | n + 3 => cases c <;> cases old <;> rfl

/-- An integer test by the order of its operands. -/
theorem cmpHolds_order {cmp : Nat} (hcmp : cmp ≤ 5) (x y : Int) : cmpHolds cmp (if x < y then 0 else if x = y then 1 else 2) = holds cmp x y := by
  obtain rfl | rfl | rfl | rfl | rfl | rfl : cmp = 0 ∨ cmp = 1 ∨ cmp = 2 ∨ cmp = 3 ∨ cmp = 4 ∨ cmp = 5 := by omega
  all_goals
    simp only [cmpHolds, holds]
    grind

/-- A lane of SETP: the test combined with the old bit, and the flag of a signalling NaN. -/
def setpResult (f : Full) (old : Bool) (a b : Nat) : FR :=
  { bits := (combine (modF f 2 1) (setpLane f.ty.toNat (modF f 7 5) (modB f 3) a b).1 old).toNat
    flags := (setpLane f.ty.toNat (modF f 7 5) (modB f 3) a b).2 }

theorem setpResult_of_isIntT {f : Full} (hint : isIntT f.ty.toNat = true) (hcmp : modF f 7 5 ≤ 5) (old : Bool) (a b : Nat) : setpResult f old a b =
    { bits := if combined (modF f 2 1) (holds (modF f 7 5) (value f.ty.toNat a) (value f.ty.toNat b)) old then 1 else 0, flags := 0 } := by
  simp only [setpResult, setpLane, isFltT_of_isIntT hint, Bool.false_eq_true, if_false, intVal_eq_value, cmpHolds_order hcmp, combine_eq_combined,
    Bool.toNat, Bool.cond_eq_ite]

theorem fpLane_no_flags (en : BitVec 4) (n : Nat) : fpLane en { bits := n, flags := 0 } = plain n := by
  simp [fpLane, plain, fpCause]

/-- A legal SETP on an integer type has a CMP of R218. -/
theorem cmp_le_of_wspec_ok {f : Full} {sc : Bool} (hok : (wspec 0x2D sc f).ok = true) (hint : isIntT f.ty.toNat = true) : modF f 7 5 ≤ 5 := by
  simpa [wspec, specArith, fixedW, hint, isFltT_of_isIntT hint] using hok

theorem exec_setp {s : State} {c k : Nat} {w : Warp} {r : ClauseRun} {f : Full} (hready : Ready s c k w r (viewFull 0x2D f .vector r)) :
    exec (.setp f) s = .next (postLanes (issued s c k w r (viewFull 0x2D f .vector r)) (warpWord c k w r (viewFull 0x2D f .vector r))
      (if isFltT f.ty.toNat then fpLat f.ty.toNat else 2) (.pred f.dst.toNat) false (viewFull 0x2D f .vector r).didx
      (laneResults fun l => fpLane (fptrap s w.ctx) (setpResult f ((readPred (due w r (viewFull 0x2D f .vector r)).1 f.dst.toNat).getLsbD l)
        (opA w r (viewFull 0x2D f .vector r) l) (opB w r (viewFull 0x2D f .vector r) l)))) := by
  rw [← readPred_issued s c k, ← trapEnables_issued (c := c) (k := k) (r := r) (v := viewFull 0x2D f .vector r)]
  exact issue_of_ready hready _

/-- Settles O7: on an integer type SETP raises no flag, and its test is that of the operands' order. -/
theorem integerCompare : Obligations.IntegerCompare := by
  unfold Obligations.IntegerCompare
  intro s c k w r f hint hready
  have hexec := exec_setp hready
  rw [isFltT_of_isIntT hint] at hexec
  refine results_of_lanes hexec fun l _ _ => ?_
  rw [setpResult_of_isIntT hint (cmp_le_of_wspec_ok (wspec_ok_of_legal hready.legal) hint), fpLane_no_flags]

/-! ### Scalar clauses -/

theorem divided_lt (rem : Bool) (t a b : Nat) : divided rem t a b < 2 ^ width t := by
  unfold divided undivided quotient
  split_ifs
  · exact wrapped_lt t _
  · exact Nat.two_pow_pos _
  · exact wrapped_lt t _
  · exact wrapped_lt t _

theorem DivWord.scalarWord {mk : Full → Instr} {op : Nat} {rem : Bool} (hword : DivWord mk op rem) (hop : op = 0x29 ∨ op = 0x2A) :
    ScalarWord mk op typeRegs (fun s u f v => value f.ty.toNat (sopB s u v) = 0 → (trapEnables s u).getLsbD 3 = false)
      (fun t _ a b _ => extended t (divided rem t a b)) := by
  intro s u r f hready hclear
  have hint := isIntT_of_wspec_ok (by obtain rfl | rfl := hop <;> decide) (wspec_ok_of_scalarReady hready)
  have hquiet := divLane_quiet rem (sopA s u (viewFull op f u.kind r)) (trapEnables_scalarStep s u r ▸ hclear)
  dsimp only
  rw [← scalarExt_eq_extended (t := f.ty.toNat) fun h => (divided_lt rem _ _ _).trans_eq (by rw [h]; rfl)]
  exact exec_of_compute_scalar (fn := fun p q _ => divLane (trapEnables (scalarStep s u r) u) f.ty.toNat rem p q) (hword f s hint) hready rfl hquiet

/-- SSETP writes 1 or 0 (R212). -/
theorem exec_setp_scalar {s : State} {u : UnitId} {r : ClauseRun} {f : Full} (hready : ScalarReady s u r (viewFull 0x2D f u.kind r)) :
    exec (.setp f) s = .next (writeScalar (scalarStep s u r) u 1 f.dst.toNat (BitVec.ofNat 128 (setpResult f (look 0 (scalarRegs s u) f.dst.toNat != 0)
      (sopA s u (viewFull 0x2D f u.kind r)) (sopB s u (viewFull 0x2D f u.kind r))).bits)) := by
  have hregs : scalarRegs (scalarStep s u r) u = scalarRegs s u := scalarRegs_setRun s u _
  rw [← hregs]
  refine (issue_of_scalarReady hready _).trans ?_
  cases u with
  | warp c k => exact absurd rfl (hready.scalar c k)
  | front c k => rfl
  | thread q => rfl

/-- The bit that a legal SETP on integers combines and writes. -/
theorem setp_scalar {s : State} {u : UnitId} {r : ClauseRun} {f : Full} (hready : ScalarReady s u r (viewFull 0x2D f u.kind r)) :
    exec (.setp f) s = .next (writeScalar (scalarStep s u r) u 1 f.dst.toNat
      (if combined (modF f 2 1) (holds (modF f 7 5) (value f.ty.toNat (sopA s u (viewFull 0x2D f u.kind r))) (value f.ty.toNat (sopB s u (viewFull 0x2D f u.kind r))))
        (look 0 (scalarRegs s u) f.dst.toNat != 0) then 1 else 0)) := by
  have hok := wspec_ok_of_scalarReady hready
  have hint := isIntT_of_wspec_ok (by decide) hok
  rw [exec_setp_scalar hready, setpResult_of_isIntT hint (cmp_le_of_wspec_ok hok hint)]
  dsimp only
  split <;> rfl

/-- A scalar operand of an I-form is one register. -/
theorem sopA_viewImm_lt {op : Nat} (hop : op ≠ 0x3F) (s : State) (u : UnitId) (f : Imm) (k : UKind) (r : ClauseRun) :
    sopA s u (viewImm op f k r) < 2 ^ 64 := by
  have hval : sopA s u (viewImm op f k r) = ((look 0 (scalarRegs s u) f.sa.toNat).setWidth 128).toNat := by
    simp only [sopA, viewImm, if_neg hop, scalarVals, readScalar, posRegs]
    rfl
  rw [hval, BitVec.toNat_setWidth]
  exact (Nat.mod_le _ _).trans_lt (look 0 (scalarRegs s u) f.sa.toNat).isLt

/-- Settles O6: each word by its value in a scalar clause, extended as R212 says. -/
theorem scalarWords : Obligations.ScalarWords := by
  unfold Obligations.ScalarWords
  refine ⟨plainWord_add.scalarWord (fun _ => isIntT_of_wspec_ok (by decide)) fun t _ _ _ _ => scalarExt_wrapped t _,
    plainWord_sub.scalarWord (fun _ => isIntT_of_wspec_ok (by decide)) fun t _ _ _ _ => scalarExt_wrapped t _,
    plainWord_mul.scalarWord (fun _ => isIntT_of_wspec_ok (by decide)) fun t _ _ _ _ => scalarExt_wrapped t _,
    plainWord_mulhi.scalarWord (fun _ _ => trivial) fun t _ _ _ _ => scalarExt_wrapped t _,
    plainWord_mad.scalarWord (fun _ _ => trivial) fun t _ _ _ _ => scalarExt_wrapped t _,
    plainWord_min.scalarWord (fun _ => isIntT_of_wspec_ok (by decide)) fun t _ _ _ _ => scalarExt_wrapped t _,
    plainWord_max.scalarWord (fun _ => isIntT_of_wspec_ok (by decide)) fun t _ _ _ _ => scalarExt_wrapped t _,
    plainWord_abs.scalarWord (fun _ => isIntT_of_wspec_ok (by decide)) fun t _ _ _ _ => scalarExt_wrapped t _,
    plainWord_neg.scalarWord (fun _ => isIntT_of_wspec_ok (by decide)) fun t _ _ _ _ => scalarExt_wrapped t _,
    divWord_div.scalarWord (.inl rfl), divWord_rem.scalarWord (.inr rfl),
    plainWord_lea.scalarWord (fun _ _ => trivial) fun _ _ _ _ _ => rfl, plainWord_lea64.scalarWord (fun _ _ => trivial) fun _ _ _ _ _ => rfl,
    fun _ _ _ _ => setp_scalar,
    plainWord_popc.scalarWord (fun _ _ => trivial) fun _ _ _ _ _ => rfl, plainWord_clz.scalarWord (fun _ _ => trivial) fun _ _ _ _ _ => rfl,
    plainWord_and.scalarWord (fun _ _ => trivial) fun _ _ _ _ _ => rfl, plainWord_or.scalarWord (fun _ _ => trivial) fun _ _ _ _ _ => rfl,
    plainWord_xor.scalarWord (fun _ _ => trivial) fun _ _ _ _ _ => rfl, plainWord_not.scalarWord (fun _ _ => trivial) fun _ _ _ _ _ => rfl,
    plainWord_shl.scalarWord (fun _ _ => trivial) fun _ _ _ _ _ => rfl,
    plainWord_shr.scalarWord (fun _ _ => trivial) fun t _ _ _ _ => scalarExt_wrapped t _,
    plainWord_bfe.scalarWord (fun _ _ => trivial) fun t _ p q _ => scalarExt_extracted t p q,
    plainWord_bfi.scalarWord (fun _ _ => trivial) fun _ _ _ _ _ => rfl,
    immForm_addImm.scalarImm fun _ a i => Nat.mod_add_mod a _ i, immForm_mulImm.scalarImm fun _ a i => Nat.mod_mul_mod a i _,
    immForm_andImm.scalarImm fun _ a i => ?_, immForm_orImm.scalarImm fun _ a i => ?_, immForm_xorImm.scalarImm fun _ a i => ?_,
    fun s u r f hready => ?_, fun s u r f hready => ?_⟩
  · rw [Nat.and_mod_two_pow, Nat.mod_mod, ← Nat.and_mod_two_pow]
  · rw [Nat.or_mod_two_pow, Nat.mod_mod, ← Nat.or_mod_two_pow]
  · rw [Nat.xor_mod_two_pow, Nat.mod_mod, ← Nat.xor_mod_two_pow]
  · rw [immForm_shlImm.exec_scalar hready, shlN_eq, Nat.mod_mod, shiftLeft_mod]
  · rw [immForm_shrImm.exec_scalar hready, shiftRight_mod, Nat.mod_eq_of_lt (sopA_viewImm_lt (by decide) s u f u.kind r)]

end Sys2Proof.Proofs
end

section
/-!
PROOFS. Floating words (spec/10 R208, R210; spec/11 R218, R221-R226): each lane's result under the word's rounding mode and FTZ, with the traps of its context.
Settles FloatingWords and TranscendentalAndConversionWords.
-/
namespace Sys2Proof.Proofs

open Sys2Proof.Machine Sys2Proof.Claims

/-- A ready vector word that computes a floating result in each lane. -/
theorem floatResults_of_compute {i : Instr} {s : State} {view : UKind → ClauseRun → WView} {c k : Nat} {w : Warp} {r : ClauseRun} {lat n : Nat}
    {dst : BitVec 9} {g : Nat → Nat → Nat → FR} {ext : Nat → Nat}
    (hexec : exec i s = issue s view fun b x => compute b x lat n dst (fun p q c => fpLane (trapEnables b x.u) (g p q c)) ext)
    (hready : Ready s c k w r (view .vector r)) : FloatResults i s c k w r (view .vector r) lat (vdst dst n)
      (fun l => g (opA w r (view .vector r) l) (opB w r (view .vector r) l) (opC w r (view .vector r) l)) := by
  have hlanes := exec_of_compute (fn := fun p q c' => fpLane (trapEnables (issued s c k w r (view .vector r)) (.warp c k)) (g p q c')) hexec hready rfl
  rw [trapEnables_issued] at hlanes
  exact floatResults_of_lanes hlanes

/-- A word whose meaning on a floating type computes `g` of its format, rounding mode and FTZ in each lane. -/
def RoundedWord (mk : Full → Instr) (op : Nat) (lat : Nat → Nat) (g : Fmt → Nat → Bool → Full → Nat → Nat → Nat → FR) : Prop :=
  ∀ f s, isFltT f.ty.toNat = true → exec (mk f) s = issueFull op f s fun b x => compute b x (lat f.ty.toNat) (typeRegs f.ty.toNat) f.dst
    (fun p q c => fpLane (trapEnables b x.u) (g (fmtOf f.ty.toNat) (modF f 2 1) (modB f 3) f p q c)) (fun v => v)

theorem RoundedWord.floatWord {mk : Full → Instr} {op : Nat} {lat : Nat → Nat} {g : Fmt → Nat → Bool → Full → Nat → Nat → Nat → FR}
    (hword : RoundedWord mk op lat g) : FloatWord mk op lat g :=
  fun s _ _ _ _ f hflt hready => floatResults_of_compute (hword f s hflt) hready

/-- A two-operand word on a floating type. -/
theorem roundedWord_of_arith2 {mk : Full → Instr} {op lat : Nat} {fi : Int → Int → Int} {ff : Fmt → Nat → Bool → Nat → Nat → FR}
    (hexec : ∀ f s, exec (mk f) s = issueFull op f s fun b x => arith2 b x f lat fi ff) :
    RoundedWord mk op fpLat fun g rm ftz _ a b _ => ff g rm ftz a b := by
  intro f s hflt
  rw [hexec]
  simp only [arith2, hflt, if_true]

/-- DIV's latency on a floating type. -/
theorem divLat_of_isFltT {t : Nat} (h : isFltT t = true) : divLat t = if t = 11 then 40 else 20 := by
  have hcases : t = 8 ∨ t = 9 ∨ t = 10 ∨ t = 11 := by simpa [isFltT, or_assoc] using h
  obtain rfl | rfl | rfl | rfl := hcases <;> rfl

theorem roundedWord_div : RoundedWord .div 0x29 (fun t => if t = 11 then 40 else 20) fun g rm ftz _ a b _ => fdiv g rm ftz a b := by
  intro f s hflt
  have hexec : exec (.div f) s = execDiv f s := rfl
  simp only [hexec, execDiv, hflt, if_true, divLat_of_isFltT hflt]

/-! ### SETP -/

theorem setp_floatResults {s : State} {c k : Nat} {w : Warp} {r : ClauseRun} {f : Full} (hflt : isFltT f.ty.toNat = true)
    (hready : Ready s c k w r (viewFull 0x2D f .vector r)) :
    FloatResults (.setp f) s c k w r (viewFull 0x2D f .vector r) (if f.ty.toNat = 11 then 8 else 4) (.pred f.dst.toNat)
      (fun l => setpResult f ((readPred (due w r (viewFull 0x2D f .vector r)).1 f.dst.toNat).getLsbD l)
        (opA w r (viewFull 0x2D f .vector r) l) (opB w r (viewFull 0x2D f .vector r) l)) := by
  have hexec := exec_setp hready
  rw [hflt] at hexec
  exact floatResults_of_lanes hexec

theorem setpResult_of_isFltT {f : Full} (hflt : isFltT f.ty.toNat = true) (old : Bool) (a b : Nat) : setpResult f old a b =
    { bits := if combined (modF f 2 1) (cmpHolds (modF f 7 5) (fcmp (fdec (fmtOf f.ty.toNat) (ftzIn (fmtOf f.ty.toNat) (modB f 3) a))
        (fdec (fmtOf f.ty.toNat) (ftzIn (fmtOf f.ty.toNat) (modB f 3) b)))) old then 1 else 0
      flags := if isSig (fdec (fmtOf f.ty.toNat) (ftzIn (fmtOf f.ty.toNat) (modB f 3) a)) ∨
        isSig (fdec (fmtOf f.ty.toNat) (ftzIn (fmtOf f.ty.toNat) (modB f 3) b)) then 1 else 0 } := by
  simp only [setpResult, setpLane, hflt, if_true, combine_eq_combined, Bool.toNat, Bool.cond_eq_ite, Bool.or_eq_true, fNV]

/-- Settles O8: each word's meaning on the floating types, and SETP's. -/
theorem floatingWords : Obligations.FloatingWords := by
  unfold Obligations.FloatingWords
  refine ⟨(roundedWord_of_arith2 fun _ _ => rfl).floatWord, (roundedWord_of_arith2 fun _ _ => rfl).floatWord,
    (roundedWord_of_arith2 fun _ _ => rfl).floatWord, RoundedWord.floatWord fun _ _ _ => rfl, roundedWord_div.floatWord,
    (roundedWord_of_arith2 fun _ _ => rfl).floatWord, (roundedWord_of_arith2 fun _ _ => rfl).floatWord,
    (roundedWord_of_arith2 fun _ _ => rfl).floatWord, (roundedWord_of_arith2 fun _ _ => rfl).floatWord,
    fun _ _ _ _ _ f hready => floatResults_of_compute (g := fun p _ _ => fadd f32 f.mi.toNat false p f.imm.toNat) rfl hready,
    fun _ _ _ _ _ f hready => floatResults_of_compute (g := fun p _ _ => fmul f32 f.mi.toNat false p f.imm.toNat) rfl hready,
    fun s c k w r f hflt hready => ?_⟩
  have hsetp := setp_floatResults hflt hready
  simp only [setpResult_of_isFltT hflt] at hsetp
  exact hsetp

/-- A one-operand word. -/
theorem roundedWord_of_float1 {mk : Full → Instr} {op : Nat} {lat : Nat → Nat} {g : Fmt → Nat → Bool → Nat → FR}
    (hexec : ∀ f s, exec (mk f) s = issueFull op f s fun b x => float1 b x f (lat f.ty.toNat) g) :
    RoundedWord mk op lat fun h rm ftz _ a _ _ => g h rm ftz a :=
  fun f s _ => hexec f s

theorem plainWord_fclass : PlainWord .fclass 0x49 4 (fun _ => 1) (fun _ => True) (fun _ v => v) fun t f a _ _ => 2 ^ fclass (fmtOf t) (modB f 3) a :=
  fun _ _ _ => rfl

/-- Settles O9: each one-operand word and each conversion by its meaning; FCLASS computes its lanes without flags. -/
theorem transcendentalAndConversionWords : Obligations.TranscendentalAndConversionWords := by
  unfold Obligations.TranscendentalAndConversionWords
  exact ⟨(roundedWord_of_float1 fun _ _ => rfl).floatWord, (roundedWord_of_float1 fun _ _ => rfl).floatWord,
    (roundedWord_of_float1 fun _ _ => rfl).floatWord, (roundedWord_of_float1 fun _ _ => rfl).floatWord,
    (roundedWord_of_float1 fun _ _ => rfl).floatWord, (roundedWord_of_float1 fun _ _ => rfl).floatWord,
    (roundedWord_of_float1 fun _ _ => rfl).floatWord, (roundedWord_of_float1 fun _ _ => rfl).floatWord, plainWord_fclass.bitWord,
    fun _ _ _ _ _ f hready => floatResults_of_compute
      (g := fun p _ _ => cvtVal f.ty.toNat (modF f 7 4) (modF f 2 1) (modB f 3) (if modB f 8 then p / 2 ^ 16 else p)) rfl hready,
    fun _ _ _ _ _ f hready => floatResults_of_compute
      (g := fun p q _ => if modB f 7 then cvtxPack f.ty.toNat (modF f 2 1) (modB f 3) p q else cvtxDecode (modB f 6) (modF f 2 1) (modB f 3) p q)
      rfl hready⟩

end Sys2Proof.Proofs
end

section
/-!
PROOFS. Words that need the whole warp (spec/11 R227; spec/12 R240): they run in a warp that has not diverged, and stop one that has. SHFL, VOTE and CVTD
(spec/10 R209; spec/11 R228, R229). Settles DivergedWarpTraps.
-/
namespace Sys2Proof.Proofs

open Sys2Proof.Machine Sys2Proof.Claims

/-! ### Divergence -/

theorem foldl_or_mask_eq_zero (fr : List FEntry) : ∀ m : Mask, fr.foldl (fun m e => m ||| e.mask) m = 0 ↔ m = 0 ∧ ∀ e ∈ fr, e.mask = 0 := by
  induction fr with
  | nil => simp
  | cons e fr ih =>
    intro m
    rw [List.foldl_cons, ih, List.forall_mem_cons, ← and_assoc]
    exact and_congr_left fun _ => BitVec.or_eq_zero_iff

theorem divergedMask_eq_zero_iff (w : Warp) : divergedMask w = 0 ↔ Converged w := by
  rw [divergedMask, foldl_or_mask_eq_zero]
  exact and_iff_right rfl

section

variable {s : State} {c k : Nat} {w : Warp} {r : ClauseRun} {v : WView}

theorem divergedMask_issued : divergedMask (getWarp (issued s c k w r v) c k) = divergedMask w := by
  obtain ⟨x, g, p, f, -, hwarp⟩ := getWarp_issued (s := s) (c := c) (k := k) (w := w) (r := r) (v := v)
  rw [hwarp]
  rfl

theorem warpWide_of_converged (h : Converged w) (body : State → State) :
    warpWide (issued s c k w r v) (warpWord c k w r v) body = body (issued s c k w r v) := by
  simp only [warpWide, warpWord, divergedMask_issued, (divergedMask_eq_zero_iff w).mpr h, if_true]

theorem warpWide_of_diverged (h : ¬ Converged w) (body : State → State) :
    warpWide (issued s c k w r v) (warpWord c k w r v) body = trapWord (issued s c k w r v) (warpWord c k w r v) (illstate (divergedMask w)) := by
  simp only [warpWide, warpWord, divergedMask_issued, mt (divergedMask_eq_zero_iff w).mp h, if_false]

end

/-- A word whose meaning runs over the whole warp. -/
def WideWord (i : Instr) (op : Nat) (f : Full) (body : Issued → State → State) : Prop :=
  ∀ s, exec i s = issueFull op f s fun b x => warpWide b x (body x)

section

variable {i : Instr} {op : Nat} {f : Full} {body : Issued → State → State} (hword : WideWord i op f body) {s : State} {c k : Nat} {w : Warp} {r : ClauseRun}
  (hready : Ready s c k w r (viewFull op f .vector r))
include hword hready

theorem WideWord.exec_of_converged (h : Converged w) :
    exec i s = .next (body (warpWord c k w r (viewFull op f .vector r)) (issued s c k w r (viewFull op f .vector r))) := by
  rw [hword, issueFull, issue_of_ready hready, warpWide_of_converged h]

theorem WideWord.stops (hidx : r.idx < 15) (hsheaf : w.sheaf = none) (h : ¬ Converged w) :
    ∃ t, exec i s = .next t ∧ Stopped s t c k w r (viewFull op f .vector r) 0x21 (divergedMask w) := by
  rw [hword, issueFull, issue_of_ready hready, warpWide_of_diverged h]
  exact ⟨_, rfl, stopped_trapWord hready hidx hsheaf (illstate (divergedMask w))⟩

end

/-- Settles O11: each of these words runs over the whole warp. -/
theorem divergedWarpTraps : Obligations.DivergedWarpTraps := by
  unfold Obligations.DivergedWarpTraps
  intro i op f hi s c k w r hready hidx hsheaf hdiverged
  have hword : ∃ body, WideWord i op f body := by
    obtain ⟨rfl, rfl⟩ | ⟨rfl, rfl⟩ | ⟨rfl, rfl⟩ | ⟨rfl, rfl⟩ | ⟨rfl, rfl⟩ | ⟨rfl, rfl⟩ | ⟨rfl, rfl⟩ | ⟨rfl, rfl⟩ | ⟨rfl, rfl⟩ := hi <;>
      exact ⟨_, fun _ => rfl⟩
  obtain ⟨body, hbody⟩ := hword
  exact hbody.stops hready hidx hsheaf hdiverged

/-! ### SHFL (R228) -/

/-- A rotation within a segment, counted up from the segment's first lane. -/
theorem rotated_eq {sz : Nat} (hsz : 0 < sz) (l k : Nat) :
    (l - (l - l % sz) + sz - k % sz) % sz = (((l : Int) - ((l - l % sz : Nat) : Int) - k) % sz).toNat := by
  have hl : l - (l - l % sz) = l % sz := Nat.sub_sub_self (Nat.mod_le l sz)
  have hk : k % sz ≤ l % sz + sz := (Nat.mod_lt k hsz).le.trans (Nat.le_add_left _ _)
  have hdiv : (k : Int) = sz * (k / sz) + k % sz := (Int.mul_ediv_add_emod _ _).symm
  have hsame : ((l % sz + sz - k % sz : Nat) : Int) = (l : Int) - ((l - l % sz : Nat) : Int) - k + sz * (1 + k / sz) := by
    rw [Nat.cast_sub hk, Nat.cast_sub (Nat.mod_le l sz)]
    push_cast
    linarith
  rw [hl, ← Int.add_mul_emod_self_left _ _ (1 + (k : Int) / sz), ← hsame]
  rfl

/-- The lane that SHFL reads, or its third operand where there is none. -/
theorem shflFrom_eq_shuffled (mode : Nat) {sz : Nat} (hsz : 0 < sz) (l k : Nat) (a : Nat → Nat) (fill : Nat) :
    (shflFrom mode sz l k).elim fill a = shuffled mode sz l k a fill := by
  match mode with
  | 0 => rfl
  | 1 => exact congrArg (fun j => a (l - l % sz + j)) (rotated_eq hsz l k)
  | 2 =>
    simp only [shflFrom, shuffled, intVal_eq_value, value, if_true, Bool.and_eq_true, decide_eq_true_eq]
    split <;> rfl
  | n + 3 => rfl

/-- SHFL's segments are not empty: a legal one has a SEG of at most 4. -/
theorem segment_pos {f : Full} {sc : Bool} (hok : (wspec 0x52 sc f).ok = true) : 0 < 32 / 2 ^ modF f 5 3 := by
  have hseg : modF f 5 3 ≤ 4 := by
    have hboth : (f.ty.toNat = 6 ∨ f.ty.toNat = 7) ∧ modF f 5 3 ≤ 4 := by simpa [wspec, specFloat, fixedW] using hok
    exact hboth.2
  have hpow : 2 ^ modF f 5 3 ≤ 2 ^ 4 := Nat.pow_le_pow_right two_pos hseg
  exact Nat.div_pos (by omega) (Nat.two_pow_pos _)

theorem shfl_results {s : State} {c k : Nat} {w : Warp} {r : ClauseRun} {f : Full} (hready : Ready s c k w r (viewFull 0x52 f .vector r))
    (h : Converged w) : Results (.shfl f) s c k w r (viewFull 0x52 f .vector r) 6 (vdst f.dst (typeRegs f.ty.toNat))
      (fun l => shuffled (modF f 2 1) (32 / 2 ^ modF f 5 3) l (opB w r (viewFull 0x52 f .vector r) l) (opA w r (viewFull 0x52 f .vector r))
        (opC w r (viewFull 0x52 f .vector r) l) % 2 ^ (32 * typeRegs f.ty.toNat)) := by
  have hword : WideWord (.shfl f) 0x52 f _ := fun _ => rfl
  refine results_of_lanes (hword.exec_of_converged hready h) fun l _ _ => ?_
  rw [← shflFrom_eq_shuffled _ (segment_pos (wspec_ok_of_legal hready.legal))]
  simp only [opB, warpWord]
  cases shflFrom _ _ l _ <;> rfl

/-! ### VOTE (R229) -/

/-- The lanes of a mask below a lane, counted. -/
theorem popcount_below (m : Mask) {l : Nat} (hl : l < 32) :
    popcount (m &&& BitVec.ofNat 32 (2 ^ l - 1)) = ((List.range l).filter fun j => m.getLsbD j).length := by
  obtain ⟨n, hn⟩ := Nat.exists_eq_add_of_lt hl
  have hsplit : List.range 32 = List.range l ++ (List.range (n + 1)).map (l + ·) := by rw [← List.range_add, ← Nat.add_assoc, ← hn]
  have hbit : ∀ j < 32, (m &&& BitVec.ofNat 32 (2 ^ l - 1)).getLsbD j = (m.getLsbD j && decide (j < l)) := fun j hj => by
    rw [BitVec.getLsbD_and, BitVec.getLsbD_ofNat, Nat.testBit_two_pow_sub_one, decide_eq_true hj, Bool.true_and]
  have hlow : (List.range l).filter (fun j => (m &&& BitVec.ofNat 32 (2 ^ l - 1)).getLsbD j) = (List.range l).filter fun j => m.getLsbD j :=
    List.filter_congr fun j hj => by
      have hlt := List.mem_range.mp hj
      rw [hbit j (by omega), decide_eq_true hlt, Bool.and_true]
  have hhigh : ((List.range (n + 1)).map (l + ·)).filter (fun j => (m &&& BitVec.ofNat 32 (2 ^ l - 1)).getLsbD j) = [] := by
    rw [List.filter_eq_nil_iff]
    intro j hj
    obtain ⟨i, hi, rfl⟩ := List.mem_map.mp hj
    have hlt := List.mem_range.mp hi
    simp [hbit (l + i) (by omega)]
  rw [popcount, hsplit, List.filter_append, hlow, hhigh, List.append_nil]

theorem lowLane_eq_ite (m : Mask) : lowLane m = if m = 0 then 32 else ((List.range 32).filter fun j => m.getLsbD j).headD 32 := by
  split
  · next h => subst h; rfl
  · rfl

theorem vote_results {s : State} {c k : Nat} {w : Warp} {r : ClauseRun} {f : Full} (hready : Ready s c k w r (viewFull 0x53 f .vector r))
    (h : Converged w) : Results (.vote f) s c k w r (viewFull 0x53 f .vector r) 4 (if modF f 3 1 < 4 then vdst f.dst 1 else .pred f.dst.toNat)
      (fun l => voted (modF f 3 1) l (readPred (due w r (viewFull 0x53 f .vector r)).1 f.sa.toNat &&& active w r (viewFull 0x53 f .vector r))
        (active w r (viewFull 0x53 f .vector r))) := by
  have hword : WideWord (.vote f) 0x53 f _ := fun _ => rfl
  refine results_of_lanes (hword.exec_of_converged hready h) fun l hl _ => congrArg plain ?_
  have hkind : modF f 3 1 < 8 := Nat.mod_lt _ (by decide)
  simp only [warpWord, readPred_issued]
  generalize readPred (due w r (viewFull 0x53 f .vector r)).1 f.sa.toNat &&& active w r (viewFull 0x53 f .vector r) = m
  generalize active w r (viewFull 0x53 f .vector r) = act
  generalize modF f 3 1 = kind at hkind
  match kind with
  | 0 => rfl
  | 1 => rfl
  | 2 => exact popcount_below m hl
  | 3 => exact lowLane_eq_ite m
  | 4 => simp [voted, Bool.toNat, Bool.cond_eq_ite]
  | 5 => simp [voted, Bool.toNat, Bool.cond_eq_ite]
  | 6 => simp [voted, Bool.toNat, Bool.cond_eq_ite]
  | 7 => simp [voted, Bool.toNat, Bool.cond_eq_ite]

/-! ### CVTD (R209) -/

theorem length_cvtdBlock (d4 : Bool) (gap : Nat) (act : Mask) (xs : List Nat) :
    (cvtdBlock d4 gap act xs).2.1.length = xs.length ∧ (cvtdBlock d4 gap act xs).2.2.length = xs.length := by
  unfold cvtdBlock
  dsimp only
  split <;> simp

/-- A value and flags for each lane, from two lists. -/
theorem map_zip_eq_map_range {α : Type} (g : Nat × Nat → α) {as bs : List Nat} (ha : as.length = 32) (hb : bs.length = 32) :
    (as.zip bs).map g = (List.range 32).map fun l => g (as.getD l 0, bs.getD l 0) := by
  refine List.ext_getElem (by simp [ha, hb]) fun l hl hl' => ?_
  simp only [List.length_map, List.length_range] at hl'
  simp [ha, hb, hl']

theorem cvtd_floatResults {s : State} {c k : Nat} {w : Warp} {r : ClauseRun} {f : Full} (hready : Ready s c k w r (viewFull 0x4B f .vector r))
    (h : Converged w) : FloatResults (.cvtd f) s c k w r (viewFull 0x4B f .vector r) 4 (vdst f.dst 2)
      (fun l =>
        let blk := cvtdBlock (f.ty.toNat = 13) (modF f 8 5) (active w r (viewFull 0x4B f .vector r)) ((List.range 32).map (fun j =>
          if (active w r (viewFull 0x4B f .vector r)).getLsbD j then ftzIn f32 (modB f 3) (opA w r (viewFull 0x4B f .vector r) j) else 0))
        { bits := blk.2.1.getD l 0 + 2 ^ 32 * blk.1, flags := blk.2.2.getD l 0 }) := by
  have hword : WideWord (.cvtd f) 0x4B f _ := fun _ => rfl
  have hexec := hword.exec_of_converged hready h
  have hen : trapEnables (issued s c k w r (viewFull 0x4B f .vector r)) (warpWord c k w r (viewFull 0x4B f .vector r)).u = fptrap s w.ctx :=
    trapEnables_issued
  have hlen := fun d4 gap act (g : Nat → Nat) => length_cvtdBlock d4 gap act ((List.range 32).map g)
  simp only [List.length_map, List.length_range] at hlen
  dsimp only at hexec
  rw [map_zip_eq_map_range _ (hlen _ _ _ _).1 (hlen _ _ _ _).2, hen] at hexec
  exact floatResults_of_lanes hexec

end Sys2Proof.Proofs
end

section
/-!
PROOFS. REDUX (spec/11 R230): the fixed tree and the serial scan, over values as they are read, and the words that combine lanes together. Settles WarpWideWords.
-/
namespace Sys2Proof.Proofs

open Sys2Proof.Machine Sys2Proof.Claims

/-! ### The fixed tree -/

/-- A round leaves every `2 * d`-th slot merged with the one `d` above it. -/
theorem reduxRound_getElem? (op : Nat → Nat → FR) (d : Nat) (xs : List (Option FR)) {l : Nat} (hl : l < 32) (hd : 2 * d ∣ l) :
    (reduxRound op d xs)[l]? = some (mergedSlots op (xs[l]?).join (xs[l + d]?).join) := by
  have hmod : l % (2 * d) = 0 := Nat.mod_eq_zero_of_dvd hd
  simp only [reduxRound, List.getElem?_map, List.getElem?_range hl, Option.map_some, hmod, ne_eq, not_true_eq_false, if_false]
  generalize (xs[l]?).join = p
  generalize (xs[l + d]?).join = q
  cases p <;> cases q <;> rfl

/-- The slots after `n` rounds. -/
def reduxRounds (op : Nat → Nat → FR) (xs : List (Option FR)) (n : Nat) : List (Option FR) :=
  (List.range n).foldl (fun ys i => reduxRound op (2 ^ i) ys) xs

theorem reduxRounds_succ (op : Nat → Nat → FR) (xs : List (Option FR)) (n : Nat) :
    reduxRounds op xs (n + 1) = reduxRound op (2 ^ n) (reduxRounds op xs n) := by
  rw [reduxRounds, List.range_succ, List.foldl_append]
  rfl

theorem reduxRounds_getElem? (op : Nat → Nat → FR) {xs : List (Option FR)} {x : Nat → Option FR} (hx : ∀ l < 32, xs[l]? = some (x l)) (n : Nat) :
    n ≤ 5 → ∀ l < 32, 2 ^ n ∣ l → (reduxRounds op xs n)[l]? = some (treeSlot op x n l) := by
  induction n with
  | zero => exact fun _ l hl _ => hx l hl
  | succ n ih =>
    intro hn l hl hdvd
    have hstep : 2 ^ (n + 1) = 2 * 2 ^ n := pow_succ' 2 n
    have hhere := ih (by omega) l hl ((pow_dvd_pow 2 (Nat.le_succ n)).trans hdvd)
    have hnext : l + 2 ^ (n + 1) ≤ 32 := by
      have hwhole : 2 ^ (n + 1) ∣ 32 - l := Nat.dvd_sub (pow_dvd_pow 2 hn : 2 ^ (n + 1) ∣ 2 ^ 5) hdvd
      have hle := Nat.le_of_dvd (by omega) hwhole
      omega
    have hpos := Nat.two_pow_pos n
    have hthere := ih (by omega) (l + 2 ^ n) (by omega) ((Nat.dvd_add_right ((pow_dvd_pow 2 (Nat.le_succ n)).trans hdvd)).mpr dvd_rfl)
    rw [reduxRounds_succ, reduxRound_getElem? op _ _ hl (hstep ▸ hdvd), hhere, hthere]
    rfl

/-- The tree's total is in slot 0 after five rounds. -/
theorem reduxTotal_eq (op : Nat → Nat → FR) {xs : List (Option FR)} {x : Nat → Option FR} (hx : ∀ l < 32, xs[l]? = some (x l)) :
    ([1, 2, 4, 8, 16].foldl (fun xs d => reduxRound op d xs) xs).headD none = treeSlot op x 5 0 := by
  have hrounds : [1, 2, 4, 8, 16].foldl (fun xs d => reduxRound op d xs) xs = reduxRounds op xs 5 := rfl
  rw [hrounds, List.headD_eq_head?_getD, List.head?_eq_getElem?, reduxRounds_getElem? op hx 5 le_rfl 0 (by decide) (dvd_zero _)]
  rfl

/-! ### The serial scan -/

/-- What a lane of the scan writes: nothing where it is not active. -/
def scanSlot (op : Nat → Nat → FR) (x : Nat → Option FR) (l : Nat) : Option Nat := if (x l).isSome then (prefixSlot op x (l + 1)).map FR.bits else none

theorem mergedSlots_none (op : Nat → Nat → FR) (p : Option FR) : mergedSlots op p none = p := by cases p <;> rfl

theorem reduxScan_eq (op : Nat → Nat → FR) (x : Nat → Option FR) (k : Nat) : ∀ n,
    reduxScan op ((prefixSlot op x n).map FR.bits) (slotOf (prefixSlot op x n)).flags ((List.range' n k).map x) =
      ((List.range' n k).map (scanSlot op x), (slotOf (prefixSlot op x (n + k))).flags) := by
  induction k with
  | zero => intro n; cases prefixSlot op x n <;> rfl
  | succ k ih =>
    intro n
    have hrest := ih (n + 1)
    have hnext : prefixSlot op x (n + 1) = mergedSlots op (prefixSlot op x n) (x n) := rfl
    rw [Nat.add_right_comm, Nat.add_assoc] at hrest
    rw [List.range'_succ, List.map_cons, List.map_cons]
    cases hx : x n with
    | none =>
      rw [hnext, hx, mergedSlots_none] at hrest
      simp only [reduxScan, hrest, scanSlot, hx, Option.isSome_none, Bool.false_eq_true, if_false]
    | some a =>
      have hlane : scanSlot op x n = (prefixSlot op x (n + 1)).map FR.bits := by simp only [scanSlot, hx, Option.isSome_some, if_true]
      rw [hlane, hnext, hx]
      rw [hnext, hx] at hrest
      cases hp : prefixSlot op x n with
      | none =>
        rw [hp] at hrest
        simp only [mergedSlots, Option.map_some, slotOf, Option.getD_some] at hrest
        simp only [reduxScan, mergedSlots, Option.map_none, Option.map_some, slotOf, Option.getD_none, Nat.zero_or, hrest]
      | some p =>
        rw [hp] at hrest
        simp only [mergedSlots, Option.map_some, slotOf, Option.getD_some] at hrest
        simp only [reduxScan, mergedSlots, Option.map_some, slotOf, Option.getD_some, hrest]

/-- The scan from its first lane. -/
theorem reduxScan_all (op : Nat → Nat → FR) (x : Nat → Option FR) :
    reduxScan op none 0 ((List.range 32).map x) = ((List.range 32).map (scanSlot op x), (slotOf (prefixSlot op x 32)).flags) := by
  rw [List.range_eq_range']
  exact reduxScan_eq op x 32 0

/-! ### Two operations that agree on the values met -/

/-- A slot is empty or its value is among those of `P`. -/
def SlotIn (P : Nat → Prop) (x : Option FR) : Prop := ∀ y ∈ x, P y.bits

section

variable {op op' : Nat → Nat → FR} {P : Nat → Prop} (hop : ∀ a b, P a → P b → op' a b = op a b ∧ P (op a b).bits)
include hop

theorem mergedSlots_congr {p q : Option FR} (hp : SlotIn P p) (hq : SlotIn P q) : mergedSlots op' p q = mergedSlots op p q ∧ SlotIn P (mergedSlots op p q) := by
  match p, q with
  | none, q => exact ⟨rfl, hq⟩
  | some a, none => exact ⟨rfl, hp⟩
  | some a, some b =>
    obtain ⟨heq, hin⟩ := hop a.bits b.bits (hp a rfl) (hq b rfl)
    refine ⟨by simp only [mergedSlots, heq], fun y hy => ?_⟩
    obtain rfl := Option.some.inj hy
    exact hin

variable {x : Nat → Option FR} (hx : ∀ l, SlotIn P (x l))
include hx

theorem treeSlot_congr (n : Nat) : ∀ l, treeSlot op' x n l = treeSlot op x n l ∧ SlotIn P (treeSlot op x n l) := by
  induction n with
  | zero => exact fun l => ⟨rfl, hx l⟩
  | succ n ih =>
    intro l
    obtain ⟨hhere, hin⟩ := ih l
    obtain ⟨hthere, hin'⟩ := ih (l + 2 ^ n)
    rw [treeSlot, treeSlot, hhere, hthere]
    exact mergedSlots_congr hop hin hin'

theorem prefixSlot_congr (n : Nat) : prefixSlot op' x n = prefixSlot op x n ∧ SlotIn P (prefixSlot op x n) := by
  induction n with
  | zero => exact ⟨rfl, fun y hy => nomatch hy⟩
  | succ n ih =>
    rw [prefixSlot, prefixSlot, ih.1]
    exact mergedSlots_congr hop ih.2 (hx n)

end

/-! ### The operations of REDUX -/

/-- A step of the model's reduction is the statement's, on values of 32 bits where they are integers. -/
theorem reduxOp_eq_reduceStep {t rop : Nat} (rm : Nat) (ftz : Bool) (hlegal : (t = 2 ∨ t = 6) ∨ t = 10 ∧ rop ≤ 2) (a b : Nat)
    (ha : t ≠ 10 → a < 2 ^ 32) (hb : t ≠ 10 → b < 2 ^ 32) : reduxOp t rop rm ftz a b = reduceStep t rop rm ftz a b ∧
      (t ≠ 10 → (reduceStep t rop rm ftz a b).bits < 2 ^ 32) := by
  by_cases ht : t = 10
  · obtain ⟨-, hrop⟩ := hlegal.resolve_left (by omega)
    refine ⟨?_, fun hne => absurd ht hne⟩
    simp only [reduxOp, reduceStep, if_pos ht]
    match rop, hrop with
    | 0, _ => rfl
    | 1, _ => rfl
    | 2, _ => rfl
  · have hwidth : width t = 32 := by obtain rfl | rfl := hlegal.resolve_right fun h => ht h.1 <;> rfl
    have ha' : a < 2 ^ 32 := ha ht
    have hb' : b < 2 ^ 32 := hb ht
    have hlt : ∀ i, wrapped t i < 2 ^ 32 := fun i => hwidth ▸ wrapped_lt t i
    have hself : ∀ n < 2 ^ 32, wrapped t (value t n) = n := fun n hn => by rw [wrapped_value, hwidth, Nat.mod_eq_of_lt hn]
    have hmin : (if value t a ≤ value t b then a else b) = wrapped t (min (value t a) (value t b)) := by
      rw [min_def]; split <;> [rw [hself a ha']; rw [hself b hb']]
    have hmax : (if value t a ≤ value t b then b else a) = wrapped t (max (value t a) (value t b)) := by
      rw [max_def]; split <;> [rw [hself b hb']; rw [hself a ha']]
    simp only [reduxOp, reduceStep, if_neg ht, intVal_eq_value]
    match rop with
    | 0 => exact ⟨rfl, fun _ => Nat.mod_lt _ (by decide)⟩
    | 1 => exact ⟨congrArg (fun n => FR.mk n 0) hmin, fun _ => hlt _⟩
    | 2 => exact ⟨congrArg (fun n => FR.mk n 0) hmax, fun _ => hlt _⟩
    | 3 => exact ⟨rfl, fun _ => Nat.and_lt_two_pow _ hb'⟩
    | 4 => exact ⟨rfl, fun _ => Nat.or_lt_two_pow ha' hb'⟩
    | n + 5 => exact ⟨rfl, fun _ => Nat.xor_lt_two_pow ha' hb'⟩

theorem ieee_f32 : Ieee f32 := ieee_of_mem f32 (by simp)

theorem zeroBits_f32 (a : Nat) : zeroBits f32 (a / 2 ^ 31 % 2 = 1) = a % 2 ^ 32 / 2 ^ 31 * 2 ^ 31 := by
  have hsign : zeroBits f32 (a / 2 ^ 31 % 2 = 1) = if a / 2 ^ 31 % 2 = 1 then 2 ^ 31 else 0 := by simp [zeroBits, signBit, f32]
  rw [hsign]
  split <;> omega

/-- With FTZ a subnormal of f32 is read as a zero of its sign. -/
theorem ftzIn_f32 (ftz : Bool) (a : Nat) :
    ftzIn f32 ftz a = if ftz = true ∧ a / 2 ^ 23 % 2 ^ 8 = 0 then a % 2 ^ 32 / 2 ^ 31 * 2 ^ 31 else a % 2 ^ 32 := by
  rw [← zeroBits_f32]
  exact ftzIn_eq ieee_f32 ftz a

/-- A pattern whose exponent field is 0 is no NaN. -/
theorem fdec_f32_fin {a : Nat} (h : a / 2 ^ 23 % 2 ^ 8 = 0) : ∃ neg m e, fdec f32 a = .fin neg m e := by
  have hexp : a / 2 ^ f32.fb % 2 ^ f32.eb = 0 := h
  exact ⟨_, _, _, by simp only [fdec, hexp]; rfl⟩

theorem reduxRead_eq_contributed (t : Nat) (ftz : Bool) (a : Nat) : reduxRead t ftz a = contributed t ftz a := by
  by_cases ht : t = 10
  · simp only [reduxRead, contributed, if_pos ht, if_neg (not_not.mpr ht), ftzIn_f32]
    by_cases hflush : ftz = true ∧ a / 2 ^ 23 % 2 ^ 8 = 0
    · obtain ⟨neg, m, e, hdec⟩ := fdec_f32_fin hflush.2
      obtain ⟨neg', m', e', hdec'⟩ := fdec_f32_fin (a := a % 2 ^ 32 / 2 ^ 31 * 2 ^ 31) (by omega)
      simp only [if_pos hflush, hdec, hdec']
    · have hmod : fdec f32 (a % 2 ^ 32) = fdec f32 a := fdec_mod ieee_f32 a
      simp only [if_neg hflush, hmod]
      cases fdec f32 a <;> rfl
  · simp only [reduxRead, contributed, if_neg ht, if_pos ht]

theorem contributed_lt {t : Nat} (ht : t ≠ 10) (ftz : Bool) (a : Nat) : (contributed t ftz a).bits < 2 ^ 32 := by
  simp only [contributed, if_pos ht]
  exact Nat.mod_lt _ (by decide)

/-- A legal REDUX has a type and an operation of R230. -/
theorem redux_legal {f : Full} {sc : Bool} (hok : (wspec 0x54 sc f).ok = true) :
    (f.ty.toNat = 2 ∨ f.ty.toNat = 6) ∨ f.ty.toNat = 10 ∧ modF f 7 5 ≤ 2 := by
  have hcases : (f.ty.toNat = 2 ∨ f.ty.toNat = 6) ∧ modF f 7 5 ≤ 5 ∨ f.ty.toNat = 10 ∧ modF f 7 5 ≤ 2 := by
    simpa [wspec, specFloat, fixedW] using hok
  exact hcases.imp_left And.left

/-- The value that an active lane contributes. -/
def reduxSlot (w : Warp) (r : ClauseRun) (f : Full) (l : Nat) : Option FR :=
  if (active w r (viewFull 0x54 f .vector r)).getLsbD l = true
  then some (contributed f.ty.toNat (modB f 3) (opA w r (viewFull 0x54 f .vector r) l)) else none

theorem slotIn_reduxSlot (w : Warp) (r : ClauseRun) (f : Full) (l : Nat) : SlotIn (fun a => f.ty.toNat ≠ 10 → a < 2 ^ 32) (reduxSlot w r f l) := by
  intro y hy ht
  unfold reduxSlot at hy
  split at hy
  · obtain rfl := Option.some.inj hy
    exact contributed_lt ht _ _
  · exact nomatch hy

/-- What a REDUX leaves outstanding in a warp that has not diverged. -/
theorem exec_redux {s : State} {c k : Nat} {w : Warp} {r : ClauseRun} {f : Full} (hready : Ready s c k w r (viewFull 0x54 f .vector r))
    (h : Converged w) : exec (.redux f) s = .next (
      let op := reduxOp f.ty.toNat (modF f 7 5) (modF f 2 1) (modB f 3)
      let xs := (List.range 32).map (reduxSlot w r f)
      let scan := reduxScan op none 0 xs
      let total := (([1, 2, 4, 8, 16].foldl (fun xs d => reduxRound op d xs) xs).headD none).getD { bits := 0, flags := 0 }
      if modB f 4 then posted s c k w r (viewFull 0x54 f .vector r) 6 (vdst f.dst 1) (active w r (viewFull 0x54 f .vector r))
        (scan.1.map fun v => BitVec.ofNat 128 (v.getD 0)) (BitVec.ofNat 5 scan.2)
      else posted s c k w r (viewFull 0x54 f .vector r) 6 (vdst f.dst 1) (active w r (viewFull 0x54 f .vector r))
        (List.replicate 32 (BitVec.ofNat 128 total.bits)) (BitVec.ofNat 5 total.flags)) := by
  have hword : WideWord (.redux f) 0x54 f _ := fun _ => rfl
  rw [hword.exec_of_converged hready h]
  dsimp only
  simp only [← post_issued]
  simp only [reduxRead_eq_contributed]
  rfl

theorem nth_replicate (x : W128) {n l : Nat} (hl : l < n) : nth (List.replicate n x) l = x := by simp [nth, hl]

/-- An active lane's value in the scan. -/
theorem getD_scanSlot {op : Nat → Nat → FR} {x : Nat → Option FR} {l : Nat} (hx : (x l).isSome = true) :
    (scanSlot op x l).getD 0 = (slotOf (prefixSlot op x (l + 1))).bits := by
  rw [scanSlot, if_pos hx]
  cases prefixSlot op x (l + 1) <;> rfl

theorem redux_results {s : State} {c k : Nat} {w : Warp} {r : ClauseRun} {f : Full} (hready : Ready s c k w r (viewFull 0x54 f .vector r))
    (h : Converged w) : ∃ vals fl,
    exec (.redux f) s = .next (posted s c k w r (viewFull 0x54 f .vector r) 6 (vdst f.dst 1) (active w r (viewFull 0x54 f .vector r)) vals fl) ∧
    let op := reduceStep f.ty.toNat (modF f 7 5) (modF f 2 1) (modB f 3)
    (modB f 4 = false → fl = BitVec.ofNat 5 (slotOf (treeSlot op (reduxSlot w r f) 5 0)).flags ∧
      ∀ l < 32, (active w r (viewFull 0x54 f .vector r)).getLsbD l = true → nth vals l = BitVec.ofNat 128 (slotOf (treeSlot op (reduxSlot w r f) 5 0)).bits) ∧
    (modB f 4 = true → fl = BitVec.ofNat 5 (slotOf (prefixSlot op (reduxSlot w r f) 32)).flags ∧
      ∀ l < 32, (active w r (viewFull 0x54 f .vector r)).getLsbD l = true →
        nth vals l = BitVec.ofNat 128 (slotOf (prefixSlot op (reduxSlot w r f) (l + 1))).bits) := by
  have hop := reduxOp_eq_reduceStep (modF f 2 1) (modB f 3) (redux_legal (wspec_ok_of_legal hready.legal))
  have htree := (treeSlot_congr hop (slotIn_reduxSlot w r f) 5 0).1
  have hprefix n := (prefixSlot_congr hop (slotIn_reduxSlot w r f) n).1
  have hexec := exec_redux hready h
  dsimp only at hexec
  rw [reduxScan_all, reduxTotal_eq _ (x := reduxSlot w r f) (fun l hl => by simp [hl]), htree, hprefix] at hexec
  cases hscan : modB f 4 with
  | false =>
    rw [hscan, if_neg Bool.false_ne_true] at hexec
    refine ⟨_, _, hexec, fun _ => ⟨rfl, fun l hl _ => ?_⟩, fun htrue => nomatch htrue⟩
    exact nth_replicate _ hl
  | true =>
    rw [hscan, if_pos rfl, List.map_map] at hexec
    refine ⟨_, _, hexec, fun hfalse => absurd hfalse (by decide), fun _ => ⟨rfl, fun l hl hact => ?_⟩⟩
    have hsome : (reduxSlot w r f l).isSome = true := by rw [reduxSlot, if_pos hact]; rfl
    rw [nth_map_range _ hl, ← hprefix, ← getD_scanSlot hsome]
    rfl

/-! ### PRMT (R231) -/

theorem plainWord_prmt : PlainWord .prmt 0x55 2 (fun _ => 1) (fun _ => True) (fun _ v => v) fun _ f a b c => prmtVal (modB f 1) a b c := fun _ _ _ => rfl

/-- Settles O10: the words that combine lanes run over the whole warp; PRMT computes each lane alone. -/
theorem warpWideWords : Obligations.WarpWideWords := by
  unfold Obligations.WarpWideWords
  exact ⟨fun _ _ _ _ _ _ => shfl_results, fun _ _ _ _ _ _ => vote_results, fun _ _ _ _ _ _ => redux_results, fun _ _ _ _ _ _ => cvtd_floatResults,
    plainWord_prmt.bitWord⟩

end Sys2Proof.Proofs
end

section
/-!
PROOFS. The matrix words (spec/12 R240, R241, R246-R251, R254): MRDY's mark, what a matrix word does with its checks passed and with one failed, and the sets
that a pair's parts form. Settles MatrixWords.
-/
namespace Sys2Proof.Proofs

open Sys2Proof.Machine Sys2Proof.Claims

/-! ### MRDY (R241) -/

section

variable {s : State} {c k : Nat} {w : Warp} {r : ClauseRun} {f : Full} (hready : Ready s c k w r (viewFull 0x72 f .vector r))
include hready

theorem sheafEnds_mrdy (hsheaf : w.sheaf ≠ none) :
    ∃ t, exec (.mrdy f) s = .next t ∧ SheafEnds s t c k r (viewFull 0x72 f .vector r) 0x21 := by
  refine ⟨_, issue_of_ready hready _, ?_⟩
  simp only [warpWord, sheaf_issued, Option.isSome_iff_ne_none.mpr hsheaf, if_true]
  exact sheafEnds_trapWord hsheaf (illstate 0)

theorem exec_mrdy (hsheaf : w.sheaf = none) :
    exec (.mrdy f) s = .next (setWarp s c k { (due w r (viewFull 0x72 f .vector r)).1 with
      run := some (stepped w r (viewFull 0x72 f .vector r)), rdy := true, rdySeq := s.nextOp, rdyLost := false, wrAtRdy := w.wrSeq }) := by
  obtain ⟨x, g, p, fp, hdue, hwarp⟩ := getWarp_issued (s := s) (c := c) (k := k) (w := w) (r := r) (v := viewFull 0x72 f .vector r)
  have hno : ¬ (getWarp (issued s c k w r (viewFull 0x72 f .vector r)) c k).sheaf.isSome = true := by simp [sheaf_issued, hsheaf]
  refine (issue_of_ready hready _).trans (congrArg _ ?_)
  simp only [warpWord, if_neg hno]
  rw [hwarp, hdue, issued, setWarp_setWarp]
  rfl

end

/-! ### The checks of a matrix word (R240) -/

theorem sumL_eq_sum (l : List Nat) : sumL l = l.sum := List.sum_eq_foldl.symm

/-- A word of no sheaf passes R240's checks with its tile in the grant, its mark where it needs one, a group of 64 rows at most and its spans in the registers. -/
theorem matIll_eq_false_iff {s : State} {w : Warp} {i : Instr} {t : Team} (hsheaf : w.sheaf = none) (hteam : findTeam s w.handle = some t) :
    matIll s w i = false ↔ t.tileBase ≤ (instrFull i).dst.toNat ∧ (instrFull i).dst.toNat < t.tileBase + t.tileLen ∧
      (needsReady i = true → w.rdy = true) ∧ (isGrouped i = true → ((List.range 8).map (groupRows (groupZ w i))).sum ≤ 64) ∧
      ∀ p ∈ matSpans i (groupZ w i), p.1 + p.2 ≤ 320 ∧ p.1 + p.2 ≤ w.budget := by
  simp only [matIll, hteam, hsheaf, groupFirst, sumL_eq_sum]
  simp [forall_and, and_assoc]

/-- The checks look at nothing that the issue of the word changes. -/
theorem matIll_issued (s : State) (c k : Nat) (w : Warp) (r : ClauseRun) (v : WView) (i : Instr) :
    matIll (issued s c k w r v) (getWarp (issued s c k w r v) c k) i = matIll s w i := by
  obtain ⟨x, g, p, fp, -, hwarp⟩ := getWarp_issued (s := s) (c := c) (k := k) (w := w) (r := r) (v := v)
  rw [hwarp]
  rfl

/-! ### What a matrix word does -/

section

variable {s : State} {c k : Nat} {w : Warp} {r : ClauseRun} {v : WView} {i : Instr}

theorem matrixIssue_of_ill (h : Converged w) (hill : matIll s w i = true) : matrixIssue (issued s c k w r v) (warpWord c k w r v) i =
    trapWord (issued s c k w r v) (warpWord c k w r v) (illstate 0) := by
  rw [matrixIssue, warpWide_of_converged h]
  simp only [warpWord, matIll_issued, hill, if_true]

/-- With its checks passed the word's operation is in flight, its mark used up, and its part at its pair. -/
theorem matrixIssue_of_passes (h : Converged w) (hill : matIll s w i = false) : matrixIssue (issued s c k w r v) (warpWord c k w r v) i =
    addPart (setWarp (newOp (issued s c k w r v) (warpWord c k w r v) i (active w r v) [] 0) c k
      { getWarp (newOp (issued s c k w r v) (warpWord c k w r v) i (active w r v) [] 0) c k with rdy := w.rdy && !needsReady i })
      (Claims.partFor s c k w i (issueCycle r v)) := by
  obtain ⟨x, g, p, fp, -, hwarp⟩ := getWarp_issued (s := s) (c := c) (k := k) (w := w) (r := r) (v := v)
  have hrdy : (getWarp (newOp (issued s c k w r v) (warpWord c k w r v) i (active w r v) [] 0) c k).rdy = w.rdy := by
    rw [newOp_eq, getWarp_setUnitFlags_keeps Warp.rdy fun _ _ => rfl]
    change (getWarp (issued s c k w r v) c k).rdy = w.rdy
    rw [hwarp]
  have hill' : ¬ matIll (issued s c k w r v) (getWarp (issued s c k w r v) c k) i = true := by simp [matIll_issued, hill]
  rw [matrixIssue, warpWide_of_converged h, ← hrdy]
  refine (if_neg hill').trans ?_
  rw [hwarp]
  rfl

end

/-- `i` is the matrix word of opcode `op` and fields `f`. -/
structure MatrixWord (i : Instr) (op : Nat) (f : Full) : Prop where
  exec : ∀ s, exec i s = issueFull op f s fun b x => matrixIssue b x i
  opcode : instrOp i = op
  fields : instrFull i = f

theorem matrixWord_of_opcode {i : Instr} {op : Nat} {f : Full} (hi : (i = Instr.mma f ∧ op = 0x70) ∨ (i = .mmaj f ∧ op = 0x71) ∨
    (i = .mgrp f ∧ op = 0x73) ∨ (i = .mzero f ∧ op = 0x74) ∨ (i = .mdrain f ∧ op = 0x75)) : MatrixWord i op f := by
  obtain ⟨rfl, rfl⟩ | ⟨rfl, rfl⟩ | ⟨rfl, rfl⟩ | ⟨rfl, rfl⟩ | ⟨rfl, rfl⟩ := hi <;> exact ⟨fun _ => rfl, rfl, rfl⟩

section

variable {i : Instr} {op : Nat} {f : Full} (hword : MatrixWord i op f)
include hword

theorem MatrixWord.needsReady_eq : needsReady i = (op = 0x70 || op = 0x71 || op = 0x73) := by rw [needsReady, hword.opcode]

theorem MatrixWord.isGrouped_iff : isGrouped i = true ↔ op = 0x73 := by rw [isGrouped, hword.opcode, decide_eq_true_iff]

variable {s : State} {c k : Nat} {w : Warp} {r : ClauseRun} (hready : Ready s c k w r (viewFull op f .vector r)) (hconv : Converged w)
include hready hconv

theorem MatrixWord.launches (hill : matIll s w i = false) :
    ∃ q, Launched (issued s c k w r (viewFull op f .vector r)) q (.warp c k) i r (viewFull op f .vector r)
        (active w r (viewFull op f .vector r)) 0 (fun _ => 0) (supplied w r (viewFull op f .vector r) r.la (viewFull op f .vector r).a)
        (supplied w r (viewFull op f .vector r) r.lb (viewFull op f .vector r).b) (supplied w r (viewFull op f .vector r) r.lc (viewFull op f .vector r).c) ∧
      Machine.exec i s = .next (addPart (setWarp q c k { getWarp q c k with rdy := w.rdy && !needsReady i })
        (Claims.partFor s c k w i (issueCycle r (viewFull op f .vector r)))) := by
  refine ⟨newOp _ (warpWord c k w r _) i _ [] 0, launched_newOp _ i _ 0 0 (warpWord_carries c k w r _) (by decide) (fun a ha => nomatch ha), ?_⟩
  rw [hword.exec, issueFull, issue_of_ready hready, matrixIssue_of_passes hconv hill]

theorem MatrixWord.stops (hidx : r.idx < 15) (hsheaf : w.sheaf = none) (hill : matIll s w i = true) :
    ∃ q, Machine.exec i s = .next q ∧ Stopped s q c k w r (viewFull op f .vector r) 0x21 0 := by
  rw [hword.exec, issueFull, issue_of_ready hready, matrixIssue_of_ill hconv hill]
  exact ⟨_, rfl, stopped_trapWord hready hidx hsheaf (illstate 0)⟩

end

/-! ### Parts that match (R247) -/

theorem partsMatch_refl (p : MPart) : partsMatch p p = true := by simp [partsMatch]

theorem partsMatch_comm (p q : MPart) : partsMatch p q = partsMatch q p := by simp only [partsMatch, eq_comm]

theorem eq_of_partsMatch {p q : MPart} (h : partsMatch p q = true) : p.core = q.core ∧ (instrFull p.instr).dst = (instrFull q.instr).dst ∧
    partCount p.instr = partCount q.instr := by
  simp only [partsMatch, Bool.and_eq_true, decide_eq_true_eq] at h
  obtain ⟨⟨⟨-, hcore⟩, htile⟩, hcount⟩ := h
  exact ⟨hcore, htile, hcount⟩

theorem partBefore_iff (p q : MPart) : partBefore p q = true ↔ p.issueAt < q.issueAt ∨ (p.issueAt = q.issueAt ∧ p.op < q.op) := by
  simp [partBefore]

/-- Of two parts of different operations one is before the other. -/
theorem partBefore_swap {p q : MPart} (h : p.op ≠ q.op) : partBefore q p = !partBefore p q := by
  rw [Bool.eq_iff_iff, Bool.not_eq_true', ← Bool.not_eq_true, partBefore_iff, partBefore_iff]
  omega

/-! ### The sets that parts form (R247) -/

/-- A part alone fills at most one index. -/
theorem length_matchSet_one (p : MPart) : (matchSet [p] p).length ≤ 1 := by
  have hfind : ∀ k, ([p].find? fun q => partsMatch q p && decide (partIndex q.instr = k)).isSome = (k == partIndex p.instr) := by
    intro k
    rw [List.find?_singleton, partsMatch_refl, Bool.true_and, beq_eq_decide]
    by_cases h : partIndex p.instr = k
    · simp [h]
    · simp [h, Ne.symm h]
  rw [matchSet, List.length_filterMap_eq_countP]
  simp only [hfind]
  exact List.nodup_iff_count_le_one.mp List.nodup_range (partIndex p.instr)

/-- The first part of a set waits for the others. -/
theorem joinParts_first {p : MPart} (h : 1 < partCount p.instr) (ps : List MPart) (rs : List MReq) : joinParts (p :: ps) [] rs = joinParts ps [p] rs := by
  have hshort : (matchSet ([] ++ [p]) p).length ≠ partCount p.instr := ((length_matchSet_one p).trans_lt h).ne
  rw [joinParts, if_neg hshort, List.nil_append]

/-- Two parts, in the order of their indices. -/
def byIndex (a b : MPart) : List MPart := if partIndex a.instr = 0 then [a, b] else [b, a]

theorem all_byIndex (g : MPart → Bool) (a b : MPart) : (byIndex a b).all g = (g a && g b) := by
  rw [byIndex]
  split
  · simp
  · simp [Bool.and_comm]

section

variable {a b : MPart} (hindex : (partIndex a.instr, partIndex b.instr) ∈ [(0, 1), (1, 0)])
include hindex

theorem byIndex_comm : byIndex a b = byIndex b a := by
  simp only [List.mem_cons, Prod.mk.injEq, List.not_mem_nil, or_false] at hindex
  obtain ⟨ha, hb⟩ | ⟨ha, hb⟩ := hindex <;> simp [byIndex, ha, hb]

/-- The second of two parts that match makes the set whole. -/
theorem matchSet_two (hmatch : partsMatch a b = true) (hcount : partCount b.instr = 2) : matchSet [a, b] b = byIndex a b := by
  simp only [List.mem_cons, Prod.mk.injEq, List.not_mem_nil, or_false] at hindex
  have hrange : List.range 2 = [0, 1] := rfl
  obtain ⟨ha, hb⟩ | ⟨ha, hb⟩ := hindex <;>
    simp [matchSet, byIndex, hcount, hrange, ha, hb, hmatch, partsMatch_refl]

theorem joinParts_two (hmatch : partsMatch a b = true) (hcount : partCount b.instr = 2) :
    joinParts [a, b] [] [] = ([], [mkRequest (byIndex a b) b]) := by
  obtain ⟨-, -, hsame⟩ := eq_of_partsMatch hmatch
  have hwhole : (byIndex a b).length = partCount b.instr := by
    rw [hcount, byIndex]
    split <;> rfl
  have hmem : a ∈ byIndex a b := by
    rw [byIndex]
    split <;> simp
  have hused : [a].filter (fun q => !(byIndex a b).any fun r => r.op = q.op) = [] := by
    simpa using ⟨a, hmem, rfl⟩
  rw [joinParts_first (by omega), joinParts, List.singleton_append, matchSet_two hindex hmatch hcount, if_pos hwhole, hused]
  rfl

end

/-- Two parts that match make one request, at the tile and the core of both; it is performed where they agree on the type and on Z. -/
theorem mkRequest_two {u p last : MPart} (hmatch : partsMatch u p = true) (hlast : last = u ∨ last = p) :
    mkRequest (byIndex u p) last =
      { tile := (instrFull p.instr).dst.toNat, parts := byIndex u p, issueAt := last.issueAt, core := p.core, world := last.world
        perform := decide (matTypeOf u.instr = matTypeOf p.instr ∧ u.z = p.z) } := by
  obtain ⟨hcore, htile, -⟩ := eq_of_partsMatch hmatch
  rw [mkRequest, all_byIndex]
  obtain rfl | rfl := hlast
  · simp [hcore, htile, eq_comm]
  · simp

/-! ### A part at its pair -/

/-- A part of a word of several parts is matched with those that wait, while the pair has no request of a set. -/
theorem getPair_addPart {s : State} {p : MPart} (hsingle : ∀ r ∈ (getPair s (p.core / 2)).reqs, r.parts.length ≤ 1) (hcount : 1 < partCount p.instr)
    {un : List MPart} {rs : List MReq}
    (hjoin : joinParts (((getPair s (p.core / 2)).unmatched ++ [p]).foldl (fun l q => insertPart q l) []) [] [] = (un, rs)) :
    getPair (addPart s p) (p.core / 2) = { getPair s (p.core / 2) with unmatched := un, reqs := (getPair s (p.core / 2)).reqs ++ rs } := by
  have hno : ∀ r ∈ (getPair s (p.core / 2)).reqs, isJoint r = false := fun r hr => decide_eq_false (Nat.not_lt.mpr (hsingle r hr))
  have hjoint : (getPair s (p.core / 2)).reqs.filter isJoint = [] := List.filter_eq_nil_iff.mpr fun r hr => by simp [hno r hr]
  have hother : (getPair s (p.core / 2)).reqs.filter (fun r => !isJoint r) = (getPair s (p.core / 2)).reqs :=
    List.filter_eq_self.mpr fun r hr => by simp [hno r hr]
  simp only [addPart, if_neg hcount.ne', hjoint, hother, List.flatMap_nil, List.append_nil, hjoin, getPair_setPair]

theorem getPair_addPart_alone (s : State) {p : MPart} (h : partCount p.instr = 1) :
    getPair (addPart s p) (p.core / 2) = { getPair s (p.core / 2) with
      reqs := (getPair s (p.core / 2)).reqs ++ [{ tile := (instrFull p.instr).dst.toNat, parts := [p], issueAt := p.issueAt, core := p.core, world := p.world
                                                  perform := true }] } := by
  simp [addPart, h, mkRequest]

theorem getPair_addPart_first {s : State} {p : MPart} (hun : (getPair s (p.core / 2)).unmatched = [])
    (hsingle : ∀ r ∈ (getPair s (p.core / 2)).reqs, r.parts.length ≤ 1) (hcount : 1 < partCount p.instr) :
    getPair (addPart s p) (p.core / 2) = { getPair s (p.core / 2) with unmatched := [p] } := by
  have hjoin : joinParts (((getPair s (p.core / 2)).unmatched ++ [p]).foldl (fun l q => insertPart q l) []) [] [] = ([p], []) := by
    rw [hun]
    exact joinParts_first hcount [] []
  rw [getPair_addPart hsingle hcount hjoin, List.append_nil]

/-- The second of two parts makes the set's request, which stands at the later one's issue cycle whichever took its turn first. -/
theorem getPair_addPart_second {s : State} {p u : MPart} (hun : (getPair s (p.core / 2)).unmatched = [u])
    (hsingle : ∀ r ∈ (getPair s (p.core / 2)).reqs, r.parts.length ≤ 1) (hcount : partCount p.instr = 2) (hmatch : partsMatch u p = true)
    (hop : u.op ≠ p.op) (hindex : (partIndex u.instr, partIndex p.instr) ∈ [(0, 1), (1, 0)]) :
    getPair (addPart s p) (p.core / 2) = { getPair s (p.core / 2) with
      unmatched := []
      reqs := (getPair s (p.core / 2)).reqs ++ [mkRequest (byIndex u p) (if partBefore u p then p else u)] } := by
  obtain ⟨-, -, hsame⟩ := eq_of_partsMatch hmatch
  have hswap : (partIndex p.instr, partIndex u.instr) ∈ [(0, 1), (1, 0)] := by
    simp only [List.mem_cons, Prod.mk.injEq, List.not_mem_nil, or_false] at hindex ⊢
    omega
  refine getPair_addPart hsingle (by omega) ?_
  have hsorted : ([u] ++ [p]).foldl (fun l q => insertPart q l) [] = if partBefore u p then [u, p] else [p, u] := by
    change (if partBefore p u then [p, u] else [u, p]) = _
    rw [partBefore_swap hop]
    cases partBefore u p <;> rfl
  rw [hun, hsorted]
  cases partBefore u p with
  | true => exact joinParts_two hindex hmatch hcount
  | false =>
    rw [byIndex_comm hindex]
    exact joinParts_two hswap (partsMatch_comm u p ▸ hmatch) (hsame.trans hcount)

/-- Settles O40: each matrix word by R240's checks, which its issue leaves as they were; a set by the parts that match. -/
theorem matrixWords : Obligations.MatrixWords := by
  unfold Obligations.MatrixWords
  refine ⟨fun s c k w r f hready _ hsheaf => sheafEnds_mrdy hready hsheaf, fun s c k w r f hready hsheaf => exec_mrdy hready hsheaf,
    fun i op f hi s c k w r t hready hsheaf hconv hteam => ?_, fun s p hone => getPair_addPart_alone s hone,
    fun s p hun hsingle hcount => getPair_addPart_first hun hsingle hcount, fun s p u hun hsingle hcount hmatch hop hindex => ?_⟩
  · have hword := matrixWord_of_opcode hi
    have hiff := matIll_eq_false_iff (i := i) hsheaf hteam
    rw [hword.fields, hword.needsReady_eq, hword.isGrouped_iff] at hiff
    refine ⟨fun hlow hhigh hrdy hrows hspans => ?_, fun hidx hbad => ?_⟩
    · rw [← hword.needsReady_eq]
      exact hword.launches hready hconv (hiff.mpr ⟨hlow, hhigh, hrdy, hrows, hspans⟩)
    · refine hword.stops hready hconv hidx hsheaf (Bool.eq_true_of_not_eq_false fun hill => ?_)
      obtain ⟨hlow, hhigh, hrdy, -⟩ := hiff.mp hill
      obtain hbelow | habove | ⟨hneeds, hunmarked⟩ := hbad
      · omega
      · omega
      · exact absurd (hrdy hneeds) (by simp [hunmarked])
  · have hlast : (if partBefore u p = true then p else u) = u ∨ (if partBefore u p = true then p else u) = p := by
      split <;> simp
    have hsecond := getPair_addPart_second hun hsingle hcount hmatch hop hindex
    rw [mkRequest_two hmatch hlast] at hsecond
    simp only [partBefore_iff] at hsecond
    exact hsecond

end Sys2Proof.Proofs
end

section
/-!
PROOFS. Requests of the host and of peers (spec/13 R263; spec/24 R391-R393): which of them are served, and when a posted write goes, is held and is released.
-/
namespace Sys2Proof.Proofs

open Sys2Proof.Machine Sys2Proof.Claims

/-! ### Requests that the part serves -/

/-- The link is up, and STAGE reads 7 (spec/28 R430). -/
def HostUp (s : State) : Prop := s.host.linkUp = true ∧ fld s.regs.bootstat 15 8 = 7

theorem hostReady_of_up {s : State} (h : HostUp s) : hostReady s = true := by
  obtain ⟨hlink, hstage⟩ := h
  simp [hostReady, bootStage, hlink, hstage]

/-- The interface report gives the page to no world (spec/26 R418). -/
def SharedPage (s : State) (page : Nat) : Prop := ∀ a ∈ s.host.attrs, a.1 ≠ page

theorem pageWorld_of_shared {s : State} {page : Nat} (h : SharedPage s page) : pageWorld s page = 0 := by
  have hfind : s.host.attrs.find? (fun a => a.1 = page) = none := by simpa [SharedPage] using h
  simp only [pageWorld, hfind, Option.map_none, Option.getD_none]

/-- A shared page refuses the requests that carry the T bit. -/
theorem pageRefuses_of_shared {s : State} {page : Nat} (tee : Bool) (h : SharedPage s page) : pageRefuses s page tee = tee :=
  if_pos (pageWorld_of_shared h)

/-- A request of `n` bytes of device DRAM, all of one range, at a port (spec/24 R393). -/
def PeerFits (s : State) (r : HostReq) (n : Nat) : Prop :=
  n ≤ 128 ∧ (rangeOf s r.addr).isDram = true ∧ rangeOf s (r.addr + max 1 n - 1) = rangeOf s r.addr

theorem peerOk_of_fits {s : State} {r : HostReq} {n : Nat} (h : PeerFits s r n) : peerOk s r n = true := by
  obtain ⟨hlen, hdram, hrange⟩ := h
  simp only [peerOk, hlen, hdram, hrange, decide_true, Bool.and_true]

/-! ### Reads -/

theorem bar0Read_register {s : State} {r : HostReq} (hup : HostUp s) (htee : r.tee = false) (hpage : SharedPage s (r.addr / 4096))
    (hend : r.addr + r.len ≤ 0x8000) (hlen : r.len = 8) (halign : r.addr % 8 = 0) :
    exec (.bar0Read r) s = .next (emit s (.readData r.requester (toBytes 8 (hostReg s (r.addr / 8))))) := by
  have hok : pageRefuses s (barPage false r.addr) r.tee = false := (pageRefuses_of_shared r.tee hpage).trans htee
  have hin : ¬ 262144 < r.addr + 8 := by omega
  have hwindow : r.addr < 0x8000 := by omega
  show execBar0Read r s = _
  simp [execBar0Read, hostReady_of_up hup, hok, hlen, hin, hwindow, halign]

theorem bar0Read_teeOfShared {s : State} {r : HostReq} (hup : HostUp s) (htee : r.tee = true) (hpage : SharedPage s (r.addr / 4096)) :
    exec (.bar0Read r) s = .next (emit s (.unsupported r.requester)) := by
  have hbad : pageRefuses s (barPage false r.addr) r.tee = true := (pageRefuses_of_shared r.tee hpage).trans htee
  show execBar0Read r s = _
  simp [execBar0Read, hostReady_of_up hup, hbad]

theorem bar2Read_memory {s t : State} {r : HostReq} {pa v : Nat} (hup : HostUp s) (hspan : bar2Span s r r.len = some pa)
    (hread : hostRead 0 (pageWorld s (64 + r.addr / 4096)) (r.len / 128 + 2) s pa r.len = (t, some v)) :
    exec (.bar2Read r) s = .next (emit t (.readData r.requester (toBytes r.len v))) := by
  show execBar2Read r s = _
  simp [execBar2Read, hostReady_of_up hup, hspan, barPage, hread]

theorem bar2Read_unsupported {s : State} {r : HostReq} (hup : HostUp s) (hspan : bar2Span s r r.len = none) :
    exec (.bar2Read r) s = .next (emit s (.unsupported r.requester)) := by
  show execBar2Read r s = _
  simp [execBar2Read, hostReady_of_up hup, hspan]

theorem peerRead_memory {s t : State} {r : HostReq} {v : Nat} (hport : portUp s r.port = true) (hfits : PeerFits s r r.len)
    (hread : hostRead (r.port / 8) 0 3 s r.addr r.len = (t, some v)) :
    exec (.peerRead r) s = .next (emit t (.readData r.requester (toBytes r.len v))) := by
  show execPeerRead r s = _
  simp [execPeerRead, hport, peerOk_of_fits hfits, hread]

/-! ### When a posted write goes (R263) -/

/-- The requester `key` has no unrelaxed write among those `ahead`, and module time has passed the WCTs of those that have gone. -/
def Alone (s : State) (ahead : List Posted) (key : Nat) : Prop :=
  (∀ p ∈ ahead, p.req.relaxed = true ∨ requesterKey p.way p.req.requester ≠ key) ∧ ∀ e ∈ s.host.lastWct, e.1 = key → e.2 < s.time

/-- No write of the register window stands among those `ahead` (R391). -/
def WindowFree (ahead : List Posted) : Prop := ∀ p ∈ ahead, p.way = 0 → 0x8000 ≤ p.req.addr

theorem windowFree_iff (ahead : List Posted) : WindowFree ahead ↔ ahead.any windowPost = false := by
  simp [WindowFree, windowPost]

theorem postedMay_iff (s : State) (ahead : List Posted) (p : Posted) : postedMay s ahead p = true ↔
    (p.req.relaxed = true ∨ Alone s ahead (requesterKey p.way p.req.requester)) ∧ (windowPost p = true → WindowFree ahead) := by
  rw [windowFree_iff]
  simp only [postedMay, Alone, passed, Bool.and_eq_true, Bool.or_eq_true, List.all_eq_true, decide_eq_true_eq, Bool.not_eq_true',
    Bool.and_eq_false_imp, Decidable.imp_iff_not_or]

theorem postedWrite_waits {s : State} {p : Posted} (h : ¬ postedMay s s.host.posted p = true) : postedWrite s p = .next (holdPosted s p) := if_neg h

theorem postedWrite_goes {s t : State} {p : Posted} (hmay : postedMay s s.host.posted p = true) (happly : applyPosted s p = some t) :
    postedWrite s p = .next (if t.holds = [] then t else holdPosted s p) := by
  simp only [postedWrite, hmay, happly, if_true]

/-! ### Writes of the register window (R391) -/

/-- A write of the whole register `n`: PROD and SPCTL0 are posted to their rows, the others are ignored. -/
def windowWritten (s : State) (n v : Nat) : State :=
  if 0x180 ≤ n ∧ n < 0x1C0 then postReg s n (v % 2 ^ 32) else if n = 0x1C0 then postReg s n v else s

theorem windowWritten_holds (s : State) (n v : Nat) : (windowWritten s n v).holds = s.holds := by
  unfold windowWritten
  split
  · rfl
  · split <;> rfl

theorem applyPosted_window {s : State} {r : HostReq} {n : Nat} (hlen : r.bytes.length = 8) (haddr : r.addr = 8 * n) (hn : n < 0x1000) :
    applyPosted s { req := r, way := 0 } = some (windowWritten s n (leBytes r.bytes)) := by
  have hwindow : 8 * n < 0x8000 := by omega
  simp only [applyPosted, windowWrite, windowWritten, hlen, haddr, hwindow, if_true, Nat.mul_mod_right, Nat.mul_div_cancel_left n (by decide : 0 < 8)]
  by_cases hprod : 0x180 ≤ n ∧ n < 0x1C0
  · simp [hprod]
  · by_cases hctl : n = 0x1C0
    · simp [hctl]
    · simp [hprod, hctl]

theorem bar0Write_posted {s : State} {r : HostReq} {n : Nat} (hup : HostUp s) (htee : r.tee = false) (hpage : SharedPage s (r.addr / 4096))
    (hlen : r.bytes.length = 8) (haddr : r.addr = 8 * n) (hn : n < 0x1000) : exec (.bar0Write r) s = postedWrite s { req := r, way := 0 } := by
  have hok : pageRefuses s (barPage false r.addr) r.tee = false := (pageRefuses_of_shared r.tee hpage).trans htee
  have hin : ¬ 262144 < r.addr + 8 := by omega
  have halign : r.addr % 8 = 0 := by omega
  show execBar0Write r s = _
  simp [execBar0Write, hostReady_of_up hup, hok, hlen, hin, halign]

theorem windowPost_register {r : HostReq} {n : Nat} (haddr : r.addr = 8 * n) (hn : n < 0x1000) : windowPost { req := r, way := 0 } = true := by
  have hwindow : r.addr < 0x8000 := by omega
  simp [windowPost, hwindow]

theorem bar0Write_register {s : State} {r : HostReq} {n : Nat} (hup : HostUp s) (hholds : s.holds = []) (htee : r.tee = false)
    (hpage : SharedPage s (r.addr / 4096)) (hmay : r.relaxed = true ∨ Alone s s.host.posted (2 * r.requester)) (hwindow : WindowFree s.host.posted)
    (hlen : r.bytes.length = 8) (haddr : r.addr = 8 * n) (hn : n < 0x1000) :
    exec (.bar0Write r) s = .next (windowWritten s n (leBytes r.bytes)) := by
  have hgo : postedMay s s.host.posted { req := r, way := 0 } = true := (postedMay_iff _ _ _).mpr ⟨hmay, fun _ => hwindow⟩
  rw [bar0Write_posted hup htee hpage hlen haddr hn, postedWrite_goes hgo (applyPosted_window hlen haddr hn), if_pos]
  rw [windowWritten_holds, hholds]

theorem bar0Write_held {s : State} {r : HostReq} {n : Nat} (hup : HostUp s) (htee : r.tee = false) (hpage : SharedPage s (r.addr / 4096))
    (hwait : (r.relaxed = false ∧ ¬ Alone s s.host.posted (2 * r.requester)) ∨ ¬ WindowFree s.host.posted)
    (hlen : r.bytes.length = 8) (haddr : r.addr = 8 * n) (hn : n < 0x1000) :
    exec (.bar0Write r) s = .next (holdPosted s { req := r, way := 0 }) := by
  rw [bar0Write_posted hup htee hpage hlen haddr hn]
  refine postedWrite_waits fun hgo => ?_
  obtain ⟨horder, hwindow⟩ := (postedMay_iff _ _ _).mp hgo
  rcases hwait with ⟨hstrict, hbehind⟩ | hfull
  · rcases horder with hrelaxed | halone
    · rw [hstrict] at hrelaxed
      exact absurd hrelaxed (by decide)
    · exact hbehind halone
  · exact hfull (hwindow (windowPost_register haddr hn))

/-! ### Writes of memory (R278, R392, R393) -/

/-- The WCT of a write that is not relaxed is noted for its requester's later writes. -/
def noted (w : State × Nat) (key : Nat) (r : HostReq) : State :=
  if r.relaxed then w.1 else
    { w.1 with host := { w.1.host with lastWct := put w.1.host.lastWct key (max w.2 (look 0 w.1.host.lastWct key)) } }

theorem noted_holds (w : State × Nat) (key : Nat) (r : HostReq) : (noted w key r).holds = w.1.holds := by
  unfold noted
  split <;> rfl

theorem applyPosted_bar2 {s : State} {r : HostReq} {pa : Nat} (hspan : bar2Span s r r.bytes.length = some pa) :
    applyPosted s { req := r, way := 1 } = some (noted (hostWrite 0 (pageWorld s (64 + r.addr / 4096)) (r.bytes.length / 128 + 2) s pa
      r.bytes.length (leBytes r.bytes)) (2 * r.requester) r) := by
  simp only [applyPosted, hspan]
  rfl

theorem applyPosted_port (s : State) {p : Posted} (hway : p.way = 2) :
    applyPosted s p = some (noted (hostWrite (p.req.port / 8) 0 (p.req.bytes.length / 128 + 2) s p.req.addr p.req.bytes.length (leBytes p.req.bytes))
      (2 * p.req.requester + 1) p.req) := by
  obtain ⟨r, way⟩ := p
  obtain rfl : way = 2 := hway
  rfl

/-- A write that may go is made and noted, unless its requests must wait. -/
theorem postedWrite_noted {s : State} {p : Posted} {x : State × Nat} {key : Nat} (hmay : postedMay s s.host.posted p = true)
    (happly : applyPosted s p = some (noted x key p.req)) :
    (x.1.holds = [] → postedWrite s p = .next (noted x key p.req)) ∧ (x.1.holds ≠ [] → postedWrite s p = .next (holdPosted s p)) := by
  rw [postedWrite_goes hmay happly, noted_holds]
  exact ⟨fun h => by rw [if_pos h], fun h => by rw [if_neg h]⟩

theorem postedMay_memory {s : State} {r : HostReq} {way : Nat} (hway : way ≠ 0)
    (hmay : r.relaxed = true ∨ Alone s s.host.posted (requesterKey way r.requester)) : postedMay s s.host.posted { req := r, way := way } = true := by
  refine (postedMay_iff _ _ _).mpr ⟨hmay, fun hwindow => ?_⟩
  simp [windowPost, hway] at hwindow

theorem bar2Write_posted {s : State} {r : HostReq} {pa : Nat} (hup : HostUp s) (hspan : bar2Span s r r.bytes.length = some pa) :
    exec (.bar2Write r) s = postedWrite s { req := r, way := 1 } := by
  show execBar2Write r s = _
  simp [execBar2Write, hostReady_of_up hup, hspan]

theorem peerWrite_posted {s : State} {r : HostReq} (hport : portUp s r.port = true) (hfits : PeerFits s r r.bytes.length) :
    exec (.peerWrite r) s = postedWrite s { req := r, way := 2 } := by
  show execPeerWrite r s = _
  simp [execPeerWrite, hport, peerOk_of_fits hfits]

/-! ### Release (R263) -/

/-- The oldest held write is released where only its requester's WCTs could keep it. -/
theorem postedWriteRelease_oldest {s : State} {p : Posted} {rest : List Posted} (hposted : s.host.posted = p :: rest)
    (hpassed : ∀ e ∈ s.host.lastWct, e.1 = requesterKey p.way p.req.requester → e.2 < s.time) :
    exec (.postedWriteRelease (requesterKey p.way p.req.requester)) s =
      .next ((applyPosted { s with host := { s.host with posted := rest } } p).getD s) := by
  have hnone : WindowFree [] := fun q hq => absurd hq (List.not_mem_nil)
  have halone : Alone s [] (requesterKey p.way p.req.requester) := ⟨fun q hq => absurd hq (List.not_mem_nil), hpassed⟩
  have hgo : postedMay s [] p = true := (postedMay_iff _ _ _).mpr ⟨.inr halone, fun _ => hnone⟩
  show execPostedWriteRelease _ s = _
  simp [execPostedWriteRelease, hposted, hgo]

/-! ### A peer's atomic (R393) -/

/-- ATOM's add of one aligned 32-bit element. -/
theorem peerAtomOk_add {r : HostReq} (hlen : r.bytes.length = 4) (halign : r.addr % 4 = 0) : peerAtomOk r 0 6 = true := by
  have htype : aopTypes 0 6 = true := by decide
  have hsize : typeBytes 6 = 4 := rfl
  have hline : r.addr % 128 + 4 ≤ 128 := by omega
  simp [peerAtomOk, htype, hsize, hlen, halign, hline]

theorem aopVal_add (m x : Nat) : aopVal 0 6 m x = (m + x) % 2 ^ 32 := rfl

theorem peerAtomic_add {s t : State} {r : HostReq} {m : Nat} (hport : portUp s r.port = true) (hlen : r.bytes.length = 4) (hfits : PeerFits s r 4)
    (halign : r.addr % 4 = 0) (hread : hostRead (r.port / 8) 0 3 s r.addr 4 = (t, some m)) :
    exec (.peerAtomic r 0 6) s =
      .next (emit (hostWrite (r.port / 8) 0 3 t r.addr 4 ((m + leBytes r.bytes) % 2 ^ 32)).1 (.readData r.requester (toBytes 4 m))) := by
  have hsize : typeBytes 6 = 4 := rfl
  have hok : peerAtomOk r 0 6 = true := peerAtomOk_add hlen halign
  show execPeerAtomic r 0 6 s = _
  simp [execPeerAtomic, hport, hlen, peerOk_of_fits hfits, hok, hread, hsize, sumL, aopVal_add]

end Sys2Proof.Proofs
end

section
/-!
PROOFS. The directory (spec/24 R394-R396): grants and snoops of host-homed lines, and the gating of a slice that holds none. Settles HostEvents.
-/
namespace Sys2Proof.Proofs

open Sys2Proof.Machine Sys2Proof.Claims

/-! ### Host-homed lines -/

/-- The lines of the fabric's range (R70). -/
def HostLine (la : Nat) : Prop := 3 * 2 ^ 43 ≤ la ∧ la < 2 ^ 45

theorem rangeOf_hostLine (s : State) {la : Nat} (h : HostLine la) : rangeOf s (128 * la) = .fabric := by
  obtain ⟨hlo, hhi⟩ := h
  have hl : localGb s < 512 := fld_lt s.regs.memsplit 8 0
  have hilv : ¬ 128 * la < 2 * (288 * gib - gib * localGb s) := by simp only [gib]; omega
  have hA : ¬ 128 * la < localBaseA + gib * localGb s := by simp only [gib, localBaseA]; omega
  have hB : ¬ 128 * la < localBaseB + gib * localGb s := by simp only [gib, localBaseB]; omega
  have hdev : ¬ 128 * la < 2 ^ 51 + 2 ^ 48 := by omega
  have hfab : 3 * 2 ^ 50 ≤ 128 * la ∧ 128 * la < 2 ^ 52 := by omega
  simp only [rangeOf, hilv, hA, hB, hdev, hfab, decide_true, decide_false, Bool.and_true, Bool.and_false, Bool.false_eq_true, if_false, if_true]

/-- The entry that holds a line is in use. -/
theorem used_of_heldAt {s : State} {la k : Nat} (h : heldAt s la = some k) : (getL2 s k).used = true := by
  have hfound : ∀ {die}, findL2 s die la = some k → (getL2 s k).used = true := fun hf => by
    have hp := List.find?_some hf
    simp only [Bool.and_eq_true] at hp
    exact hp.1
  cases hA : findL2 s 0 la with
  | some j =>
    obtain rfl : j = k := by simpa [heldAt, hA] using h
    exact hfound hA
  | none => exact hfound (die := 1) (by simpa [heldAt, hA] using h)

/-! ### Lines written back and lost -/

theorem getL2_emit (s : State) (o : Out) (k : Nat) : getL2 (emit s o) k = getL2 s k := rfl

theorem getL2_setL2_same {s : State} {k : Nat} {e : L2Line} (h : e ≠ L2Line.reset) : getL2 (setL2 s k e) k = e := by
  simp [getL2, setL2, putC, h]

/-- A line written back stays, clean. -/
theorem getL2_writeBack_same {s : State} {k : Nat} (h : (getL2 s k).used = true) : getL2 (writeBack s k) k = { getL2 s k with dirty := 0 } := by
  by_cases hclean : (getL2 s k).dirty = 0
  · have hsame : writeBack s k = s := if_pos hclean
    rw [hsame, ← hclean]
  · refine (congrArg (getL2 · k) (if_neg hclean)).trans (getL2_setL2_same fun he => ?_)
    have hused : (getL2 s k).used = false := congrArg (fun e : L2Line => e.used) he
    exact absurd (h.symm.trans hused) (by decide)

theorem putMeta_snoops (s : State) (la : Nat) (side : W128) (kslot : Nat) (win : Option Nat) :
    (putMeta s la side kslot win).mem.snoops = s.mem.snoops := by
  cases win with
  | none => rfl
  | some i =>
    simp only [putMeta, splitSide]
    split
    · obtain ⟨d, f, hw⟩ := memWrite_frame s (Machine.scaleAt s i la).1 (2 ^ (Machine.scaleAt s i la).2 - 1) side.toNat (Machine.scaleAt s i la).2
      rw [hw]
    · rfl

theorem writeBack_snoops (s : State) (k : Nat) : (writeBack s k).mem.snoops = s.mem.snoops := by
  simp only [writeBack]
  split
  · rfl
  · obtain ⟨d, f, hw⟩ := memWrite_frame s (128 * (getL2 s k).line) (sectorBytes (getL2 s k).dirty) (getL2 s k).data.toNat 128
    exact (putMeta_snoops _ _ _ _ _).trans (by rw [hw])

/-- A line is lost without a word: only the slices' lines and recency change. -/
theorem loseLine_frame (s : State) (k : Nat) : ∃ r, loseLine s k =
    { s with mem := { s.mem with l2 := putC L2Line.reset s.mem.l2 k L2Line.reset, recency := r } } := by
  obtain ⟨r, hr⟩ := forget_frame (setL2 s k L2Line.reset) k
  refine ⟨r, ?_⟩
  rw [loseLine, hr]
  unfold setL2
  generalize putC L2Line.reset s.mem.l2 k L2Line.reset = l
  rfl

theorem loseLine_snoops (s : State) (k : Nat) : (loseLine s k).mem.snoops = s.mem.snoops := by
  obtain ⟨r, hr⟩ := loseLine_frame s k
  rw [hr]

theorem getL2_loseLine_same {s : State} (k : Nat) (h : rising 0 s.mem.l2 = true) : getL2 (loseLine s k) k = L2Line.reset := by
  obtain ⟨r, hr⟩ := loseLine_frame s k
  rw [hr, getL2, look_putC _ _ _ _ h, if_pos rfl]

theorem dropPass_none {s : State} {la : Nat} (h : ∀ p ∈ s.mem.passes, p.line ≠ la) : dropPass s la = s := by
  have hpass : passOf s la = none := by simpa [passOf] using h
  simp only [dropPass, hpass, Option.isSome_none, Bool.false_eq_true, if_false]

/-! ### Grants (R394) -/

theorem directoryGrant_held {s : State} {la k : Nat} {excl : Bool} (d : Line) (hline : HostLine la)
    (hport : fld (look 0 s.regs.portctl (la / 2 ^ 39 % 16)) 4 1 = 4) (hquar : quarantinedLine s la = false) (hsnoop : la ∉ s.mem.snoops)
    (hheld : heldAt s la = some k) :
    exec (.directoryGrant la excl d) s = .next (setL2 { s with mem := { s.mem with wants := s.mem.wants.filter (fun w => w.1 ≠ la) } } k
      { getL2 s k with grant := max (if excl then 2 else 1) (getL2 s k).grant }) := by
  have hup : portUp s (portOf (128 * la)) = true := by
    rw [portOf_line]; exact decide_eq_true hport
  have hheld' : heldAt { s with mem := { s.mem with wants := s.mem.wants.filter (fun w => w.1 ≠ la) } } la = some k := hheld
  show execDirectoryGrant la excl d s = _
  simp only [execDirectoryGrant, rangeOf_hostLine s hline, hup, hquar, List.contains_eq_mem, decide_eq_false hsnoop, hheld']
  rfl

/-! ### Snoops (R395) -/

theorem snooped_none {s : State} {la : Nat} (h : heldAt s la = none) : snooped s la = none := by
  simp only [snooped, h]

theorem snooped_some {s : State} {la k : Nat} (hheld : heldAt s la = some k) (hquar : (getL2 s k).quarantined = false)
    (hgate : look false s.mem.gated (sliceOf (getL2 s k).home (128 * la)) = false) : snooped s la = some k := by
  simp only [snooped, hheld, hquar, hgate]
  rfl

theorem exec_snoopInvalidate_held {s : State} {la k : Nat} (hline : HostLine la) (hsnoop : la ∉ s.mem.snoops) (hsnooped : snooped s la = some k) :
    exec (.snoopInvalidate la) s = .next { s with mem := { s.mem with snoops := s.mem.snoops ++ [la] } } := by
  show execSnoopInvalidate la s = _
  simp only [execSnoopInvalidate, rangeOf_hostLine s hline, List.contains_eq_mem, decide_eq_false hsnoop, hsnooped]
  rfl

theorem exec_snoopInvalidate_unheld {s : State} {la : Nat} (hline : HostLine la) (hsnoop : la ∉ s.mem.snoops) (hsnooped : snooped s la = none) :
    exec (.snoopInvalidate la) s = .next (emit (dropPass s la) (.snoopAnswer la false 0 0)) := by
  show execSnoopInvalidate la s = _
  simp only [execSnoopInvalidate, rangeOf_hostLine s hline, List.contains_eq_mem, decide_eq_false hsnoop, hsnooped]
  rfl

theorem exec_snoopShare_unheld {s : State} {la : Nat} (hline : HostLine la) (hsnooped : snooped s la = none) :
    exec (.snoopShare la) s = .next (emit (dropPass s la) (.snoopAnswer la false 0 0)) := by
  show execSnoopShare la s = _
  simp only [execSnoopShare, rangeOf_hostLine s hline, hsnooped]
  rfl

theorem snoops_unheld {s : State} {la : Nat} (hline : HostLine la) (hsnoop : la ∉ s.mem.snoops) (hheld : heldAt s la = none)
    (hpass : ∀ p ∈ s.mem.passes, p.line ≠ la) :
    exec (.snoopInvalidate la) s = .next (emit s (.snoopAnswer la false 0 0)) ∧ exec (.snoopShare la) s = .next (emit s (.snoopAnswer la false 0 0)) := by
  have hsnooped := snooped_none hheld
  rw [exec_snoopInvalidate_unheld hline hsnoop hsnooped, exec_snoopShare_unheld hline hsnooped, dropPass_none hpass]
  exact ⟨rfl, rfl⟩

/-- A line once its host has its dirty sectors: clean, under S. -/
def asShared (e : L2Line) : L2Line := { e with dirty := 0, grant := 1 }

theorem asShared_ne_reset (e : L2Line) : asShared e ≠ L2Line.reset := fun h => by
  have hgrant : 1 = 0 := congrArg (fun e : L2Line => e.grant) h
  exact absurd hgrant (by decide)

theorem exec_snoopShare_held {s : State} {la k : Nat} (hline : HostLine la) (hheld : heldAt s la = some k) (hsnooped : snooped s la = some k) :
    exec (.snoopShare la) s =
      .next (emit (setL2 (writeBack s k) k (asShared (getL2 s k))) (.snoopAnswer la true (getL2 s k).dirty (getL2 s k).data)) := by
  show execSnoopShare la s = _
  simp only [execSnoopShare, rangeOf_hostLine s hline, hsnooped, getL2_writeBack_same (used_of_heldAt hheld)]
  rfl

theorem snoopShare_held {s : State} {la k : Nat} (hline : HostLine la) (hheld : heldAt s la = some k) (hsnooped : snooped s la = some k) :
    ∃ t, exec (.snoopShare la) s = .next t ∧ (getL2 t k).grant = 1 ∧ (getL2 t k).dirty = 0 ∧ (getL2 t k).data = (getL2 s k).data ∧
      t.host.outs = s.host.outs ++ [.snoopAnswer la true (getL2 s k).dirty (getL2 s k).data] ∧ t.regs = s.regs ∧ t.cores = s.cores := by
  obtain ⟨m, hback, -⟩ := writeBack_frame s k
  refine ⟨_, exec_snoopShare_held hline hheld hsnooped, ?_, ?_, ?_, ?_, ?_, ?_⟩
  iterate 3 rw [getL2_emit, getL2_setL2_same (asShared_ne_reset _)]; rfl
  all_goals rw [hback]; rfl

/-- The snoop of a line has been answered. -/
def snoopEnded (s : State) (la : Nat) : State := { s with mem := { s.mem with snoops := s.mem.snoops.filter (· ≠ la) } }

theorem exec_snoopInvalidateAnswer_held {s : State} {la k : Nat} (hsnoop : la ∈ s.mem.snoops) (hheld : heldAt s la = some k)
    (hpassed : lmaxOf s (getL2 s k).home la < s.time) : exec (.snoopInvalidateAnswer la) s =
      .next (emit (loseLine (writeBack (snoopEnded s la) k) k) (.snoopAnswer la true (getL2 s k).dirty (getL2 s k).data)) := by
  show execSnoopInvalidateAnswer la s = _
  simp only [execSnoopInvalidateAnswer, List.contains_eq_mem, decide_eq_true hsnoop, hheld, passed, decide_eq_true hpassed]
  rfl

theorem snoopInvalidateAnswer_held {s : State} {la k : Nat} (hsnoop : la ∈ s.mem.snoops) (hheld : heldAt s la = some k)
    (hrising : rising 0 s.mem.l2 = true) (hpassed : lmaxOf s (getL2 s k).home la < s.time) :
    ∃ t, exec (.snoopInvalidateAnswer la) s = .next t ∧ la ∉ t.mem.snoops ∧ (getL2 t k).used = false ∧
      t.host.outs = s.host.outs ++ [.snoopAnswer la true (getL2 s k).dirty (getL2 s k).data] ∧ t.regs = s.regs ∧ t.cores = s.cores := by
  have hlost := getL2_loseLine_same k (rising_writeBack (s := snoopEnded s la) k hrising)
  obtain ⟨m, hback, -⟩ := writeBack_frame (snoopEnded s la) k
  obtain ⟨r, hlose⟩ := loseLine_frame (writeBack (snoopEnded s la) k) k
  refine ⟨_, exec_snoopInvalidateAnswer_held hsnoop hheld hpassed, ?_, ?_, ?_, ?_, ?_⟩
  · rw [emit_mem, loseLine_snoops, writeBack_snoops]
    simp [snoopEnded]
  · rw [getL2_emit, hlost]
    rfl
  all_goals rw [hlose, hback]; rfl

/-! ### Power gating (R396) -/

theorem slicePowerGate_empty {s : State} {n : Nat} (hn : n < 192)
    (hnone : ∀ p ∈ s.mem.l2, p.2.used = true → p.1 / 16384 = n → rangeOf s (128 * p.2.line) ≠ .fabric) :
    exec (.slicePowerGate n) s = .next { s with mem := { s.mem with gated := putC false s.mem.gated n true } } := by
  have hlines : linesWhere s (fun k e => e.used && k / 16 / 1024 = n && rangeOf s (128 * e.line) = .fabric) = [] := by
    simp only [linesWhere, List.map_eq_nil_iff, List.filter_eq_nil_iff, Bool.and_eq_true, decide_eq_true_eq, Nat.div_div_eq_div_mul]
    rintro p hp ⟨⟨hused, hslice⟩, hfabric⟩
    exact hnone p hp hused hslice hfabric
  have hin : ¬ 192 ≤ n := by omega
  show execSlicePowerGate n s = _
  simp only [execSlicePowerGate, hlines, hin]
  rfl

/-! ### All together -/

/-- Settles O47: a request by what it meets, a write by whether it may go, a snoop by what its line's slice holds. -/
theorem hostEvents : Obligations.HostEvents := by
  unfold Obligations.HostEvents
  refine ⟨?_, ?_, ?_, ?_, ?_, ?_, ?_, ?_, ?_, ?_, ?_, ?_, ?_, ?_, ?_, ?_⟩
  · rintro s r hup ⟨htee, hpage⟩ hend hlen halign
    exact bar0Read_register hup htee hpage hend hlen halign
  · intro s r hup htee hpage
    exact bar0Read_teeOfShared hup htee hpage
  · rintro s r n hup hholds ⟨htee, hpage⟩ hmay hwindow hlen haddr hn
    exact bar0Write_register hup hholds htee hpage hmay hwindow hlen haddr hn
  · rintro s r n hup ⟨htee, hpage⟩ hwait hlen haddr hn
    exact bar0Write_held hup htee hpage hwait hlen haddr hn
  · intro s r pa t v hup hspan hread
    exact bar2Read_memory hup hspan hread
  · intro s r hup hspan
    exact bar2Read_unsupported hup hspan
  · intro s r pa hup hmay hspan
    have hserve := postedWrite_noted (postedMay_memory (way := 1) (by decide) hmay) (applyPosted_bar2 hspan)
    rwa [← bar2Write_posted hup hspan] at hserve
  · rintro s key p rest hposted rfl hpassed hway
    refine (postedWriteRelease_oldest hposted hpassed).trans ?_
    rw [applyPosted_port _ hway, if_pos hway]
    rfl
  · intro s r t v hport hlen hdram hrange hread
    exact peerRead_memory (decide_eq_true hport) ⟨hlen, hdram, hrange⟩ hread
  · intro s r hport hlen hdram hrange hmay
    have hserve := postedWrite_noted (postedMay_memory (way := 2) (by decide) hmay) (applyPosted_port s rfl)
    rwa [← peerWrite_posted (decide_eq_true hport) ⟨hlen, hdram, hrange⟩] at hserve
  · intro s r t m hport hlen hdram hrange halign hread _
    exact peerAtomic_add (decide_eq_true hport) hlen ⟨by decide, hdram, hrange⟩ halign hread
  · intro s la excl d k hline hport hquar hsnoop hheld
    exact directoryGrant_held d hline hport hquar hsnoop hheld
  · intro s la hline hsnoop hheld hpass
    exact snoops_unheld hline hsnoop hheld hpass
  · intro s la k hline hsnoop hheld hquar hgate
    have hsnooped := snooped_some hheld hquar hgate
    exact ⟨exec_snoopInvalidate_held hline hsnoop hsnooped, snoopShare_held hline hheld hsnooped⟩
  · intro s la k hsnoop hheld hrising hpassed
    exact snoopInvalidateAnswer_held hsnoop hheld hrising hpassed
  · intro s n hn hnone
    exact slicePowerGate_empty hn hnone

end Sys2Proof.Proofs
end

section
/-!
PROOFS. The control words (spec/15 R299-R301, R303, R310-R314; spec/22 R379): the transfers that a clause's end takes, the push of a decision, NOP and
TRAP. Settles NopWord, ScalarTransfers, VectorTransfers, TrapWord and DecisionPush.
-/
namespace Sys2Proof.Proofs

open Sys2Proof.Machine Sys2Proof.Claims

/-! ### NOP (R314) -/

theorem legalFull_nop_iff (k : UKind) (f : Full) : legalFull 0 k f = true ↔
    (f.dst = 0 ∧ f.sa = 0 ∧ f.sb = 0 ∧ f.sc = 0 ∧ f.ha = false ∧ f.hb = false ∧ f.hc = false ∧ f.ty = 0 ∧ f.md = 0 ∧ f.fsel = false) ∧
      (k ≠ .vector → f.pred = 7 ∧ f.pneg = false) := by
  have hspec : ∀ sc, wspec 0 sc f = fixedW (f.ty.toNat = 0) 0 .unused .unused .unused .unused := fun _ => rfl
  have hmod : f.md &&& 255#8 = f.md := BitVec.and_allOnes
  cases k <;> simp [legalFull, hspec, fixedW, unitOk, scalarOk, dstOk, srcOk, Pos.latches, holdsNothing, hmod, BitVec.toNat_eq] <;> tauto

/-- Settles O20: NOP's word is legal where all its fields are 0, and its meaning does nothing. -/
theorem nopWord : Obligations.NopWord := by
  unfold Obligations.NopWord
  exact ⟨legalFull_nop_iff, fun _ _ _ _ _ _ hready => issue_of_ready hready _, fun _ _ _ _ hready => issue_of_scalarReady hready _⟩

/-! ### Transfers (R299) -/

theorem codeTarget_eq (pc : Addr) (d : W128) : codeTarget pc d = targetOf pc d.toNat := by
  have hdisp : BitVec.ofNat 32 d.toNat = d.setWidth 32 := BitVec.ofNat_toNat 32 d
  rw [codeTarget, targetOf, hdisp, BitVec.ofInt_add, BitVec.signExtend]
  simp

theorem aligned8_iff (a : Addr) : aligned8 a = true ↔ a.toNat % 8 = 0 := decide_eq_true_iff

/-- The clause in progress is changed once its word has issued. -/
theorem mapUnitRun_scalarStep (s : State) (u : UnitId) (r : ClauseRun) (g : ClauseRun → ClauseRun) :
    mapUnitRun (scalarStep s u r) u g = setRun s u (some (g { r with idx := r.idx + 1, cyc := r.cyc + 1 })) := by
  rw [mapUnitRun, scalarStep, getRun_setRun, setRun_setRun]
  rfl

theorem mapUnitRun_issued (s : State) (c k : Nat) (w : Warp) (r : ClauseRun) (v : WView) (g : ClauseRun → ClauseRun) :
    mapUnitRun (issued s c k w r v) (.warp c k) g = after s c k w r v g := by
  simp only [mapUnitRun, getRun, setRun, issued, getWarp_setWarp, setWarp_setWarp]
  rfl

@[simp] theorem unitStack_scalarStep (s : State) (u : UnitId) (r : ClauseRun) : Machine.unitStack (scalarStep s u r) u = Machine.unitStack s u := by
  cases u <;> simp [Machine.unitStack, scalarStep, setRun]

section

variable {s : State} {u : UnitId} {r : ClauseRun} {v : WView}

/-- A scalar word that traps as a whole stops its unit. -/
theorem stoppedScalar_scalarWord (hready : ScalarReady s u r v) (i : TrapInfo) :
    StoppedScalar (scalarStep s u r) (trapWord (scalarStep s u r) (scalarWord s u r v) i) u r v i.cause i.detail :=
  stoppedScalar_trapWord hready.scalar rfl (scalarWord_carries s u r v) i

/-- A transfer to an aligned target is noted for the clause's end. -/
theorem transferTo_aligned (g : ClauseRun → ClauseRun) (h : (targetOf r.pc (sopA s u v)).toNat % 8 = 0) :
    transferTo (scalarStep s u r) (scalarWord s u r v) (nth (scalarWord s u r v).a 0) g =
      setRun s u (some (g { r with idx := r.idx + 1, cyc := r.cyc + 1, target := some (targetOf r.pc (sopA s u v)) })) := by
  have htarget : codeTarget (scalarWord s u r v).pc (nth (scalarWord s u r v).a 0) = targetOf r.pc (sopA s u v) := codeTarget_eq _ _
  simp only [transferTo, htarget, (aligned8_iff _).mpr h, if_true]
  exact mapUnitRun_scalarStep s u r _

/-- A misaligned target takes ILLSTATE. -/
theorem transferTo_misaligned (g : ClauseRun → ClauseRun) (h : ¬ (targetOf r.pc (sopA s u v)).toNat % 8 = 0) :
    transferTo (scalarStep s u r) (scalarWord s u r v) (nth (scalarWord s u r v).a 0) g =
      trapWord (scalarStep s u r) (scalarWord s u r v) (illstate 0) := by
  have htarget : codeTarget (scalarWord s u r v).pc (nth (scalarWord s u r v).a 0) = targetOf r.pc (sopA s u v) := codeTarget_eq _ _
  simp only [transferTo, htarget, mt (aligned8_iff _).mp h]
  rfl

end

theorem exec_bra {s : State} {u : UnitId} {r : ClauseRun} {f : Full} (hready : ScalarReady s u r (viewFull 1 f u.kind r)) :
    exec (.bra f) s = .next (transferTo (scalarStep s u r) (scalarWord s u r (viewFull 1 f u.kind r))
      (nth (scalarWord s u r (viewFull 1 f u.kind r)).a 0) fun q => q) := issue_of_scalarReady hready _

/-- A scalar operand of one register has 64 bits. -/
theorem nth_scalarVals_lt (m : SMap W64) {a : Src} (h : a.pos = .val 1) : (nth (scalarVals m a) 0).toNat < 2 ^ 64 := by
  simp only [scalarVals, h, nth, readScalar, posRegs, List.getD_cons_zero, show (1 : Nat) ≠ 4 by decide, if_false, BitVec.toNat_setWidth]
  exact (Nat.mod_le _ _).trans_lt (look 0 m a.x).isLt

theorem sopB_brc_eq_zero_iff (s : State) (u : UnitId) (k : UKind) (r : ClauseRun) (f : Full) :
    (nth (scalarWord s u r (viewFull 2 f k r)).b 0).setWidth 64 = 0#64 ↔ sopB s u (viewFull 2 f k r) = 0 := by
  have hlt := nth_scalarVals_lt (scalarRegs s u) (a := (viewFull 2 f k r).b) rfl
  rw [BitVec.toNat_eq, BitVec.toNat_setWidth]
  exact ⟨fun h => (Nat.mod_eq_of_lt hlt).symm.trans h, fun h => (Nat.mod_eq_of_lt hlt).trans h⟩

/-- BRC transfers where operand B is zero, or with its modifier set where it is not. -/
theorem exec_brc {s : State} {u : UnitId} {r : ClauseRun} {f : Full} (hready : ScalarReady s u r (viewFull 2 f u.kind r)) :
    exec (.brc f) s = .next (if decide (sopB s u (viewFull 2 f u.kind r) = 0) = modB f 1 then
      transferTo (scalarStep s u r) (scalarWord s u r (viewFull 2 f u.kind r)) (nth (scalarWord s u r (viewFull 2 f u.kind r)).a 0) fun q => q
      else scalarStep s u r) := by
  refine (issue_of_scalarReady hready _).trans ?_
  by_cases hzero : sopB s u (viewFull 2 f u.kind r) = 0 <;> cases modB f 1 <;> simp [sopB_brc_eq_zero_iff, hzero]

theorem exec_call {s : State} {u : UnitId} {r : ClauseRun} {f : Full} (hready : ScalarReady s u r (viewFull 3 f u.kind r)) :
    exec (.call f) s = .next (if 16 ≤ (Machine.unitStack s u).length then
        trapWord (scalarStep s u r) (scalarWord s u r (viewFull 3 f u.kind r)) (illstate 0)
      else transferTo (scalarStep s u r) (scalarWord s u r (viewFull 3 f u.kind r)) (nth (scalarWord s u r (viewFull 3 f u.kind r)).a 0) fun q =>
        { q with push := some (nextClause r.pc r.hdr) }) := by
  refine (issue_of_scalarReady hready _).trans ?_
  simp only [scalarWord, unitStack_scalarStep]

theorem nextClause_eq (pc : Addr) (hdr : W64) : nextClause pc hdr = BitVec.ofNat 52 (pc.toNat + 8 * (hdrCount hdr + 1)) := by
  rw [nextClause, BitVec.ofNat_add, BitVec.ofNat_toNat, BitVec.setWidth_eq]

/-- RET on an empty stack traps a thread. -/
theorem ret_thread_empty {s : State} {q : Nat} {r : ClauseRun} {f : Full} (hready : ScalarReady s (.thread q) r (viewFull 4 f .sp r))
    (hempty : (getThread s q).stack = []) : ∃ t, exec (.ret f) s = .next t ∧
      StoppedScalar (scalarStep s (.thread q) r) t (.thread q) r (viewFull 4 f .sp r) 0x21 0 := by
  have hstack : (Machine.unitStack (scalarStep s (.thread q) r) (.thread q)).isEmpty = true := by
    rw [unitStack_scalarStep, Machine.unitStack, hempty]; rfl
  refine ⟨_, (issue_of_scalarReady (view := viewFull 4 f) hready _).trans ?_, stoppedScalar_scalarWord hready (illstate 0)⟩
  simp only [scalarWord, hstack, if_true]
  rfl

/-- RET on an empty stack halts a core's context at the clause's end. -/
theorem ret_front_empty {s : State} {c k : Nat} {r : ClauseRun} {f : Full} (hready : ScalarReady s (.front c k) r (viewFull 4 f .core r))
    (hempty : (getFront s c k).stack = []) :
    exec (.ret f) s = .next (setRun s (.front c k) (some { r with idx := r.idx + 1, cyc := r.cyc + 1, halts := true })) := by
  have hstack : (Machine.unitStack (scalarStep s (.front c k) r) (.front c k)).isEmpty = true := by
    rw [unitStack_scalarStep, Machine.unitStack, hempty]; rfl
  refine (issue_of_scalarReady (view := viewFull 4 f) hready _).trans ?_
  simp only [scalarWord, hstack, if_true]
  rw [mapUnitRun_scalarStep]

/-- RET with an address on its stack pops it at the clause's end. -/
theorem ret_pops {s : State} {u : UnitId} {r : ClauseRun} {f : Full} (hready : ScalarReady s u r (viewFull 4 f u.kind r))
    (hstack : Machine.unitStack s u ≠ []) :
    exec (.ret f) s = .next (setRun s u (some { r with idx := r.idx + 1, cyc := r.cyc + 1, pops := true })) := by
  refine (issue_of_scalarReady (view := viewFull 4 f) hready _).trans ?_
  simp only [scalarWord, unitStack_scalarStep, List.isEmpty_iff, hstack, if_false]
  rw [mapUnitRun_scalarStep]

/-- Settles O21: a transfer by its target and the unit's stack. -/
theorem scalarTransfers : Obligations.ScalarTransfers := by
  unfold Obligations.ScalarTransfers
  refine ⟨fun s u r f hready => ?_, fun s u r f hready => ?_, fun s u r f hready => ?_, fun s u r f => ret_pops,
    fun s c k r f => ret_front_empty, fun s q r f => ret_thread_empty⟩
  · rw [exec_bra hready]
    split
    · next h => rw [transferTo_aligned _ h]
    · next h => exact ⟨_, congrArg _ (transferTo_misaligned _ h), stoppedScalar_scalarWord hready (illstate 0)⟩
  · rw [exec_brc hready]
    split
    · rfl
    · next htaken =>
      rw [if_pos (not_not.mp htaken)]
      split
      · next h => rw [transferTo_aligned _ h]
      · next h => exact ⟨_, congrArg _ (transferTo_misaligned _ h), stoppedScalar_scalarWord hready (illstate 0)⟩
  · rw [exec_call hready]
    split
    · next h =>
      obtain ⟨hroom, halign⟩ := h
      rw [if_neg (by omega), transferTo_aligned _ halign, nextClause_eq]
    · next h =>
      refine ⟨_, congrArg _ ?_, stoppedScalar_scalarWord hready (illstate 0)⟩
      split
      · rfl
      · next hroom => exact transferTo_misaligned _ fun halign => h ⟨by omega, halign⟩

/-! ### VBR, EXIT and YIELD (R310, R311, R313) -/

theorem map_fst_addBranch (t : Addr) (l : Nat) (bs : List (Addr × Mask)) :
    (addBranch t l bs).map Prod.fst = if t ∈ bs.map Prod.fst then bs.map Prod.fst else bs.map Prod.fst ++ [t] := by
  induction bs with
  | nil => rfl
  | cons b bs ih =>
    obtain ⟨a, m⟩ := b
    by_cases h : a = t
    · simp [addBranch, h]
    · simp only [addBranch, if_neg h, List.map_cons, ih, List.mem_cons, Ne.symm h, false_or]
      split <;> rfl

/-- Lane `l` stands in the group of its target. -/
theorem mem_addBranch (t : Addr) {l : Nat} (hl : l < 32) (bs : List (Addr × Mask)) (a : Addr) (j : Nat) :
    (∃ m, (a, m) ∈ addBranch t l bs ∧ m.getLsbD j = true) ↔ (∃ m, (a, m) ∈ bs ∧ m.getLsbD j = true) ∨ (a = t ∧ j = l) := by
  have hbit : (laneBit l).getLsbD j = true ↔ j = l := by rw [getLsbD_laneBit hl, decide_eq_true_iff, eq_comm]
  induction bs with
  | nil => simp [addBranch, and_assoc, hbit]
  | cons b bs ih =>
    obtain ⟨c, n⟩ := b
    by_cases h : c = t
    · subst h
      simp only [addBranch, if_true, List.mem_cons, Prod.mk.injEq, or_and_right, exists_or, and_assoc, exists_and_left, exists_eq_left,
        BitVec.getLsbD_or, Bool.or_eq_true, hbit, and_or_left]
      exact or_right_comm
    · simp only [addBranch, if_neg h, List.mem_cons, or_and_right, exists_or, ih, or_assoc]

/-- The groups that lanes form by their targets: one for each target, with the lanes that have it. -/
theorem foldl_addBranch (tgt : Nat → Addr) (ls : List Nat) (hls : ∀ l ∈ ls, l < 32) (bs : List (Addr × Mask)) (hbs : (bs.map Prod.fst).Nodup) :
    ((ls.foldl (fun bs l => addBranch (tgt l) l bs) bs).map Prod.fst).Nodup ∧
      ∀ a j, (∃ m, (a, m) ∈ ls.foldl (fun bs l => addBranch (tgt l) l bs) bs ∧ m.getLsbD j = true) ↔
        (∃ m, (a, m) ∈ bs ∧ m.getLsbD j = true) ∨ (j ∈ ls ∧ tgt j = a) := by
  induction ls generalizing bs with
  | nil => exact ⟨hbs, by simp⟩
  | cons l ls ih =>
    obtain ⟨hl, hrest⟩ := List.forall_mem_cons.mp hls
    have hnodup : ((addBranch (tgt l) l bs).map Prod.fst).Nodup := by
      rw [map_fst_addBranch]
      split
      · exact hbs
      · next h => exact List.nodup_append.mpr ⟨hbs, List.nodup_singleton _, fun a ha b hb => by
          rw [List.mem_singleton.mp hb]
          exact fun hab => h (hab ▸ ha)⟩
    obtain ⟨hall, hmem⟩ := ih hrest _ hnodup
    refine ⟨hall, fun a j => (hmem a j).trans ?_⟩
    rw [mem_addBranch _ hl, List.mem_cons]
    constructor
    · rintro ((h | ⟨rfl, rfl⟩) | ⟨h, ha⟩)
      · exact .inl h
      · exact .inr ⟨.inl rfl, rfl⟩
      · exact .inr ⟨.inr h, ha⟩
    · rintro (h | ⟨rfl | h, ha⟩)
      · exact .inl (.inl h)
      · exact .inl (.inr ⟨ha.symm, rfl⟩)
      · exact .inr ⟨h, ha⟩

section

variable {s : State} {c k : Nat} {w : Warp} {r : ClauseRun} {f : Full}

/-- The targets of VBR's active lanes are aligned. -/
def VbrAligned (w : Warp) (r : ClauseRun) (v : WView) : Prop :=
  ∀ l < 32, (active w r v).getLsbD l = true → (targetOf r.pc (opA w r v l)).toNat % 8 = 0

theorem vbrAligned_iff (c k : Nat) (w : Warp) (r : ClauseRun) (v : WView) : VbrAligned w r v ↔ (lanesIn (warpWord c k w r v).act).all
    (fun l => aligned8 (codeTarget (warpWord c k w r v).pc (nth (warpWord c k w r v).a l))) = true := by
  simp only [List.all_eq_true, mem_lanesIn, and_imp, codeTarget_eq, aligned8_iff]
  rfl

theorem exec_vbr_aligned (hready : Ready s c k w r (viewFull 6 f .vector r)) (h : VbrAligned w r (viewFull 6 f .vector r)) :
    ∃ bs, exec (.vbr f) s = .next (after s c k w r (viewFull 6 f .vector r) (fun q => { q with branches := bs })) ∧ (bs.map Prod.fst).Nodup ∧
      ∀ t l, l < 32 → ((∃ m, (t, m) ∈ bs ∧ m.getLsbD l = true) ↔
        (active w r (viewFull 6 f .vector r)).getLsbD l = true ∧ targetOf r.pc (opA w r (viewFull 6 f .vector r) l) = t) := by
  obtain ⟨hnodup, hmem⟩ := foldl_addBranch (fun l => targetOf r.pc (opA w r (viewFull 6 f .vector r) l)) (lanesIn (active w r (viewFull 6 f .vector r)))
    (fun l hl => (mem_lanesIn.mp hl).1) [] List.nodup_nil
  refine ⟨_, (issue_of_ready (view := viewFull 6 f) hready _).trans ?_, hnodup, fun t l hl => (hmem t l).trans ?_⟩
  · simp only [(vbrAligned_iff c k w r _).mp h, if_true]
    rw [show (warpWord c k w r (viewFull 6 f .vector r)).u = .warp c k from rfl, mapUnitRun_issued]
    simp only [codeTarget_eq]
    rfl
  · simp [mem_lanesIn, hl]

theorem exec_vbr_misaligned (hready : Ready s c k w r (viewFull 6 f .vector r)) (hidx : r.idx < 15) (hsheaf : w.sheaf = none)
    (h : ¬ VbrAligned w r (viewFull 6 f .vector r)) : ∃ t, exec (.vbr f) s = .next t ∧ Stopped s t c k w r (viewFull 6 f .vector r) 0x21 0 := by
  refine ⟨_, (issue_of_ready (view := viewFull 6 f) hready _).trans ?_, stopped_trapWord hready hidx hsheaf (illstate 0)⟩
  rw [if_neg (mt (vbrAligned_iff c k w r _).mpr h)]

theorem exec_exit (hready : Ready s c k w r (viewFull 7 f .vector r)) : exec (.exit f) s = .next (after s c k w r (viewFull 7 f .vector r)
    (fun q => { q with exits := active w r (viewFull 7 f .vector r)
                       exitSt := (supplied w r (viewFull 7 f .vector r) r.la (viewFull 7 f .vector r).a).map fun v => v.toNat % 256 })) :=
  (issue_of_ready (view := viewFull 7 f) hready _).trans (congrArg _ (mapUnitRun_issued s c k w r _ _))

theorem exec_yield (hready : Ready s c k w r (viewFull 8 f .vector r)) :
    exec (.yield f) s = .next (after s c k w r (viewFull 8 f .vector r) (fun q => { q with yielded := true })) :=
  (issue_of_ready (view := viewFull 8 f) hready _).trans (congrArg _ (mapUnitRun_issued s c k w r _ _))

end

/-- Settles O22: VBR by whether every active lane's target is aligned; EXIT and YIELD as they are noted. -/
theorem vectorTransfers : Obligations.VectorTransfers := by
  unfold Obligations.VectorTransfers
  refine ⟨fun s c k w r f => exec_vbr_aligned, ?_, fun s c k w r f hready => ⟨_, exec_exit hready, fun l _ => ?_⟩, fun s c k w r f => exec_yield⟩
  · rintro s c k w r f hready hidx hsheaf ⟨l, hl, hact, hmis⟩
    exact exec_vbr_misaligned hready hidx hsheaf fun h => hmis (h l hl hact)
  · exact List.getD_map (d := (0 : W128)) ..

/-! ### TRAP (R379) -/

/-- What a lane's record of a ready word says, given its cause and DETAIL. -/
theorem resultRec_issued {s : State} {c k : Nat} {w : Warp} {r : ClauseRun} {v : WView} {half : Bool} {dx : BitVec 9} {q : Nat → LaneRes} {l : Nat} {y : TrapRec}
    (hy : y = resultRec (issued s c k w r v) (warpWord c k w r v) half dx q l) :
    y.lane = l ∧ y.kind = .lane ∧ y.unit = .warp c k ∧ y.cause = BitVec.ofNat 8 ((q l).cause.getD 0) ∧ y.detail = BitVec.ofNat 32 (q l).flags ∧ y.addr = 0 ∧
      y.pc = r.pc.setWidth 64 ∧ y.wordv = v.word ∧ y.widx = r.idx ∧ y.world = w.world ∧ y.ctx = w.ctx ∧ y.wait = w.wctmax := by
  obtain ⟨x, g, p, fp, -, hwarp⟩ := getWarp_issued (s := s) (c := c) (k := k) (w := w) (r := r) (v := v)
  subst hy
  refine ⟨rfl, rfl, rfl, rfl, rfl, rfl, rfl, rfl, rfl, ?_⟩
  simp only [resultRec, laneRec, mkRec, warpWord, whoIs, unitWct, hwarp, and_self]

/-- Lanes that have left a ready word's warp, each with the record of its own result, are detached. -/
theorem detached_of_resultRec {s t : State} {c k : Nat} {w : Warp} {r : ClauseRun} {v : WView} {m : Mask} {half : Bool} {dx : BitVec 9} {q : Nat → LaneRes}
    {cause : Nat → Byte} {detail : Nat → W32} (hm : m ≠ 0)
    (h : LanesOff (issued s c k w r v) t c k m ((lanesIn m).map (resultRec (issued s c k w r v) (warpWord c k w r v) half dx q)))
    (hcause : ∀ l, BitVec.ofNat 8 ((q l).cause.getD 0) = cause l) (hdetail : ∀ l, BitVec.ofNat 32 (q l).flags = detail l) :
    Detached s t c k w r v m cause detail fun _ => 0 := by
  obtain ⟨x, g, p, fp, hdue, hissued⟩ := getWarp_issued (s := s) (c := c) (k := k) (w := w) (r := r) (v := v)
  have hwarp := h.warp
  rw [if_neg hm, hissued] at hwarp
  constructor
  case absent => rw [hwarp, without]
  case entries => rw [hwarp, without]
  case clause =>
    rw [hwarp]
    exact ⟨_, rfl, rfl, rfl, rfl, rfl⟩
  case regs =>
    rw [hwarp, hdue]
    exact ⟨rfl, rfl, rfl, rfl⟩
  case records =>
    refine ⟨_, h.records.trans (by rw [issued, setWarp, getCore_setCore]), ?_, fun y hy => ?_⟩
    · rw [List.map_map]
      exact (List.map_congr_left fun l _ => rfl).trans (List.map_id' _)
    · obtain ⟨l, -, hrec⟩ := List.mem_map.mp hy
      obtain ⟨hlane, hkind, hunit, hycause, hydetail, hrest⟩ := resultRec_issued hrec.symm
      rw [hlane]
      exact ⟨hkind, hunit, hycause.trans (hcause l), hydetail.trans (hdetail l), hrest⟩
  case others => exact fun j hj => by rw [h.others j hj, issued, getWarp_setWarp_slot _ _ _ hj]
  case cores => exact fun d hd => by rw [h.cores d hd, issued, setWarp, getCore_setCore_other _ _ hd]
  case rest => rw [h.rest]; exact ⟨rfl, rfl, rfl, rfl, rfl, rfl, rfl, rfl, rfl, rfl⟩

/-- TRAP's lanes as results that trap: UTRAP, with operand A's low 32 bits where an exception's flags would stand. -/
def utrap (x : Issued) (l : Nat) : LaneRes := { val := 0, flags := ((nth x.a l).setWidth 32).toNat, cause := some 8 }

theorem detail_utrap (x : Issued) (l : Nat) : BitVec.ofNat 32 (utrap x l).flags = (nth x.a l).setWidth 32 := by
  rw [utrap, BitVec.ofNat_toNat, BitVec.setWidth_eq]

theorem trap_detaches {s : State} {c k : Nat} {w : Warp} {r : ClauseRun} {f : Full} (hready : Ready s c k w r (viewFull 9 f .vector r))
    (hsheaf : w.sheaf = none) : ∃ t, exec (.trap f) s = .next t ∧ Detached s t c k w r (viewFull 9 f .vector r) (active w r (viewFull 9 f .vector r))
      (fun _ => 8) (fun l => BitVec.ofNat 32 (opA w r (viewFull 9 f .vector r) l)) (fun _ => 0) := by
  have hoff := lanesOff_foldl_resultTurn (b := issued s c k w r (viewFull 9 f .vector r)) (x := warpWord c k w r (viewFull 9 f .vector r)) rfl
    ((sheaf_issued s c k w r _).trans hsheaf) false 0x1FF (utrap (warpWord c k w r (viewFull 9 f .vector r)))
    (lanesIn (active w r (viewFull 9 f .vector r))) (fun l hl => (mem_lanesIn.mp hl).1) (LanesOff.refl _ c k)
  have hall : ∀ ls : List Nat, ls.filter (fun l => (utrap (warpWord c k w r (viewFull 9 f .vector r)) l).cause.isSome) = ls :=
    fun ls => List.filter_eq_self.mpr fun _ _ => rfl
  rw [hall, withLanes_lanesIn, List.nil_append] at hoff
  refine ⟨_, (issue_of_ready (view := viewFull 9 f) hready _).trans (congrArg _ (List.foldl_ext _ _ _ fun t l _ => ?_)),
    detached_of_resultRec hready.lanes hoff (fun _ => rfl) fun l => (detail_utrap _ l).trans (BitVec.ofNat_toNat 32 _).symm⟩
  rw [resultTurn, resultRec, detail_utrap]
  rfl

theorem exec_trap_scalar {s : State} {u : UnitId} {r : ClauseRun} {f : Full} (hready : ScalarReady s u r (viewFull 9 f u.kind r)) :
    exec (.trap f) s = .next (trapWord (scalarStep s u r) (scalarWord s u r (viewFull 9 f u.kind r))
      { cause := 8, detail := (nth (scalarWord s u r (viewFull 9 f u.kind r)).a 0).setWidth 32, addr := 0 }) :=
  (issue_of_scalarReady hready _).trans <| by
    cases u with
    | warp => exact absurd rfl (hready.scalar _ _)
    | front => rfl
    | thread => rfl

/-- Settles O23: in a vector clause every active lane leaves, in a scalar clause the unit stops. -/
theorem trapWord_settled : Obligations.TrapWord := by
  unfold Obligations.TrapWord
  refine ⟨fun s c k w r f => trap_detaches, fun s u r f hready => ⟨_, exec_trap_scalar hready, ?_⟩⟩
  have hdetail : BitVec.ofNat 32 (sopA s u (viewFull 9 f u.kind r)) = (nth (scalarWord s u r (viewFull 9 f u.kind r)).a 0).setWidth 32 :=
    BitVec.ofNat_toNat 32 _
  rw [hdetail]
  exact stoppedScalar_scalarWord hready _

/-! ### DQPUSH (R303) -/

/-- A warp that counts as live for handle `h`: its own, not a service warp's. -/
def CountsLive (h : Nat) (x : Warp) : Prop := x.live = true ∧ x.handle = h ∧ x.sheaf = none

theorem getLsbD_pow_two {i j : Nat} (hi : i < 48) : (BitVec.ofNat 48 (2 ^ j)).getLsbD i = true ↔ j = i := by
  rw [BitVec.getLsbD_ofNat, Nat.testBit_two_pow]
  simp [hi]

/-- The mask of live warps has the bit of each one's local index. -/
theorem getLsbD_liveMask (s : State) (c h : Nat) {i : Nat} (hi : i < 48) :
    (liveMask s c h).getLsbD i = true ↔ ∃ j x, (j, x) ∈ (getCore s c).warps ∧ CountsLive h x ∧ localIndex s x = i := by
  have hfold : ∀ (ps : List (Nat × Warp)) (m : BitVec 48), (ps.foldl (fun m p => if p.2.live && p.2.handle = h && p.2.sheaf.isNone then
      m ||| BitVec.ofNat 48 (2 ^ localIndex s p.2) else m) m).getLsbD i = true ↔
        m.getLsbD i = true ∨ ∃ j x, (j, x) ∈ ps ∧ CountsLive h x ∧ localIndex s x = i := by
    intro ps
    induction ps with
    | nil => simp
    | cons p ps ih =>
      obtain ⟨j, x⟩ := p
      intro m
      rw [List.foldl_cons, ih]
      by_cases hx : CountsLive h x
      · obtain ⟨hlive, hhandle, hsheaf⟩ := hx
        simp [hlive, hhandle, hsheaf, CountsLive, or_and_right, exists_or, or_assoc, -BitVec.ofNat_pow, -Nat.cast_pow, -Nat.cast_ofNat, -BitVec.natCast_eq_ofNat, getLsbD_pow_two hi]
      · have hoff : (x.live && decide (x.handle = h) && x.sheaf.isNone) = false := by
          simpa [CountsLive, and_assoc, Option.isSome_iff_ne_none] using hx
        simp [hoff, or_and_right, exists_or, hx]
  exact (hfold _ 0).trans (by simp)

/-- The words of two registers' halves: word `i` is a half of value `i / 2`. -/
theorem getD_halves (b : List W128) : ∀ i, i / 2 < b.length →
    (b.flatMap fun v => [v.setWidth 32, v.extractLsb' 32 32]).getD i 0 = BitVec.ofNat 32 ((nth b (i / 2)).toNat / 2 ^ (32 * (i % 2))) := by
  induction b with
  | nil => exact fun i h => absurd h (Nat.not_lt_zero _)
  | cons v vs ih =>
    intro i h
    match i with
    | 0 => simp [nth]
    | 1 => simp [nth, ← BitVec.toNat_inj, BitVec.extractLsb'_toNat, Nat.shiftRight_eq_div_pow]
    | i + 2 =>
      rw [List.length_cons, Nat.add_div_right _ two_pos, Nat.succ_lt_succ_iff] at h
      rw [Nat.add_mod_right, Nat.add_div_right _ two_pos]
      exact ih i h

theorem dqVals_getD {b : List W128} {n i : Nat} (hi : i < n) (hlen : i / 2 < b.length) :
    (dqVals b n).getD i 0 = BitVec.ofNat 32 ((nth b (i / 2)).toNat / 2 ^ (32 * (i % 2))) := by
  rw [← getD_halves b i hlen, dqVals, List.getD_eq_getElem?_getD, List.getElem?_take_of_lt hi, ← List.getD_eq_getElem?_getD]

theorem length_dqVals {b : List W128} {n : Nat} (h : n ≤ 2 * b.length) : (dqVals b n).length = n := by
  rw [dqVals, List.length_take, List.length_flatMap]
  simp
  omega

section

variable {s : State} {c k : Nat} {r : ClauseRun} {f : Full}

/-- The four registers of DQPUSH's values. -/
theorem scalarVals_dqpush (m : SMap W64) : scalarVals m (viewFull 5 f .core r).b = (List.range 4).map fun i => (look 0 m (f.sb.toNat + i)).setWidth 128 := rfl

theorem toNat_scalarVals_dqpush (m : SMap W64) {j : Nat} (h : j < 4) :
    (nth (scalarVals m (viewFull 5 f .core r).b) j).toNat = (look 0 m (f.sb.toNat + j)).toNat := by
  have hval : nth (scalarVals m (viewFull 5 f .core r).b) j = (look 0 m (f.sb.toNat + j)).setWidth 128 := by simp [scalarVals_dqpush, nth, h]
  rw [hval, BitVec.toNat_setWidth_of_le (by decide)]

/-- DQPUSH's control word. -/
def dqCtl (s : State) (c k : Nat) (f : Full) (r : ClauseRun) : W64 := (nth (scalarVals (scalarRegs s (.front c k)) (viewFull 5 f .core r).c) 0).setWidth 64

theorem toNat_dqCtl : (dqCtl s c k f r).toNat = sopC s (.front c k) (viewFull 5 f .core r) := by
  rw [dqCtl, BitVec.toNat_setWidth, sopC, Nat.mod_eq_of_lt (nth_scalarVals_lt _ rfl)]

/-- What DQPUSH asks of its operands. -/
def DqOk (s : State) (c k : Nat) (r : ClauseRun) (f : Full) : Prop :=
  let ctl := sopC s (.front c k) (viewFull 5 f .core r)
  ctl / 2 ^ 56 = 0 ∧ ctl / 2 ^ 52 % 16 ≤ 8 ∧ ctl / 2 ^ 48 % 16 + ctl / 2 ^ 52 % 16 ≤ 16 ∧
    (modB f 1 = true → (targetOf r.pc (sopA s (.front c k) (viewFull 5 f .core r))).toNat % 8 = 0)

/-- The entry that DQPUSH pushes. -/
def dqEntry (s : State) (c k : Nat) (r : ClauseRun) (f : Full) : DqEntry :=
  { mask := BitVec.ofNat 48 (fld (dqCtl s c k f r) 47 0) &&& liveMask s c (getFront s c k).handle
    target := if modB f 1 then some (targetOf r.pc (sopA s (.front c k) (viewFull 5 f .core r))) else none
    vbase := fld (dqCtl s c k f r) 51 48
    vals := dqVals (scalarVals (scalarRegs s (.front c k)) (viewFull 5 f .core r).b) (fld (dqCtl s c k f r) 55 52) }

theorem fld_dqCtl {hi lo : Nat} : fld (dqCtl s c k f r) hi lo = sopC s (.front c k) (viewFull 5 f .core r) / 2 ^ lo % 2 ^ (hi + 1 - lo) := by
  rw [fld, toNat_dqCtl]

theorem dqOk_iff : DqOk s c k r f ↔ ¬ (decide (fld (dqCtl s c k f r) 63 56 ≠ 0) || decide (8 < fld (dqCtl s c k f r) 55 52) ||
    decide (16 < fld (dqCtl s c k f r) 51 48 + fld (dqCtl s c k f r) 55 52) ||
    (modB f 1 && !aligned8 (targetOf r.pc (sopA s (.front c k) (viewFull 5 f .core r))))) = true := by
  have hlt : sopC s (.front c k) (viewFull 5 f .core r) < 2 ^ 64 := nth_scalarVals_lt _ rfl
  have htop : sopC s (.front c k) (viewFull 5 f .core r) / 2 ^ 56 % 2 ^ (63 + 1 - 56) = sopC s (.front c k) (viewFull 5 f .core r) / 2 ^ 56 :=
    Nat.mod_eq_of_lt (by omega)
  simp only [fld_dqCtl, htop, ← aligned8_iff, DqOk]
  simp [and_assoc]

theorem liveMask_scalarStep (h : Nat) : liveMask (scalarStep s (.front c k) r) c h = liveMask s c h := by
  simp only [liveMask, scalarStep, setRun, setFront, getCore_setCore]
  rfl

/-- DQPUSH in the state its word has issued in. -/
theorem issue_dqpush (hready : ScalarReady s (.front c k) r (viewFull 5 f .core r)) :
    exec (.dqpush f) s = .next (if decide (fld (dqCtl s c k f r) 63 56 ≠ 0) || decide (8 < fld (dqCtl s c k f r) 55 52) ||
        decide (16 < fld (dqCtl s c k f r) 51 48 + fld (dqCtl s c k f r) 55 52) ||
        (modB f 1 && !aligned8 (codeTarget r.pc (nth (scalarVals (scalarRegs s (.front c k)) (viewFull 5 f .core r).a) 0)))
      then trapWord (scalarStep s (.front c k) r) (scalarWord s (.front c k) r (viewFull 5 f .core r)) (illstate 0)
      else
        let fr := getFront (scalarStep s (.front c k) r) c k
        let m := BitVec.ofNat 48 (fld (dqCtl s c k f r) 47 0) &&& liveMask (scalarStep s (.front c k) r) c fr.handle
        if m = 0 then scalarStep s (.front c k) r
        else if 32 ≤ fr.dq.length then holdWord (scalarStep s (.front c k) r) (scalarWord s (.front c k) r (viewFull 5 f .core r))
        else setFront (scalarStep s (.front c k) r) c k { fr with dq := fr.dq ++
          [{ mask := m
             target := if modB f 1 then some (codeTarget r.pc (nth (scalarVals (scalarRegs s (.front c k)) (viewFull 5 f .core r).a) 0)) else none
             vbase := fld (dqCtl s c k f r) 51 48
             vals := dqVals (scalarVals (scalarRegs s (.front c k)) (viewFull 5 f .core r).b) (fld (dqCtl s c k f r) 55 52) }] }) :=
  issue_of_scalarReady (view := viewFull 5 f) hready _

theorem codeTarget_scalarVals : codeTarget r.pc (nth (scalarVals (scalarRegs s (.front c k)) (viewFull 5 f .core r).a) 0) =
    targetOf r.pc (sopA s (.front c k) (viewFull 5 f .core r)) := codeTarget_eq _ _

theorem getFront_scalarStep : getFront (scalarStep s (.front c k) r) c k = { getFront s c k with run := some { r with idx := r.idx + 1, cyc := r.cyc + 1 } } := by
  simp [scalarStep, setRun]

/-- The word is held: its clause is at it again, a cycle later. -/
theorem holdWord_scalarStep (u : UnitId) (v : WView) : holdWord (scalarStep s u r) (scalarWord s u r v) = setRun s u (some { r with cyc := r.cyc + 1 }) :=
  mapUnitRun_scalarStep s u r _

theorem exec_dqpush_refused (hready : ScalarReady s (.front c k) r (viewFull 5 f .core r)) (h : ¬ DqOk s c k r f) :
    exec (.dqpush f) s = .next (trapWord (scalarStep s (.front c k) r) (scalarWord s (.front c k) r (viewFull 5 f .core r)) (illstate 0)) := by
  rw [issue_dqpush hready, codeTarget_scalarVals, if_pos (not_not.mp (mt dqOk_iff.mpr h))]

/-- DQPUSH whose operands are good, by the live warps it names and the queue. -/
theorem exec_dqpush (hready : ScalarReady s (.front c k) r (viewFull 5 f .core r)) (h : DqOk s c k r f) :
    exec (.dqpush f) s = .next (if (dqEntry s c k r f).mask = 0 then scalarStep s (.front c k) r
      else if 32 ≤ (getFront s c k).dq.length then setRun s (.front c k) (some { r with cyc := r.cyc + 1 })
      else setFront s c k { getFront s c k with
        run := some { r with idx := r.idx + 1, cyc := r.cyc + 1 }, dq := (getFront s c k).dq ++ [dqEntry s c k r f] }) := by
  rw [issue_dqpush hready, codeTarget_scalarVals, if_neg (dqOk_iff.mp h)]
  simp only [getFront_scalarStep, liveMask_scalarStep, holdWord_scalarStep]
  simp only [scalarStep, setRun, setFront_setFront]
  rfl

/-- The bits of a push's mask: the live warps that its control word names. -/
theorem getLsbD_dqEntry {i : Nat} (hi : i < 48) : (dqEntry s c k r f).mask.getLsbD i = true ↔ (sopC s (.front c k) (viewFull 5 f .core r)).testBit i = true ∧
    ∃ j x, (j, x) ∈ (getCore s c).warps ∧ CountsLive (getFront s c k).handle x ∧ localIndex s x = i := by
  rw [dqEntry, BitVec.getLsbD_and, Bool.and_eq_true, getLsbD_liveMask s c _ hi, BitVec.getLsbD_ofNat, fld_dqCtl, Nat.testBit_mod_two_pow]
  simp [hi]

theorem dqEntry_mask_eq_zero_iff : (dqEntry s c k r f).mask = 0 ↔ ∀ i < 48, (dqEntry s c k r f).mask.getLsbD i = false := by
  refine ⟨fun h i _ => by rw [h]; exact BitVec.getLsbD_zero, fun h => BitVec.eq_of_getLsbD_eq fun i hi => ?_⟩
  rw [h i hi]
  exact BitVec.getLsbD_zero.symm

end

/-- Settles O24: by whether DQPUSH's operands are good, it names a live warp, and its queue has room. -/
theorem decisionPush : Obligations.DecisionPush := by
  unfold Obligations.DecisionPush
  intro s c k r f hready v ctl n b tgt ok live
  have hnamed : ∀ i < 48, ((dqEntry s c k r f).mask.getLsbD i = true ↔ ctl.testBit i = true ∧ live i) := fun i hi => 
    (getLsbD_dqEntry hi).trans (and_congr_right' (exists₂_congr fun j x => and_congr_right' (by simp only [CountsLive, localIndex, and_assoc])))
  have hzero : (dqEntry s c k r f).mask = 0 ↔ ∀ i < 48, ctl.testBit i = true → ¬ live i := by
    rw [dqEntry_mask_eq_zero_iff]
    exact forall₂_congr fun i hi => by rw [← Bool.not_eq_true, hnamed i hi, not_and]
  have hsome : (∃ i < 48, ctl.testBit i = true ∧ live i) → (dqEntry s c k r f).mask ≠ 0 := fun ⟨i, hi, hbit, hlive⟩ h => hzero.mp h i hi hbit hlive
  refine ⟨fun hbad => ⟨_, exec_dqpush_refused hready hbad, stoppedScalar_scalarWord hready (illstate 0)⟩, fun hok hnone => ?_,
    fun hok hone hfull => ?_, fun hok hone hroom => ⟨dqEntry s c k r f, ?_, rfl, fld_dqCtl, ?_, hnamed, fun i hi => ?_⟩⟩
  · rw [exec_dqpush hready hok, if_pos (hzero.mpr hnone)]
  · rw [exec_dqpush hready hok, if_neg (hsome hone), if_pos hfull]
  · rw [exec_dqpush hready hok, if_neg (hsome hone), if_neg (by omega)]
  · obtain ⟨-, hn, -⟩ := hok
    have hfew : fld (dqCtl s c k f r) 55 52 ≤ 8 := fld_dqCtl.trans_le hn
    exact (length_dqVals (by simpa [scalarVals_dqpush] using hfew)).trans fld_dqCtl
  · obtain ⟨-, hn, -⟩ := hok
    have hin : i < fld (dqCtl s c k f r) 55 52 := by rwa [fld_dqCtl]
    have hreg : i / 2 < 4 := by omega
    rw [dqEntry, dqVals_getD hin (by simpa [scalarVals_dqpush] using hreg), toNat_scalarVals_dqpush _ hreg]
    rfl

end Sys2Proof.Proofs
end

section
/-!
PROOFS. The words of the service threads (spec/19 R342, spec/24 R388, spec/26 R417-R424), BAR (spec/14 R291), the gleaning words (spec/22 R378-R382), and
what reset leaves (spec/28 R427). Settles SystemWordsIssue, SleepWord, ResetValues, KeyWords, BarrierWord and GleaningWords.
-/
namespace Sys2Proof.Proofs

open Sys2Proof.Machine Sys2Proof.Claims

/-! ### Words of the system's service threads (spec/19 R342, spec/26 R419-R424) -/

/-- A scalar word whose meaning is an operation without accesses launches it. -/
theorem scalarLaunches_of_newOp {i : Instr} {op : Nat} {f : Full} (hexec : ∀ s, exec i s = issueFull op f s fun s x => newOp s x i 1 [] 0)
    {s : State} {u : UnitId} {r : ClauseRun} (hready : ScalarReady s u r (viewFull op f u.kind r)) :
    ScalarLaunches i s (scalarStep s u r) u r (viewFull op f u.kind r) 0 0 :=
  ⟨_, (hexec s).trans (issue_of_scalarReady hready _), launched_newOp _ _ _ _ _ (scalarWord_carries s u r _) rfl (by simp)⟩

theorem singleWord_join : SingleWord .join 0x0B fun s t _ => markIssued s t := ⟨fun _ _ => rfl, follows_markIssued⟩

/-- Settles O34: each word's meaning is its operation, JOIN's with its one access. -/
theorem systemWordsIssue : Obligations.SystemWordsIssue := by
  unfold Obligations.SystemWordsIssue
  refine ⟨fun i op f h s u r hready => ?_, singleWord_join.scalarLaneWord⟩
  rcases h with ⟨rfl, rfl⟩ | ⟨rfl, rfl⟩ | ⟨rfl, rfl⟩ | ⟨rfl, rfl⟩ | ⟨rfl, rfl⟩ | ⟨rfl, rfl⟩ | ⟨rfl, rfl⟩ <;>
    exact scalarLaunches_of_newOp (fun _ => rfl) hready

/-! ### SLEEP (spec/24 R388) -/

section

variable {s : State} {q : Nat} {r : ClauseRun} {f : Full}

theorem setThread_scalarStep (t : Thread) : setThread (scalarStep s (.thread q) r) q t = setThread s q t := by
  simp [scalarStep, setRun]

theorem getThread_scalarStep : getThread (scalarStep s (.thread q) r) q = { getThread s q with run := some { r with idx := r.idx + 1, cyc := r.cyc + 1 } } := by
  simp [scalarStep, setRun]

/-- Where a result of two registers' width and one of one register's are the same. -/
theorem writeScalar_two (s : State) (u : UnitId) (x : Nat) (v : W128) : writeScalar s u 2 x v = writeScalar s u 1 x v := rfl

/-- SLEEP's deadline. -/
theorem deadline_eq : (nth (scalarVals (scalarRegs s (.thread q)) (viewFull 0x0E f .sp r).a) 0).setWidth 64 =
    BitVec.ofNat 64 (sopA s (.thread q) (viewFull 0x0E f .sp r)) := (BitVec.ofNat_toNat 64 _).symm

theorem deadlineOver_iff {b : State} {d : Nat} (hd : d < 2 ^ 64) : deadlineOver b (BitVec.ofNat 64 d) = true ↔ d ≠ 0 ∧ d ≤ b.time := by
  have hzero : BitVec.ofNat 64 d = 0 ↔ d = 0 := by
    rw [BitVec.toNat_eq, BitVec.toNat_ofNat, Nat.mod_eq_of_lt hd]; rfl
  simp only [deadlineOver, Bool.and_eq_true, decide_eq_true_iff, BitVec.toNat_ofNat, Nat.mod_eq_of_lt hd, ne_eq, hzero]

/-- SLEEP by whether a wake bit is set or its deadline has passed. -/
theorem exec_sleep (hready : ScalarReady s (.thread q) r (viewFull 0x0E f .sp r)) : exec (.sleep f) s = .next (
    if (getThread s q).wakest ≠ 0 ∨ (sopA s (.thread q) (viewFull 0x0E f .sp r) ≠ 0 ∧ sopA s (.thread q) (viewFull 0x0E f .sp r) ≤ s.time) then
      writeScalar (setThread s q { getThread s q with run := some { r with idx := r.idx + 1, cyc := r.cyc + 1 }, wakest := 0, sleeping := none }) (.thread q) 1
        f.dst.toNat (BitVec.ofNat 128 (if (getThread s q).wakest = 0 then 64 else (getThread s q).wakest.toNat))
    else setThread s q { getThread s q with
      run := some { r with idx := r.idx + 1, cyc := r.cyc + 1 }, sleeping := some (BitVec.ofNat 64 (sopA s (.thread q) (viewFull 0x0E f .sp r))) }) := by
  have hd : sopA s (.thread q) (viewFull 0x0E f .sp r) < 2 ^ 64 := nth_scalarVals_lt _ rfl
  refine (issue_of_scalarReady (view := viewFull 0x0E f) hready _).trans ?_
  simp only [scalarWord, UnitId.kind, deadline_eq, wakeUp, getThread_scalarStep, setThread_scalarStep, writeScalar_two, Bool.or_eq_true, decide_eq_true_iff,
    deadlineOver_iff hd]
  rfl

end

/-- Settles O35: by the thread's wake bits and SLEEP's deadline. -/
theorem sleepWord : Obligations.SleepWord := by
  unfold Obligations.SleepWord
  intro s q r f hready d ran
  refine ⟨fun hwake => ?_, fun hwake hpos hover => ?_, fun hwake hwait => ?_⟩
  · rw [exec_sleep hready, if_pos (.inl hwake), if_neg hwake]
  · rw [exec_sleep hready, if_pos (.inr ⟨hpos, hover⟩), if_pos hwake]
    rfl
  · rw [exec_sleep hready, if_neg]
    rintro (h | ⟨hpos, hover⟩)
    · exact h hwake
    · exact hwait.elim hpos hover.not_gt

/-! ### Reset (spec/28 R427) -/

/-- Settles O58: each value is read off the reset state. -/
theorem resetValues : Obligations.ResetValues := by
  unfold Obligations.ResetValues
  exact ⟨rfl, rfl, rfl, rfl, rfl, rfl, rfl, rfl, rfl, fun _ => rfl, fun _ => ⟨rfl, rfl, rfl⟩, fun _ => ⟨rfl, rfl, rfl, rfl⟩, fun _ => rfl, fun _ => rfl,
    fun _ => rfl, rfl, rfl, rfl, rfl, rfl, fun _ _ => ⟨rfl, rfl⟩⟩

/-! ### KEYBIND (spec/26 R417, R418, R423) -/

/-- A field of a number that fits a word. -/
theorem fld_ofNat_of_lt {n : Nat} (h : n < 2 ^ 64) (hi lo : Nat) : fld (BitVec.ofNat 64 n) hi lo = n / 2 ^ lo % 2 ^ (hi + 1 - lo) := by
  rw [fld, BitVec.toNat_ofNat, Nat.mod_eq_of_lt h]

theorem ofNat_eq_zero_iff {n : Nat} (h : n < 2 ^ 64) : BitVec.ofNat 64 n = 0 ↔ n = 0 := by
  rw [BitVec.toNat_eq, BitVec.toNat_ofNat, Nat.mod_eq_of_lt h]; rfl

/-- The operation that a KEYBIND word makes, performed at once. -/
def keyOp (s : State) (x : Issued) (i : Instr) (code : Nat) : Op := { mkOp s x i 1 [] 0 with phase := 1, res := worldCode code 0 }

theorem keybindIssue_eq {b : State} {x : Issued} {i : Instr} {act : State → W64 → W64 → State × Nat} {y : State} {code : Nat}
    (hact : act b ((nth x.a 0).setWidth 64) ((nth x.b 0).setWidth 64) = (y, code)) (hholds : y.holds = b.holds) (hops : y.ops = b.ops)
    (hnext : y.nextOp = b.nextOp) (hb : OpsNumbered b) :
    keybindIssue b x i act = { newOp y x i 1 [] 0 with ops := y.ops ++ [keyOp y x i code] } := by
  have hy : ∀ p ∈ y.ops, p.id < (mkOp y x i 1 [] 0).id := fun p hp => (hb p (hops ▸ hp)).trans_eq hnext.symm
  simp only [keybindIssue, hact, hholds, ne_eq, not_true_eq_false, if_false, ← hnext]
  exact performed_last (o := mkOp y x i 1 [] 0) (newOp_frame y x i 1 [] 0).1 hy _

/-- A KEYBIND word has acted at its issue, with its code: its operation `o` is performed, memory is `m` and the host's side is `h`. -/
structure KeyActed (s : State) (q : Nat) (i : Instr) (code : Nat) (m : Mem) (h : HostIf) (t : State) (o : Op) : Prop where
  exec_eq : exec i s = .next t
  ops : t.ops = s.ops ++ [o]
  id : o.id = s.nextOp
  unit : o.unit = .thread q
  instr : o.instr = i
  phase : o.phase = 1
  res : ∀ l < 32, nth o.res l = BitVec.ofNat 128 (2 ^ 60 * code)
  host : t.host = h
  mem : t.mem = m
  regs : t.regs = s.regs
  cores : t.cores = s.cores
  flags : unitFlags t (.thread q) = putC 0 (getThread s q).flags o.flag (look 0 (getThread s q).flags o.flag + 1)

/-- What a KEYBIND word acts on: the state in which it has issued, with memory and the host's side changed. -/
def keyState (s : State) (q : Nat) (r : ClauseRun) (m : Mem) (h : HostIf) : State := { scalarStep s (.thread q) r with mem := m, host := h }

theorem keyActed {s : State} {q : Nat} {r : ClauseRun} {f : Full} {i : Instr} {act : State → W64 → W64 → State × Nat} {m : Mem} {h : HostIf} {code : Nat}
    (hready : ScalarReady s (.thread q) r (viewFull 0x13 f .sp r)) (hs : OpsNumbered s)
    (hexec : exec i s = issueFull 0x13 f s fun s x => keybindIssue s x i act)
    (hact : act (scalarStep s (.thread q) r) (BitVec.ofNat 64 (sopA s (.thread q) (viewFull 0x13 f .sp r)))
      (BitVec.ofNat 64 (sopB s (.thread q) (viewFull 0x13 f .sp r))) = (keyState s q r m h, code)) :
    ∃ t o, KeyActed s q i code m h t o := by
  simp only [sopA, sopB, BitVec.ofNat_toNat] at hact
  have hissue := keybindIssue_eq (b := scalarStep s (.thread q) r) (x := scalarWord s (.thread q) r (viewFull 0x13 f .sp r)) (i := i) hact rfl rfl rfl hs
  refine ⟨_, _, hexec.trans ((issue_of_scalarReady (view := viewFull 0x13 f) hready _).trans (congrArg _ hissue)), rfl, rfl, rfl, rfl, rfl,
    fun l hl => nth_everyLane _ hl, rfl, rfl, rfl, rfl, ?_⟩
  have hran := congrArg Thread.flags (getThread_scalarStep (s := s) (q := q) (r := r))
  have hflags : unitFlags (keyState s q r m h) (.thread q) = (getThread s q).flags := hran
  rw [← hflags]
  exact congrArg Thread.flags (look_put_same _ _ _ _)

section

variable {s : State} {q : Nat} {r : ClauseRun} {f : Full}

/-- What KEYBIND and its .unbind ask of operand A. -/
def KeyArgOk (a : Nat) : Prop := a / 2 ^ 12 = 0 ∧ a / 16 % 16 = 0 ∧ a % 16 ≠ 0

theorem keyArgBad_iff {a : Nat} (ha : a < 2 ^ 64) : keyArgBad (BitVec.ofNat 64 a) = true ↔ ¬ KeyArgOk a := by
  have hhigh : a / 2 ^ 12 % 2 ^ (63 + 1 - 12) = a / 2 ^ 12 := Nat.mod_eq_of_lt (by omega)
  simp only [keyArgBad, fld_ofNat_of_lt ha, hhigh, KeyArgOk, Bool.or_eq_true, decide_eq_true_iff]
  simp only [Nat.pow_zero, Nat.div_one]
  tauto

theorem keyEntry_ofNat {a : Nat} (ha : a < 2 ^ 64) : keyEntry (BitVec.ofNat 64 a) = 16 * (a % 16) + a / 256 % 16 := by
  simp only [keyEntry, fld_ofNat_of_lt ha]
  simp

theorem world_ofNat {a : Nat} (ha : a < 2 ^ 64) : fld (BitVec.ofNat 64 a) 3 0 = a % 16 := by
  rw [fld_ofNat_of_lt ha, Nat.pow_zero, Nat.div_one]
  rfl

theorem slot_ofNat {b : Nat} (hb : b < 256) : fld (BitVec.ofNat 64 b) 7 0 = b := by
  rw [fld_ofNat_of_lt (by omega), Nat.pow_zero, Nat.div_one]
  exact Nat.mod_eq_of_lt hb

/-- With no stash entry mapped there is nothing of the stash to write back. -/
theorem writeBackUnder_unmapped {t : State} (htags : ∀ p ∈ t.cores, p.2.tags = []) (p : Nat → Bool) : writeBackUnder t p = t := by
  have hnone : dirtyEntries t = [] := by
    rw [dirtyEntries, List.flatMap_eq_nil_iff]
    exact fun c hc => by rw [htags c hc]; rfl
  rw [writeBackUnder, hnone]
  rfl

theorem high_ne_zero_iff {b : Nat} (hb : b < 2 ^ 64) : fld (BitVec.ofNat 64 b) 63 8 ≠ 0 ↔ ¬ b < 256 := by
  rw [fld_ofNat_of_lt hb]
  omega

theorem bindCode_refused {a b : Nat} (ha : a < 2 ^ 64) (hb : b < 2 ^ 64) (h : ¬ (KeyArgOk a ∧ b < 256)) (t : State) :
    bindCode t (BitVec.ofNat 64 a) (BitVec.ofNat 64 b) = 1 :=
  if_pos (by rwa [Bool.or_eq_true, keyArgBad_iff ha, decide_eq_true_iff, high_ne_zero_iff hb, ← not_and_or])

section

variable {a b : Nat} (ha : a < 2 ^ 64) (harg : KeyArgOk a) (hb : b < 256)
include ha harg hb

theorem bind_accepts : ¬ (keyArgBad (BitVec.ofNat 64 a) || decide (fld (BitVec.ofNat 64 b) 63 8 ≠ 0)) = true := by
  have hslot : b < 2 ^ 64 := by omega
  rw [Bool.or_eq_true, keyArgBad_iff ha, decide_eq_true_iff, high_ne_zero_iff hslot, ← not_and_or, not_not]
  exact ⟨harg, hb⟩

theorem bindCode_empty {t : State} (h : look none t.host.keys b = none) : bindCode t (BitVec.ofNat 64 a) (BitVec.ofNat 64 b) = 9 := by
  rw [bindCode, if_neg (bind_accepts ha harg hb), slot_ofNat hb, h]

/-- The code of a bind to a loaded slot. -/
theorem bindCode_loaded {t : State} {w : Nat} {m : BitVec 768} (h : look none t.host.keys b = some (w, m)) : bindCode t (BitVec.ofNat 64 a) (BitVec.ofNat 64 b) =
    if w ≠ a % 16 then 10 else if (look none t.host.handles (16 * (a % 16) + a / 256 % 16)).isSome then 11 else 0 := by
  rw [bindCode, if_neg (bind_accepts ha harg hb), slot_ofNat hb, h]
  simp only [world_ofNat ha, keyEntry_ofNat ha, boundSlot]

end

/-- An unbind of what it may unbind, with no stash entry mapped. -/
theorem unbindAct_accepted {a b : Nat} (ha : a < 2 ^ 64) (harg : KeyArgOk a) (hzero : b = 0) {t : State} (htags : ∀ p ∈ t.cores, p.2.tags = []) :
    unbindAct t (BitVec.ofNat 64 a) (BitVec.ofNat 64 b) =
      ({ t with host := { t.host with handles := putC none t.host.handles (16 * (a % 16) + a / 256 % 16) none } }, 0) := by
  subst hzero
  rw [unbindAct, if_neg (by simp [keyArgBad_iff ha, harg])]
  simp only [writeBackUnder_unmapped htags, ite_self, keyEntry_ofNat ha]

theorem unbindAct_refused {a b : Nat} (ha : a < 2 ^ 64) (hb : b < 2 ^ 64) (h : ¬ (KeyArgOk a ∧ b = 0)) (t : State) :
    unbindAct t (BitVec.ofNat 64 a) (BitVec.ofNat 64 b) = (t, 1) :=
  if_pos (by rwa [Bool.or_eq_true, keyArgBad_iff ha, decide_eq_true_iff, ne_eq, ofNat_eq_zero_iff hb, ← not_and_or])

theorem revokeAct_refused {a b : Nat} (ha : a < 2 ^ 64) (hb : b < 2 ^ 64) (h : a ≠ 0 ∨ b / 256 ≠ 0) (t : State) :
    revokeAct t (BitVec.ofNat 64 a) (BitVec.ofNat 64 b) = (t, 1) :=
  if_pos (by
    rw [Bool.or_eq_true, decide_eq_true_iff, decide_eq_true_iff, ne_eq, ofNat_eq_zero_iff ha, high_ne_zero_iff hb]
    exact h.imp_right fun hhigh => by omega)

theorem revokeAct_accepted {a b : Nat} (hzero : a = 0) (hb : b < 256) (t : State) :
    revokeAct t (BitVec.ofNat 64 a) (BitVec.ofNat 64 b) = (revokeSlot t b, 0) := by
  subst hzero
  have hslot : b < 2 ^ 64 := by omega
  rw [revokeAct, if_neg (by rw [Bool.or_eq_true, decide_eq_true_iff, decide_eq_true_iff, high_ne_zero_iff hslot]; simp [hb]), slot_ofNat hb]

/-- An eviction changes nothing of the host's side but what goes out. -/
theorem evict_outs (t : State) (k : Nat) : ∃ m outs, evict t k = { t with mem := m, host := { t.host with outs := outs } } := by
  by_cases hused : (getL2 t k).used = true
  · obtain ⟨m, hm, -⟩ := writeBack_frame t k
    rw [evict_of_used hused, dropLine, hm]
    split
    · exact ⟨_, _, rfl⟩
    · exact ⟨_, t.host.outs, rfl⟩
  · exact ⟨t.mem, t.host.outs, if_neg hused⟩

theorem foldl_evict_outs (ks : List Nat) (t : State) : ∃ m outs, ks.foldl evict t = { t with mem := m, host := { t.host with outs := outs } } := by
  induction ks generalizing t with
  | nil => exact ⟨t.mem, t.host.outs, rfl⟩
  | cons k ks ih =>
    obtain ⟨m, outs, hfirst⟩ := evict_outs t k
    obtain ⟨m', outs', hrest⟩ := ih (evict t k)
    exact ⟨m', outs', by rw [List.foldl_cons, hrest, hfirst]⟩

/-- The lines of a slice that stand under key slot `b`. -/
def keyLines (t : State) (b : Nat) : List Nat := linesWhere t fun _ e => e.used && e.kslot = b + 1

/-- The host's side once slot `b`, a slot of world `w`, is revoked. -/
def revokedHost (h : HostIf) (b w : Nat) : HostIf :=
  { h with handles := h.handles.filter fun p => p.2 ≠ some b
           keys := putC none h.keys b none
           tdisp := if h.attrs.any fun p => p.2 = w then .error else h.tdisp }

theorem revokeSlot_empty {t : State} {b : Nat} (h : look none t.host.keys b = none) : revokeSlot t b = t := by
  rw [revokeSlot, h]

/-- What a slot's revocation takes, with no stash entry mapped: its lines, its entries, its key, and the interface, where one of its pages is its world's. -/
theorem revokeSlot_loaded {t : State} {b w : Nat} {k : BitVec 768} (htags : ∀ p ∈ t.cores, p.2.tags = []) (hkey : look none t.host.keys b = some (w, k)) :
    revokeSlot t b = { (keyLines t b).foldl evict t with host := revokedHost ((keyLines t b).foldl evict t).host b w } := by
  rw [revokeSlot, hkey]
  simp only [writeBackUnder_unmapped htags, unbindSlot, revokedHost, keyLines, linesWhere]
  split
  · next h => simp only [h, if_true]
  · next h => simp only [h]; rfl

theorem getL2_keyLines {t : State} (b i : Nat) (h : rising 0 t.mem.l2 = true) :
    getL2 ((keyLines t b).foldl evict t) i = if (getL2 t i).used = true ∧ (getL2 t i).kslot = b + 1 then L2Line.reset else getL2 t i := by
  rw [getL2_foldl_evict _ _ h]
  refine if_congr ?_ rfl rfl
  rw [keyLines, mem_linesWhere _ h rfl, Bool.and_eq_true, decide_eq_true_iff]
  tauto

/-- An entry that names slot `b` no longer reads as bound; every other reads as it did. -/
theorem look_unbound {h : SMap (Option Nat)} {lo : Nat} (hr : rising lo h = true) (b e : Nat) :
    look none (h.filter fun p => p.2 ≠ some b) e = if look none h e = some b then none else look none h e := by
  induction h generalizing lo with
  | nil => rfl
  | cons p t ih =>
    obtain ⟨a, v⟩ := p
    simp only [rising, Bool.and_eq_true] at hr
    obtain ⟨-, htail⟩ := hr
    have hlow : a = e → look none t e = none := fun hae => by
      by_contra hne
      have := le_of_mem_of_rising htail (mem_of_look_ne none hne)
      omega
    by_cases hv : v = some b
    · rw [List.filter_cons_of_neg (by simp [hv]), ih htail]
      by_cases hae : a = e
      · simp [look, hae, hv, hlow hae]
      · simp [look, hae]
    · rw [List.filter_cons_of_pos (by simp [hv])]
      by_cases hae : a = e
      · simp [look, hae, hv]
      · simp only [look, hae, if_false]
        exact ih htail

theorem sopA_keybind_lt : sopA s (.thread q) (viewFull 0x13 f .sp r) < 2 ^ 64 := nth_scalarVals_lt _ rfl
theorem sopB_keybind_lt : sopB s (.thread q) (viewFull 0x13 f .sp r) < 2 ^ 64 := nth_scalarVals_lt _ rfl

/-- A KEYBIND word that acts on the host's side alone. -/
theorem keyAnswers {i : Instr} {act : State → W64 → W64 → State × Nat} {h : HostIf} {code : Nat}
    (hready : ScalarReady s (.thread q) r (viewFull 0x13 f .sp r)) (hs : OpsNumbered s)
    (hexec : exec i s = issueFull 0x13 f s fun s x => keybindIssue s x i act)
    (hact : act (scalarStep s (.thread q) r) (BitVec.ofNat 64 (sopA s (.thread q) (viewFull 0x13 f .sp r)))
      (BitVec.ofNat 64 (sopB s (.thread q) (viewFull 0x13 f .sp r))) = ({ scalarStep s (.thread q) r with host := h }, code)) :
    ∃ t o, exec i s = .next t ∧ t.ops = s.ops ++ [o] ∧ o.id = s.nextOp ∧ o.unit = .thread q ∧ o.instr = i ∧ o.phase = 1 ∧
      (∀ l < 32, nth o.res l = BitVec.ofNat 128 (2 ^ 60 * code)) ∧ t.host = h ∧ t.mem = s.mem ∧ t.regs = s.regs ∧ t.cores = s.cores ∧
      unitFlags t (.thread q) = putC 0 (getThread s q).flags o.flag (look 0 (getThread s q).flags o.flag + 1) := by
  obtain ⟨t, o, h⟩ := keyActed (m := s.mem) hready hs hexec hact
  exact ⟨t, o, h.exec_eq, h.ops, h.id, h.unit, h.instr, h.phase, h.res, h.host, h.mem, h.regs, h.cores, h.flags⟩

/-- A bind whose code is not 0 changes nothing. -/
theorem bindAct_refused {t : State} {a b : W64} {code : Nat} (h : bindCode t a b = code) (hcode : code ≠ 0) : bindAct t a b = (t, code) := by
  rw [bindAct, h, if_neg hcode]

theorem bindAct_accepted {t : State} {a b : W64} (h : bindCode t a b = 0) :
    bindAct t a b = ({ t with host := { t.host with handles := putC none t.host.handles (keyEntry a) (some (fld b 7 0)) } }, 0) := by
  rw [bindAct, h, if_pos rfl]

end

/-- Settles O36: each word by what its operands name. -/
theorem keyWords : Obligations.KeyWords := by
  unfold Obligations.KeyWords
  intro s q r f hready hs a b argOk entry answers
  have ha : a < 2 ^ 64 := sopA_keybind_lt
  have hb : b < 2 ^ 64 := sopB_keybind_lt
  refine ⟨fun h => ?_, fun harg hslot h => ?_, fun harg hslot w m h hw => ?_, fun harg hslot m h hbound => ?_, fun harg hslot m h hfree => ?_,
    fun h => ?_, fun harg hzero htags => ?_, fun h => ?_, fun hzero hslot h => ?_, fun hzero hslot htags hl2 hkeys hhandles w m h => ?_⟩
  · refine keyAnswers hready hs rfl (bindAct_refused (bindCode_refused ha hb (fun hok => h ⟨hok.1, ?_⟩) _) (by decide))
    exact Nat.div_eq_of_lt hok.2
  · exact keyAnswers hready hs rfl (bindAct_refused (bindCode_empty ha harg hslot h) (by decide))
  · exact keyAnswers hready hs rfl (bindAct_refused ((bindCode_loaded ha harg hslot h).trans (if_pos hw)) (by decide))
  · refine keyAnswers hready hs rfl (bindAct_refused ((bindCode_loaded ha harg hslot h).trans ?_) (by decide))
    rw [if_neg (not_not.mpr rfl), if_pos (Option.isSome_iff_ne_none.mpr hbound)]
  · have hcode := (bindCode_loaded ha harg hslot (t := scalarStep s (.thread q) r) h).trans
      ((if_neg (not_not.mpr rfl)).trans (if_neg (by rw [Option.isSome_iff_ne_none]; exact not_not.mpr hfree)))
    refine keyAnswers hready hs rfl ((bindAct_accepted hcode).trans ?_)
    rw [keyEntry_ofNat ha, slot_ofNat hslot]
    rfl
  · exact keyAnswers hready hs rfl (unbindAct_refused ha hb h _)
  · exact keyAnswers hready hs rfl (unbindAct_accepted ha harg hzero htags)
  · exact keyAnswers hready hs rfl (revokeAct_refused ha hb h _)
  · exact keyAnswers hready hs rfl ((revokeAct_accepted hzero hslot _).trans (congrArg (·, 0) (revokeSlot_empty h)))
  · obtain ⟨mem, outs, hevict⟩ := foldl_evict_outs (keyLines (scalarStep s (.thread q) r) b) (scalarStep s (.thread q) r)
    have hlines := getL2_keyLines (t := scalarStep s (.thread q) r) b
    rw [hevict] at hlines
    obtain ⟨t, o, hacted⟩ := keyActed (i := .keybindRevoke f) (m := mem) (h := revokedHost { s.host with outs := outs } b w) (code := 0) hready hs rfl
      ((revokeAct_accepted hzero hslot _).trans (congrArg (·, 0) ((revokeSlot_loaded (t := scalarStep s (.thread q) r) htags h).trans (by rw [hevict]; rfl))))
    refine ⟨t, o, hacted.exec_eq, hacted.ops, hacted.id, hacted.unit, hacted.instr, hacted.phase, hacted.res, fun i => ?_, fun e => ?_, fun i => ?_, ?_,
      hacted.regs, hacted.cores⟩
    · rw [hacted.host]
      exact look_putC (α := KeySlot) none b i none hkeys
    · rw [hacted.host]
      exact look_unbound hhandles b e
    · rw [getL2, hacted.mem]
      exact hlines i hl2
    · rw [hacted.host]
      rfl

/-! ### BAR (spec/14 R291) -/

/-- A team that is there is found as it was last set. -/
theorem findTeam_setTeam {s : State} {h : Nat} {t t' : Team} (hfind : findTeam s h = some t) (hhandle : t'.handle = t.handle) :
    findTeam (setTeam s t') h = some t' := by
  simp only [findTeam, setTeam, List.find?_map] at hfind ⊢
  have hth : t.handle = h := by simpa using List.find?_some hfind
  have hsame : (fun x : Team => decide ((if x.handle = t'.handle then t' else x).handle = h)) = fun x => decide (x.handle = h) := by
    funext x
    split <;> simp_all
  rw [show ((fun t : Team => decide (t.handle = h)) ∘ fun x => if x.handle = t'.handle then t' else x) = fun x => decide (x.handle = h) from hsame, hfind]
  simp [hhandle]

/-- A change of a team's own state leaves a launch as it is. -/
theorem launched_setTeam {b t : State} {c k : Nat} {i : Instr} {r : ClauseRun} {v : WView} {lanes accd : Mask} {va : Nat → W64} {xa xb xc : List W128}
    (h : Launched b t (.warp c k) i r v lanes accd va xa xb xc) (m : Team) : Launched b (setTeam t m) (.warp c k) i r v lanes accd va xa xb xc :=
  { op := h.op, next := h.next, flags := h.flags, clause := h.clause, scalars := h.scalars, vectors := h.vectors, memory := h.memory, rest := h.rest }

section

variable {s : State} {c k : Nat} {w : Warp} {r : ClauseRun} {f : Full} {t : Team} {l : Nat}

/-- The count of an arrival, the barrier it is at, and whether it takes ILLSTATE (R291). -/
def barCount (w : Warp) (r : ClauseRun) (f : Full) (l : Nat) : Nat := opA w r (viewFull 0x7E f .vector r) l % 2 ^ 32
def barAt (t : Team) (f : Full) : Barrier := look Barrier.reset t.barriers (modF f 8 5)
def BarBad (t : Team) (w : Warp) (br : Barrier) (e : Nat) : Prop := shapeWarps t < e ∨ (∃ x, br.expect = some x ∧ x ≠ e) ∨ ∃ p ∈ br.arrived, p.1 = w.num

theorem barBad_iff (t : Team) (w : Warp) (br : Barrier) (e : Nat) : (decide (shapeWarps t < e) || (match br.expect with
    | some e' => decide (e' ≠ e)
    | none => false) || br.arrived.any (fun p => decide (p.1 = w.num))) = true ↔ BarBad t w br e := by
  rw [BarBad, Bool.or_eq_true, Bool.or_eq_true, List.any_eq_true, or_assoc]
  simp only [decide_eq_true_iff]
  cases br.expect <;> simp

/-- The team once the warp's arrival is noted. -/
def barArrived (s : State) (t : Team) (w : Warp) (r : ClauseRun) (f : Full) (l : Nat) : Team :=
  let br : Barrier := { barAt t f with expect := some (barCount w r f l), arrived := (barAt t f).arrived ++ [(w.num, s.nextOp)] }
  { t with barriers := putC Barrier.reset t.barriers (modF f 8 5) br }

open Classical in
/-- BAR of a converged warp of a team. -/
theorem exec_bar (hready : Ready s c k w r (viewFull 0x7E f .vector r)) (hsheaf : w.sheaf = none) (hteam : findTeam s w.handle = some t)
    (hl : (active w r (viewFull 0x7E f .vector r)).getLsbD l = true) (hlow : ∀ j < l, (active w r (viewFull 0x7E f .vector r)).getLsbD j = false)
    (hconv : Converged w) :
    exec (.bar f) s = .next (if BarBad t w (barAt t f) (barCount w r f l) then
        trapWord (issued s c k w r (viewFull 0x7E f .vector r)) (warpWord c k w r (viewFull 0x7E f .vector r)) (illstate 0)
      else setTeam (newOp (issued s c k w r (viewFull 0x7E f .vector r)) (warpWord c k w r (viewFull 0x7E f .vector r)) (.bar f)
          (active w r (viewFull 0x7E f .vector r)) [] 0) (barArrived s t w r f l)) := by
  refine (issue_of_ready (view := viewFull 0x7E f) hready _).trans (congrArg _ ?_)
  have hd := (divergedMask_issued (s := s) (c := c) (k := k) (r := r) (v := viewFull 0x7E f .vector r)).trans ((divergedMask_eq_zero_iff w).mpr hconv)
  obtain ⟨x, g, p, fp, -, hwarp⟩ := getWarp_issued (s := s) (c := c) (k := k) (w := w) (r := r) (v := viewFull 0x7E f .vector r)
  have hstill : (getWarp (issued s c k w r (viewFull 0x7E f .vector r)) c k).sheaf = none := by rw [hwarp]; exact hsheaf
  have hhandle : (getWarp (issued s c k w r (viewFull 0x7E f .vector r)) c k).handle = w.handle := by rw [hwarp]
  have hnum : (getWarp (issued s c k w r (viewFull 0x7E f .vector r)) c k).num = w.num := by rw [hwarp]
  have hfind : findTeam (issued s c k w r (viewFull 0x7E f .vector r)) w.handle = some t := hteam
  have hlane : lowLane (warpWord c k w r (viewFull 0x7E f .vector r)).act = l := lowLane_eq hl hlow
  rw [show (warpWord c k w r (viewFull 0x7E f .vector r)).u = .warp c k from rfl]
  simp only [hstill, hhandle, hnum, hfind, hlane, hd, Option.isSome_none, ne_eq, not_true_eq_false, if_false]
  exact if_congr (barBad_iff t w (barAt t f) (barCount w r f l)) rfl rfl

end

/-- Settles O32: by whether the count, the barrier's own count and its arrivals agree. -/
theorem barrierWord : Obligations.BarrierWord := by
  unfold Obligations.BarrierWord
  intro s c k w r f l t hready hsheaf hteam hl hlow hconv e br
  have hexec := exec_bar hready hsheaf hteam hl hlow hconv
  refine ⟨fun hfits hagree hfirst => ?_, fun hidx hbad => ?_⟩
  · have hgood : ¬ BarBad t w (barAt t f) (barCount w r f l) := by
      rintro (hmany | ⟨x, hx, hne⟩ | ⟨p, hp, hnum⟩)
      · exact absurd hfits hmany.not_ge
      · rcases hagree with hnone | hsome
        · exact absurd (hnone.symm.trans hx) (Option.some_ne_none x).symm
        · exact hne (Option.some.inj (hx.symm.trans hsome))
      · exact hfirst p hp hnum
    rw [if_neg hgood] at hexec
    have hlaunched := launched_newOp (issued s c k w r (viewFull 0x7E f .vector r)) (.bar f) (active w r (viewFull 0x7E f .vector r)) 0 (accs := [])
      (va := fun _ => 0) 0 (warpWord_carries c k w r (viewFull 0x7E f .vector r)) rfl (fun a ha => nomatch ha)
    exact ⟨_, barArrived s t w r f l, hexec, launched_setTeam hlaunched _, findTeam_setTeam hteam rfl, rfl⟩
  · rw [if_pos (show BarBad t w (barAt t f) (barCount w r f l) from hbad)] at hexec
    exact ⟨_, hexec, stopped_trapWord hready hidx hsheaf (illstate 0)⟩

/-! ### GINFO, GLR and GLW (spec/22 R378-R381) -/

theorem isSheaf_warp (s : State) (c k : Nat) : isSheaf s (.warp c k) = (getWarp s c k).sheaf.isSome := rfl

section

variable {s b : State} {x : Issued} {body : State → State}

theorem gleanWord_serves_warp {c k : Nat} (hu : x.u = .warp c k) (h : (getWarp b c k).sheaf ≠ none) : gleanWord b x body = body b := by
  simp only [gleanWord, hu, isSheaf_warp, Option.isSome_iff_ne_none.mpr h, if_true]

theorem gleanWord_serves_thread {q : Nat} (hu : x.u = .thread q) (h : (getThread b q).pending ≠ []) : gleanWord b x body = body b := by
  simp [gleanWord, hu, h]

theorem gleanWord_refused_warp {c k : Nat} (hu : x.u = .warp c k) (h : (getWarp b c k).sheaf = none) : gleanWord b x body = trapWord b x (illstate 0) := by
  simp [gleanWord, hu, isSheaf_warp, h]

theorem gleanWord_refused_thread {q : Nat} (hu : x.u = .thread q) (h : (getThread b q).pending = []) : gleanWord b x body = trapWord b x (illstate 0) := by
  simp [gleanWord, hu, h]

end

/-- A gleaning word, by what it does where a unit serves a record. -/
def GleanMeaning (i : Instr) (op : Nat) (f : Full) (body : Issued → State → State) : Prop := ∀ s, exec i s = issueFull op f s fun b x => gleanWord b x (body x)

section

variable {i : Instr} {op : Nat} {f : Full} {body : Issued → State → State} (hword : GleanMeaning i op f body) {s : State}
include hword

theorem GleanMeaning.exec_sheaf {c k : Nat} {w : Warp} {r : ClauseRun} (hready : Ready s c k w r (viewFull op f .vector r)) (h : w.sheaf ≠ none) :
    exec i s = .next (body (warpWord c k w r (viewFull op f .vector r)) (issued s c k w r (viewFull op f .vector r))) := by
  rw [hword, issueFull, issue_of_ready hready, gleanWord_serves_warp rfl (by rwa [sheaf_issued])]

theorem GleanMeaning.exec_thread {q : Nat} {r : ClauseRun} (hready : ScalarReady s (.thread q) r (viewFull op f .sp r)) (h : (getThread s q).pending ≠ []) :
    exec i s = .next (body (scalarWord s (.thread q) r (viewFull op f .sp r)) (scalarStep s (.thread q) r)) := by
  rw [hword]
  refine (issue_of_scalarReady (view := viewFull op f) hready _).trans (congrArg _ (gleanWord_serves_thread rfl ?_))
  rwa [getThread_scalarStep]

theorem GleanMeaning.stops_warp {c k : Nat} {w : Warp} {r : ClauseRun} (hready : Ready s c k w r (viewFull op f .vector r)) (hidx : r.idx < 15)
    (h : w.sheaf = none) : ∃ t, exec i s = .next t ∧ Stopped s t c k w r (viewFull op f .vector r) 0x21 0 := by
  rw [hword, issueFull, issue_of_ready hready, gleanWord_refused_warp rfl (by rwa [sheaf_issued])]
  exact ⟨_, rfl, stopped_trapWord hready hidx h (illstate 0)⟩

theorem GleanMeaning.stops_thread {q : Nat} {r : ClauseRun} (hready : ScalarReady s (.thread q) r (viewFull op f .sp r)) (h : (getThread s q).pending = []) :
    ∃ t, exec i s = .next t ∧ StoppedScalar (scalarStep s (.thread q) r) t (.thread q) r (viewFull op f .sp r) 0x21 0 := by
  refine ⟨_, (hword s).trans ((issue_of_scalarReady (view := viewFull op f) hready _).trans (congrArg _ (gleanWord_refused_thread rfl ?_))),
    stoppedScalar_scalarWord hready (illstate 0)⟩
  rwa [getThread_scalarStep]

end

/-- The operation of a GLR or GLW, with the origins of the records it serves. -/
def gleanOp (i : Instr) (x : Issued) (b : State) : State := newOp b { x with c := originVals b x.u } i x.act [] 0

theorem gleanMeaning_glr (f : Full) : GleanMeaning (.glr f) 0x15 f (gleanOp (.glr f)) := fun _ => rfl
theorem gleanMeaning_glw (f : Full) : GleanMeaning (.glw f) 0x16 f (gleanOp (.glw f)) := fun _ => rfl

/-- The upper words of a record: cause and place of the word, origin, context and world, DETAIL, address. -/
def recTail (q : TrapRec) : Nat :=
  2 ^ 24 * q.cause.toNat + (2 ^ 16 * q.prio.toNat + 2 ^ 12 * (q.widx % 16) + q.half.toNat * 2 ^ 11 + q.didx.toNat) + 2 ^ 32 * recOrigin q +
    2 ^ 64 * (q.ctx % 2 ^ 16 + 2 ^ 16 * (q.world % 16)) + 2 ^ 96 * q.detail.toNat + 2 ^ 128 * q.addr.toNat

/-- A window of a number's low bits does not see the bits above them. -/
theorem mod_div_mod (n : Nat) {k m : Nat} (h : k + 32 ≤ m) : n % 2 ^ m / 2 ^ k % 2 ^ 32 = n / 2 ^ k % 2 ^ 32 := by
  obtain ⟨d, rfl⟩ := Nat.exists_eq_add_of_le h
  rw [Nat.add_assoc, pow_add 2 k, Nat.mod_mul_right_div_self, Nat.mod_mod_of_dvd _ (pow_dvd_pow 2 (by omega))]

/-- A record's body in base 2^64: the five words of its place and operands, then its tail. -/
theorem recWord_eq {q : TrapRec} (hbody : q.kind ≠ .slice) {n : Nat} (hn : n < 16) : recWord q n =
    (q.pc.toNat + 2 ^ 64 * (q.wordv.toNat + 2 ^ 64 * (q.srca.toNat + 2 ^ 64 * (q.srcb.toNat + 2 ^ 64 * (q.srcc.toNat + 2 ^ 64 * recTail q))))) /
      2 ^ (32 * n) % 2 ^ 32 := by
  have hwidth : 32 * n + 31 + 1 - 32 * n = 32 := by omega
  rw [recWord, fld, recBits, BitVec.toNat_ofNat, hwidth, mod_div_mod _ (by omega)]
  simp only [hbody, if_true, ne_eq, not_false_eq_true]
  rw [← recTail, show (2 : Nat) ^ 128 = (2 ^ 64) ^ 2 from pow_mul 2 64 2, show (2 : Nat) ^ 192 = (2 ^ 64) ^ 3 from pow_mul 2 64 3,
    show (2 : Nat) ^ 256 = (2 ^ 64) ^ 4 from pow_mul 2 64 4, show (2 : Nat) ^ 320 = (2 ^ 64) ^ 5 from pow_mul 2 64 5]
  congr 2
  ring

/-- A word of a record's tail. -/
theorem recWord_tail {q : TrapRec} (hbody : q.kind ≠ .slice) {n : Nat} (hn : n < 6) : recWord q (10 + n) = recTail q / 2 ^ (32 * n) % 2 ^ 32 := by
  have hsplit : ∀ {a m : Nat}, a < 2 ^ 64 → (a + 2 ^ 64 * m) / 2 ^ 64 = m := fun h => by omega
  have hpow : (2 : Nat) ^ (32 * (10 + n)) = 2 ^ 64 * 2 ^ 64 * 2 ^ 64 * 2 ^ 64 * 2 ^ 64 * 2 ^ (32 * n) := by
    rw [Nat.mul_add, pow_add, show 32 * 10 = 64 * 5 from rfl, pow_mul]
    generalize (2 : Nat) ^ 64 = b
    ring
  rw [recWord_eq hbody (by omega), hpow]
  simp only [← Nat.div_div_eq_div_mul, hsplit q.pc.isLt, hsplit q.wordv.isLt, hsplit q.srca.isLt, hsplit q.srcb.isLt, hsplit q.srcc.isLt]

/-- GINFO's words of a record, as R365 lays them out. -/
theorem recWord_fields {q : TrapRec} (hbody : q.kind ≠ .slice) (horigin : recOrigin q < 2 ^ 32) :
    recWord q 13 = q.detail.toNat ∧ recWord q 12 = 2 ^ 16 * (q.world % 16) + q.ctx % 2 ^ 16 ∧
    recWord q 10 = 2 ^ 24 * q.cause.toNat + 2 ^ 16 * q.prio.toNat + 2 ^ 12 * (q.widx % 16) + 2 ^ 11 * q.half.toNat + q.didx.toNat ∧
    recWord q 0 + 2 ^ 32 * recWord q 1 = q.pc.toNat ∧ recWord q 14 + 2 ^ 32 * recWord q 15 = q.addr.toNat := by
  have hcause : q.cause.toNat < 2 ^ 8 := q.cause.isLt
  have hprio : q.prio.toNat < 2 ^ 8 := q.prio.isLt
  have hdidx : q.didx.toNat < 2 ^ 9 := q.didx.isLt
  have hdetail : q.detail.toNat < 2 ^ 32 := q.detail.isLt
  have haddr : q.addr.toNat < 2 ^ 64 := q.addr.isLt
  have hpc : q.pc.toNat < 2 ^ 64 := q.pc.isLt
  have hhalf : q.half.toNat ≤ 1 := Bool.toNat_le _
  refine ⟨(recWord_tail hbody (n := 3) (by decide)).trans ?_, (recWord_tail hbody (n := 2) (by decide)).trans ?_,
    (recWord_tail hbody (n := 0) (by decide)).trans ?_, ?_, ?_⟩
  · rw [recTail]; omega
  · rw [recTail]; omega
  · rw [recTail]; omega
  · rw [recWord_eq hbody (by decide), recWord_eq hbody (by decide)]; omega
  · rw [recWord_tail hbody (n := 4) (by decide), recWord_tail hbody (n := 5) (by decide), recTail]; omega

/-- A word whose operand C is replaced carries the same word. -/
theorem carries_withC {x : Issued} {r : ClauseRun} {v : WView} (h : Carries x r v) (y : List W128) : Carries { x with c := y } r v := by
  obtain ⟨hword, hpc, hwidx, hflag⟩ := h
  exact ⟨hword, hpc, hwidx, hflag⟩

/-- What the unit of a ready word serves is what it served before. -/
theorem originVals_issued (s : State) (c k : Nat) (w : Warp) (r : ClauseRun) (v : WView) (hw : getWarp s c k = w) :
    originVals (issued s c k w r v) (.warp c k) = originVals s (.warp c k) := by
  simp only [originVals, currentRec, servedRec, sheaf_issued, hw]

theorem originVals_scalarStep (s : State) (q : Nat) (r : ClauseRun) : originVals (scalarStep s (.thread q) r) (.thread q) = originVals s (.thread q) := by
  simp only [originVals, currentRec, getThread_scalarStep]

section

variable {s : State} {i : Instr} {op : Nat} {f : Full} (hword : GleanMeaning i op f (gleanOp i))
include hword

/-- GLR and GLW launch their operation over a sheaf's lanes. -/
theorem GleanMeaning.launches_sheaf {c k : Nat} {w : Warp} {r : ClauseRun} (hready : Ready s c k w r (viewFull op f .vector r)) (h : w.sheaf ≠ none) :
    ∃ t, exec i s = .next t ∧ Launched (issued s c k w r (viewFull op f .vector r)) t (.warp c k) i r (viewFull op f .vector r)
      (active w r (viewFull op f .vector r)) 0 (fun _ => 0) (supplied w r (viewFull op f .vector r) r.la (viewFull op f .vector r).a)
      (supplied w r (viewFull op f .vector r) r.lb (viewFull op f .vector r).b) (originVals s (.warp c k)) := by
  rw [← originVals_issued s c k w r (viewFull op f .vector r) hready.warp]
  exact ⟨_, hword.exec_sheaf hready h, launched_newOp _ i _ 0 0 (carries_withC (warpWord_carries c k w r (viewFull op f .vector r)) _) rfl fun a ha => nomatch ha⟩

theorem GleanMeaning.launches_thread {q : Nat} {r : ClauseRun} (hready : ScalarReady s (.thread q) r (viewFull op f .sp r)) (h : (getThread s q).pending ≠ []) :
    ∃ t, exec i s = .next t ∧ Launched (scalarStep s (.thread q) r) t (.thread q) i r (viewFull op f .sp r) 1 0 (fun _ => 0)
      (scalarVals (scalarRegs s (.thread q)) (viewFull op f .sp r).a) (scalarVals (scalarRegs s (.thread q)) (viewFull op f .sp r).b)
      (originVals s (.thread q)) := by
  rw [← originVals_scalarStep s q r]
  exact ⟨_, hword.exec_thread hready h, launched_newOp _ i _ 0 0 (carries_withC (scalarWord_carries s (.thread q) r (viewFull op f .sp r)) _) rfl fun a ha => nomatch ha⟩

end

/-- The words that a unit without a record may not issue. -/
theorem gleanMeaning_of_word {i : Instr} {op : Nat} {f : Full}
    (h : (i = Instr.ginfo f ∧ op = 0x14) ∨ (i = .glr f ∧ op = 0x15) ∨ (i = .glw f ∧ op = 0x16) ∨ (i = .gres f ∧ op = 0x17)) :
    ∃ body, GleanMeaning i op f body := by
  rcases h with ⟨rfl, rfl⟩ | ⟨rfl, rfl⟩ | ⟨rfl, rfl⟩ | ⟨rfl, rfl⟩
  · exact ⟨_, fun _ => rfl⟩
  · exact ⟨_, gleanMeaning_glr f⟩
  · exact ⟨_, gleanMeaning_glw f⟩
  · exact ⟨_, fun _ => rfl⟩

/-- GINFO's word for a lane. -/
def infoWord (f : Full) (b : State) (u : UnitId) (l : Nat) : Nat := match currentRec b u l with
  | some r => recWord r (modF f 4 1)
  | none => 0

/-- What GINFO does where its unit serves a record. -/
def infoBody (f : Full) (x : Issued) (b : State) : State := match x.u with
  | .warp _ _ => post b x 4 (vdst f.dst 1) x.act ((List.range 32).map fun l => BitVec.ofNat 128 (infoWord f b x.u l)) 0
  | u => writeScalar b u 1 f.dst.toNat (BitVec.ofNat 128 (infoWord f b x.u 0))

theorem gleanMeaning_ginfo (f : Full) : GleanMeaning (.ginfo f) 0x14 f (infoBody f) := fun _ => rfl

/-- GINFO's word of the record that a sheaf's lane serves. -/
theorem infoWord_issued {s : State} {c k : Nat} {w : Warp} {r : ClauseRun} {f : Full} {h : Sheaf} {v : WView}
    (hsheaf : w.sheaf = some h) (l : Nat) : infoWord f (issued s c k w r v) (.warp c k) l = match h.recs[l]? with
      | some q => if h.done.getLsbD l then 0 else recWord q (modF f 4 1)
      | none => 0 := by
  simp only [infoWord, currentRec, servedRec, sheaf_issued, hsheaf]
  cases h.recs[l]? <;> cases h.done.getLsbD l <;> rfl

theorem ginfo_results {s : State} {c k : Nat} {w : Warp} {r : ClauseRun} {f : Full} {h : Sheaf} (hready : Ready s c k w r (viewFull 0x14 f .vector r))
    (hsheaf : w.sheaf = some h) : Results (.ginfo f) s c k w r (viewFull 0x14 f .vector r) 4 (vdst f.dst 1)
      (fun l => match h.recs[l]? with
        | some q => if h.done.getLsbD l then 0 else recWord q (modF f 4 1)
        | none => 0) := by
  refine ⟨_, ((gleanMeaning_ginfo f).exec_sheaf hready (by simp [hsheaf])).trans (congrArg _ (post_issued ..)), fun l hl _ =>
    Eq.trans ?_ (congrArg (BitVec.ofNat 128) (infoWord_issued (s := s) (c := c) (k := k) (r := r) (f := f) (v := viewFull 0x14 f .vector r) hsheaf l))⟩
  rw [nth, List.getD_eq_getElem?_getD, List.getElem?_map, List.getElem?_range hl]
  rfl

theorem ginfo_thread {s : State} {q : Nat} {r : ClauseRun} {f : Full} {x : TrapRec} {rest : List TrapRec}
    (hready : ScalarReady s (.thread q) r (viewFull 0x14 f .sp r)) (h : (getThread s q).pending = x :: rest) :
    exec (.ginfo f) s = .next (writeScalar (scalarStep s (.thread q) r) (.thread q) 1 f.dst.toNat (BitVec.ofNat 128 (recWord x (modF f 4 1)))) := by
  refine ((gleanMeaning_ginfo f).exec_thread hready (by simp [h])).trans ?_
  simp only [infoBody, scalarWord, infoWord, currentRec, getThread_scalarStep, h, List.head?_cons]

/-- Settles O37: a gleaning word by whether its unit serves a record; a record's words as they are laid out. -/
theorem gleaningWords : Obligations.GleaningWords := by
  unfold Obligations.GleaningWords
  refine ⟨fun s c k w r f h hready hsheaf => ginfo_results hready hsheaf, fun s q r f x rest hready h => ginfo_thread hready h,
    fun i op f h => ?_, fun i op f h => ?_, fun q => recWord_fields⟩
  · have hword : GleanMeaning i op f (gleanOp i) := by
      rcases h with ⟨rfl, rfl⟩ | ⟨rfl, rfl⟩
      · exact gleanMeaning_glr f
      · exact gleanMeaning_glw f
    exact ⟨fun s c k w r hready hsheaf => hword.launches_sheaf hready hsheaf, fun s q r hready hpending => hword.launches_thread hready hpending⟩
  · obtain ⟨body, hword⟩ := gleanMeaning_of_word h
    exact ⟨fun s c k w r hready hidx hsheaf => hword.stops_warp hready hidx hsheaf, fun s q r hready hpending => hword.stops_thread hready hpending⟩

end Sys2Proof.Proofs
end

section
/-!
PROOFS. The boot ROM (spec/28 R428), the ports and the die link (spec/24 R398-R402, spec/28 R431, R432).
Settles ResetAndBoot and PortEvents.
-/
namespace Sys2Proof.Proofs

open Sys2Proof.Machine Sys2Proof.Claims

/-! ### The boot ROM (spec/28 R428) -/

/-- An image that passes every check of the ROM is placed, and thread 0 starts. -/
theorem exec_bootRom_good {s : State} {i : BootInput} (hbooted : s.host.booted = false) (hkey : i.keyDigest = Config.fusedKey) (hsig : i.sigOk = true)
    (hlen : i.image.length ≤ 63 * 2 ^ 20) (hversion : Config.fusedMin.toNat ≤ i.version.toNat) (hstack : i.badStack = none) (hlink : i.linkOk = true) :
    exec (.bootRom i) s = .next (bootStart s i) := by
  show execBootRom i s = _
  simp only [execBootRom, hbooted, hkey, hsig, hlen.not_gt, hversion.not_gt, hstack, hlink, ne_eq, not_true_eq_false, decide_false]
  rfl

theorem copyFrames_threads (n : Nat) (s : State) (pa : Nat) (bs : List Byte) : (copyFrames n s pa bs).threads = s.threads := by
  induction n generalizing s pa bs with
  | zero => rfl
  | succ n ih =>
    obtain ⟨d, f, hw⟩ := memWrite_frame s pa (2 ^ (bs.take 4096).length - 1) (leBytes (bs.take 4096)) (bs.take 4096).length
    rw [copyFrames, ih, hw]

/-- A write that sets a halted thread going takes its mark of a trap (spec/24 R385). -/
theorem spctlWrite_untraps {t : State} {q : Nat} {v : W64} (hhalt : (getThread t q).halt = true) (hv : v.getLsbD 0 = true) :
    (getThread (spctlWrite t q v) q).trapped = false := by
  rw [spctlWrite_halted _ hhalt, getThread_setThread]
  simp only [hv, Bool.not_true, Bool.and_false]

theorem bootStart_untraps {s : State} (i : BootInput) (hhalt : (getThread s 0).halt = true) : (getThread (bootStart s i) 0).trapped = false := by
  refine spctlWrite_untraps (q := 0) ?_ (by simp)
  have hthreads := copyFrames_threads ((i.image.length + 4095) / 4096) s imageAt i.image
  rw [getThread, hthreads]
  exact hhalt

/-- A machine before its boot whose thread 0 stands halted by a trap, and an empty image that passes every check. -/
def trappedState : State := { State.reset with threads := [(0, { Thread.reset with trapped := true })] }
def emptyImage : BootInput :=
  { image := [], keyDigest := Config.fusedKey, sigOk := true, version := Config.fusedMin, entry := 0, badStack := none, linkOk := true }

/-- Refutes O45: the start of thread 0 clears its mark of a trap, where the statement keeps it. No boot of the model follows a trap, but the statement asks nothing of the
thread but that it be halted. -/
theorem not_resetAndBoot : ¬ Obligations.ResetAndBoot := by
  unfold Obligations.ResetAndBoot
  rintro ⟨-, -, -, hboot, -⟩
  obtain ⟨-, -, -, -, hstart⟩ := hboot trappedState emptyImage rfl
  obtain ⟨t, hexec, -, -, -, -, hthread, -⟩ := hstart ⟨rfl, rfl, Nat.zero_le _⟩ le_rfl rfl rfl rfl
  have hstarted : t = bootStart trappedState emptyImage :=
    Host.Outcome.next.inj (hexec.symm.trans (exec_bootRom_good rfl rfl rfl (Nat.zero_le _) le_rfl rfl rfl))
  have hclear : (getThread t 0).trapped = false := hstarted ▸ bootStart_untraps emptyImage rfl
  rw [hthread] at hclear
  exact absurd hclear (by decide)

/-! ### A port's register (spec/28 R431) -/

/-- STATE and REASON set together. -/
theorem setFld_state_reason (x : W64) {st reason : Nat} (hst : st < 16) (hreason : reason < 16) :
    setFld (setFld x 4 1 st) 11 8 reason = (x &&& ~~~0xF1E#64) ||| BitVec.ofNat 64 (2 * st + 256 * reason) := by
  have hkeep : ∀ n < 16, BitVec.ofNat 64 (2 * n) &&& ~~~ones 11 8 = BitVec.ofNat 64 (2 * n) := by decide
  have hsum : ∀ n < 16, ∀ m < 16, BitVec.ofNat 64 (2 * n) ||| BitVec.ofNat 64 (256 * m) = BitVec.ofNat 64 (2 * n + 256 * m) := by decide
  have hmask : ~~~ones 4 1 &&& ~~~ones 11 8 = ~~~0xF1E#64 := by decide
  rw [setFld_eq x (by decide) (by decide) hst, setFld_eq _ (by decide) (by decide) hreason, BitVec.and_or_distrib_right, BitVec.and_assoc, hmask]
  rw [show 2 ^ 1 * st = 2 * st from rfl, show 2 ^ 8 * reason = 256 * reason from rfl, hkeep st hst, BitVec.or_assoc, hsum st hst reason hreason]

theorem portEnter_eq (s : State) (p : Nat) {st reason : Nat} (hst : st < 16) (hreason : reason < 16) : portEnter s p st reason = portIn s p st reason := by
  rw [portEnter, setFld_state_reason _ hst hreason]
  rfl

theorem wake_eq (s : State) : wake s 0 5 = linkNote s := rfl

theorem portToUp_eq (s : State) (p : Nat) : portToUp s p = linkNote (portIn s p 4 0) := by
  rw [portToUp, portEnter_eq s p (by decide) (by decide), wake_eq]

/-- A port's move that its state and its condition allow. -/
theorem portMove_from {s : State} {p old : Nat} {ok : Bool} {g : State → State} (hstate : p < 16 ∧ fld (look 0 s.regs.portctl p) 4 1 = old) (hok : ok = true) :
    portMove s p old ok g = .next (g s) := by
  obtain ⟨hp, hold⟩ := hstate
  have hnow : portState s p = old := hold
  rw [portMove, if_pos]
  simp [hp, hnow, hok]

/-- PORTCTL's EN is written. -/
theorem portEn_eq (s : State) (p : Nat) (b : Bool) : { s with regs := { s.regs with portctl := putC 0 s.regs.portctl p (setFld (portctl s p) 0 0 b.toNat) } } =
    portEn s p b.toNat := by
  rw [setFld_eq _ (by decide) le_rfl (Bool.toNat_lt b), Nat.pow_zero, Nat.one_mul]
  rfl

/-- What a write of PORTCTL does, by its EN and the port's state (R432). -/
def portWritten (s : State) (p : Nat) (v : W64) : State :=
  if v.getLsbD 0 then (if portState s p = 0 then portEnter (portEn s p 1) p 1 0 else portEn s p 1)
  else if portState s p = 0 then portEn s p 0
  else if portState s p = 4 then portLoss (portEnter (portEn s p 0) p 0 0) p
  else portEnter (portEn s p 0) p 0 0

theorem exec_portctlWrite (src : WSrc) (s : State) : exec (.portctlWrite src) s = rowEvent s src 0x200 0x20F portWritten := by
  have hbody : ∀ (s : State) (p : Nat) (v : W64), (let old := portState s p
      let s := { s with regs := { s.regs with portctl := putC 0 s.regs.portctl p (setFld (portctl s p) 0 0 (bit v 0).toNat) } }
      if bit v 0 then (if old = 0 then portEnter s p 1 0 else s)
      else if old = 0 then s
      else if old = 4 then portLoss (portEnter s p 0 0) p
      else portEnter s p 0 0) = portWritten s p v := fun s p v => by
    simp only [portEn_eq, portWritten, bit]
    cases v.getLsbD 0 <;> rfl
  show execPortctlWrite src s = _
  rw [execPortctlWrite]
  simp only [hbody]

theorem rowWrite_portctl {ok : State → Nat → W64 → Prop} {g : State → Nat → W64 → State} (h : ∀ s p v, ok s p v → portWritten s p v = g s p v) :
    RowWrite .portctlWrite 0x200 16 ok g :=
  rowWrite_of_rowEvent (fun _ => portWritten) exec_portctlWrite rfl fun _ => h

/-! ### A field set and a field read -/

theorem testBit_fld (x : W64) (hi lo i : Nat) : (fld x hi lo).testBit i = (decide (i < hi + 1 - lo) && x.getLsbD (lo + i)) := by
  rw [fld, Nat.testBit_mod_two_pow, Nat.testBit_div_two_pow, BitVec.testBit_toNat, Nat.add_comm lo]

theorem getLsbD_setFld (x : W64) {hi lo w j : Nat} (hhi : hi < 64) (hlo : lo ≤ hi) (hw : w < 2 ^ (hi + 1 - lo)) :
    (setFld x hi lo w).getLsbD j = if lo ≤ j ∧ j ≤ hi then w.testBit (j - lo) else x.getLsbD j := by
  by_cases hj : j < 64
  · rw [setFld_eq x hhi hlo hw, BitVec.getLsbD_or, BitVec.getLsbD_and, BitVec.getLsbD_not, getLsbD_ones hj, BitVec.getLsbD_ofNat, decide_eq_true hj,
      Nat.testBit_two_pow_mul]
    by_cases hin : lo ≤ j ∧ j ≤ hi
    · have hwide : j - lo < hi + 1 - lo := by omega
      simp [hin, hwide]
    · have hout : (decide (lo ≤ j) && decide (j - lo < hi + 1 - lo)) = false := by simp; omega
      have hhigh : (decide (j ≥ lo) && w.testBit (j - lo)) = false := by
        by_cases hlow : lo ≤ j
        · rw [Nat.testBit_lt_two_pow (hw.trans_le (Nat.pow_le_pow_right (by decide) (by omega))), Bool.and_false]
        · simp [hlow]
      rw [hout, hhigh, if_neg hin]
      simp
  · rw [BitVec.getLsbD_of_ge _ _ (by omega), if_neg (by omega), BitVec.getLsbD_of_ge _ _ (by omega)]

theorem fld_setFld_same (x : W64) {hi lo w : Nat} (hhi : hi < 64) (hlo : lo ≤ hi) (hw : w < 2 ^ (hi + 1 - lo)) : fld (setFld x hi lo w) hi lo = w := by
  apply Nat.eq_of_testBit_eq
  intro i
  rw [testBit_fld, getLsbD_setFld x hhi hlo hw]
  by_cases hi' : i < hi + 1 - lo
  · simp [hi', show lo + i ≤ hi by omega]
  · have hout : w.testBit i = false := Nat.testBit_lt_two_pow (hw.trans_le (Nat.pow_le_pow_right (by decide) (by omega)))
    simp [hi', hout]

theorem fld_setFld_other (x : W64) {hi lo w : Nat} (hhi : hi < 64) (hlo : lo ≤ hi) (hw : w < 2 ^ (hi + 1 - lo)) {hi' lo' : Nat} (h : hi' < lo ∨ hi < lo') :
    fld (setFld x hi lo w) hi' lo' = fld x hi' lo' := by
  apply Nat.eq_of_testBit_eq
  intro i
  rw [testBit_fld, testBit_fld, getLsbD_setFld x hhi hlo hw]
  by_cases hin : i < hi' + 1 - lo'
  · rw [if_neg (by omega)]
  · simp [hin]

/-! ### A port that leaves UP (spec/24 R398) -/

/-- A port's lines, as the loss of its link sees them. -/
def portLines (s : State) (p : Nat) : List Nat := linesWhere s fun _ e => e.used && !e.quarantined &&
  (rangeOf s (128 * e.line) = .fabric && portOf (128 * e.line) = p)

/-- One of its lines leaves: to the quarantine if it is dirty, else lost. -/
def portTurn (s : State) (k : Nat) : State := if (getL2 s k).dirty ≠ 0 then quarantineLine s k else loseLine s k

theorem portTurn_clean {s : State} {k : Nat} (h : (getL2 s k).dirty = 0) : portTurn s k = loseLine s k := by
  unfold portTurn
  simp only [h, ne_eq, not_true_eq_false, if_false]

theorem portLoss_eq (s : State) (p : Nat) : portLoss s p = linkNote
    (let t := (portLines s p).foldl portTurn s
     { t with mem := { t.mem with
        snoops := t.mem.snoops.filter fun la => !(rangeOf s (128 * la) = .fabric && portOf (128 * la) = p)
        passes := t.mem.passes.filter fun q => !(rangeOf s (128 * q.line) = .fabric && portOf (128 * q.line) = p) } }) := rfl

theorem foldl_lose_clean (ks : List Nat) {s : State} (hrise : rising 0 s.mem.l2 = true) (hclean : ∀ k ∈ ks, (getL2 s k).dirty = 0) :
    ∃ l q, ks.foldl portTurn s = { s with mem := { s.mem with l2 := l, recency := q } } ∧
      ∀ j, look L2Line.reset l j = if j ∈ ks then L2Line.reset else getL2 s j := by
  induction ks generalizing s with
  | nil => exact ⟨s.mem.l2, s.mem.recency, rfl, fun j => by simp [getL2]⟩
  | cons k ks ih =>
    obtain ⟨q, hlose⟩ := loseLine_frame s k
    have hlook : ∀ j, getL2 (loseLine s k) j = if j = k then L2Line.reset else getL2 s j := fun j => by
      rw [hlose, getL2, look_putC _ _ _ _ hrise]
      rfl
    have hrise' : rising 0 (loseLine s k).mem.l2 = true := by
      rw [hlose]
      generalize L2Line.reset = e
      exact rising_putC e e hrise
    obtain ⟨hfirst, hrest⟩ := List.forall_mem_cons.mp hclean
    obtain ⟨l, q', hfold, hl⟩ := ih (s := loseLine s k) hrise' fun j hj => by
      rw [hlook]
      split
      · rfl
      · exact hrest j hj
    refine ⟨l, q', ?_, fun j => ?_⟩
    · rw [List.foldl_cons, portTurn_clean hfirst, hfold, hlose]
    · rw [hl, hlook]
      by_cases hj : j = k <;> simp [hj]

theorem hostLine_of_fabric {s : State} {la : Nat} (h : rangeOf s (128 * la) = .fabric) : HostLine la := by
  unfold rangeOf at h
  dsimp only at h
  split at h
  · cases h
  split at h
  · cases h
  split at h
  · cases h
  split at h
  · cases h
  split at h
  · next hin =>
    simp only [Bool.and_eq_true, decide_eq_true_iff] at hin
    exact ⟨by omega, by omega⟩
  · cases h

/-- The lines of port `p`: in the fabric's range, and routed to it (spec/24 R393). -/
def AtPort (p la : Nat) : Prop := HostLine la ∧ la / 2 ^ 39 % 16 = p

theorem atPort_iff (s : State) (p la : Nat) : (decide (rangeOf s (128 * la) = .fabric) && decide (portOf (128 * la) = p)) = true ↔ AtPort p la := by
  rw [Bool.and_eq_true, decide_eq_true_iff, decide_eq_true_iff, portOf_line]
  exact and_congr_left fun _ => ⟨hostLine_of_fabric, rangeOf_hostLine s⟩

theorem mem_portLines {s : State} {p : Nat} (hrise : rising 0 s.mem.l2 = true) (k : Nat) :
    k ∈ portLines s p ↔ (getL2 s k).used = true ∧ (getL2 s k).quarantined = false ∧ AtPort p (getL2 s k).line := by
  rw [portLines, mem_linesWhere k hrise rfl, Bool.and_eq_true, atPort_iff, Bool.and_eq_true, Bool.not_eq_true', and_assoc]

/-- What the loss of a port with clean lines alone leaves: none of its lines but in the quarantine, none of its snoops, and thread 0 told. -/
structure PortLost (s t : State) (p : Nat) : Prop where
  lines : ∀ k, getL2 t k = if k ∈ portLines s p then L2Line.reset else getL2 s k
  snoops : ∀ la ∈ t.mem.snoops, la ∈ s.mem.snoops ∧ ¬ AtPort p la
  told : (getThread t 0).wakest = (getThread s 0).wakest ||| 32
  cores : t.cores = s.cores
  fabric : t.mem.fabric = s.mem.fabric
  regs : t.regs = s.regs

theorem portLost_portLoss {s : State} {p : Nat} (hrise : rising 0 s.mem.l2 = true)
    (hclean : ∀ k, (getL2 s k).used = true → AtPort p (getL2 s k).line → (getL2 s k).dirty = 0) : PortLost s (portLoss s p) p := by
  obtain ⟨l, q, hfold, hl⟩ := foldl_lose_clean (portLines s p) hrise fun k hk => by
    obtain ⟨hused, -, hport⟩ := (mem_portLines hrise k).mp hk
    exact hclean k hused hport
  rw [portLoss_eq, hfold]
  constructor
  case lines => exact hl
  case snoops =>
    intro la hla
    obtain ⟨hin, hout⟩ := List.mem_filter.mp hla
    exact ⟨hin, fun hport => by rw [(atPort_iff s p la).mpr hport] at hout; cases hout⟩
  case told => exact congrArg Thread.wakest (getThread_setThread _ 0 _)
  case cores => rfl
  case fabric => rfl
  case regs => rfl

/-- The obligation's account of a loss, from what it leaves. -/
theorem lost_of_portLost {s b t : State} {p : Nat} (hmem : b.mem = s.mem) (hthread : (getThread b 0).wakest = (getThread s 0).wakest) (hcores : b.cores = s.cores)
    (hrise : rising 0 s.mem.l2 = true) (hin : ∀ k, (getL2 s k).used = true → 3 * 2 ^ 43 ≤ (getL2 s k).line → (getL2 s k).line / 2 ^ 39 % 16 = p →
      (getL2 s k).dirty = 0 ∧ (getL2 s k).line < 2 ^ 45) (h : PortLost b t p) :
    (∀ k, (getL2 t k).used = true → (getL2 t k).quarantined = true ∨ (getL2 t k).line < 3 * 2 ^ 43 ∨ (getL2 t k).line / 2 ^ 39 % 16 ≠ p) ∧
    (∀ la ∈ t.mem.snoops, la ∈ s.mem.snoops ∧ (la < 3 * 2 ^ 43 ∨ 2 ^ 45 ≤ la ∨ la / 2 ^ 39 % 16 ≠ p)) ∧ (getThread t 0).wakest = (getThread s 0).wakest ||| 32 ∧
    t.cores = s.cores ∧ t.mem.fabric = s.mem.fabric := by
  have hl2 : ∀ k, getL2 b k = getL2 s k := fun k => by rw [getL2, hmem]; rfl
  refine ⟨fun k hused => ?_, fun la hla => ?_, h.told.trans (by rw [hthread]), h.cores.trans hcores, h.fabric.trans (by rw [hmem])⟩
  · rw [h.lines, hl2] at hused ⊢
    split at hused
    · cases hused
    · next hkept =>
      rw [if_neg hkept]
      by_contra hnone
      simp only [not_or, not_lt, ne_eq, not_not] at hnone
      obtain ⟨hquar, hlow, hport⟩ := hnone
      refine hkept ((mem_portLines (by rw [hmem]; exact hrise) k).mpr ?_)
      rw [hl2]
      exact ⟨hused, Bool.eq_false_of_not_eq_true hquar, ⟨hlow, (hin k hused hlow hport).2⟩, hport⟩
  · obtain ⟨hwas, hnot⟩ := h.snoops la hla
    rw [hmem] at hwas
    refine ⟨hwas, ?_⟩
    by_contra hnone
    simp only [not_or, not_lt, not_le, ne_eq, not_not] at hnone
    obtain ⟨hlow, hhigh, hport⟩ := hnone
    exact hnot ⟨⟨hlow, hhigh⟩, hport⟩

section

variable {s : State} {p : Nat}

/-- A port after a loss of its link: its state, and one more loss counted. -/
def portRetrains (s : State) (p : Nat) : State :=
  let b := portIn s p 5 0
  { b with regs := { b.regs with portctl := putC 0 b.regs.portctl p (setFld (look 0 b.regs.portctl p) 63 32
    (sat (2 ^ 32 - 1) (fld (look 0 b.regs.portctl p) 63 32 + 1))) } }

theorem exec_portLinkLoss (h : p < 16 ∧ fld (look 0 s.regs.portctl p) 4 1 = 4) : exec (.portLinkLoss p) s = .next (portLoss (portRetrains s p) p) := by
  show execPortLinkLoss p s = _
  rw [execPortLinkLoss, portMove_from h rfl, portEnter_eq s p (by decide) (by decide)]
  rfl

theorem sat_eq_min (top x : Nat) : sat top x = min top x := by
  rw [sat]
  split <;> omega

theorem look_portIn (s : State) (p : Nat) {st reason : Nat} (hst : st < 16) (hreason : reason < 16) (hne : st ≠ 0) :
    look 0 (portIn s p st reason).regs.portctl p = setFld (setFld (look 0 s.regs.portctl p) 4 1 st) 11 8 reason := by
  have hfield : fld (setFld (setFld (look 0 s.regs.portctl p) 4 1 st) 11 8 reason) 4 1 = st := by
    rw [fld_setFld_other _ (by decide) (by decide) hreason (.inl (by decide)), fld_setFld_same _ (by decide) (by decide) hst]
  have hvalue : setFld (setFld (look 0 s.regs.portctl p) 4 1 st) 11 8 reason ≠ 0 := fun h => hne (hfield.symm.trans (by rw [h]; rfl))
  rw [setFld_state_reason _ hst hreason] at hvalue ⊢
  simp only [portIn, withRegs, putC, if_neg hvalue, look_put_same]

/-- The port's register after a loss: retraining, no reason, and one more loss. -/
theorem portctl_portRetrains : fld (look 0 (portRetrains s p).regs.portctl p) 4 1 = 5 ∧ fld (look 0 (portRetrains s p).regs.portctl p) 11 8 = 0 ∧
    fld (look 0 (portRetrains s p).regs.portctl p) 63 32 = min (2 ^ 32 - 1) (fld (look 0 s.regs.portctl p) 63 32 + 1) := by
  have hlook := look_portIn s p (st := 5) (reason := 0) (by decide) (by decide) (by decide)
  have hcount : fld (look 0 (portIn s p 5 0).regs.portctl p) 63 32 = fld (look 0 s.regs.portctl p) 63 32 := by
    rw [hlook, fld_setFld_other _ (by decide) (by decide) (by decide) (.inr (by decide)), fld_setFld_other _ (by decide) (by decide) (by decide) (.inr (by decide))]
  have hfit : min (2 ^ 32 - 1) (fld (look 0 s.regs.portctl p) 63 32 + 1) < 2 ^ (63 + 1 - 32) := (Nat.min_le_left _ _).trans_lt (by decide)
  have hstate : fld (setFld (look 0 (portIn s p 5 0).regs.portctl p) 63 32 (min (2 ^ 32 - 1) (fld (look 0 s.regs.portctl p) 63 32 + 1))) 4 1 = 5 := by
    rw [fld_setFld_other _ (by decide) (by decide) hfit (.inl (by decide)), hlook, fld_setFld_other _ (by decide) (by decide) (by decide) (.inl (by decide)),
      fld_setFld_same _ (by decide) (by decide) (by decide)]
  have hvalue : setFld (look 0 (portIn s p 5 0).regs.portctl p) 63 32 (min (2 ^ 32 - 1) (fld (look 0 s.regs.portctl p) 63 32 + 1)) ≠ 0 := fun h => by
    rw [h] at hstate
    exact absurd hstate (by decide)
  have hnow : look 0 (portRetrains s p).regs.portctl p =
      setFld (look 0 (portIn s p 5 0).regs.portctl p) 63 32 (min (2 ^ 32 - 1) (fld (look 0 s.regs.portctl p) 63 32 + 1)) := by
    simp only [portRetrains, sat_eq_min, hcount, putC, if_neg hvalue, look_put_same]
  rw [hnow]
  refine ⟨hstate, ?_, fld_setFld_same _ (by decide) (by decide) hfit⟩
  rw [fld_setFld_other _ (by decide) (by decide) hfit (.inl (by decide)), hlook, fld_setFld_same _ (by decide) (by decide) (by decide)]

end

/-! ### The die link (spec/24 R401, R402) -/

theorem exec_dieLinkLoss {s : State} (hup : s.regs.dlstat.getLsbD 0 = true)
    (hnone : ∀ x ∈ s.launch.slices, x.diepol ≠ 0 ∨ x.loss.isSome = true ∨ x.killed = true ∨ (sliceDies s x).length < 2) :
    exec .dieLinkLoss s = .next (linkNote (withRegs s fun r => { r with dlstat := BitVec.ofNat 64 (2 ^ 32 * min (2 ^ 32 - 1) (fld r.dlstat 63 32 + 1)) })) := by
  have hpicked : ∀ v, s.launch.slices.filter (fun x => x.diepol = 0 && x.loss.isNone && !x.killed && decide (2 ≤ (sliceDies (withRegs s v) x).length)) = [] := by
    intro v
    rw [List.filter_eq_nil_iff]
    intro x hx
    have hdies : sliceDies (withRegs s v) x = sliceDies s x := rfl
    have hwhy := hnone x hx
    simp only [hdies, Bool.and_eq_true, decide_eq_true_iff, Option.isNone_iff_eq_none, Bool.not_eq_true', not_and, not_le]
    rintro ⟨⟨hpol, hloss⟩, hkilled⟩
    simpa [hpol, hloss, hkilled] using hwhy
  show execDieLinkLoss s = _
  simp only [execDieLinkLoss, bit, hup, sat_eq_min, Bool.not_true, Bool.false_eq_true, if_false]
  refine congrArg Host.Outcome.next ?_
  have hfold := hpicked fun r => { r with dlstat := BitVec.ofNat 64 (2 ^ 32 * min (2 ^ 32 - 1) (fld r.dlstat 63 32 + 1)) }
  exact (congrArg (List.foldl lossSlice _) hfold).trans rfl

theorem exec_dieLinkRetrain {s : State} (hdown : s.regs.dlstat.getLsbD 0 = false) :
    exec .dieLinkRetrain s = .next (linkNote (withRegs s fun r => { r with dlstat := r.dlstat ||| 1 })) := by
  show execDieLinkRetrain s = _
  simp only [execDieLinkRetrain, bit, hdown, Bool.false_eq_true, if_false, setFld_bit_one]
  rfl

/-! ### All together -/

/-- An event that moves a port to a state. -/
theorem exec_portMove {i : Instr} {s : State} {p old st reason : Nat} {ok : Bool} (hexec : exec i s = portMove s p old ok fun s => portEnter s p st reason)
    (hst : st < 16) (hreason : reason < 16) (hstate : p < 16 ∧ fld (look 0 s.regs.portctl p) 4 1 = old) (hok : ok = true) :
    exec i s = .next (portIn s p st reason) := by
  rw [hexec, portMove_from hstate hok, portEnter_eq s p hst hreason]

theorem exec_portUp {i : Instr} {s : State} {p old : Nat} {ok : Bool} (hexec : exec i s = portMove s p old ok fun s => portToUp s p)
    (hstate : p < 16 ∧ fld (look 0 s.regs.portctl p) 4 1 = old) (hok : ok = true) : exec i s = .next (linkNote (portIn s p 4 0)) := by
  rw [hexec, portMove_from hstate hok, portToUp_eq]

theorem exec_portNegotiate {s : State} {p : Nat} (a b c : Bool) (hstate : p < 16 ∧ fld (look 0 s.regs.portctl p) 4 1 = 2) : exec (.portNegotiate p a b c) s = .next
    (if a = false then portIn s p 6 1 else if b = false then portIn s p 6 2 else if c = false then portIn s p 6 3 else portIn s p 3 0) := by
  show execPortNegotiate p a b c s = _
  rw [execPortNegotiate, portMove_from hstate rfl]
  cases a <;> cases b <;> cases c <;> simp [portEnter_eq]

/-- Settles O46: a write of PORTCTL by EN and the port's state, each event by the state it leaves, a loss by what it takes. -/
theorem portEvents : Obligations.PortEvents := by
  unfold Obligations.PortEvents
  refine ⟨⟨?_, ?_, ?_, ?_, ?_, ?_, ?_, ?_, ?_, ?_, ?_, ?_, ?_, ?_⟩, fun s => exec_dieLinkLoss, fun s => exec_dieLinkRetrain⟩
  · refine rowWrite_portctl fun s p v ⟨hen, hstate⟩ => ?_
    have hnow : portState s p = 0 := hstate
    rw [portWritten, if_pos hen, if_pos hnow, portEnter_eq _ p (by decide) (by decide)]
  · refine rowWrite_portctl fun s p v ⟨hen, hstate⟩ => ?_
    have hnow : portState s p ≠ 0 := hstate
    rw [portWritten, if_pos hen, if_neg hnow]
  · refine rowWrite_portctl fun s p v ⟨hen, hstate⟩ => ?_
    have hnow : portState s p = 0 := hstate
    rw [portWritten, if_neg (Bool.not_eq_true _ ▸ hen), if_pos hnow]
  · refine rowWrite_portctl fun s p v ⟨hen, hdown, hup⟩ => ?_
    have hnow : portState s p ≠ 0 := hdown
    have hnot : portState s p ≠ 4 := hup
    rw [portWritten, if_neg (Bool.not_eq_true _ ▸ hen), if_neg hnow, if_neg hnot, portEnter_eq _ p (by decide) (by decide)]
  · intro s src p v t hp ht hen hstate
    obtain ⟨-, hup⟩ := hstate
    have hnow : portState t p = 4 := hup
    refine ⟨portLoss (portIn (portEn t p 0) p 0 0) p, ?_, fun hrise hclean => ?_⟩
    · rw [exec_portctlWrite, rowEvent_of_taken _ ht (by omega), portWritten, if_neg (Bool.not_eq_true _ ▸ hen), if_neg (by rw [hnow]; decide), if_pos hnow,
        portEnter_eq _ p (by decide) (by decide)]
    · exact lost_of_portLost rfl rfl rfl hrise hclean (portLost_portLoss hrise fun k hused hport => (hclean k hused hport.1.1 hport.2).1)
  · intro s p hstate hsince
    exact exec_portMove (old := 1) rfl (by decide) (by decide) hstate (decide_eq_true hsince)
  · intro s p hstate hsince
    exact exec_portMove (old := 1) rfl (by decide) (by decide) hstate (decide_eq_true hsince)
  · exact fun s p a b c hstate => exec_portNegotiate a b c hstate
  · exact fun s p hstate => exec_portMove (old := 2) rfl (by decide) (by decide) hstate rfl
  · exact fun s p hstate hsince => exec_portUp (old := 3) rfl hstate (decide_eq_true hsince)
  · exact fun s p hstate hsince => exec_portMove (old := 3) rfl (by decide) (by decide) hstate (decide_eq_true hsince)
  · intro s p hstate
    refine ⟨_, exec_portLinkLoss hstate, fun hrise hclean => ?_, fun hrise hclean => ?_⟩
    · exact lost_of_portLost (b := portRetrains s p) rfl rfl rfl hrise hclean
        (portLost_portLoss hrise fun k hused hport => (hclean k hused hport.1.1 hport.2).1)
    · have hlost := portLost_portLoss (s := portRetrains s p) (p := p) hrise fun k hused hport => hclean k hused hport.1.1 hport.2
      rw [hlost.regs]
      exact portctl_portRetrains
  · exact fun s p hstate hsince => exec_portUp (old := 5) rfl hstate (decide_eq_true hsince)
  · exact fun s p hstate hsince => exec_portMove (old := 5) rfl (by decide) (by decide) hstate (decide_eq_true hsince)

end Sys2Proof.Proofs
end

section
/-!
PROOFS. The security controller (spec/26 R416-R418, spec/28 R434-R436) and the resolution of trap records (spec/22 R373-R375, R382).
Settles SecurityEvents and ResolveWord.
-/
namespace Sys2Proof.Proofs

open Sys2Proof.Machine Sys2Proof.Claims

/-! ### What leaves the key slots alone -/

/-- What each step of a fold keeps, the fold keeps. -/
theorem foldl_keeps {α β γ : Type} {f : α → β → α} (g : α → γ) (h : ∀ a b, g (f a b) = g a) (l : List β) (a : α) : g (l.foldl f a) = g a := by
  induction l generalizing a with
  | nil => rfl
  | cons b l ih => rw [List.foldl_cons, ih, h]

section

variable (s : State)

@[simp] theorem memWrite_keys (pa k v n : Nat) : (memWrite s pa k v n).host.keys = s.host.keys := by
  obtain ⟨d, f, h⟩ := memWrite_frame s pa k v n
  rw [h]

@[simp] theorem putMeta_keys (la : Nat) (side : W128) (kslot : Nat) (win : Option Nat) : (putMeta s la side kslot win).host.keys = s.host.keys := by
  obtain ⟨m, h, -⟩ := putMeta_frame s la side kslot win
  rw [h]

@[simp] theorem evict_keys (k : Nat) : (evict s k).host.keys = s.host.keys := by
  obtain ⟨m, outs, h⟩ := evict_outs s k
  rw [h]

@[simp] theorem countOvf_keys (i : Option Nat) : (countOvf s i).host.keys = s.host.keys := by cases i <;> rfl

@[simp] theorem dramError_keys (la : Nat) : (dramError s la).host.keys = s.host.keys := by
  unfold dramError
  split
  · dsimp only
    split <;> rfl
  · rfl

@[simp] theorem fillMeta_keys (r : LReq) : (fillMeta s r).1.host.keys = s.host.keys := by
  unfold fillMeta
  split
  · split
    · dsimp only
      split <;> simp
    · rfl
  · rfl

@[simp] theorem dropPass_keys (la : Nat) : (dropPass s la).host.keys = s.host.keys := by
  unfold dropPass
  split <;> rfl

@[simp] theorem setL2_keys (k : Nat) (e : L2Line) : (setL2 s k e).host.keys = s.host.keys := rfl
@[simp] theorem setRecency_keys (k : Nat) (l : List Nat) : (setRecency s k l).host.keys = s.host.keys := rfl

@[simp] theorem allocate_keys (r : LReq) : (allocate s r).1.host.keys = s.host.keys := by
  unfold allocate
  split
  · rfl
  · dsimp only
    split
    · simp
    · split <;> simp [enter]

@[simp] theorem fillSectors_keys (k : Nat) (need : BitVec 4) : (fillSectors s k need).host.keys = s.host.keys := by
  simp only [fillSectors]
  split <;> simp

@[simp] theorem reachLine_keys (r : LReq) : (reachLine s r).1.host.keys = s.host.keys := by
  unfold reachLine
  split
  · unfold hitLine
    split <;> rfl
  · exact allocate_keys s r

@[simp] theorem fetchRaw_keys (r : LReq) (need : BitVec 4) : (fetchRaw s r need).1.host.keys = s.host.keys := by
  unfold fetchRaw
  dsimp only
  split <;> simp

@[simp] theorem storeRaw_keys (r : LReq) (k : Nat) (data : Line) (side : W128 → W128) (kslot : Option Nat) :
    (storeRaw s r k data side kslot).host.keys = s.host.keys := by
  unfold storeRaw
  dsimp only
  split <;> simp

@[simp] theorem healPoison_keys (la k : Nat) : (healPoison s la k).host.keys = s.host.keys := by
  unfold healPoison
  split <;> rfl

@[simp] theorem storeSealed_keys (r : LReq) (e : Nat) (km : BitVec 768) (plain : Line) : (storeSealed s r e km plain).host.keys = s.host.keys := by
  simp [storeSealed]

@[simp] theorem atLink_keys (a b : Nat) : (atLink s a b).host.keys = s.host.keys := by
  unfold atLink
  split <;> rfl

@[simp] theorem usePass_keys (la : Nat) : (usePass s la).host.keys = s.host.keys := by
  unfold usePass
  split <;> rfl

@[simp] theorem payFor_keys (slice sid cost : Nat) : (payFor s slice sid cost).host.keys = s.host.keys := by
  unfold payFor
  dsimp only
  split <;> rfl

@[simp] theorem admitReq_keys (r : LReq) (write : Bool) (cost : Nat) : (admitReq s r write cost).host.keys = s.host.keys := by
  have hpay : (if r.paid then s else payFor s (sliceOf r.die (128 * r.la)) r.sid cost).host.keys = s.host.keys := by
    split <;> simp
  unfold admitReq
  dsimp only
  generalize (if r.paid then s else payFor s (sliceOf r.die (128 * r.la)) r.sid cost) = t at hpay ⊢
  split
  · exact hpay
  · split <;> simp [hpay]

@[simp] theorem leaseFor_keys (r : LReq) (keep : Bool) : (leaseFor s r keep).1.host.keys = s.host.keys := by
  unfold leaseFor
  split <;> rfl

@[simp] theorem ungate_keys (die la : Nat) : (ungate s die la).host.keys = s.host.keys := rfl

/-- A request that its slice lets in. -/
theorem admitted_keys (r : LReq) (write : Bool) (cost : Nat) :
    (ungate (atLink (admitReq s r write cost) r.src r.die) r.die r.la).host.keys = s.host.keys := by simp

@[simp] theorem readLine_keys (r : LReq) (need : BitVec 4) (keep : Bool) : (readLine s r need keep).1.host.keys = s.host.keys := by
  unfold readLine
  split
  · rfl
  · have hin := admitted_keys s r false (sectorCost (if r.prot.isSome then 15 else need))
    dsimp only
    generalize ungate (atLink (admitReq s r false (sectorCost (if r.prot.isSome then 15 else need))) r.src r.die) r.die r.la = t at hin ⊢
    split
    · split <;> simp [hin]
    · split
      · exact hin
      · split
        · simp [hin]
        · split <;> simp [hin]

@[simp] theorem cohWrite_keys (pa n v : Nat) : (cohWrite s pa n v).host.keys = s.host.keys := by
  unfold cohWrite
  dsimp only
  split
  · split
    · rfl
    · exact memWrite_keys s _ _ _ _
  · exact memWrite_keys s _ _ _ _

@[simp] theorem readNodes_keys (hs : List Nat) : (readNodes s hs).host.keys = s.host.keys := by
  refine foldl_keeps (fun t : State => t.host.keys) (fun t la => ?_) _ s
  split <;> simp

@[simp] theorem addPend_keys (a b : Nat) : (addPend s a b).host.keys = s.host.keys := by simp [addPend, setNodeWord]
@[simp] theorem addCount_keys (a b : Nat) : (addCount s a b).host.keys = s.host.keys := by simp [addCount, setNodeWord]
@[simp] theorem raiseNodeWct_keys (a b : Nat) : (raiseNodeWct s a b).host.keys = s.host.keys := rfl
@[simp] theorem setGranule_keys (a : Nat) (b : Granule) : (setGranule s a b).host.keys = s.host.keys := rfl

@[simp] theorem bump_keys (la wct : Nat) : (bump s la wct).host.keys = s.host.keys := by
  unfold bump
  dsimp only
  split
  · simp
  · rfl

@[simp] theorem afterWrite_keys (r : LReq) (k : Nat) (bumps : Bool) : (afterWrite s r k bumps).1.host.keys = s.host.keys := by
  have hscan : ∀ (t : State) (la k wct : Nat), (scanMonitors t la k wct).host.keys = t.host.keys := fun _ _ _ _ => rfl
  unfold afterWrite
  dsimp only
  split <;> simp [hscan]

@[simp] theorem writeLine_keys (r : LReq) (k : Nat) (data : Line) (side : W128 → W128) (bumps : Bool) :
    (writeLine s r k data side bumps).1.host.keys = s.host.keys := by
  unfold writeLine
  split
  · rfl
  · have hin := admitted_keys s r true (sectorCost (if r.prot.isSome then 15 else touched k))
    dsimp only
    generalize ungate (atLink (admitReq s r true (sectorCost (if r.prot.isSome then 15 else touched k))) r.src r.die) r.die r.la = t at hin ⊢
    split
    · simp [hin]
    · split
      · exact hin
      · split
        · simp [hin]
        · split
          · simp [hin]
          · split <;> simp [hin]

@[simp] theorem tlbLookup_keys (x : XCtx) (va : W64) : (tlbLookup s x va).1.host.keys = s.host.keys := by
  obtain ⟨n, h, -⟩ := tlbLookup_cases s x va
  rw [h]

@[simp] theorem tlbInsert_keys (x : XCtx) (va e : W64) (ea level : Nat) : (tlbInsert s x va e ea level).host.keys = s.host.keys := by
  unfold tlbInsert
  dsimp only
  split <;> rfl

@[simp] theorem walkRead_keys (die ea : Nat) : (walkRead s die ea).1.host.keys = s.host.keys := by
  unfold walkRead
  dsimp only
  split <;> simp

@[simp] theorem walkFrom_keys (die : Nat) (va : W64) (fuel : Nat) (path : List (Nat × Nat)) (table level : Nat) :
    (walkFrom die va fuel s path table level).1.host.keys = s.host.keys := by
  induction fuel generalizing s path table level with
  | zero => rfl
  | succ fuel ih =>
    rw [walkFrom]
    dsimp only
    split
    · simp
    · split
      · simp
      · split
        · split <;> simp
        · split
          · simp
          · rw [ih, walkRead_keys]

@[simp] theorem walkNow_keys (x : XCtx) (va : W64) : (walkNow s x va).1.host.keys = s.host.keys := by
  have hstart : (walkStart s x va).1.host.keys = s.host.keys := by
    unfold walkStart
    split
    · rfl
    · dsimp only
      split <;> rfl
  exact (walkFrom_keys _ _ _ _ _ _ _).trans hstart

@[simp] theorem walkKeep_keys (x : XCtx) (va : W64) (path : List (Nat × Nat)) : (walkKeep s x va path).host.keys = s.host.keys := by
  unfold walkKeep
  split <;> rfl

@[simp] theorem walkAccess_keys (x : XCtx) (va : W64) (write : Bool) : (walkAccess s x va write).1.host.keys = s.host.keys := by
  unfold walkAccess
  dsimp only
  split
  · simp
  · dsimp only
    split <;> simp

@[simp] theorem translate_keys (x : XCtx) (va : W64) (write : Bool) : (translate s x va write).1.host.keys = s.host.keys := by
  unfold Machine.translate
  split
  · rfl
  · split
    · rfl
    · dsimp only
      split <;> simp

@[simp] theorem setCore_keys (c : Nat) (x : Core) : (setCore s c x).host.keys = s.host.keys := rfl
@[simp] theorem setStashTag_keys (c e : Nat) (t : Option StashTag) : (setStashTag s c e t).host.keys = s.host.keys := rfl

@[simp] theorem dropOlder_keys (core la : Nat) (sectors : BitVec 4) : (dropOlder s core la sectors).host.keys = s.host.keys := by
  unfold dropOlder
  split
  · exact foldl_keeps (f := fun s i => dropL1 s core (4 * la + i)) (fun t => t.host.keys) (fun _ _ => rfl) _ s
  · rfl

@[simp] theorem wbLine_keys (x : XCtx) (core e half : Nat) (t : StashTag) : (wbLine s x core e half t).1.host.keys = s.host.keys := by
  unfold wbLine
  dsimp only
  split
  · rfl
  · split
    · simp
    · split <;> simp

@[simp] theorem wbEntry_keys (x : XCtx) (core e : Nat) : (wbEntry s x core e).1.host.keys = s.host.keys := by
  refine foldl_keeps (fun p : State × Nat × List (AFault × W64) => p.1.host.keys) (fun p half => ?_) [0, 1] (s, 0, [])
  dsimp only
  split
  · rfl
  · split
    · simp
    · dsimp only
      split <;> simp

@[simp] theorem writeBackUnder_keys (p : Nat → Bool) : (writeBackUnder s p).host.keys = s.host.keys := by
  refine foldl_keeps (fun t : State => t.host.keys) (fun t e => ?_) _ s
  dsimp only
  split
  · split
    · split
      · split
        · split <;> simp
        · simp
      · simp
    · rfl
  · rfl

end

/-! ### The report's fields (spec/28 R434) -/

/-- Fields (bytes, value) that stand one behind the other from byte `off`. -/
def fieldsFrom : Nat → List (Nat × Nat) → List (Nat × Nat × Nat)
  | _, [] => []
  | off, f :: l => (off, f.1, f.2) :: fieldsFrom (off + f.1) l

/-- Such fields as one number. -/
def wordOfFields : List (Nat × Nat) → Nat
  | [] => 0
  | f :: l => f.2 % 2 ^ (8 * f.1) + 2 ^ (8 * f.1) * wordOfFields l

theorem packFields_fieldsFrom (l : List (Nat × Nat)) : packFields (fieldsFrom 0 l) = wordOfFields l := by
  suffices h : ∀ off a, (fieldsFrom off l).foldl (fun a f => a + f.2.2 % 2 ^ (8 * f.2.1) * 2 ^ (8 * f.1)) a = a + 2 ^ (8 * off) * wordOfFields l by
    rw [packFields, h, Nat.zero_add, Nat.mul_zero, Nat.pow_zero, Nat.one_mul]
  induction l with
  | nil => exact fun _ _ => rfl
  | cons f l ih =>
    intro off a
    rw [fieldsFrom, List.foldl_cons, ih, wordOfFields, Nat.mul_add, Nat.pow_add]
    ring

/-- A field behind the first one. -/
theorem getB_behind {f : Nat × Nat} {l : List (Nat × Nat)} {off : Nat} (h : f.1 ≤ off) (n : Nat) :
    getB (wordOfFields (f :: l)) off n = getB (wordOfFields l) (off - f.1) n := by
  obtain ⟨j, rfl⟩ := Nat.exists_eq_add_of_le h
  have hdiv : (f.2 % 2 ^ (8 * f.1) + 2 ^ (8 * f.1) * wordOfFields l) / 2 ^ (8 * f.1) = wordOfFields l := by
    rw [Nat.add_mul_div_left _ _ (Nat.two_pow_pos _), Nat.div_eq_of_lt (Nat.mod_lt _ (Nat.two_pow_pos _)), Nat.zero_add]
  rw [getB, wordOfFields, Nat.mul_add, Nat.pow_add, ← Nat.div_div_eq_div_mul, hdiv, Nat.add_sub_cancel_left, getB]

/-- The first field. -/
theorem getB_first (n v : Nat) (l : List (Nat × Nat)) : getB (wordOfFields ((n, v) :: l)) 0 n = v % 2 ^ (8 * n) := by
  rw [getB, wordOfFields, Nat.mul_zero, Nat.pow_zero, Nat.div_one, Nat.add_mul_mod_self_left, Nat.mod_mod]

/-- The fields of a report. -/
def reportFields (s : State) (nonce : BitVec 256) : List (Nat × Nat) :=
  [(8, modIdOf (.thread 0)), (32, Config.romDigest.toNat), (32, s.host.fwDigest.toNat), (4, fld s.regs.bootstat 63 32), (4, Config.fusedMin.toNat), (32, nonce.toNat),
    (8, s.host.reports)]

theorem reportBits_eq (s : State) (nonce : BitVec 256) : reportBits s nonce = BitVec.ofNat 960 (wordOfFields (reportFields s nonce)) :=
  congrArg (BitVec.ofNat 960) (packFields_fieldsFrom (reportFields s nonce))

/-- Bytes of a report, as a number. -/
theorem extract_report (s : State) (nonce : BitVec 256) {off n : Nat} (h : off + n ≤ 120) :
    (reportBits s nonce).extractLsb' (8 * off) (8 * n) = BitVec.ofNat (8 * n) (getB (wordOfFields (reportFields s nonce)) off n) := by
  rw [reportBits_eq]
  refine BitVec.eq_of_getLsbD_eq fun i hi => ?_
  rw [BitVec.getLsbD_extractLsb', BitVec.getLsbD_ofNat, BitVec.getLsbD_ofNat, getB, Nat.testBit_mod_two_pow, Nat.testBit_div_two_pow]
  have hwide : 8 * off + i < 960 := by omega
  simp only [hi, decide_true, Bool.true_and, decide_eq_true hwide, Nat.add_comm i]

theorem ofNat_toNat_mod {n : Nat} (v : BitVec n) : BitVec.ofNat n (v.toNat % 2 ^ n) = v := by
  rw [Nat.mod_eq_of_lt v.isLt, BitVec.ofNat_toNat, BitVec.setWidth_eq]

/-- The numbers that a report says. -/
theorem getB_report (s : State) (nonce : BitVec 256) :
    let v := wordOfFields (reportFields s nonce)
    getB v 40 32 = s.host.fwDigest.toNat % 2 ^ 256 ∧ getB v 8 32 = Config.romDigest.toNat % 2 ^ 256 ∧ getB v 80 32 = nonce.toNat % 2 ^ 256 ∧
    getB v 112 8 = s.host.reports % 2 ^ 64 ∧ getB v 72 4 = fld s.regs.bootstat 63 32 % 2 ^ 32 := by
  simp only [reportFields, getB_behind, getB_first, Nat.reduceLeDiff, Nat.reduceSub, Nat.le_refl, Nat.reduceMul, Nat.sub_self, and_self]

/-- What a report says. -/
theorem report_fields (s : State) (nonce : BitVec 256) :
    (reportBits s nonce).extractLsb' 320 256 = s.host.fwDigest ∧ (reportBits s nonce).extractLsb' 64 256 = Config.romDigest ∧
    (reportBits s nonce).extractLsb' 640 256 = nonce ∧ (reportBits s nonce).extractLsb' 896 64 = BitVec.ofNat 64 s.host.reports ∧
    (reportBits s nonce).extractLsb' 576 32 = s.regs.bootstat.extractLsb' 32 32 := by
  have read {off n : Nat} (h : off + n ≤ 120) := extract_report s nonce h
  obtain ⟨hfw, hrom, hnonce, hcount, herr⟩ := getB_report s nonce
  refine ⟨(read (off := 40) (n := 32) (by decide)).trans ?_, (read (off := 8) (n := 32) (by decide)).trans ?_,
    (read (off := 80) (n := 32) (by decide)).trans ?_, (read (off := 112) (n := 8) (by decide)).trans ?_, (read (off := 72) (n := 4) (by decide)).trans ?_⟩
  · rw [hfw]; exact ofNat_toNat_mod _
  · rw [hrom]; exact ofNat_toNat_mod _
  · rw [hnonce]; exact ofNat_toNat_mod _
  · rw [hcount]; exact BitVec.eq_of_toNat_eq (by simp only [BitVec.toNat_ofNat, Nat.reduceMul, Nat.mod_mod])
  · rw [herr, fld_eq_toNat_extractLsb']; exact ofNat_toNat_mod _

/-! ### Requests of the mailbox -/

section

variable {s : State} (act : State → State)

/-- A request of the mailbox once the part is up. -/
theorem doeRequest_up (hlink : s.host.linkUp = true) (hstage : fld s.regs.bootstat 15 8 = 7) : doeRequest s act = .next (act s) := by
  simp [doeRequest, hostReady, bootStage, hlink, hstage]

theorem doeRequest_down (hlink : s.host.linkUp = false) : doeRequest s act = .next s := by
  simp [doeRequest, hlink]

theorem doeRequest_early (hlink : s.host.linkUp = true) (hstage : fld s.regs.bootstat 15 8 ≠ 7) : doeRequest s act = .next (emit s .retry) := by
  simp [doeRequest, hostReady, bootStage, hlink, hstage]

/-- GET_MEASUREMENTS counts a report and sends it. -/
def measure (s : State) (nonce : BitVec 256) (t : State) : State :=
  emit { t with host := { t.host with reports := t.host.reports + 1 } } (.report (reportBits s nonce) (Config.signature (reportBits s nonce)))

theorem exec_getMeasurements_act (s : State) (nonce : BitVec 256) : exec (.getMeasurements nonce) s = doeRequest s (measure s nonce) := rfl

end

/-! ### Key messages (spec/28 R435, R436) -/

/-- STATE of a key message's answer: EMPTY, of its world, or of another. -/
theorem ofNat_slotState (s : State) (m : KeyMsg) : BitVec.ofNat 8 (slotState s m) = (match look none s.host.keys m.slot.toNat with
    | none => 0
    | some (w, _) => if w = m.world.toNat then 1 else 2 : BitVec 8) := by
  unfold slotState
  cases look none s.host.keys m.slot.toNat with
  | none => rfl
  | some p => exact apply_ite (BitVec.ofNat 8) _ _ _

/-- The answer of a key message. -/
def keyReply (s : State) (m : KeyMsg) (status : Nat) : State :=
  emit s (.keyStatus m.kop m.slot (BitVec.ofNat 8 status) (match look none s.host.keys m.slot.toNat with
    | none => 0
    | some (w, _) => if w = m.world.toNat then 1 else 2))

theorem keyAnswer_eq (s : State) (m : KeyMsg) (status : Nat) : keyAnswer s m status = keyReply s m status := by
  rw [keyAnswer, keyReply, ofNat_slotState]

/-- A message with a known KOP and its zero byte. -/
theorem badKop_known {m : KeyMsg} (hkop : m.kop = 1 ∨ m.kop = 2 ∨ m.kop = 3) (hzero : m.zero = 0) : badKop m = false := by
  rcases hkop with h | h | h <;> simp [badKop, h, hzero]

theorem badKop_unknown {m : KeyMsg} (hkop : m.kop = 0 ∨ 3 < m.kop.toNat) : badKop m = true := by
  rcases hkop with h | h <;> simp [badKop, h]

/-- No digest is that of an absent entry. -/
theorem keyAllowed_zero (m : KeyMsg) : keyAllowed m 0 = false := by
  have hempty : ∀ off n, getB 0 off n = 0 := fun off n => by rw [getB, Nat.zero_div, Nat.zero_mod]
  by_cases hdigest : m.digest = 0
  · simp [keyAllowed, hdigest]
  · have hne : 0 ≠ m.digest.toNat := fun h => hdigest (BitVec.eq_of_toNat_eq h.symm)
    simp [keyAllowed, hempty, hne]

/-- While key loading is off, no world has an entry. -/
theorem worldEntry_off {s : State} (h : s.regs.worldtab.getLsbD 0 = false) (w : Nat) : worldEntry s w = (s, 0) := by
  rw [worldEntry, bit, h]
  rfl

section

variable {s z : State} {m : KeyMsg} {e : Nat} (act : State → Nat → State) (hgood : badKop m = false) (hentry : worldEntry s m.world.toNat = (z, e))
include hgood hentry

theorem serveKey_refused (hno : keyAllowed m e = false) : serveKey s m act = keyReply z m 2 := by
  simp [serveKey, hgood, hentry, hno, keyAnswer_eq]

theorem serveKey_badLen (hyes : keyAllowed m e = true) (hlen : m.len ≠ if m.kop = 1 then 100 else 4) : serveKey s m act = keyReply z m 5 := by
  rw [serveKey, if_neg (ne_true_of_eq_false hgood), hentry]
  simp only [hyes, Bool.not_true, Bool.false_eq_true, if_false, if_pos hlen, keyAnswer_eq]

theorem serveKey_served (hyes : keyAllowed m e = true) (hlen : m.len = if m.kop = 1 then 100 else 4) : serveKey s m act = act z e := by
  simp [serveKey, hgood, hentry, hyes, hlen]

end

/-- What KEY_LOAD, KEY_ERASE and SLOT_QUERY do with their world's entry. -/
def loadAct (m : KeyMsg) (s : State) (e : Nat) : State :=
  if m.slot.toNat < getB e 32 1 || getB e 32 1 + getB e 33 1 ≤ m.slot.toNat then keyAnswer s m 3
  else if (look none s.host.keys m.slot.toNat).isSome then keyAnswer s m 4
  else keyAnswer { s with host := { s.host with keys := putC none s.host.keys m.slot.toNat (some (m.world.toNat, m.keys)) } } m 0

def eraseAct (m : KeyMsg) (s : State) (_ : Nat) : State := match look none s.host.keys m.slot.toNat with
  | none => keyAnswer s m 0
  | some (w, _) => if w = m.world.toNat then keyAnswer (revokeSlot s m.slot.toNat) m 0 else keyAnswer s m 2

def queryAct (m : KeyMsg) (s : State) (_ : Nat) : State := keyAnswer s m 0

/-- The three kinds of key message, each with what it does. -/
inductive KeyRequest (m : KeyMsg) : Instr → (State → Nat → State) → Prop
  | load (h : m.kop = 1) : KeyRequest m (.keyLoad m) (loadAct m)
  | erase (h : m.kop = 2) : KeyRequest m (.keyErase m) (eraseAct m)
  | query (h : m.kop = 3) : KeyRequest m (.slotQuery m) (queryAct m)

/-- A message that is no KEY_LOAD and no KEY_ERASE is served by SLOT_QUERY. -/
theorem exec_slotQuery_other {s : State} {m : KeyMsg} (hload : m.kop ≠ 1) (herase : m.kop ≠ 2) :
    exec (.slotQuery m) s = doeRequest s (fun s => serveKey s m (queryAct m)) := by
  show execSlotQuery m s = _
  rw [execSlotQuery, decide_eq_false hload, decide_eq_false herase]
  rfl

namespace KeyRequest

variable {m : KeyMsg} {i : Instr} {act : State → Nat → State} (h : KeyRequest m i act)
include h

theorem exec_eq (s : State) : exec i s = doeRequest s (fun s => serveKey s m act) := by
  cases h with
  | load h => exact if_neg (not_not_intro h)
  | erase h => exact if_neg (not_not_intro h)
  | query h => exact exec_slotQuery_other (by rw [h]; decide) (by rw [h]; decide)

theorem known (hzero : m.zero = 0) : badKop m = false := by
  cases h with
  | load h => exact badKop_known (.inl h) hzero
  | erase h => exact badKop_known (.inr (.inl h)) hzero
  | query h => exact badKop_known (.inr (.inr h)) hzero

variable {s z : State} {e : Nat} (hlink : s.host.linkUp = true) (hstage : fld s.regs.bootstat 15 8 = 7) (hzero : m.zero = 0)
include hlink hstage hzero

theorem refused (hentry : worldEntry s m.world.toNat = (z, e)) (hno : keyAllowed m e = false) : exec i s = .next (keyReply z m 2) := by
  rw [h.exec_eq, doeRequest_up _ hlink hstage, serveKey_refused _ (h.known hzero) hentry hno]

theorem refused_off (hoff : s.regs.worldtab.getLsbD 0 = false) : exec i s = .next (keyReply s m 2) :=
  h.refused hlink hstage hzero (worldEntry_off hoff _) (keyAllowed_zero m)

theorem badLen (hentry : worldEntry s m.world.toNat = (z, e)) (hyes : keyAllowed m e = true) (hlen : m.len ≠ if m.kop = 1 then 100 else 4) :
    exec i s = .next (keyReply z m 5) := by
  rw [h.exec_eq, doeRequest_up _ hlink hstage, serveKey_badLen _ (h.known hzero) hentry hyes hlen]

theorem served (hentry : worldEntry s m.world.toNat = (z, e)) (hyes : keyAllowed m e = true) (hlen : m.len = if m.kop = 1 then 100 else 4) :
    exec i s = .next (act z e) := by
  rw [h.exec_eq, doeRequest_up _ hlink hstage, serveKey_served _ (h.known hzero) hentry hyes hlen]

end KeyRequest

/-- The slots of a world's entry. -/
theorem loadAct_outside {s : State} {m : KeyMsg} {e : Nat} (h : ¬ (getB e 32 1 ≤ m.slot.toNat ∧ m.slot.toNat < getB e 32 1 + getB e 33 1)) :
    loadAct m s e = keyReply s m 3 := by
  have hout : (decide (m.slot.toNat < getB e 32 1) || decide (getB e 32 1 + getB e 33 1 ≤ m.slot.toNat)) = true := by
    rw [Bool.or_eq_true, decide_eq_true_iff, decide_eq_true_iff]
    omega
  rw [loadAct, if_pos hout, keyAnswer_eq]

section

variable {s : State} {m : KeyMsg} {e : Nat} (h : getB e 32 1 ≤ m.slot.toNat ∧ m.slot.toNat < getB e 32 1 + getB e 33 1)
include h

theorem not_outside : ¬ (decide (m.slot.toNat < getB e 32 1) || decide (getB e 32 1 + getB e 33 1 ≤ m.slot.toNat)) = true := by
  rw [Bool.or_eq_true, decide_eq_true_iff, decide_eq_true_iff]
  omega

theorem loadAct_loaded (hkey : look none s.host.keys m.slot.toNat ≠ none) : loadAct m s e = keyReply s m 4 := by
  rw [loadAct, if_neg (not_outside h), if_pos (Option.isSome_iff_ne_none.mpr hkey), keyAnswer_eq]

theorem loadAct_empty (hkey : look none s.host.keys m.slot.toNat = none) :
    loadAct m s e = keyReply { s with host := { s.host with keys := putC none s.host.keys m.slot.toNat (some (m.world.toNat, m.keys)) } } m 0 := by
  rw [loadAct, if_neg (not_outside h), hkey, if_neg (by decide), keyAnswer_eq]

end

theorem eraseAct_empty {s : State} {m : KeyMsg} (e : Nat) (hkey : look none s.host.keys m.slot.toNat = none) : eraseAct m s e = keyReply s m 0 := by
  rw [eraseAct, hkey, keyAnswer_eq]

theorem eraseAct_foreign {s : State} {m : KeyMsg} {w : Nat} {k : BitVec 768} (e : Nat) (hkey : look none s.host.keys m.slot.toNat = some (w, k))
    (hw : w ≠ m.world.toNat) : eraseAct m s e = keyReply s m 2 := by
  rw [eraseAct, hkey]
  exact (if_neg hw).trans (keyAnswer_eq ..)

theorem eraseAct_own {s : State} {m : KeyMsg} {k : BitVec 768} (e : Nat) (hkey : look none s.host.keys m.slot.toNat = some (m.world.toNat, k)) :
    eraseAct m s e = keyReply (revokeSlot s m.slot.toNat) m 0 := by
  rw [eraseAct, hkey]
  exact (if_pos rfl).trans (keyAnswer_eq ..)

/-- A revoked slot is empty and no entry names it. -/
theorem revokeSlot_clears {s : State} {b w : Nat} {k : BitVec 768} (hkeys : rising 0 s.host.keys = true) (hkey : look none s.host.keys b = some (w, k)) :
    look none (revokeSlot s b).host.keys b = none ∧ ∀ h ∈ (revokeSlot s b).host.handles, h.2 ≠ some b := by
  have hevict (ks : List Nat) (t : State) : (ks.foldl evict t).host.keys = t.host.keys := foldl_keeps (fun t : State => t.host.keys) evict_keys ks t
  have hcleared : look none (putC none s.host.keys b none) b = none := (look_putC (α := KeySlot) none b b none hkeys).trans (if_pos rfl)
  rw [revokeSlot, hkey]
  dsimp only
  split
  all_goals
    refine ⟨?_, fun h hh => by simpa using (List.mem_filter.mp hh).2⟩
    dsimp only [unbindSlot]
    rw [hevict, writeBackUnder_keys]
    exact hcleared

/-- Settles O48: the three kinds of message differ only in what they do once their world's entry lets them. -/
theorem securityEvents : Obligations.SecurityEvents := by
  unfold Obligations.SecurityEvents
  refine ⟨fun s a h => ?_, fun s h => if_pos h, fun s => rfl, fun s n ⟨hlink, hstage⟩ => ?_, ⟨?_, ?_, ?_⟩, ?_⟩
  · show execLockInterfaceRequest a s = _
    rw [execLockInterfaceRequest, if_pos h]
  · exact ⟨reportBits s n, (exec_getMeasurements_act s n).trans (doeRequest_up _ hlink hstage), report_fields s n⟩
  · intro s m ⟨hlink, hstage⟩ hzero hoff
    exact ⟨fun h => (KeyRequest.load h).refused_off hlink hstage hzero hoff, fun h => (KeyRequest.erase h).refused_off hlink hstage hzero hoff,
      fun h => (KeyRequest.query h).refused_off hlink hstage hzero hoff⟩
  · intro s m z e ⟨hlink, hstage⟩ hzero hentry
    have served {i : Instr} {act : State → Nat → State} (r : KeyRequest m i act) := r.served hlink hstage hzero hentry
    refine ⟨fun hno => ?_, fun hyes hlen => ?_, fun hyes hkop hlen => ?_, fun hyes hkop hlen => ?_, fun hyes hkop hlen => ?_⟩
    · exact ⟨fun h => (KeyRequest.load h).refused hlink hstage hzero hentry hno, fun h => (KeyRequest.erase h).refused hlink hstage hzero hentry hno,
        fun h => (KeyRequest.query h).refused hlink hstage hzero hentry hno⟩
    · exact ⟨fun h => (KeyRequest.load h).badLen hlink hstage hzero hentry hyes hlen, fun h => (KeyRequest.erase h).badLen hlink hstage hzero hentry hyes hlen,
        fun h => (KeyRequest.query h).badLen hlink hstage hzero hentry hyes hlen⟩
    · have hload := served (.load hkop) hyes (hlen.trans (if_pos hkop).symm)
      exact ⟨fun hmine hkey => hload.trans (congrArg _ (loadAct_empty hmine hkey)), fun hmine => hload.trans (congrArg _ (loadAct_outside hmine)),
        fun hmine hkey => hload.trans (congrArg _ (loadAct_loaded hmine hkey))⟩
    · have herase := served (.erase hkop) hyes (hlen.trans (if_neg (by rw [hkop]; decide)).symm)
      refine ⟨fun hkey => herase.trans (congrArg _ (eraseAct_empty e hkey)), fun w k hkey hw => herase.trans (congrArg _ (eraseAct_foreign e hkey hw)),
        fun k hkeys hkey => ?_⟩
      exact ⟨_, herase.trans (congrArg _ (eraseAct_own e hkey)), revokeSlot_clears hkeys hkey⟩
    · exact (served (.query hkop) hyes (hlen.trans (if_neg (by rw [hkop]; decide)).symm)).trans (congrArg _ (keyAnswer_eq z m 0))
  · intro s m ⟨hlink, hstage⟩ hkop
    have hother : m.kop ≠ 1 ∧ m.kop ≠ 2 := by
      rcases hkop with h | h
      · rw [h]; decide
      · exact ⟨fun e => by simp [e] at h, fun e => by simp [e] at h⟩
    rw [exec_slotQuery_other hother.1 hother.2, doeRequest_up _ hlink hstage, serveKey, if_pos (badKop_unknown hkop)]
    exact congrArg _ (keyAnswer_eq s m 1)
  · intro s i hi
    obtain ⟨act, hact⟩ : ∃ act, exec i s = doeRequest s act := by
      rcases hi with ⟨n, rfl⟩ | ⟨m, ⟨h, rfl⟩ | ⟨h, rfl⟩ | ⟨h, rfl⟩⟩
      · exact ⟨_, exec_getMeasurements_act s n⟩
      · exact ⟨_, (KeyRequest.load h).exec_eq s⟩
      · exact ⟨_, (KeyRequest.erase h).exec_eq s⟩
      · exact ⟨_, (KeyRequest.query h).exec_eq s⟩
    exact ⟨fun hlink => hact.trans (doeRequest_down act hlink), fun hlink hstage => hact.trans (doeRequest_early act hlink hstage)⟩

/-! ### GRES issues (spec/22 R375, R382) -/

/-- One lane's record leaves its unit, to wait with operation `id`. -/
def holdLane (u : UnitId) (id : Nat) (s : State) (l : Nat) : State := match currentRec s u l with
  | some r => setGleaner (takeRec s u l) (unitDie u)
      { getGleaner (takeRec s u l) (unitDie u) with resolving := (getGleaner (takeRec s u l) (unitDie u)).resolving ++ [(id, r)] }
  | none => s

theorem holdLanes_eq (s : State) (x : Issued) (id : Nat) : holdLanes s x id = (lanesIn x.act).foldl (holdLane x.u id) s := rfl

/-- The record that lane `l` of a sheaf still serves, as operation `id` holds it. -/
def heldRec (h : Sheaf) (id l : Nat) : Option (Nat × TrapRec) := if h.done.getLsbD l then none else (h.recs[l]?).map (id, ·)

/-- From `t` to `t'` the lanes `ls` of the sheaf `h` have given up their records; `x` is the lanes that are now through. -/
structure LanesHeld (t t' : State) (c k id : Nat) (h : Sheaf) (ls : List Nat) (x : Mask) : Prop where
  frame : t' = { t with cores := t'.cores, gleaners := t'.gleaners }
  warp : getWarp t' c k = { getWarp t c k with sheaf := some { h with done := x } }
  done : ∀ l < 32, x.getLsbD l = (h.done.getLsbD l || (decide (l ∈ ls) && (h.recs[l]?).isSome))
  resolving : (getGleaner t' (dieOf c)).resolving = (getGleaner t (dieOf c)).resolving ++ ls.filterMap (heldRec h id)

theorem getGleaner_setGleaner (s : State) (die : Nat) (g : Gleaner) : getGleaner (setGleaner s die g) die = g := look_put_same ..

/-- A lane that serves nothing keeps its unit as it is. -/
theorem holdLane_none {t : State} {c k id l : Nat} {h : Sheaf} (hsheaf : (getWarp t c k).sheaf = some h) (hrec : heldRec h id l = none) :
    holdLane (.warp c k) id t l = t := by
  have hnone : currentRec t (.warp c k) l = none := by
    unfold heldRec at hrec
    simp only [currentRec, servedRec, hsheaf]
    split at hrec <;> simp_all
  rw [holdLane, hnone]

/-- The lanes through once lane `l` is. -/
def through (h : Sheaf) (l : Nat) : Sheaf := { h with done := h.done ||| laneBit l }

/-- Lane `l` gives up its record, which waits as `p`. -/
def gave (t : State) (c k : Nat) (h : Sheaf) (l : Nat) (p : Nat × TrapRec) : State :=
  setGleaner (setWarp t c k { getWarp t c k with sheaf := some (through h l) }) (dieOf c)
    { getGleaner t (dieOf c) with resolving := (getGleaner t (dieOf c)).resolving ++ [p] }

/-- A lane that serves a record gives it up. -/
theorem holdLane_some {t : State} {c k id l : Nat} {h : Sheaf} {p : Nat × TrapRec} (hsheaf : (getWarp t c k).sheaf = some h) (hrec : heldRec h id l = some p) :
    holdLane (.warp c k) id t l = gave t c k h l p := by
  obtain ⟨r, hsome, rfl⟩ : ∃ r, currentRec t (.warp c k) l = some r ∧ (id, r) = p := by
    unfold heldRec at hrec
    simp only [currentRec, servedRec, hsheaf]
    split at hrec
    · exact nomatch hrec
    · next hdone => rw [if_neg hdone]; exact Option.map_eq_some_iff.mp hrec
  rw [holdLane, hsome]
  simp only [takeRec, hsheaf]
  rfl

/-- What another lane serves does not depend on whether lane `l` is through. -/
theorem heldRec_through {h : Sheaf} {id l j : Nat} (hl : l < 32) (hne : l ≠ j) : heldRec (through h l) id j = heldRec h id j := by
  simp only [heldRec, through, BitVec.getLsbD_or, getLsbD_laneBit hl, decide_eq_false hne, Bool.or_false]

theorem lanesHeld_foldl {c k id : Nat} (ls : List Nat) (hlt : ∀ l ∈ ls, l < 32) (hnodup : ls.Nodup) : ∀ {t : State} {h : Sheaf}, (getWarp t c k).sheaf = some h →
    ∃ x, LanesHeld t (ls.foldl (holdLane (.warp c k) id) t) c k id h ls x := by
  induction ls with
  | nil =>
    intro t h hsheaf
    refine ⟨h.done, rfl, ?_, fun l _ => by simp, by simp⟩
    rw [List.foldl_nil, ← hsheaf]
  | cons l ls ih =>
    intro t h hsheaf
    obtain ⟨hout, hnodup⟩ := List.nodup_cons.mp hnodup
    have hltl := hlt l (.head _)
    have ih := fun {t h} => ih (fun j hj => hlt j (.tail _ hj)) hnodup (t := t) (h := h)
    rw [List.foldl_cons]
    cases hrec : heldRec h id l with
    | none =>
      obtain ⟨x, hframe, hwarp, hdone, hres⟩ := ih hsheaf
      rw [holdLane_none hsheaf hrec]
      refine ⟨x, hframe, hwarp, fun j hj => ?_, by rw [hres, List.filterMap_cons_none hrec]⟩
      rw [hdone j hj]
      by_cases hjl : j = l
      · subst hjl
        unfold heldRec at hrec
        split at hrec
        · next hdone => rw [hdone, Bool.true_or, Bool.true_or]
        · rw [Option.map_eq_none_iff.mp hrec, Option.isSome_none, Bool.and_false, Bool.and_false]
      · rw [decide_eq_decide.mpr (List.mem_cons.trans (or_iff_right hjl))]
    | some p =>
      rw [holdLane_some hsheaf hrec]
      have hwarp1 : getWarp (gave t c k h l p) c k = { getWarp t c k with sheaf := some (through h l) } := getWarp_setWarp ..
      have hgleaner1 : getGleaner (gave t c k h l p) (dieOf c) = { getGleaner t (dieOf c) with resolving := (getGleaner t (dieOf c)).resolving ++ [p] } :=
        getGleaner_setGleaner ..
      obtain ⟨x, hframe, hwarp, hdone, hres⟩ := ih (congrArg Warp.sheaf hwarp1)
      refine ⟨x, hframe, ?_, fun j hj => ?_, ?_⟩
      · rw [hwarp, hwarp1]
        rfl
      · have hthrough : (through h l).done.getLsbD j = (h.done.getLsbD j || decide (l = j)) := by
          rw [through, BitVec.getLsbD_or, getLsbD_laneBit hltl]
        rw [hdone j hj, hthrough]
        by_cases hjl : l = j
        · subst hjl
          unfold heldRec at hrec
          split at hrec
          · exact nomatch hrec
          · obtain ⟨r, hr, -⟩ := Option.map_eq_some_iff.mp hrec
            simp [hr]
        · simp [hjl, Ne.symm hjl, through]
      · have hsame : ls.filterMap (heldRec (through h l) id) = ls.filterMap (heldRec h id) :=
          List.filterMap_congr fun j hj => heldRec_through hltl (fun e => hout (e ▸ hj))
        rw [hres, hgleaner1, hsame, List.filterMap_cons_some hrec, List.append_assoc]
        rfl

/-- What GRES does where its unit serves a record. -/
def gresBody (f : Full) (x : Issued) (b : State) : State :=
  holdLanes (newSilent (sendWc b x.u b.nextOp) x (.gres f) x.act (modB f 1).toNat (unitWct b x.u)) x b.nextOp

theorem gleanMeaning_gres (f : Full) : GleanMeaning (.gres f) 0x17 f (gresBody f) := fun _ => rfl

/-- The operation of a GRES. -/
def silentOp (b : State) (x : Issued) (f : Full) : Op :=
  { mkOp (sendWc b x.u b.nextOp) x (.gres f) x.act [] (modB f 1).toNat with flag := 12, wct := unitWct b x.u }

/-- A sheaf's GRES: its operation joins those in flight, and its active lanes give up their records. -/
theorem gresBody_sheaf {b : State} {x : Issued} {c k : Nat} {h : Sheaf} (f : Full) (hu : x.u = .warp c k) (hsheaf : (getWarp b c k).sheaf = some h) :
    ∃ y, (gresBody f x b).ops = b.ops ++ [silentOp b x f] ∧
      getWarp (gresBody f x b) c k =
        { getWarp b c k with wc := (getWarp b c k).wc.filter (fun q => b.nextOp < q.op), sheaf := some { h with done := y } } ∧
      (∀ l < 32, y.getLsbD l = (h.done.getLsbD l || (x.act.getLsbD l && (h.recs[l]?).isSome))) ∧
      (getGleaner (gresBody f x b) (dieOf c)).resolving = (getGleaner b (dieOf c)).resolving ++ (lanesIn x.act).filterMap (heldRec h b.nextOp) ∧
      (gresBody f x b).mem = b.mem ∧ (gresBody f x b).regs = b.regs ∧ (gresBody f x b).threads = b.threads := by
  have hheld := fun {t : State} (ht : (getWarp t c k).sheaf = some h) =>
    lanesHeld_foldl (id := b.nextOp) (lanesIn x.act) (fun l hl => (mem_lanesIn.mp hl).1) (List.nodup_range.filter _) ht
  have hwarp : getWarp (newSilent (sendWc b x.u b.nextOp) x (.gres f) x.act (modB f 1).toNat (unitWct b x.u)) c k =
      { getWarp b c k with wc := (getWarp b c k).wc.filter (fun q => b.nextOp < q.op) } := by
    rw [hu]
    exact getWarp_setWarp ..
  obtain ⟨y, hframe, hthrough, hdone, hres⟩ := hheld ((congrArg Warp.sheaf hwarp).trans hsheaf)
  rw [hwarp] at hthrough
  have hbody : gresBody f x b = (lanesIn x.act).foldl (holdLane (.warp c k) b.nextOp)
      (newSilent (sendWc b x.u b.nextOp) x (.gres f) x.act (modB f 1).toNat (unitWct b x.u)) := by rw [gresBody, holdLanes_eq, hu]
  have hsend : (sendWc b x.u b.nextOp).ops = b.ops ∧ (sendWc b x.u b.nextOp).mem = b.mem ∧ (sendWc b x.u b.nextOp).regs = b.regs ∧
      (sendWc b x.u b.nextOp).threads = b.threads ∧ (sendWc b x.u b.nextOp).gleaners = b.gleaners := by
    rw [hu]; exact ⟨rfl, rfl, rfl, rfl, rfl⟩
  obtain ⟨hops, hmem, hregs, hthreads, hgleaners⟩ := hsend
  rw [← hbody] at hframe hthrough hres
  refine ⟨y, (congrArg State.ops hframe).trans (congrArg (· ++ [silentOp b x f]) hops), hthrough, fun l hl => ?_, ?_, (congrArg State.mem hframe).trans hmem,
    (congrArg State.regs hframe).trans hregs, (congrArg State.threads hframe).trans hthreads⟩
  · have hlane : decide (l ∈ lanesIn x.act) = x.act.getLsbD l := by
      rw [Bool.eq_iff_iff, decide_eq_true_iff, mem_lanesIn]
      exact and_iff_right hl
    rw [hdone l hl, hlane]
  · rw [hres]
    exact congrArg (fun g => (look Gleaner.reset g (dieOf c)).resolving ++ _) hgleaners

theorem gres_sheaf {s : State} {c k : Nat} {w : Warp} {r : ClauseRun} {f : Full} {h : Sheaf} (hready : Ready s c k w r (viewFull 0x17 f .vector r))
    (hsheaf : w.sheaf = some h) :
    ∃ t o, exec (.gres f) s = .next t ∧ t.ops = s.ops ++ [o] ∧ o.id = s.nextOp ∧ o.unit = .warp c k ∧ o.instr = .gres f ∧ o.phase = 0 ∧
      o.lanes = active w r (viewFull 0x17 f .vector r) ∧ o.arg = (modB f 1).toNat ∧ o.wct = w.wctmax ∧
      (getWarp t c k).run = some (stepped w r (viewFull 0x17 f .vector r)) ∧ (getWarp t c k).flags = w.flags ∧
      (∃ x, (getWarp t c k).sheaf = some { h with done := x } ∧ ∀ l < 32, x.getLsbD l =
        (h.done.getLsbD l || ((active w r (viewFull 0x17 f .vector r)).getLsbD l && (h.recs[l]?).isSome))) ∧
      (getGleaner t (unitDie (.warp c k))).resolving = (getGleaner s (unitDie (.warp c k))).resolving ++
        ((List.range 32).filter (fun l => (active w r (viewFull 0x17 f .vector r)).getLsbD l)).filterMap (fun l =>
          if h.done.getLsbD l then none else (h.recs[l]?).map (fun q => (s.nextOp, q))) ∧
      t.mem = s.mem ∧ t.regs = s.regs ∧ t.threads = s.threads := by
  have hexec := (gleanMeaning_gres f).exec_sheaf hready (by simp [hsheaf])
  generalize viewFull 0x17 f .vector r = v at hexec ⊢
  obtain ⟨y, hops, hwarp, hdone, hres, hmem, hregs, hthreads⟩ :=
    gresBody_sheaf (x := warpWord c k w r v) f rfl ((sheaf_issued s c k w r v).trans hsheaf)
  obtain ⟨x, g, p, fp, -, hissued⟩ := getWarp_issued (s := s) (c := c) (k := k) (w := w) (r := r) (v := v)
  have hwct : unitWct (issued s c k w r v) (.warp c k) = w.wctmax := by rw [unitWct, hissued]
  rw [hissued] at hwarp
  exact ⟨_, _, hexec, hops, rfl, rfl, rfl, rfl, rfl, rfl, hwct, by rw [hwarp], by rw [hwarp], ⟨y, by rw [hwarp], hdone⟩,
    hres, hmem, hregs, hthreads⟩

/-- A thread gives up its current record. -/
theorem holdLane_thread {t : State} {q id : Nat} {y : TrapRec} {rest : List TrapRec} (h : (getThread t q).pending = y :: rest) (l : Nat) :
    holdLane (.thread q) id t l = setGleaner (setThread t q { getThread t q with pending := rest }) 0
      { getGleaner t 0 with resolving := (getGleaner t 0).resolving ++ [(id, y)] } := by
  simp only [holdLane, currentRec, takeRec, h, List.head?_cons]
  rfl

/-- A thread's GRES: its operation joins those in flight, and the thread's current record leaves it. -/
theorem gresBody_thread {b : State} {x : Issued} {q : Nat} {y : TrapRec} {rest : List TrapRec} (f : Full) (hu : x.u = .thread q) (hact : x.act = 1)
    (hpending : (getThread b q).pending = y :: rest) :
    gresBody f x b = setGleaner (setThread { b with ops := b.ops ++ [silentOp b x f], nextOp := b.nextOp + 1 } q { getThread b q with pending := rest }) 0
      { getGleaner b 0 with resolving := (getGleaner b 0).resolving ++ [(b.nextOp, y)] } := by
  have hlane : lanesIn x.act = [0] := by rw [hact]; decide
  have hsilent : newSilent (sendWc b x.u b.nextOp) x (.gres f) x.act (modB f 1).toNat (unitWct b x.u) =
      { b with ops := b.ops ++ [silentOp b x f], nextOp := b.nextOp + 1 } := by
    rw [silentOp, newSilent, hu]
    rfl
  rw [gresBody, holdLanes_eq, hlane, hsilent, List.foldl_cons, List.foldl_nil, hu]
  exact holdLane_thread (t := { b with ops := b.ops ++ [silentOp b x f], nextOp := b.nextOp + 1 }) hpending 0

theorem gres_thread {s : State} {q : Nat} {r : ClauseRun} {f : Full} {x : TrapRec} {rest : List TrapRec}
    (hready : ScalarReady s (.thread q) r (viewFull 0x17 f .sp r)) (hpending : (getThread s q).pending = x :: rest) :
    ∃ t o, exec (.gres f) s = .next t ∧ t.ops = s.ops ++ [o] ∧ o.id = s.nextOp ∧ o.unit = .thread q ∧ o.instr = .gres f ∧ o.phase = 0 ∧
      o.arg = (modB f 1).toNat ∧ o.wct = (getThread s q).wctmax ∧
      getThread t q = { getThread s q with run := some { r with idx := r.idx + 1, cyc := r.cyc + 1 }, pending := rest } ∧
      (getGleaner t 0).resolving = (getGleaner s 0).resolving ++ [(s.nextOp, x)] ∧ t.mem = s.mem ∧ t.regs = s.regs ∧ t.cores = s.cores := by
  have hexec := (gleanMeaning_gres f).exec_thread hready (by simp [hpending])
  generalize viewFull 0x17 f .sp r = v at hexec
  have hstep := getThread_scalarStep (s := s) (q := q) (r := r)
  have hbody := gresBody_thread (x := scalarWord s (.thread q) r v) f rfl rfl ((congrArg Thread.pending hstep).trans hpending)
  rw [hbody] at hexec
  exact ⟨_, _, hexec, rfl, rfl, rfl, rfl, rfl, rfl, by show (getThread (scalarStep s (.thread q) r) q).wctmax = _; rw [hstep], (getThread_setThread ..).trans (by rw [hstep]),
    (congrArg Gleaner.resolving (getGleaner_setGleaner ..)), rfl, rfl, rfl⟩

/-! ### GRES resolves its records (spec/22 R373-R375; spec/09 R187) -/

/-- The event of a GRES whose unit is still there. -/
theorem exec_gresComplete {s : State} {o : Op} {f : Full} (hflight : InFlight s o 0) (hi : o.instr = .gres f) (hcore : ∀ c k, o.unit = .warp c k → c < 320) :
    exec (.longLatencyComplete o.id 0) s = .next (performGres s o) := by
  have hnear : (!isScalar o.unit && decide (320 ≤ opCore o)) = false := by
    cases hu : o.unit with
    | warp c k =>
      have hlt := hcore c k hu
      simp [isScalar, opCore, hu, hlt]
    | front c k => rfl
    | thread q => rfl
  show execLongLatencyComplete o.id 0 s = _
  rw [execLongLatencyComplete, findOp_of_inFlight hflight]
  simp only [hnear, hflight.owner, hflight.phase, performOp, hi, Bool.not_true, Bool.false_eq_true, if_false, if_true]

theorem gresWaits_iff {s : State} {o : Op} : gresWaits s o = true ↔ (∃ p ∈ s.ops, p.id < o.id ∧ sameIssuer p o = true ∧ p.phase = 0 ∧
    (isMemoryEvent p.instr = true ∨ instrOp p.instr = 0x16)) ∨ s.time ≤ o.wct := by
  simp only [gresWaits, passed, Bool.or_eq_true, List.any_eq_true, Bool.and_eq_true, decide_eq_true_iff, Bool.not_eq_true', decide_eq_false_iff_not, not_lt,
    and_assoc]

/-- Crossings of the die link leave only the waits they meet. -/
theorem foldl_atLink (die : Nat) (g : TrapRec → Nat) (qs : List TrapRec) (s : State) : ∃ z, qs.foldl (fun z r => atLink z die (g r)) s = { s with holds := z } := by
  induction qs generalizing s with
  | nil => exact ⟨s.holds, rfl⟩
  | cons q qs ih =>
    obtain ⟨y, hy⟩ : ∃ y, atLink s die (g q) = { s with holds := y } := by
      unfold atLink
      split
      · exact ⟨s.holds, rfl⟩
      · exact ⟨_, rfl⟩
    rw [List.foldl_cons, hy]
    exact ih _

/-- The state without the records that operation `id` holds. -/
def released (s : State) (id : Nat) : State :=
  { s with gleaners := s.gleaners.map fun g => (g.1, { g.2 with resolving := g.2.resolving.filter fun r => r.1 ≠ id }) }

/-- Once nothing is left to wait for, the record of the operation leaves the gleaners and is resolved, and the operation is over. -/
theorem performGres_one {s : State} {o : Op} {q : TrapRec} (hgo : gresWaits s o = false) (hrec : resolved s o.id = [q]) :
    ∃ z, performGres s o = dropOp (resumeRec (released { s with holds := z } o.id) q (o.arg = 1)) o.id := by
  obtain ⟨z, hz⟩ := foldl_atLink (unitDie o.unit) (resumeDie s) [q] s
  refine ⟨z, ?_⟩
  rw [performGres, hgo]
  rw [resolved] at hrec
  simp only [Bool.false_eq_true, if_false, hrec, hz, List.foldl_cons, List.foldl_nil]
  rfl

theorem resolved_released (s : State) (id : Nat) : resolved (released s id) id = [] := by
  simp only [resolved, released, List.flatMap_map, List.filter_filter, List.flatMap_eq_nil_iff, List.map_eq_nil_iff, List.filter_eq_nil_iff]
  intro g _ r _
  simp

/-- The place that a resolved record resumes at. -/
theorem resumePlace_eq (q : TrapRec) (replay : Bool) : resumePlace q replay = placeAfter q replay := by
  have hpast : q.pc.setWidth 52 + BitVec.ofNat 52 (8 * (q.count + 1)) = BitVec.ofNat 52 (q.pc.toNat + 8 * (q.count + 1)) := by
    rw [BitVec.ofNat_add]
    rfl
  rw [resumePlace, placeAfter, hpast]

/-- The entry that a record's thread rejoins with. -/
def rejoinEntry (q : TrapRec) (replay : Bool) : FEntry := { key := q.prio.toNat, pc := (placeAfter q replay).1, word := (placeAfter q replay).2, mask := 0 }

theorem resumeRec_lane {s : State} {q : TrapRec} {d j : Nat} (replay : Bool) (hkind : q.kind = .lane) (horigin : originWarp s q = some (d, j)) :
    resumeRec s q replay = setWarp s d j { getWarp s d j with rejoins := (getWarp s d j).rejoins ++ [(rejoinEntry q replay, laneBit q.lane)] } := by
  simp only [resumeRec, hkind, horigin, resumePlace_eq, rejoinEntry]

theorem resumed_lane {s : State} {q : TrapRec} {d j : Nat} (replay : Bool) (hkind : q.kind = .lane) (horigin : originWarp s q = some (d, j)) :
    (getWarp (resumeRec s q replay) d j).rejoins = (getWarp s d j).rejoins ++ [(rejoinEntry q replay, laneBit q.lane)] ∧
    (getWarp (resumeRec s q replay) d j).v = (getWarp s d j).v ∧ resumeRec s q replay = { s with cores := (resumeRec s q replay).cores } := by
  rw [resumeRec_lane replay hkind horigin, getWarp_setWarp]
  exact ⟨rfl, rfl, rfl⟩

/-- A service thread that goes on after its record. -/
def goesOn (t : Thread) (q : TrapRec) (replay : Bool) : Thread :=
  { t with halt := false, trapped := false, runBit := true, pc := (placeAfter q replay).1, word := (placeAfter q replay).2 }

theorem resumeRec_thread {s : State} {q : TrapRec} {p : Nat} (replay : Bool) (hkind : q.kind = .thread) (hunit : q.unit = .thread p) :
    resumeRec s q replay = setThread s p (goesOn (getThread s p) q replay) := by
  simp only [resumeRec, hkind, hunit, resumePlace_eq, goesOn]

/-- Settles O38: GRES by its two steps, its lanes one after the other at issue and its one record at its end. -/
theorem resolveWord : Obligations.ResolveWord := by
  unfold Obligations.ResolveWord
  refine ⟨fun s c k w r f h hready hsheaf => gres_sheaf hready hsheaf, fun s q r f x rest hready hpending => gres_thread hready hpending,
    fun s o f hflight hi hcore hwait => ?_, fun s o f q hflight hi hcore hpast hfirst hrec => ?_⟩
  · have hwaits : gresWaits s o = true := by
      rw [gresWaits_iff]
      rcases hwait with htime | ⟨p, hp, hid, hsame, hphase, hmemory⟩
      · exact .inr htime
      · exact .inl ⟨p, hp, hid, hsame, hphase, .inl hmemory⟩
    rw [exec_gresComplete hflight hi hcore, performGres, hwaits, if_pos rfl]
  · have hgo : gresWaits s o = false := by
      rw [← Bool.not_eq_true, gresWaits_iff]
      rintro (⟨p, hp, hid, hsame, hphase, -⟩ | htime)
      · exact hfirst p hp hid hsame hphase
      · omega
    obtain ⟨z, hz⟩ := performGres_one hgo hrec
    have hexec := (exec_gresComplete hflight hi hcore).trans (congrArg _ hz)
    have hnone := resolved_released { s with holds := z } o.id
    refine ⟨fun d j hkind horigin => ?_, fun p hkind hunit => ?_⟩
    · obtain ⟨hrejoins, hv, hframe⟩ := resumed_lane (s := released { s with holds := z } o.id) (o.arg = 1) hkind horigin
      rw [hframe] at hexec hrejoins hv
      exact ⟨_, rejoinEntry q (o.arg = 1), hexec, findOp_dropOp _ _, hrejoins, rfl, hv, hnone, rfl, rfl, rfl⟩
    · rw [resumeRec_thread _ hkind hunit] at hexec
      have hthread : getThread (dropOp (setThread (released { s with holds := z } o.id) p (goesOn (getThread (released { s with holds := z } o.id) p) q (o.arg = 1)))
        o.id) p = goesOn (getThread s p) q (o.arg = 1) := getThread_setThread ..
      refine ⟨_, hexec, findOp_dropOp _ _, ?_⟩
      rw [hthread]
      exact ⟨rfl, rfl, rfl, rfl, hnone, rfl, rfl⟩

end Sys2Proof.Proofs
end

section
/-!
PROOFS. Queues (spec/14 R283-R287) and the containment tree (spec/06 R117-R125): operations carried out. Settles QueueAndTreeEvents.
-/
namespace Sys2Proof.Proofs

open Sys2Proof.Machine Sys2Proof.Claims

/-! ### A live queue's operations (spec/14 R283-R286) -/

section

variable {q : QObj} {b : Nat} (c h : Nat) (flag : Bool) (hpos : 1 ≤ b) (hlt : b < 512)
include hpos hlt

/-- A count that its operand states, alone: no stray bit and no place. -/
theorem badArg_count {k : QKind} (hkind : k = .acq ∨ k = .get ∨ k = .put ∨ k = .ret) :
    QReq.badArg { kind := k, b := b, c := c, flag := flag, handle := h } = false := by
  have hn : b % 512 = b := Nat.mod_eq_of_lt hlt
  have hhigh : ∀ j, 9 ≤ j → b / 2 ^ j = 0 := fun j hj => Nat.div_eq_of_lt (lt_of_lt_of_le (show b < 2 ^ 9 from hlt) (Nat.pow_le_pow_right two_pos hj))
  have h9 : b / 2 ^ 9 = 0 := hhigh 9 le_rfl
  have h21 : b / 2 ^ 21 = 0 := hhigh 21 (by decide)
  have h24 : b / 2 ^ 24 = 0 := hhigh 24 (by decide)
  have h32 : b / 2 ^ 32 = 0 := hhigh 32 (by decide)
  rcases hkind with rfl | rfl | rfl | rfl <;>
    simp only [QReq.badArg, QReq.strayBits, QReq.n, QReq.pos, hn, h9, h21, h24, h32, Nat.zero_mod] <;> simp <;> omega

/-- An operation on a live queue that asks for no more than its capacity. -/
theorem qapply_live {k : QKind} (hkind : k = .acq ∨ k = .get ∨ k = .put ∨ k = .ret) (hgood : q.bad = false) (hlive : q.status = 1) :
    qapply q { kind := k, b := b, c := c, flag := flag, handle := h } false false = qlive q { kind := k, b := b, c := c, flag := flag, handle := h } false := by
  have hargs := badArg_count c h flag hpos hlt hkind
  rcases hkind with rfl | rfl | rfl | rfl <;> simp [qapply, hgood, hlive, hargs]

end

section

variable {q : QObj} {b : Nat} (c h : Nat) (flag : Bool) (hlt : b < 512) (hcap : b ≤ q.cap)
include hlt hcap

theorem qlive_acq : qlive q { kind := .acq, b := b, c := c, flag := flag, handle := h } false = if q.permits < b then (if flag then qcode 1 else .wait)
    else .word q.pix (some { q with permits := q.permits - b, pix := (q.pix + b) % q.cap }) := by
  simp [qlive, QReq.n, Nat.mod_eq_of_lt hlt, hcap.not_gt]

theorem qlive_get : qlive q { kind := .get, b := b, c := c, flag := flag, handle := h } false = if q.tokens < b then (if flag then qcode 1 else .wait)
    else .word (2 ^ 16 * q.flags + q.cix) (some { q with tokens := q.tokens - b, cix := (q.cix + b) % q.cap }) := by
  simp [qlive, QReq.n, Nat.mod_eq_of_lt hlt, hcap.not_gt]

theorem qlive_put : qlive q { kind := .put, b := b, c := c, flag := false, handle := h } false = if q.cap < q.permits + q.tokens + b then qcode 6
    else .word 0 (some { q with tokens := q.tokens + b, fix := (q.fix + b) % q.cap, bytes := (q.bytes + c) % 2 ^ 64, flags := q.flags ||| 0 }) := by
  have hflags : b / 65536 % 32 = 0 := by omega
  simp [qlive, QReq.n, Nat.mod_eq_of_lt hlt, hcap.not_gt, hflags]

theorem qlive_ret : qlive q { kind := .ret, b := b, c := c, flag := false, handle := h } false = if q.cap < q.permits + q.tokens + b then qcode 6
    else .word 0 (some { q with permits := q.permits + b, rix := (q.rix + b) % q.cap }) := by
  simp [qlive, QReq.n, Nat.mod_eq_of_lt hlt, hcap.not_gt]

end

/-! ### A waiter that is served (spec/14 R287) -/

/-- What a later GRES of an issuer waits for, once an operation of its has the time `t` (spec/22 R375). -/
def laterGres (o : Op) (t : Nat) (p : Op) : Op := if instrOp p.instr = 0x17 && o.id < p.id && sameIssuer o p then { p with wct := Nat.max p.wct t } else p

theorem laterGres_id (o : Op) (t : Nat) (p : Op) : (laterGres o t p).id = p.id := by
  unfold laterGres
  split <;> rfl

theorem ops_raiseOpWct (s : State) (o : Op) (t : Nat) : (raiseOpWct s o t).ops = s.ops.map (laterGres o t) := by
  unfold raiseOpWct
  dsimp only
  split
  · cases o.unit <;> rfl
  · split
    · split <;> rfl
    · rfl

/-- An operation's own times stand where those of later ones are raised. -/
theorem findOp_raiseOpWct (s : State) (o : Op) (t : Nat) : findOp (raiseOpWct s o t) o.id = findOp s o.id := by
  have hsame : ((fun x : Op => decide (x.id = o.id)) ∘ laterGres o t) = fun x => decide (x.id = o.id) :=
    funext fun p => by rw [Function.comp_apply, laterGres_id]
  rw [findOp, ops_raiseOpWct, List.find?_map, findOp, hsame]
  cases hfind : s.ops.find? fun x => decide (x.id = o.id) with
  | none => rfl
  | some p =>
    have hid : p.id = o.id := by simpa using List.find?_some hfind
    simp [laterGres, hid]

theorem findOp_markReady (s : State) (handle id : Nat) : findOp (markReady s handle) id = findOp s id := by
  unfold markReady
  split
  · split
    · dsimp only
      split
      · split <;> rfl
      · rfl
    · rfl
  · rfl

/-- An answered waiter's operation is performed with its value. -/
theorem performedWith_answerWaiter {s : State} {o : Op} (h : findOp s o.id = some o) (v wct : Nat) {l : Nat} (hl : l < 32) :
    PerformedWith (answerWaiter s o.id v wct) o.id l v := by
  unfold answerWaiter
  dsimp only
  split
  · next hnone => exact nomatch hnone.symm.trans h
  · next p hp =>
    obtain rfl : p = o := Option.some.inj (hp.symm.trans h)
    refine ⟨_, (findOp_markReady ..).trans ((findOp_raiseOpWct _ _ _).trans (findOp_setOp h)), rfl, nth_everyLane v hl⟩

/-- The waiter that stands alone is picked where it can proceed. -/
theorem pickWaiter_only {z : State} {q q' : QObj} {pa v : Nat} {w : Waiter} {o : Op} {r : QReq} (hw : qwaiters z pa = [w]) (hr : waiterReq z w = some (o, r))
    (hable : qapply q r false false = .word v (some q')) (hkind : r.kind = .put ∨ r.kind = .get ∨ r.kind = .acq ∨ r.kind = .ret) :
    pickWaiter z q pa = some (w, o, r) := by
  rcases hkind with h | h | h | h <;> simp [pickWaiter, hw, hr, hable, h, Option.filter]

/-- Reading and writing an object leaves every operation as it is. -/
theorem ops_qwrite (s : State) (r : LReq) (pa : Nat) (q : QObj) : (qwrite s r pa q).1.ops = s.ops := by
  have hwrite := congrArg State.ops (sliceFrame_writeLine s (LReq.again s r) ((2 ^ 64 - 1) * 2 ^ (pa % 128)) (BitVec.ofNat 1024 ((packQ q).toNat * 2 ^ (8 * (pa % 128))))
    (fun m => m) true)
  unfold qwrite
  dsimp only
  split <;> exact hwrite

/-- A waiter that alone stands at an object and can proceed is answered with its operation's word. -/
theorem queueWaiterServe_one {s z : State} {o : Op} {a : LaneAcc} {w : Waiter} {pa vm v : Nat} {q q' : QObj} {r : QReq} (hflight : InFlight s o 0)
    (haccs : o.accs = [a]) (hw : qwaiters s pa = [w]) (hop : w.op = o.id) (hhit : w.hit = none)
    (hread : qread s (LReq.again s (opReq s o a)) pa = (z, .inr (q, vm))) (hops : z.ops = s.ops) (hwz : qwaiters z pa = [w])
    (hreq : waiterReq z w = some (o, r)) (hable : qapply q r false false = .word v (some q'))
    (hkind : r.kind = .put ∨ r.kind = .get ∨ r.kind = .acq ∨ r.kind = .ret) :
    ∃ t, exec (.queueWaiterServe pa) s = .next t ∧ ∀ l < 32, PerformedWith t o.id l v := by
  have hfind := findOp_of_inFlight hflight
  have htouched : serveTouched s pa = s := by simp [serveTouched, hw, hhit]
  have hserve : serveQueue s (opReq s o a) pa = serveOne z (opReq s o a) pa q vm (w, o, r) := by
    rw [serveQueue, hw]
    simp only [List.length_singleton, serveRounds, hread, pickWaiter_only hwz hreq hable hkind]
  have hexec : exec (.queueWaiterServe pa) s = .next (serveOne z (opReq s o a) pa q vm (w, o, r)) := by
    show execQueueWaiterServe pa s = _
    rw [execQueueWaiterServe, hw]
    simp only [hop, hfind, haccs, htouched, hserve]
  refine ⟨_, hexec, fun l hl => ?_⟩
  have hkept : ∀ x, findOp (qwrite z (opReq s o a) pa x).1 o.id = some o := fun x => by rw [findOp, ops_qwrite, hops]; exact hfind
  simp only [serveOne, hable]
  exact performedWith_answerWaiter (hkept _) _ _ hl

/-! ### Changes of the tree (spec/06 R115-R125) -/

theorem SliceFrame.ops {s t : State} (h : SliceFrame s t) : t.ops = s.ops := by
  rw [show t = _ from h]

theorem SliceFrame.foldl {α : Type} {f : State → α → State} (h : ∀ t a, SliceFrame t (f t a)) (l : List α) (s : State) : SliceFrame s (l.foldl f s) := by
  induction l generalizing s with
  | nil => exact .refl s
  | cons a l ih => exact (h s a).trans (ih _)

section

variable (s : State) (h n : Nat)

theorem sliceFrame_setNodeWord (i : Nat) (v : W64) : SliceFrame s (setNodeWord s h i v) := sliceFrame_cohWrite ..

theorem sliceFrame_clearNode : SliceFrame s (clearNode s h) := by
  have hwords := SliceFrame.foldl (f := fun s i => setNodeWord s h i 0) (fun t i => sliceFrame_setNodeWord t h i 0) (List.range 8) s
  rw [clearNode]
  generalize (List.range 8).foldl (fun s i => setNodeWord s h i 0) s = t at hwords ⊢
  exact hwords.trans rfl

theorem sliceFrame_addCount : SliceFrame s (addCount s h n) := sliceFrame_cohWrite ..
theorem sliceFrame_addPend : SliceFrame s (addPend s h n) := sliceFrame_cohWrite ..
theorem sliceFrame_raiseNodeWct : SliceFrame s (raiseNodeWct s h n) := rfl

theorem sliceFrame_rollup : SliceFrame s (rollup s h) := by
  have hclear := sliceFrame_setNodeWord s h 3 0
  unfold rollup
  dsimp only
  generalize setNodeWord s h 3 0 = t at hclear ⊢
  generalize nodeParent s h = p, (nodeWord s h 3).toNat = n, look 0 s.mem.nodeWct h = w
  have hcount := hclear.trans (sliceFrame_addCount t p n)
  have hpend := hcount.trans (sliceFrame_addPend (addCount t p n) p n)
  split
  · exact hclear
  · exact hpend.trans (sliceFrame_raiseNodeWct _ p w)

theorem sliceFrame_settleBelow : SliceFrame s (settleBelow s h) :=
  SliceFrame.foldl (fun t _ => SliceFrame.foldl sliceFrame_rollup _ t) _ s

theorem sliceFrame_payNodes (o : Op) : SliceFrame s (payNodes s o) := SliceFrame.foldl (fun t _ => sliceFrame_payFor t _ _ _) _ s

end

/-! ### A tree word's turn (spec/06 R124, R125) -/

theorem setNth_eq_set {α : Type} (l : List α) (i : Nat) (v : α) : setNth l i v = l.set i v := by
  induction l generalizing i with
  | nil => rfl
  | cons x l ih => cases i with
    | zero => rfl
    | succ i => exact congrArg (x :: ·) (ih i)

theorem nth_setNth_everyLane (v : Nat) (x : W128) {l : Nat} (hl : l < 32) : nth (setNth (everyLane v) l x) l = x := by
  rw [setNth_eq_set, nth, everyLane]
  simp [hl]

/-- The turn of an operation that alone stands for its unit is not held. -/
theorem treeReady_alone {s : State} {o : Op} (hflight : InFlight s o 0) : treeReady s o = true := by
  have hother : ∀ p ∈ s.ops, p.id < o.id → sameIssuer p o = false := by
    intro p hp hid
    rcases hflight.only p hp with rfl | ⟨-, hunit⟩
    · exact absurd hid (lt_irrefl _)
    · simp [sameIssuer, hunit]
  have hheld : heldByAcquire s o = false := by
    rw [heldByAcquire, earlier, List.any_filter, List.any_eq_false]
    intro p hp
    by_cases hid : p.id < o.id
    · simp [hother p hp hid]
    · simp [hid]
  have hdone : treeReady.changesDone s o = true := by
    rw [treeReady.changesDone, List.all_filter, List.all_eq_true]
    intro p hp
    by_cases hid : p.id < o.id
    · simp [hother p hp hid]
    · simp [hid]
  rw [treeReady, hheld]
  split <;> simp [hdone]

/-- A tree word of one lane, with its nodes read and none of them poisoned: what its lane does, and the lane's answer. -/
theorem treePerform_one {s : State} {o : Op} {l : Nat} (hflight : InFlight s o 0) (haccs : o.accs = []) (hl : l < 32) (hlanes : o.lanes = laneBit l)
    (hup : s.regs.dlstat.getLsbD 0 = true) (lane : State → Op → Nat → State × Nat) {z y : State} {v : Nat} (hz : z = readNodes (payNodes s o) (dedup (nodesRead s o l)))
    (hclean : ∀ h ∈ nodesRead z o l, poisoned z (nodeLine z h) = false) (hlane : lane z o l = (y, v)) (hframe : SliceFrame z y) :
    PerformedWith (treePerform s o lane) o.id l v ∧ (treePerform s o lane).mem = y.mem := by
  have hone : lanesIn o.lanes = [l] := by rw [hlanes, lanesIn_laneBit l hl]
  have hfind : findOp z o.id = some o := by
    rw [findOp, hz, (sliceFrame_readNodes _ _).ops, (sliceFrame_payNodes s o).ops]
    exact findOp_of_inFlight hflight
  have hpoison : poisonedLane z o.id l = z := by
    have hnone : (nodesRead z o l).find? (fun h => poisoned z (nodeLine z h)) = none := List.find?_eq_none.mpr fun h hh => by simp [hclean h hh]
    rw [poisonedLane, hfind]
    dsimp only
    rw [hnone]
    exact ite_self z
  have hsettle : settleOp z o.id = z := by
    have hne : o.lanes ≠ 0 := fun hzero => by
      have hbit := getLsbD_laneBit hl l
      rw [← hlanes, hzero] at hbit
      simp at hbit
    rw [settleOp, hfind]
    simp only [if_neg hne, haccs, List.isEmpty_nil, Bool.not_true, Bool.and_false, Bool.false_and, Bool.false_eq_true, if_false]
  have hreach : reachNodes s o = z := by
    have hlink : treeLink s o = s := if_pos hup
    simp only [reachNodes, hlink, hone, List.flatMap_cons, List.flatMap_nil, List.append_nil, List.foldl_cons, List.foldl_nil, ← hz, hpoison, hsettle]
  have hkept : findOp y o.id = some o := by rw [findOp, hframe.ops]; exact hfind
  have hdone : treePerform s o lane = setOp y { o with phase := 1, res := setNth (everyLane 0) l (BitVec.ofNat 128 v) } := by
    simp only [treePerform, hreach, hfind, hone, List.foldl_cons, List.foldl_nil, hlane, performed, hkept]
  rw [hdone]
  exact ⟨⟨_, findOp_setOp (o := { o with phase := 1, res := _ }) hkept, rfl, nth_setNth_everyLane 0 _ hl⟩, rfl⟩

/-! ### TNODE, roll-ups and TSETTLE -/

section

variable {s z : State} {o : Op} {l : Nat}

theorem exec_treeOpPerform {f : Full} (hflight : InFlight s o 0) (hi : o.instr = .tnode f) (haccs : o.accs = []) (hon : treeOn s = true) :
    exec (.treeOpPerform o.id) s = .next (treePerform s o treeLane) := by
  show execTreeOpPerform o.id s = _
  rw [execTreeOpPerform, findOp_of_inFlight hflight]
  simp [hi, isStructural, hflight.phase, haccs, hon, treeReady_alone hflight]

theorem exec_tsettleComplete {f : Full} (hflight : InFlight s o 0) (hi : o.instr = .tsettle f) (hnode : modB f 1 = false) (haccs : o.accs = [])
    (hon : treeOn s = true) : exec (.tsettleComplete o.id) s = .next (treePerform s o fun s o l => settleLane s o false l) := by
  show execTsettleComplete o.id s = _
  rw [execTsettleComplete, findOp_of_inFlight hflight]
  simp [hi, hnode, hflight.phase, haccs, hon, treeReady_alone hflight]

theorem ownsNode_unit (hunit : ∀ q, o.unit ≠ .thread q) (s : State) (h : Nat) : ownsNode s o h = (nodeCtx s h = o.ctx && nodeWorld s h = o.world) := by
  unfold ownsNode
  split
  · next q hq => exact absurd hq (hunit q)
  · rfl

theorem tnodeLane_badParent {p : Nat} (hp : p ≠ 0) (hdead : nodeLive z p = false) : tnodeLane z o p = (z, 2 ^ 28) := by
  simp [tnodeLane, hp, hdead, status]

theorem tnodeLane_notOwn {p : Nat} (hp : p ≠ 0) (hlive : nodeLive z p = true) (hown : ownsNode z o p = false) : tnodeLane z o p = (z, 2 * 2 ^ 28) := by
  simp [tnodeLane, hp, hlive, hown, status]

theorem tnodeLane_root {h : Nat} (hunit : ∀ q, o.unit ≠ .thread q) (hfree : freeNode z = some h) :
    tnodeLane z o 0 = (setNodeWord (clearNode z h) h 1 (BitVec.ofNat 64 (2 ^ 32 * o.ctx + 2 ^ 28 * o.world + 1)), h) := by
  have hthread : isThreadOp o = false := by
    unfold isThreadOp
    split
    · next q hq => exact absurd hq (hunit q)
    · rfl
  simp [tnodeLane, hfree, hthread, structural, dedup]

theorem settleLane_bad (hdead : nodeLive z (handleA o l) = false) : settleLane z o false l = (z, 2 ^ 28) := by
  simp [settleLane, nodeCheck, hdead, status]

theorem settleLane_own (hlive : nodeLive z (handleA o l) = true) (hown : ownsNode z o (handleA o l) = true) :
    settleLane z o false l = (settleBelow z (handleA o l), 0) := by
  simp [settleLane, nodeCheck, hlive, hown]

end

theorem atLink_up {s : State} (hup : s.regs.dlstat.getLsbD 0 = true) (a b : Nat) : atLink s a b = s := if_pos (by rw [bit, hup]; rfl)

theorem exec_treeRollup {s : State} {h : Nat} (hon : treeOn s = true) (hlive : nodeLive s h = true) (hup : s.regs.dlstat.getLsbD 0 = true) :
    exec (.treeRollup h) s = .next (rollup (readNodes s (rollupNodes s h)) h) := by
  show execTreeRollup h s = _
  rw [execTreeRollup, hon, hlive, atLink_up hup]
  rfl

theorem rollup_kept {z : State} {h : Nat} (hnone : nodeWord z h 3 = 0 ∨ nodeLive z (nodeParent z h) = false) : rollup z h = setNodeWord z h 3 0 := by
  rcases hnone with hzero | hdead
  · simp [rollup, hzero]
  · simp [rollup, hdead]

theorem rollup_passed {z : State} {h : Nat} (hsome : nodeWord z h 3 ≠ 0) (hlive : nodeLive z (nodeParent z h) = true) :
    rollup z h = raiseNodeWct (addPend (addCount (setNodeWord z h 3 0) (nodeParent z h) (nodeWord z h 3).toNat) (nodeParent z h) (nodeWord z h 3).toNat)
      (nodeParent z h) (look 0 z.mem.nodeWct h) := by
  have hne : (nodeWord z h 3).toNat ≠ 0 := fun e => hsome (BitVec.eq_of_toNat_eq e)
  simp [rollup, hne, hlive]

/-- A word that names no node reads none. -/
theorem nodes_root {s : State} {o : Op} {l : Nat} {f : Full} (hi : o.instr = .tnode f) (hroot : handleA o l = 0) : nodesRead s o l = [] := by
  have hnamed : namedNodes s o l = [] := by simp [namedNodes, hi, hroot]
  simp [nodesRead, hi, hnamed, dedup]

theorem payNodes_root {s : State} {o : Op} {l : Nat} {f : Full} (hi : o.instr = .tnode f) (hone : lanesIn o.lanes = [l]) (hroot : handleA o l = 0) :
    payNodes s o = s := by
  have hnamed : namedNodes s o l = [] := by simp [namedNodes, hi, hroot]
  simp [payNodes, hone, hnamed, dedup]

/-- Settles O50: a queue's operations by kind, a lone waiter's service, and the tree words by what their one lane does once its nodes are read. -/
theorem queueAndTreeEvents : Obligations.QueueAndTreeEvents := by
  unfold Obligations.QueueAndTreeEvents
  refine ⟨fun q h b c hgood hlive hpos hlt hcap _ => ?_, fun s o a w pa q q' vm z r v hflight haccs hw hop hhit hread hops hwz hreq hable hkind =>
    queueWaiterServe_one hflight haccs hw hop hhit hread hops hwz hreq hable hkind, fun s o f l hflight hi haccs hon hlanes hl hup hunit => ?_,
    fun s h hon hlive hup => ?_, fun s o f l hflight hi hnode haccs hon hlanes hl hup hunit => ?_⟩
  · have hcount {k : QKind} (hk : k = .acq ∨ k = .get ∨ k = .put ∨ k = .ret) (flag : Bool) := qapply_live (q := q) c h flag hpos hlt hk hgood hlive
    refine ⟨fun hroom => ?_, fun hshort => ⟨?_, ?_⟩, fun hroom => ?_, fun hroom => ?_, fun hroom => ?_, fun hfull => ?_⟩
    · rw [hcount (.inl rfl), qlive_acq c h false hlt hcap, if_neg hroom.not_gt]
    · rw [hcount (.inl rfl), qlive_acq c h false hlt hcap, if_pos hshort]; rfl
    · rw [hcount (.inl rfl), qlive_acq c h true hlt hcap, if_pos hshort]; rfl
    · rw [hcount (.inr (.inl rfl)), qlive_get c h false hlt hcap, if_neg hroom.not_gt]
    · rw [hcount (.inr (.inr (.inl rfl))), qlive_put c h hlt hcap, if_neg hroom.not_gt]
    · rw [hcount (.inr (.inr (.inr rfl))), qlive_ret c h hlt hcap, if_neg hroom.not_gt]
    · rw [hcount (.inr (.inr (.inl rfl))), qlive_put c h hlt hcap, if_pos hfull]; rfl
  · have hexec := exec_treeOpPerform hflight hi haccs hon
    have hlane : ∀ z, treeLane z o l = tnodeLane z o (handleA o l) := fun z => by rw [treeLane, hi]
    have hturn := fun {z y v} hz hclean heq hframe => treePerform_one hflight haccs hl hlanes hup treeLane (z := z) (y := y) (v := v) hz hclean heq hframe
    refine ⟨fun h hp hfree => ?_, fun hp hclean => ⟨fun hdead => ?_, fun hlive hforeign => ?_⟩⟩
    · have hroot : tnodeLane s o (handleA o l) = _ := (congrArg (tnodeLane s o) hp).trans (tnodeLane_root hunit hfree)
      have hz : s = readNodes (payNodes s o) (dedup (nodesRead s o l)) := by
        rw [payNodes_root hi (by rw [hlanes]; exact lanesIn_laneBit l hl) hp, nodes_root hi hp]
        rfl
      refine ⟨_, hexec, hturn hz (fun k hk => ?_) ((hlane s).trans hroot) ((sliceFrame_clearNode s h).trans (sliceFrame_setNodeWord ..))⟩
      rw [nodes_root hi hp] at hk
      exact nomatch hk
    · exact ⟨_, hexec, hturn rfl hclean ((hlane _).trans (tnodeLane_badParent hp hdead)) (.refl _)⟩
    · have hown : ownsNode _ o (handleA o l) = false := (ownsNode_unit hunit ..).trans (by
        rcases hforeign with h | h
        · rw [handleA, decide_eq_false h, Bool.false_and]
        · rw [handleA, decide_eq_false h, Bool.and_false])
      exact ⟨_, hexec, hturn rfl hclean ((hlane _).trans (tnodeLane_notOwn hp hlive hown)) (.refl _)⟩
  · rw [exec_treeRollup hon hlive hup]
    exact ⟨fun hnone => congrArg _ (rollup_kept hnone), fun hsome hparent => congrArg _ (rollup_passed hsome hparent)⟩
  · have hexec := exec_tsettleComplete hflight hi hnode haccs hon
    have hturn := fun {z y v} hz hclean heq hframe =>
      treePerform_one hflight haccs hl hlanes hup (fun s o l => settleLane s o false l) (z := z) (y := y) (v := v) hz hclean heq hframe
    intro h z hclean
    refine ⟨fun hdead => ?_, fun hlive hctx hworld => ?_⟩
    · exact ⟨_, hexec, hturn rfl hclean (settleLane_bad hdead) (.refl _)⟩
    · have hown : ownsNode z o (handleA o l) = true := (ownsNode_unit hunit ..).trans (by rw [handleA, decide_eq_true hctx, decide_eq_true hworld]; rfl)
      exact ⟨_, hexec, hturn rfl hclean (settleLane_own hlive hown) (sliceFrame_settleBelow ..)⟩

end Sys2Proof.Proofs
end

section
/-!
PROOFS. Trap records, cribs and sheaves (spec/22 R363, R366-R371, R376; spec/23 R383), and a thread that wakes (spec/24 R388). Settles TrapEvents.
-/
namespace Sys2Proof.Proofs

open Sys2Proof.Machine Sys2Proof.Claims

/-! ### The order of one cycle (spec/23 R383) -/

theorem lexLess_iff (x y : List Nat) : lexLess x y = true ↔ List.Lex (· < ·) x y := by
  induction x generalizing y with
  | nil => cases y <;> simp [lexLess]
  | cons a x ih =>
    cases y with
    | nil => simp [lexLess]
    | cons b y =>
      simp only [lexLess, Bool.or_eq_true, Bool.and_eq_true, decide_eq_true_iff, ih]
      constructor
      · rintro (h | ⟨rfl, h⟩)
        · exact .rel h
        · exact .cons h
      · rintro (_ | h | h)
        · exact .inl h
        · exact .inr ⟨rfl, h⟩

/-- Where a record joins its crib. -/
theorem insertRec_split (r : TrapRec) (l : List TrapRec) : ∃ pre post, l = pre ++ post ∧ insertRec r l = pre ++ r :: post ∧
    (∀ p ∈ pre, p.filed = r.filed → ¬ List.Lex (· < ·) (fileRank r) (fileRank p)) ∧
    ∀ p, post.head? = some p → p.filed = r.filed ∧ List.Lex (· < ·) (fileRank r) (fileRank p) := by
  induction l with
  | nil => exact ⟨[], [], rfl, rfl, fun _ h => absurd h (List.not_mem_nil), fun _ h => absurd h (by simp)⟩
  | cons p l ih =>
    by_cases h : p.filed = r.filed ∧ lexLess (fileRank r) (fileRank p) = true
    · refine ⟨[], p :: l, rfl, by simp [insertRec, h], fun _ h => absurd h (List.not_mem_nil), fun q hq => ?_⟩
      obtain rfl : p = q := Option.some.inj hq
      exact ⟨h.1, (lexLess_iff _ _).mp h.2⟩
    · obtain ⟨pre, post, hl, hins, hpre, hpost⟩ := ih
      refine ⟨p :: pre, post, by rw [hl, List.cons_append], ?_, ?_, hpost⟩
      · have hno : (decide (p.filed = r.filed) && lexLess (fileRank r) (fileRank p)) = false := by
          rw [← Bool.not_eq_true, Bool.and_eq_true, decide_eq_true_iff]; exact h
        rw [insertRec, if_neg (by rw [hno]; decide), hins, List.cons_append]
      · intro q hq hfiled hlex
        rcases List.mem_cons.mp hq with rfl | hq
        · exact h ⟨hfiled, (lexLess_iff _ _).mpr hlex⟩
        · exact hpre q hq hfiled hlex

/-! ### A sleeping thread (spec/24 R388) -/

theorem wakeUp_eq (s : State) (q : Nat) {dst : Nat} (hdst : dst < 64) : wakeUp s q dst = setThread s q { getThread s q with
    wakest := 0, sleeping := none
    s := putC 0 (getThread s q).s dst (if (getThread s q).wakest = 0 then 64 else BitVec.ofNat 64 (getThread s q).wakest.toNat) } := by
  have hval : (BitVec.ofNat 128 (if (getThread s q).wakest = 0 then 64 else (getThread s q).wakest.toNat)).setWidth 64 =
      if (getThread s q).wakest = 0 then 64 else BitVec.ofNat 64 (getThread s q).wakest.toNat := by
    split
    · rfl
    · exact BitVec.setWidth_ofNat_of_le (by decide) _
  rw [wakeUp, writeScalar, if_neg (by omega), hval]
  simp only [setScalarRegs, scalarRegs, getThread_setThread, setThread_setThread]
  rfl

theorem exec_sleepWake {s : State} {q : Nat} {d : W64} (h : (getThread s q).sleeping = some d) : exec (.sleepWake q) s =
    .next (if (getThread s q).wakest ≠ 0 ∨ (d ≠ 0 ∧ d.toNat ≤ s.time) then wakeUp s q (sleepDst (getThread s q)) else s) := by
  show execSleepWake q s = _
  rw [execSleepWake, h]
  simp only [deadlineOver, Bool.or_eq_true, Bool.and_eq_true, decide_eq_true_iff]
  split <;> rfl

/-! ### A crib's window (spec/22 R368) -/

theorem cribBlocks_iff (s : State) (x : Crib) : cribBlocks s x = true ↔ ∃ p ∈ x.recs, ∃ d k, originWarp s p = some (d, k) ∧ blockedNow s d k = true := by
  rw [cribBlocks, List.any_eq_true]
  refine exists_congr fun p => and_congr_right fun _ => ?_
  cases horigin : originWarp s p with
  | none => simp
  | some o => exact ⟨fun h => ⟨o.1, o.2, rfl, h⟩, fun ⟨_, _, ho, h⟩ => Option.some.inj ho ▸ h⟩

theorem formSheaf_at {g : Gleaner} {i : Nat} {x : Crib} (h : g.cribs[i]? = some x) :
    formSheaf g i = { g with cribs := g.cribs.eraseIdx i, waiting := g.waiting ++ [x] } := by
  rw [formSheaf, h]

theorem exec_cribWindowExpiry {s : State} {die i : Nat} {x : Crib} {r : TrapRec} {rest : List TrapRec} (hcrib : (getGleaner s die).cribs[i]? = some x)
    (hrecs : x.recs = r :: rest) : exec (.cribWindowExpiry die i) s = .next
      (if r.filed + gatherWindow s x.ctx ≤ s.cyc ∨ (r.filed + gatherWindow s x.ctx / 8 ≤ s.cyc ∧ cribBlocks s x = true) then
        setGleaner s die { getGleaner s die with cribs := (getGleaner s die).cribs.eraseIdx i, waiting := (getGleaner s die).waiting ++ [x] } else s) := by
  show execCribWindowExpiry die i s = _
  rw [execCribWindowExpiry, hcrib]
  simp only [hrecs, formSheaf_at hcrib, Bool.or_eq_true, Bool.and_eq_true, decide_eq_true_iff]
  split <;> rfl

theorem getGleaner_setGleaner_other (s : State) {die d : Nat} (g : Gleaner) (h : d ≠ die) : getGleaner (setGleaner s die g) d = getGleaner s d :=
  look_put_other _ _ _ h

/-! ### A formed sheaf is placed (spec/22 R369-R371) -/

/-- The first free slot that is drawn is one of the 48. -/
theorem freeSlot_lt {s : State} {c k : Nat} (h : freeSlot s c = some k) : k < 48 := by
  have hmem := List.mem_of_getElem? h
  exact List.mem_range.mp (List.mem_filter.mp hmem).1

theorem freeSlot_congr {s t : State} {c : Nat} (hwarps : ∀ j, getWarp t c j = getWarp s c j) (hfree : t.freeNo = s.freeNo) : freeSlot t c = freeSlot s c := by
  simp only [freeSlot, hwarps, hfree]

/-- What a relatch leaves of its core. -/
theorem getCore_relatch (s : State) (c world : Nat) : getCore (relatch s c world) c =
    { getCore s c with latch := world, warps := [], fronts := [], l1 := [], l1pend := [], tlb := [], stash := [], tags := [] } :=
  getCore_setCore ..

/-- A relatched core has a free slot. -/
theorem freeSlot_relatch (s : State) (c world : Nat) : ∃ k, freeSlot (relatch s c world) c = some k := by
  have hfree : ∀ k, (getWarp (relatch s c world) c k).live = false := fun k => by rw [getWarp, getCore_relatch]; rfl
  have hall : (List.range 48).filter (fun k => !(getWarp (relatch s c world) c k).live) = List.range 48 :=
    List.filter_eq_self.mpr fun k _ => by rw [hfree]; rfl
  have hlt : Config.pick (relatch s c world).freeNo % Nat.max 1 (List.range 48).length < (List.range 48).length := Nat.mod_lt _ (by decide)
  exact ⟨_, by rw [freeSlot, hall]; exact List.getElem?_eq_getElem hlt⟩

/-- The core of a sheaf, latched and marked. -/
def coreReady (s : State) (core : Nat) (x : Crib) : State :=
  let z := if (getCore s core).latch = x.world then s else relatch s core x.world
  setCore z core { getCore z core with sheafAt := some z.cyc }

/-- What making a core ready for a sheaf leaves as it is. -/
theorem coreReady_frame (s : State) (core : Nat) (x : Crib) : (coreReady s core x).gleaners = s.gleaners ∧ (coreReady s core x).mem = s.mem ∧
    (coreReady s core x).regs = s.regs ∧ (coreReady s core x).launch = s.launch ∧ (coreReady s core x).cyc = s.cyc ∧ (coreReady s core x).freeNo = s.freeNo := by
  unfold coreReady
  dsimp only
  split <;> exact ⟨rfl, rfl, rfl, rfl, rfl, rfl⟩

theorem getCore_coreReady (s : State) (core : Nat) (x : Crib) :
    (getCore (coreReady s core x) core).latch = x.world ∧ (getCore (coreReady s core x) core).sheafAt = some s.cyc := by
  unfold coreReady
  dsimp only
  rw [getCore_setCore]
  split
  · next h => exact ⟨h, rfl⟩
  · rw [getCore_relatch]; exact ⟨rfl, rfl⟩

/-- The core that takes a sheaf has a free slot for it. -/
theorem freeSlot_coreReady {s : State} {die core : Nat} {x : Crib} (h : sheafCore s die x = some core) : ∃ k, freeSlot (coreReady s core x) core = some k := by
  have hkeep (z : State) (y : Option Nat) : freeSlot (setCore z core { getCore z core with sheafAt := y }) core = freeSlot z core :=
    freeSlot_congr (fun j => by simp [getWarp]) rfl
  unfold coreReady
  dsimp only
  rw [hkeep]
  split
  · next hlatch =>
    unfold sheafCore at h
    split at h
    · next k hk =>
      obtain rfl : k = core := Option.some.inj h
      have hfits := List.find?_some hk
      simp only [Bool.and_eq_true] at hfits
      exact Option.isSome_iff_exists.mp hfits.2
    · split at h
      · exact nomatch h
      · next hnone =>
        exact absurd (List.any_eq_true.mpr ⟨core, List.mem_of_find?_eq_some h, decide_eq_true hlatch⟩) hnone
  · exact freeSlot_relatch s core x.world

/-- The warp of a sheaf. -/
def sheafWarp (s z : State) (die core : Nat) (x : Crib) (sid slice : Nat) : Warp :=
  let lanes := maskOf (fun l => l < x.recs.length)
  { Warp.reset with
    live := true, admitted := z.cyc, waiting := z.cyc
    num := z.turnNo, budget := cribBudget s x, ctx := x.ctx, world := x.world, sid := sid, slice := slice
    frontier := startFrontier z core (BitVec.ofNat 64 (fld (handlerOf s x.ctx x.cause.toNat) 51 3 * 8)) lanes, exited := ~~~lanes
    sheaf := some { recs := x.recs, done := 0, slice := slice, die := die } }

theorem placeSheaf_eq {s : State} {die core k : Nat} {x : Crib} (h : freeSlot (coreReady s core x) core = some k) :
    ∃ sid slice, placeSheaf s die core x = bumpFree (setWarp (coreReady s core x) core k (sheafWarp s (coreReady s core x) die core x sid slice)) := by
  unfold placeSheaf
  unfold coreReady at h ⊢
  split at h
  · next hlatch =>
    simp only [if_pos hlatch] at h ⊢
    rw [admitWarp, h]
    exact ⟨_, _, rfl⟩
  · next hlatch =>
    simp only [if_neg hlatch] at h ⊢
    rw [admitWarp, h]
    exact ⟨_, _, rfl⟩

theorem exec_sheafPlace {s : State} {die k : Nat} {x : Crib} {rest : List Crib} (hwaiting : (getGleaner s die).waiting = x :: rest)
    (hcore : sheafCore s die x = some k) :
    exec (.sheafPlace die) s = .next (placeSheaf (setGleaner s die { getGleaner s die with waiting := rest }) die k x) := by
  have hnext : sheafNext s die = some (0, k, x) := by simp [sheafNext, hwaiting, List.zipIdx_cons, hcore]
  show execSheafPlace die s = _
  rw [execSheafPlace, hnext]
  simp only [hwaiting, List.eraseIdx_cons_zero]

/-- The handler entry of a cause with one. -/
theorem handlerOf_cause {s : State} {ctx cause : Nat} (hlo : 1 ≤ cause) (hhi : cause ≤ 9) (hne : cause ≠ 5) : handlerOf s ctx cause = ctxHtab s ctx cause := by
  simp [handlerOf, hlo, hhi, hne]

/-! ### The entry that a warp issues next (spec/15 R306) -/

theorem head?_sortEntry (a : FEntry) (l : List FEntry) : (sortEntry a l).head? = some (match l.head? with
    | none => a
    | some x => if entryBefore a x then a else x) := by
  cases l with
  | nil => rfl
  | cons x l =>
    rw [sortEntry]
    dsimp only [List.head?_cons]
    split <;> rfl

/-- An entry with its key as residency now has it. -/
def freshKey (s : State) (c : Nat) (e : FEntry) : FEntry := { e with key := entryKey s c e.pc }

theorem entryBefore_iff (s : State) (c : Nat) (a b : FEntry) : entryBefore (freshKey s c a) (freshKey s c b) = true ↔ Before s c a b := by
  rw [Before, eq_comm (a := entryKey s c b.pc)]
  unfold entryBefore freshKey
  simp only [Bool.or_eq_true, Bool.and_eq_true, decide_eq_true_eq, gt_iff_lt]

theorem before_asymm {s : State} {c : Nat} {a b : FEntry} (h : Before s c a b) : ¬ Before s c b a := by
  rcases h with hkey | ⟨hkey, hpc | ⟨hpc, hword⟩⟩ <;> rintro (hkey' | ⟨hkey', hpc' | ⟨hpc', hword'⟩⟩)
  case inr.inl.inr.inr => rw [hpc'] at hpc; exact lt_irrefl _ hpc
  case inr.inr.inr.inl => rw [hpc] at hpc'; exact lt_irrefl _ hpc'
  all_goals omega

/-- The head of a frontier being sorted is one of its entries, or the head it began with. -/
theorem head?_sorted {s : State} {c : Nat} (P : FEntry → Prop) (l : List FEntry) : ∀ acc : List FEntry, (∀ x, acc.head? = some x → P x) →
    (∀ x ∈ l, P (freshKey s c x)) → ∀ x, (l.foldl (fun l e => sortEntry (freshKey s c e) l) acc).head? = some x → P x := by
  induction l with
  | nil => exact fun acc hacc _ => hacc
  | cons a l ih =>
    intro acc hacc hl
    refine ih _ (fun x hx => ?_) (fun x hx => hl x (.tail _ hx))
    rw [head?_sortEntry] at hx
    obtain rfl := Option.some.inj hx
    cases hhead : acc.head? with
    | none => exact hl a (.head _)
    | some y =>
      dsimp only
      split
      · exact hl a (.head _)
      · exact hacc y hhead

/-- An entry that nothing else goes before stays at the head. -/
theorem head?_sorted_stays {s : State} {c : Nat} {y : FEntry} (l : List FEntry) : ∀ acc : List FEntry, acc.head? = some y →
    (∀ x ∈ l, entryBefore (freshKey s c x) y = false) → (l.foldl (fun l e => sortEntry (freshKey s c e) l) acc).head? = some y := by
  induction l with
  | nil => exact fun acc hacc _ => hacc
  | cons a l ih =>
    intro acc hacc hl
    refine ih _ ?_ (fun x hx => hl x (.tail _ hx))
    rw [head?_sortEntry, hacc]
    dsimp only
    rw [if_neg (ne_true_of_eq_false (hl a (.head _)))]

/-- The first entry heads the warp's frontier. -/
theorem head_of_first {s : State} {c : Nat} {w : Warp} {e : FEntry} {i : Nat} (h : First s c w e i) : ∃ rest, freshFrontier s c w.frontier = freshKey s c e :: rest := by
  obtain ⟨hmem, honce, hfirst, -⟩ := h
  obtain ⟨pre, post, hsplit⟩ := List.append_of_mem hmem
  have hcount : pre.count e + (post.count e + 1) = 1 := by
    rw [hsplit, List.count_append, List.count_cons_self] at honce
    exact honce
  have hpre : e ∉ pre := List.count_eq_zero.mp (by omega)
  have hpost : e ∉ post := List.count_eq_zero.mp (by omega)
  have hbefore : ∀ x ∈ w.frontier, x ≠ e → entryBefore (freshKey s c e) (freshKey s c x) = true := fun x hx hne => (entryBefore_iff ..).mpr (hfirst x hx hne)
  have hhead : (freshFrontier s c w.frontier).head? = some (freshKey s c e) := by
    show (w.frontier.foldl (fun l e => sortEntry (freshKey s c e) l) []).head? = _
    rw [hsplit, List.foldl_append, List.foldl_cons]
    refine head?_sorted_stays _ _ ?_ fun x hx => ?_
    · rw [head?_sortEntry]
      cases hacc : (pre.foldl (fun l e => sortEntry (freshKey s c e) l) []).head? with
      | none => rfl
      | some y =>
        have hy := head?_sorted (fun x => entryBefore (freshKey s c e) x = true) pre [] (fun x hx => absurd hx (by simp))
          (fun x hx => hbefore x (by rw [hsplit]; exact List.mem_append_left _ hx) fun heq => hpre (heq ▸ hx)) y hacc
        dsimp only
        rw [if_pos hy]
    · rw [← Bool.not_eq_true, entryBefore_iff]
      exact before_asymm (hfirst x (by rw [hsplit]; exact List.mem_append_right _ (.tail _ hx)) fun heq => hpost (heq ▸ hx))
  exact List.head?_eq_some_iff.mp hhead

/-! ### A warp at its limit of absence (spec/22 R376) -/

theorem codeSlot_one {s : State} {c i : Nat} {pc : Addr} (h : codeSlots s c pc = [i]) : codeSlot s c pc = some i := by
  simp [codeSlot, h, Nat.mod_one]

/-- The record of a warp that stops between its clauses. -/
theorem takeTrap_between {s : State} {c k : Nat} (hrun : (getWarp s c k).run = none) (hsheaf : (getWarp s c k).sheaf = none) (pc : Addr) (hdr word : W64) (widx : Nat)
    (didx : BitVec 9) (i : TrapInfo) : ∃ q, takeTrap s (.warp c k) pc hdr word widx didx i =
      bufferRec (setWarp s c k { getWarp s c k with run := none, stopped := true, waiting := Nat.max s.cyc (getWarp s c k).waiting }) c q ∧
      q.kind = .warp ∧ q.unit = .warp c k ∧ q.cause = i.cause ∧ q.detail = i.detail ∧ q.pc = pc.setWidth 64 ∧ q.widx = widx ∧ q.addr = i.addr ∧ q.wordv = word := by
  simp only [takeTrap, hrun, hsheaf]
  exact ⟨_, rfl, rfl, rfl, rfl, rfl, rfl, rfl, rfl, rfl⟩

theorem trapBuf_setWarp (s : State) (c k d : Nat) (w : Warp) : (getCore (setWarp s c k w) d).trapBuf = (getCore s d).trapBuf := by
  by_cases h : d = c
  · subst h; rw [setWarp, getCore_setCore]
  · rw [setWarp, getCore_setCore_other _ _ h]

theorem absLimit_slice {s : State} {n : Nat} {x : Slice} (h : findSlice s n = some x) : absLimit s n = x.abslim := by rw [absLimit, h]

section

variable {s : State} {c k i b : Nat} {w : Warp} {e : FEntry} {x : Slice} (hw : getWarp s c k = w) (hfirst : First s c w e i) (hblocked : w.blocked = some b)
  (hslice : findSlice s w.slice = some x)
include hw hfirst hblocked hslice

theorem exec_absentTimeout : exec (.absentTimeout c k) s = .next
    (if blockedNow s c k = false ∨ x.abslim = 0 ∨ s.time < b + 1024 * x.abslim then s
      else takeTrap (setWarp s c k { w with blocked := none }) (.warp c k) e.pc (slotWord s c i e.pc) (slotWord s c i e.pc) 15 0x1FF
        { cause := 0x22, detail := w.absent, addr := 0 }) := by
  obtain ⟨rest, hhead⟩ := head_of_first hfirst
  show execAbsentTimeout c k s = _
  rw [execAbsentTimeout, hw, hblocked, hhead]
  simp only [absLimit_slice hslice, freshKey, codeSlot_one hfirst.code, Bool.or_eq_true, decide_eq_true_eq, Bool.not_eq_true', or_assoc]
  split <;> rfl

/-- A warp at its limit stops between its clauses, with ABSENT. -/
theorem absentTimeout_stops (hrun : w.run = none) (hsheaf : w.sheaf = none) (hlim : x.abslim ≠ 0) (htime : b + 1024 * x.abslim ≤ s.time)
    (hnow : blockedNow s c k = true) : ∃ t q, exec (.absentTimeout c k) s = .next t ∧ (getWarp t c k).stopped = true ∧
      (getWarp t c k).blocked = none ∧ (getWarp t c k).frontier = w.frontier ∧ (getWarp t c k).v = w.v ∧ (getCore t c).trapBuf = (getCore s c).trapBuf ++ [q] ∧
      q.kind = .warp ∧ q.unit = .warp c k ∧ q.cause = 0x22 ∧ q.detail = w.absent ∧ q.pc = e.pc.setWidth 64 ∧ q.widx = 15 ∧ q.addr = 0 ∧
      q.wordv = slotWord s c i e.pc ∧ t.mem = s.mem ∧ t.threads = s.threads := by
  have hgo : ¬ (blockedNow s c k = false ∨ x.abslim = 0 ∨ s.time < b + 1024 * x.abslim) := by
    rw [hnow]
    simp only [Bool.true_eq_false, false_or]
    omega
  have hset : getWarp (setWarp s c k { w with blocked := none }) c k = { w with blocked := none } := getWarp_setWarp ..
  obtain ⟨q, htrap, hrec⟩ := takeTrap_between (s := setWarp s c k { w with blocked := none }) (c := c) (k := k) (by rw [hset]; exact hrun)
    (by rw [hset]; exact hsheaf) e.pc (slotWord s c i e.pc) (slotWord s c i e.pc) 15 0x1FF { cause := 0x22, detail := w.absent, addr := 0 }
  obtain ⟨hkind, hunit, hcause, hdetail, hpc, hwidx, haddr, hword⟩ := hrec
  have hexec := exec_absentTimeout hw hfirst hblocked hslice
  rw [if_neg hgo, htrap, hset] at hexec
  refine ⟨_, q, hexec, ?_⟩
  rw [getWarp_bufferRec, getWarp_setWarp, trapBuf_bufferRec, trapBuf_setWarp, trapBuf_setWarp]
  exact ⟨rfl, rfl, rfl, rfl, rfl, hkind, hunit, hcause, hdetail, hpc, hwidx, haddr, hword, rfl, rfl⟩

end

/-! ### A core's records are filed (spec/22 R363, R367) -/

section

variable {s : State} {c : Nat}

theorem exec_gleanerFile_none (h : ∀ r ∈ (getCore s c).trapBuf, fileRec s r = none) : exec (.gleanerFile c) s = .next s := by
  have hnone : ((getCore s c).trapBuf.zipIdx).filterMap (fun p => (fileRec s p.1).map (fun t => (p.2, t))) = [] := by
    rw [List.filterMap_eq_nil_iff]
    intro p hp
    rw [h p.1 (List.fst_mem_of_mem_zipIdx hp), Option.map_none]
  show execGleanerFile c s = _
  rw [execGleanerFile, hnone]
  rfl

/-- The state once a core has given up its oldest record. -/
def unbuffered (t : State) (c : Nat) : State := setCore t c { getCore t c with trapBuf := (getCore t c).trapBuf.eraseIdx 0 }

theorem exec_gleanerFile_first {r : TrapRec} {rest : List TrapRec} {t : State} (hbuf : (getCore s c).trapBuf = r :: rest) (hfile : fileRec s r = some t)
    (hholds : t.holds = []) : exec (.gleanerFile c) s = .next (unbuffered t c) := by
  show execGleanerFile c s = _
  simp only [execGleanerFile, hbuf, List.zipIdx_cons, List.filterMap_cons, hfile, Option.map_some, List.find?_cons, hholds, decide_true]
  rfl

/-- What the record's leaving keeps, where its filing left the cores alone. -/
theorem unbuffered_keeps {z t : State} (hcores : t.cores = z.cores) : (getCore (unbuffered t c) c).trapBuf = (getCore z c).trapBuf.tail ∧
    (getCore (unbuffered t c) c).warps = (getCore z c).warps ∧ ∀ d, d ≠ c → getCore (unbuffered t c) d = getCore z d := by
  have hcore : ∀ d, getCore t d = getCore z d := fun d => by rw [getCore, hcores, getCore]
  have hself : getCore (unbuffered t c) c = { getCore t c with trapBuf := (getCore t c).trapBuf.eraseIdx 0 } := getCore_setCore ..
  rw [hself, hcore]
  exact ⟨List.eraseIdx_zero .., rfl, fun d hd => (getCore_setCore_other t _ hd).trans (hcore d)⟩

end

section

variable {s : State} {r : TrapRec}

theorem listRec_room (q : Nat) (h : pendingFrom s (recDie r) < 4096 ∧ (recDie r = 0 ∨ s.regs.dlstat.getLsbD 0 = true)) :
    listRec s r q = some (addPending s q { r with filed := s.cyc }) := by
  refine if_pos ?_
  simpa [listRoom, bit] using h

theorem listRec_full (q : Nat) (h : ¬ (pendingFrom s (recDie r) < 4096 ∧ (recDie r = 0 ∨ s.regs.dlstat.getLsbD 0 = true))) : listRec s r q = none := by
  refine if_neg ?_
  simpa [listRoom, bit] using h

/-- A record that waits for its unit's writes. -/
theorem fileRec_waits (h : r.kind = .lane ∨ r.direct = true) (hwait : s.time ≤ r.wait) : fileRec s r = none := by
  have hmay : mayFile s r = false := by
    rcases h with h | h <;> simp [mayFile, h, passed, hwait.not_gt]
  rw [fileRec, hmay]
  rfl

/-- A record for a service thread's list. -/
theorem fileRec_direct (hdirect : r.direct = true) (hpast : r.wait < s.time) : fileRec s r = listRec s r (sliceThread s r.slice) := by
  simp [fileRec, mayFile, isCribbed, hdirect, passed, hpast]

theorem fileRec_unit (hdirect : r.direct = false) (hkind : r.kind ≠ .lane) (hother : ¬ (r.kind = .front ∧ r.cause = 5)) :
    fileRec s r = listRec s r (sliceThread s r.slice) := by
  by_cases hfront : r.kind = .front
  · have hcause : ¬ r.cause = 5#8 := fun h => hother ⟨hfront, h⟩
    simp [fileRec, mayFile, isCribbed, hdirect, hfront, hcause]
  · simp [fileRec, mayFile, isCribbed, hdirect, hkind, hfront]

theorem fileRec_unhandled (hdirect : r.direct = false) (hkind : r.kind = .lane) (hpast : r.wait < s.time) (hcause : r.cause ≠ 5)
    (hnone : handlerOf s r.ctx r.cause.toNat = 0) : fileRec s r = listRec s r (sliceThread s r.slice) := by
  have hcause : ¬ r.cause = 5#8 := hcause
  simp [fileRec, mayFile, isCribbed, hdirect, hkind, passed, hpast, hcause, hnone]

/-- A translation fault's record, by its walk's own record. -/
theorem fileRec_walked (hdirect : r.direct = false) (hcause : r.cause = 5) (hkind : r.kind = .front ∨ (r.kind = .lane ∧ r.wait < s.time)) :
    fileRec s r = if awaitsRing s r then none else fileXlate s r := by
  rcases hkind with h | ⟨h, hpast⟩
  · simp [fileRec, mayFile, isCribbed, hdirect, hcause, h]
  · simp [fileRec, mayFile, isCribbed, hdirect, hcause, h, passed, hpast]

/-- A lane's record for a cause with a handler. -/
theorem fileRec_cribbed (hdirect : r.direct = false) (hkind : r.kind = .lane) (hpast : r.wait < s.time) (hcause : r.cause ≠ 5)
    (hsome : handlerOf s r.ctx r.cause.toNat ≠ 0) : fileRec s r = cribRecord s r := by
  have hcause : ¬ r.cause = 5#8 := hcause
  have hsome : ¬ handlerOf s r.ctx r.cause.toNat = 0#64 := hsome
  simp [fileRec, mayFile, isCribbed, hdirect, hkind, passed, hpast, hcause, hsome]

end

/-! ### A record joins its crib (spec/22 R368, spec/23 R383) -/

/-- A crib's key is the record's. -/
def KeyOf (r : TrapRec) (x : Crib) : Prop := x.cause = r.cause ∧ x.world = r.world ∧ x.ctx = r.ctx

theorem sameCrib_iff (x : Crib) (r : TrapRec) : sameCrib x r = true ↔ KeyOf r x := by
  simp only [sameCrib, KeyOf, Bool.and_eq_true, decide_eq_true_eq, and_assoc]

/-- A record of the key, later in the order of this cycle, has formed in a sheaf already. -/
def Later (s : State) (r : TrapRec) : Prop := ∃ x ∈ formedCribs s (recDie r), KeyOf r x ∧ ∃ p ∈ x.recs, p.filed = s.cyc ∧ List.Lex (· < ·) (fileRank r) (fileRank p)

/-- A record of the key, earlier in the order of this cycle, can be filed at a core of the die. -/
def Earlier (s : State) (r : TrapRec) : Prop := ∃ e ∈ s.cores, dieOf e.1 = recDie r ∧ ∃ p ∈ e.2.trapBuf, recDie p = recDie r ∧ p.direct = false ∧ p.kind = .lane ∧
  p.wait < s.time ∧ p.cause = r.cause ∧ p.world = r.world ∧ p.ctx = r.ctx ∧ List.Lex (· < ·) (fileRank p) (fileRank r)

/-- A Gleaner whose crib `i` takes a record. -/
def joinedAt (g : Gleaner) (i : Nat) (r : TrapRec) : Gleaner :=
  { g with cribs := g.cribs.zipIdx.map (fun p => if p.2 = i then { p.1 with recs := insertRec r p.1.recs } else p.1) }

/-- At 32 records the crib forms. -/
def grownAt (g : Gleaner) (i : Nat) (r : TrapRec) : Gleaner :=
  let full : Bool := match (joinedAt g i r).cribs[i]? with
    | some c => 32 ≤ c.recs.length
    | none => false
  if full then formSheaf (joinedAt g i r) i else joinedAt g i r

/-- A crib that a record begins. -/
def newCrib (r : TrapRec) : Crib := { cause := r.cause, world := r.world, ctx := r.ctx, recs := [r] }

section

variable {s : State} {r : TrapRec}

theorem filedAfter_iff : filedAfter s { r with filed := s.cyc } = true ↔ Later s r := by
  simp only [filedAfter, Later, List.any_eq_true, Bool.and_eq_true, decide_eq_true_eq, lexLess_iff, sameCrib_iff]
  rfl

/-- A lane's record for a cause with a handler, once its warp's writes are over. -/
theorem due_iff (hcause : r.cause ≠ 5) (hsome : handlerOf s r.ctx r.cause.toNat ≠ 0) :
    (isCribbed s r = true ∧ mayFile s r = true) ↔ r.direct = false ∧ r.kind = .lane ∧ r.wait < s.time := by
  have hcause : ¬ r.cause = 5#8 := hcause
  have hsome : ¬ handlerOf s r.ctx r.cause.toNat = 0#64 := hsome
  cases hdirect : r.direct
  · by_cases hkind : r.kind = .lane
    · simp [isCribbed, mayFile, hdirect, hkind, hcause, hsome, passed]
    · simp [isCribbed, hkind]
  · simp [isCribbed, hdirect]

theorem dueBefore_iff (hcause : r.cause ≠ 5) (hsome : handlerOf s r.ctx r.cause.toNat ≠ 0) : dueBefore s { r with filed := s.cyc } = true ↔ Earlier s r := by
  simp only [dueBefore, Earlier, List.any_eq_true, Bool.and_eq_true, decide_eq_true_eq, lexLess_iff]
  refine exists_congr fun e => and_congr_right fun _ => and_congr Iff.rfl (exists_congr fun p => and_congr_right fun _ => ?_)
  constructor
  · rintro ⟨⟨⟨⟨⟨⟨hdie, hcrib⟩, hmay⟩, hc⟩, hw⟩, hx⟩, hlex⟩
    obtain ⟨hdirect, hkind, hpast⟩ := (due_iff (by rw [hc]; exact hcause) (by rw [hx, hc]; exact hsome)).mp ⟨hcrib, hmay⟩
    exact ⟨hdie, hdirect, hkind, hpast, hc, hw, hx, hlex⟩
  · rintro ⟨hdie, hdirect, hkind, hpast, hc, hw, hx, hlex⟩
    obtain ⟨hcrib, hmay⟩ := (due_iff (by rw [hc]; exact hcause) (by rw [hx, hc]; exact hsome)).mpr ⟨hdirect, hkind, hpast⟩
    exact ⟨⟨⟨⟨⟨⟨hdie, hcrib⟩, hmay⟩, hc⟩, hw⟩, hx⟩, hlex⟩

theorem room_iff (hdirect : r.direct = false) (hkind : r.kind = .lane) (hcause : r.cause ≠ 5) (hsome : handlerOf s r.ctx r.cause.toNat ≠ 0) :
    roomFor s { r with filed := s.cyc } = true ↔ cribRecords (getGleaner s (recDie r)) < 2048 ∧
      ((∃ x ∈ (getGleaner s (recDie r)).cribs, KeyOf r x) ∨ (getGleaner s (recDie r)).cribs.length < 64) := by
  have hcause : ¬ r.cause = 5#8 := hcause
  have hsome : ¬ handlerOf s r.ctx r.cause.toNat = 0#64 := hsome
  have hcrib : isCribbed s { r with filed := s.cyc } = true := by simp [isCribbed, hdirect, hkind, hcause, hsome]
  rw [roomFor, if_pos hcrib]
  simp only [Bool.and_eq_true, Bool.or_eq_true, decide_eq_true_eq, List.any_eq_true, sameCrib_iff]
  rfl

/-- A record that finds no room, or that another must go before or has gone after, waits. -/
theorem cribRecord_refused (hdirect : r.direct = false) (hkind : r.kind = .lane) (hcause : r.cause ≠ 5) (hsome : handlerOf s r.ctx r.cause.toNat ≠ 0)
    (h : 2048 ≤ cribRecords (getGleaner s (recDie r)) ∨ Later s r ∨ Earlier s r ∨
      (64 ≤ (getGleaner s (recDie r)).cribs.length ∧ ∀ x ∈ (getGleaner s (recDie r)).cribs, ¬ KeyOf r x)) : cribRecord s r = none := by
  refine if_pos ?_
  rw [Bool.or_eq_true, Bool.or_eq_true, Bool.not_eq_true', ← Bool.not_eq_true]
  show (¬ roomFor s { r with filed := s.cyc } = true ∨ dueBefore s { r with filed := s.cyc } = true) ∨ filedAfter s { r with filed := s.cyc } = true
  rw [room_iff hdirect hkind hcause hsome, dueBefore_iff hcause hsome, filedAfter_iff]
  rcases h with hfull | hlater | hearlier | ⟨hmany, hnone⟩
  · exact .inl (.inl fun h => absurd h.1 hfull.not_gt)
  · exact .inr hlater
  · exact .inl (.inr hearlier)
  · refine .inl (.inl fun h => ?_)
    rcases h.2 with ⟨x, hx, hkey⟩ | hfew
    · exact hnone x hx hkey
    · omega

/-- Where it goes otherwise. -/
theorem cribRecord_accepted (hdirect : r.direct = false) (hkind : r.kind = .lane) (hcause : r.cause ≠ 5) (hsome : handlerOf s r.ctx r.cause.toNat ≠ 0)
    (hfew : cribRecords (getGleaner s (recDie r)) < 2048) (hlater : ¬ Later s r) (hearlier : ¬ Earlier s r)
    (hroom : (∃ x ∈ (getGleaner s (recDie r)).cribs, KeyOf r x) ∨ (getGleaner s (recDie r)).cribs.length < 64) :
    cribRecord s r = match (getGleaner s (recDie r)).cribs.findIdx? (fun c => sameCrib c { r with filed := s.cyc }) with
      | some i => some (setGleaner s (recDie r) (grownAt (getGleaner s (recDie r)) i { r with filed := s.cyc }))
      | none => some (setGleaner s (recDie r)
          { getGleaner s (recDie r) with cribs := (getGleaner s (recDie r)).cribs ++ [newCrib { r with filed := s.cyc }] }) := by
  refine if_neg ?_
  rw [Bool.or_eq_true, Bool.or_eq_true, Bool.not_eq_true', ← Bool.not_eq_true]
  show ¬ ((¬ roomFor s { r with filed := s.cyc } = true ∨ dueBefore s { r with filed := s.cyc } = true) ∨ filedAfter s { r with filed := s.cyc } = true)
  rw [room_iff hdirect hkind hcause hsome, dueBefore_iff hcause hsome, filedAfter_iff]
  rintro ((h | h) | h)
  · exact h ⟨hfew, hroom⟩
  · exact hearlier h
  · exact hlater h

end

theorem map_zipIdx_off {α : Type} (f : α → α) (l : List α) {n i : Nat} (h : i < n ∨ n + l.length ≤ i) :
    (l.zipIdx n).map (fun p => if p.2 = i then f p.1 else p.1) = l := by
  have hplain : (l.zipIdx n).map (fun p => if p.2 = i then f p.1 else p.1) = (l.zipIdx n).map Prod.fst := by
    refine List.map_congr_left fun p hp => if_neg ?_
    have hlo := List.le_snd_of_mem_zipIdx hp
    have hhi := List.snd_lt_add_of_mem_zipIdx hp
    omega
  rw [hplain, List.zipIdx_map_fst]

theorem map_zipIdx_at {α : Type} (f : α → α) (pre post : List α) (x : α) :
    (pre ++ x :: post).zipIdx.map (fun p => if p.2 = pre.length then f p.1 else p.1) = pre ++ f x :: post := by
  rw [List.zipIdx_append, List.map_append, map_zipIdx_off f pre (.inr (by omega)), List.zipIdx_cons, List.map_cons, map_zipIdx_off f post (.inl (by omega)),
    if_pos (Nat.zero_add _)]

theorem length_insertRec (r : TrapRec) (l : List TrapRec) : (insertRec r l).length = l.length + 1 := by
  obtain ⟨pre, post, hl, hins, -⟩ := insertRec_split r l
  rw [hins, hl, List.length_append, List.length_cons, List.length_append, Nat.add_assoc]

/-- A crib takes a record; with its 32nd it forms. -/
theorem grownAt_split {g : Gleaner} {pre post : List Crib} {x : Crib} (r : TrapRec) (h : g.cribs = pre ++ x :: post) : grownAt g pre.length r =
    if x.recs.length < 31 then { g with cribs := pre ++ { x with recs := insertRec r x.recs } :: post }
    else { g with cribs := pre ++ post, waiting := g.waiting ++ [{ x with recs := insertRec r x.recs }] } := by
  have hjoined : joinedAt g pre.length r = { g with cribs := pre ++ { x with recs := insertRec r x.recs } :: post } := by
    rw [joinedAt, h, map_zipIdx_at (fun y : Crib => { y with recs := insertRec r y.recs })]
  have hat : (pre ++ { x with recs := insertRec r x.recs } :: post)[pre.length]? = some { x with recs := insertRec r x.recs } := by simp
  rw [grownAt, hjoined]
  dsimp only
  rw [hat]
  dsimp only
  by_cases hfew : x.recs.length < 31
  · have hopen : decide (32 ≤ (insertRec r x.recs).length) = false := decide_eq_false (by rw [length_insertRec]; omega)
    rw [if_pos hfew, if_neg (ne_true_of_eq_false hopen)]
  · have hfull : decide (32 ≤ (insertRec r x.recs).length) = true := decide_eq_true (by rw [length_insertRec]; omega)
    rw [if_neg hfew, if_pos hfull, formSheaf_at hat]
    dsimp only
    rw [List.eraseIdx_append_of_length_le le_rfl, Nat.sub_self, List.eraseIdx_cons_zero]

/-! ### What filing does (spec/22 R367) -/

/-- From `z` to `t` the core's oldest record has left it, and the rest of the cores stand. -/
def Kept (z t : State) (c : Nat) : Prop := (getCore t c).trapBuf = (getCore z c).trapBuf.tail ∧ t.mem = z.mem ∧ t.regs = z.regs ∧ t.launch = z.launch ∧
  t.ops = z.ops ∧ (getCore t c).warps = (getCore z c).warps ∧ ∀ d, d ≠ c → getCore t d = getCore z d

/-- The record has joined thread `p`'s list, and the thread is woken. -/
def Joins (z t : State) (c p : Nat) (r : TrapRec) : Prop := Kept z t c ∧ t.gleaners = z.gleaners ∧
  (getThread t p).pending = (getThread z p).pending ++ [{ r with filed := z.cyc }] ∧ (getThread t p).wakest = (getThread z p).wakest ||| 8 ∧
  ∀ j, j ≠ p → getThread t j = getThread z j

section

variable {s z : State} {c : Nat} {r : TrapRec} {rest : List TrapRec} (hbuf : (getCore s c).trapBuf = r :: rest)
include hbuf

theorem files_list {p : Nat} (hfile : fileRec s r = some (addPending z p { r with filed := z.cyc })) (hholds : z.holds = []) :
    ∃ t, exec (.gleanerFile c) s = .next t ∧ Joins z t c p r := by
  refine ⟨_, exec_gleanerFile_first hbuf hfile hholds, ?_⟩
  obtain ⟨htail, hwarps, hothers⟩ := unbuffered_keeps (c := c) (z := z) (t := addPending z p { r with filed := z.cyc }) rfl
  have hthread := getThread_addPending z p (x := { r with filed := z.cyc })
  refine ⟨⟨htail, rfl, rfl, rfl, rfl, hwarps, hothers⟩, rfl, ?_, ?_, fun j hj => (hthread j).trans (if_neg hj)⟩
  · exact congrArg Thread.pending ((hthread p).trans (if_pos rfl))
  · exact congrArg Thread.wakest ((hthread p).trans (if_pos rfl))

theorem files_crib {g : Gleaner} {die : Nat} (hfile : fileRec s r = some (setGleaner s die g)) (hholds : s.holds = []) :
    ∃ t, exec (.gleanerFile c) s = .next t ∧ Kept s t c ∧ t.threads = s.threads ∧ getGleaner t die = g := by
  refine ⟨_, exec_gleanerFile_first hbuf hfile hholds, ?_⟩
  obtain ⟨htail, hwarps, hothers⟩ := unbuffered_keeps (c := c) (z := s) (t := setGleaner s die g) rfl
  exact ⟨⟨htail, rfl, rfl, rfl, rfl, hwarps, hothers⟩, rfl, getGleaner_setGleaner s die g⟩

/-- The one record of a core that cannot be filed stays. -/
theorem files_none (hrest : rest = []) (hfile : fileRec s r = none) : exec (.gleanerFile c) s = .next s := by
  refine exec_gleanerFile_none fun q hq => ?_
  rw [hbuf, hrest] at hq
  rw [List.mem_singleton.mp hq, hfile]

end

/-- The state in which a ring has been asked for its thread. -/
theorem deviceFrame_ringThread (s : State) (r : TrapRec) : DeviceFrame s (ringThread s r).1 := by
  unfold ringThread
  dsimp only
  split
  · exact .refl s
  · have hread := fun x va n => deviceFrame_devRead x 2 (n / 128 + 2) s va n
    split <;> exact hread _ _ 4

theorem fileXlate_room {s z : State} {r : TrapRec} {p : Option Nat} (hring : ringThread s r = (z, p))
    (hroom : pendingFrom z (recDie r) < 4096 ∧ (recDie r = 0 ∨ z.regs.dlstat.getLsbD 0 = true)) :
    fileXlate s r = some (addPending z (p.getD (sliceThread z r.slice)) { r with filed := z.cyc }) := by
  have hframe : DeviceFrame s z := by
    have h := deviceFrame_ringThread s r
    rwa [hring] at h
  have hlaunch : z.launch = s.launch := by
    have h := congrArg State.launch hframe.rest
    exact h
  have hthread : sliceThread s r.slice = sliceThread z r.slice := by rw [sliceThread, findSlice, ← hlaunch]; rfl
  simp only [fileXlate, hring, hthread]
  exact listRec_room _ hroom

/-! ### The Gleaner's events -/

/-- The handler of a cause, which no translation fault has. -/
theorem handler_eq {s : State} {r : TrapRec} (hcause : r.cause ≠ 5) :
    (if 1 ≤ r.cause.toNat ∧ r.cause.toNat ≤ 9 then ctxHtab s r.ctx r.cause.toNat else 0) = handlerOf s r.ctx r.cause.toNat := by
  have hne : r.cause.toNat ≠ 5 := fun h => hcause (BitVec.eq_of_toNat_eq h)
  simp [handlerOf, hne]

theorem count_eq (g : Gleaner) : ((g.cribs ++ g.waiting).map (fun x => x.recs.length)).foldr (· + ·) 0 = cribRecords g := by
  rw [cribRecords, sumL_eq_sum]
  rfl

/-- The die that a record's Gleaner stands on. -/
theorem recDie_eq (r : TrapRec) : (match r.unit with
    | .warp d _ => d / 160
    | .front d _ => d / 160
    | .thread _ => 0) = recDie r := by
  rw [recDie]
  cases r.unit <;> rfl

theorem sheafPlace_places {s : State} {die k : Nat} {x : Crib} {rest : List Crib} (hwaiting : (getGleaner s die).waiting = x :: rest)
    (hcore : sheafCore s die x = some k) (hlo : 1 ≤ x.cause.toNat) (hhi : x.cause.toNat ≤ 9) (hne : x.cause ≠ 5) :
    ∃ t j w, exec (.sheafPlace die) s = .next t ∧ (getGleaner t die).waiting = rest ∧ (getGleaner t die).cribs = (getGleaner s die).cribs ∧
      j < 48 ∧ getWarp t k j = w ∧ w.live = true ∧ (getCore t k).latch = x.world ∧ w.ctx = x.ctx ∧ w.world = x.world ∧ w.run = none ∧ w.v = [] ∧ w.flags = [] ∧
      (let h := ctxHtab s x.ctx x.cause.toNat
       w.budget = 8 * fld h 63 56 ∧ (∃ e, w.frontier = [e] ∧ e.pc = BitVec.ofNat 52 (8 * fld h 51 3) ∧ e.word = 0 ∧
         ∀ l < 32, e.mask.getLsbD l = decide (l < x.recs.length))) ∧
      (∀ l < 32, w.exited.getLsbD l = decide (x.recs.length ≤ l)) ∧ (∃ h, w.sheaf = some h ∧ h.recs = x.recs ∧ h.done = 0) ∧
      (getCore t k).sheafAt = some s.cyc ∧ t.mem = s.mem ∧
      t.regs = s.regs ∧ t.launch = s.launch := by
  have hexec := exec_sheafPlace hwaiting hcore
  have hcause : x.cause.toNat ≠ 5 := fun h => hne (BitVec.eq_of_toNat_eq h)
  set z := setGleaner s die { getGleaner s die with waiting := rest } with hz
  obtain ⟨j, hslot⟩ := freeSlot_coreReady (s := z) (die := die) (core := k) (x := x) hcore
  obtain ⟨sid, slice, hplace⟩ := placeSheaf_eq (die := die) hslot
  obtain ⟨hgleaners, hmem, hregs, hlaunch, hcyc, -⟩ := coreReady_frame z k x
  obtain ⟨hlatch, hsheafAt⟩ := getCore_coreReady z k x
  have hhandler : handlerOf z x.ctx x.cause.toNat = ctxHtab s x.ctx x.cause.toNat := handlerOf_cause (s := z) hlo hhi hcause
  rw [hplace] at hexec
  generalize coreReady z k x = y at *
  have hcoret : getCore (bumpFree (setWarp y k j (sheafWarp z y die k x sid slice))) k =
      { getCore y k with warps := put (getCore y k).warps j (sheafWarp z y die k x sid slice) } := getCore_setCore ..
  have hgleaner : getGleaner (bumpFree (setWarp y k j (sheafWarp z y die k x sid slice))) die = { getGleaner s die with waiting := rest } := by
    show look Gleaner.reset y.gleaners die = _
    rw [hgleaners]
    exact getGleaner_setGleaner ..
  refine ⟨_, j, sheafWarp z y die k x sid slice, hexec, by rw [hgleaner], by rw [hgleaner], freeSlot_lt hslot, getWarp_setWarp .., rfl, by rw [hcoret]; exact hlatch,
    rfl, rfl, rfl, rfl, rfl, ⟨?_, _, rfl, ?_, rfl, fun l hl => getLsbD_maskOf _ hl⟩, fun l hl => ?_, ⟨_, rfl, rfl, rfl⟩, by rw [hcoret]; exact hsheafAt, hmem, hregs, hlaunch⟩
  · show 8 * fld (handlerOf z x.ctx x.cause.toNat) 63 56 = _
    rw [hhandler]
  · show (BitVec.ofNat 64 (fld (handlerOf z x.ctx x.cause.toNat) 51 3 * 8)).setWidth 52 = _
    rw [hhandler, BitVec.setWidth_ofNat_of_le (by decide), Nat.mul_comm]
  · show (~~~maskOf fun l => l < x.recs.length).getLsbD l = _
    rw [BitVec.getLsbD_not, getLsbD_maskOf _ hl, decide_eq_true hl, Bool.true_and, ← decide_not]
    exact decide_eq_decide.mpr not_lt

/-- Settles O54: a record by how it may be filed; a crib by its window; a sheaf by its core; a warp by its limit; a thread by its wake bits and its deadline. -/
theorem trapEvents : Obligations.TrapEvents := by
  unfold Obligations.TrapEvents
  refine ⟨fun s c hbuf => ?_, fun s c r rest hbuf hholds => ?_, insertRec_split, fun s die i x r rest hcrib hrecs => ?_,
    fun s die x rest k hwaiting hcore hfew hlo hhi hne => ?_, fun s die hnone => ?_, fun s c k w e i b x hw hfirst hlive hrun hstopped hsheaf hblocked hslice => ?_,
    fun s q d hsleep => ?_⟩
  · exact exec_gleanerFile_none fun r hr => by rw [hbuf] at hr; exact absurd hr List.not_mem_nil
  · intro die
    have hdie : die = recDie r := recDie_eq r
    clear_value die
    subst hdie
    intro h q mine g count key later earlier listed walked room kept joins
    have hh : r.cause ≠ 5 → h = handlerOf s r.ctx r.cause.toNat := handler_eq
    have hq : q = sliceThread s r.slice := rfl
    have hlist : listed → fileRec s r = listRec s r q := by
      rintro (⟨hdirect, hpast⟩ | ⟨hdirect, ⟨hkind, hother⟩ | ⟨hkind, hpast, hcause, hnone⟩⟩)
      · exact fileRec_direct hdirect hpast
      · exact fileRec_unit hdirect hkind hother
      · exact fileRec_unhandled hdirect hkind hpast hcause ((hh hcause).symm.trans hnone)
    refine ⟨fun hlane hrest hwait => files_none hbuf hrest (fileRec_waits hlane hwait), fun hl hz => ?_, fun hl hrest hz => ?_, fun hwalk hrest hring => ?_,
      fun z p hwalk hring hask hz hspace => ?_, fun hdirect hkind hpast hcause hsome hcount hlater hearlier => ?_,
      fun hdirect hkind hpast hcause hsome hrest hwait => ?_⟩
    · exact files_list hbuf ((hlist hl).trans (listRec_room q hz)) hholds
    · exact files_none hbuf hrest ((hlist hl).trans (listRec_full q hz))
    · obtain ⟨hdirect, hcause, hkind⟩ := hwalk
      exact files_none hbuf hrest ((fileRec_walked hdirect hcause hkind).trans (if_pos hring))
    · obtain ⟨hdirect, hcause, hkind⟩ := hwalk
      have hfile := (fileRec_walked hdirect hcause hkind).trans ((if_neg (ne_true_of_eq_false hring)).trans (fileXlate_room hask hspace))
      cases p <;> exact files_list hbuf hfile hz
    · have hsome : handlerOf s r.ctx r.cause.toNat ≠ 0 := hh hcause ▸ hsome
      have hfile := fun hroom => (fileRec_cribbed hdirect hkind hpast hcause hsome).trans
        (cribRecord_accepted hdirect hkind hcause hsome (count_eq g ▸ hcount) hlater hearlier hroom)
      refine ⟨fun hnone hmany => ?_, fun pre x post hcribs hpre hkey => ?_⟩
      · have hfind : g.cribs.findIdx? (fun c => sameCrib c { r with filed := s.cyc }) = none :=
          List.findIdx?_eq_none_iff.mpr fun x hx => Bool.eq_false_iff.mpr fun h => hnone x hx ((sameCrib_iff _ _).mp h)
        have hfile := hfile (.inr hmany)
        rw [hfind] at hfile
        exact files_crib hbuf hfile hholds
      · have hfind : g.cribs.findIdx? (fun c => sameCrib c { r with filed := s.cyc }) = some pre.length := by
          have hmiss : pre.findIdx? (fun c => sameCrib c { r with filed := s.cyc }) = none :=
            List.findIdx?_eq_none_iff.mpr fun x hx => Bool.eq_false_iff.mpr fun h => hpre x hx ((sameCrib_iff _ _).mp h)
          have hhit : sameCrib x { r with filed := s.cyc } = true := (sameCrib_iff _ _).mpr hkey
          rw [hcribs, List.findIdx?_append, hmiss, List.findIdx?_cons, hhit]
          simp
        have hfile := hfile (.inl ⟨x, by rw [hcribs]; simp, hkey⟩)
        rw [hfind] at hfile
        dsimp only at hfile
        rw [grownAt_split _ hcribs] at hfile
        exact files_crib hbuf hfile hholds
    · have hsome : handlerOf s r.ctx r.cause.toNat ≠ 0 := hh hcause ▸ hsome
      refine files_none hbuf hrest ((fileRec_cribbed hdirect hkind hpast hcause hsome).trans (cribRecord_refused hdirect hkind hcause hsome ?_))
      rw [← count_eq]
      exact hwait
  · intro given window blocked
    have hexec := exec_cribWindowExpiry hcrib hrecs
    have hblocked : cribBlocks s x = true ↔ blocked := cribBlocks_iff s x
    refine ⟨fun hdue => ?_, fun hopen hquiet => ?_⟩
    · have hover : r.filed + gatherWindow s x.ctx ≤ s.cyc ∨ (r.filed + gatherWindow s x.ctx / 8 ≤ s.cyc ∧ cribBlocks s x = true) :=
        hdue.imp_right (And.imp_right hblocked.mpr)
      rw [if_pos hover] at hexec
      exact ⟨_, hexec, getGleaner_setGleaner .., rfl, rfl, rfl, fun d hd => getGleaner_setGleaner_other s _ hd⟩
    · rw [hexec, if_neg]
      rintro (hover | ⟨hover, hb⟩)
      · exact absurd hover hopen.not_ge
      · exact hquiet.elim (fun h => h (hblocked.mp hb)) fun h => absurd hover h.not_ge
  · exact sheafPlace_places hwaiting hcore hlo hhi hne
  · show execSheafPlace die s = _
    have hnext : sheafNext s die = none := by rw [sheafNext, hnone]; rfl
    rw [execSheafPlace, hnext]
  · refine ⟨fun hstay => ?_, fun hlim htime hnow => absentTimeout_stops hw hfirst hblocked hslice hrun hsheaf hlim htime hnow⟩
    rw [exec_absentTimeout hw hfirst hblocked hslice, if_pos]
    rcases hstay with h | h | h
    · exact .inr (.inl h)
    · exact .inr (.inr h)
    · exact .inl h
  · intro x
    have hexec := exec_sleepWake hsleep
    refine ⟨fun hwake hwait => ?_, fun r w hdue hrun hword hdst hrising => ?_⟩
    · rw [hexec, if_neg]
      rintro (h | ⟨hpos, hover⟩)
      · exact h hwake
      · exact hwait.elim hpos hover.not_gt
    · have hsleepDst : sleepDst (getThread s q) = fld w 51 43 := by
        rw [sleepDst, hrun]
        dsimp only
        rw [hword]
      rw [if_pos hdue, hsleepDst, wakeUp_eq s q hdst] at hexec
      have hregs := fun j => look_putC (0 : W64) (fld w 51 43) j (if x.wakest = 0 then 64 else BitVec.ofNat 64 x.wakest.toNat) hrising
      refine ⟨_, hexec, ?_⟩
      rw [getThread_setThread]
      exact ⟨rfl, rfl, hrun, rfl, (hregs _).trans (if_pos rfl), fun j hj => (hregs j).trans (if_neg hj), fun p hp => getThread_setThread_other s _ hp, rfl, rfl⟩

end Sys2Proof.Proofs
end

section
/-!
PROOFS. A swap-out while THRESH is 0 (spec/14 R295). Refutes LaunchEvents.
-/
namespace Sys2Proof.Proofs

open Sys2Proof.Machine Sys2Proof.Claims

/-! ### A swap-out while THRESH is 0 (spec/14 R295) -/

/-- With THRESH 0 no running team is swapped out, but the warps of its cores that are bound no longer cease to note since when they were. -/
theorem exec_swapOut_disabled {s : State} {h : Nat} {m : Team} (hteam : findTeam s h = some m) (hsaved : m.saved = false) (hrun : m.st = .running)
    (hthresh : fld s.regs.swapcfg 31 0 = 0) : exec (.swapOut h) s = .next ((teamCoreList m).foldl endBreaks s) := by
  have hbegin : swapBegin s m = (teamCoreList m).foldl endBreaks s := by
    rw [swapBegin, hthresh]
    rfl
  show execSwapOut h s = _
  simp only [execSwapOut, hteam, hsaved, hrun, hbegin, Bool.false_eq_true, if_false, if_true]

/-- A running team of one core, whose warp noted at time 0 that it was bound and goes on since; THRESH has been set to 0 meanwhile. -/
def loosedTeam : Team :=
  { handle := 1, slice := 0, tid := 0, start := 0,
    shape := { addr := 0, roles := [{ entry := 0x1000, warps := 1, budget := 320 }], fentry := 0x1000, cores := 1, tiles := 0, stash := 0 }
    stashBase := 0, stashLen := 0, tileBase := 0, tileLen := 0, queues := [], barriers := [], sum := ExitSum.reset, ended := 0, param := 0, taskj := 0,
    isTask := false, stage := none, handoff := false, st := .running, closed := false, killed := false, why := none, saved := false, pool := none, imgLen := 0,
    imgTime := 0, readyAgain := false, issued := true, ctx := 0, world := 0, sid := 0, wctmax := 0, rejoins := [], frontRes := [], pops := [], marks := [],
    parts := [], divs := [] }
def loosedWarp : Warp := { Warp.reset with live := true, handle := 1, boundSince := some 0 }
def loosedState : State :=
  { State.reset with
    cores := [(0, { Core.reset with warps := [(0, loosedWarp)] })], launch := { Launch.reset with teams := [loosedTeam] }, regs := { State.reset.regs with swapcfg := 0 } }

theorem boundSince_loosedState : (getWarp loosedState 0 0).boundSince = some 0 := rfl

theorem boundSince_swapOut_loosedState {t : State} (h : exec (.swapOut 1) loosedState = .next t) : (getWarp t 0 0).boundSince = none := by
  have hexec := exec_swapOut_disabled (s := loosedState) (h := 1) (m := loosedTeam) (by decide) rfl rfl (by decide)
  have ht : t = (teamCoreList loosedTeam).foldl endBreaks loosedState := Host.Outcome.next.inj (h.symm.trans hexec)
  rw [ht]
  decide

/-- Refutes O53: where THRESH is 0 the statement has SWAP_OUT of a running team change nothing, but it takes from a warp that is bound no longer the time since which it was
bound, noted while THRESH stood above 0. -/
theorem not_launchEvents : ¬ Obligations.LaunchEvents := by
  unfold Obligations.LaunchEvents
  rintro ⟨-, -, -, -, -, -, -, -, -, -, -, -, -, -, hswap, -⟩
  obtain ⟨hdisabled, -⟩ := hswap loosedState 1 loosedTeam (by decide) rfl
  have hcleared := boundSince_swapOut_loosedState (hdisabled rfl (by decide))
  rw [boundSince_loosedState] at hcleared
  exact absurd hcleared (by decide)

end Sys2Proof.Proofs
end
